-- ==== Sys2Proof/Word.lean ====
section
/-! DEFINITION. The word types of the IK7440 and their plainest arithmetic (00_scope.md R4 to R6). -/

namespace Sys2Proof

/-- One byte (R4). -/
abbrev Byte := BitVec 8

/-- One 32-bit register, memory word or address (R4, R30). -/
abbrev Word := BitVec 32

end Sys2Proof
end

