-- ==== Sys2Proof/Syntax.lean ====
section
/-! DEFINITION. The commands of the block: one constructor per row of spec/opcode_table.json, in the table's order,
and the small types their operands use. -/

namespace Sys2Proof

/-- A head port, HHE port or SBA port (00 R1). -/
abbrev Port := Fin 4
/-- A job queue and the SEQ thread context that serves it (03 R53). -/
abbrev QNum := Fin 16
/-- A motion axis (10). -/
abbrev AxNum := Fin 8
/-- A quadrature encoder input (10). -/
abbrev QeNum := Fin 6
/-- A register page by its index of R51. -/
abbrev PageIx := Fin 44
/-- A UART (17). -/
abbrev UaNum := Fin 4
/-- A verification pipeline, one of its contexts, or an I²C controller (13). -/
abbrev VpNum := Fin 2
/-- A MED sensor unit or a logical converter slice (11, 12). -/
abbrev UnitNum := Fin 8
/-- A session slot (16 R405). -/
abbrev SlotNum := Fin 8

/-- The requesters of the crossbar (01 R13); SEQ by thread context, whose snapshot slots differ (02 R46). -/
inductive Requester
  | seq (t : QNum)
  | rnd
  | hhe
  | ehm
  | vp (n : VpNum)
  | qmg
  | csl
  | spt
  | transom
  deriving DecidableEq, Repr

/-- The read classes of the flash controller (14 R347). -/
inductive FlashClass
  | seq
  | rnd
  | host
  deriving DecidableEq, Repr

/-- What the header ECC of a CSI-2 packet found (13 R318). -/
inductive HeaderEcc
  | good
  | corrected
  | uncorrectable
  deriving DecidableEq, Repr

/-- The bus outcome of an I²C transaction (13 R331), as the bus shows it. -/
inductive I2cOutcome
  | ok
  | nackAddr
  | nackData
  /-- SDA held low at START; the flag says whether SDA stays low after nine pulses. -/
  | busErr (stuck : Bool)
  deriving DecidableEq, Repr

/-- One slice's calibration of one gain: the four settled raw codes of each of its two conversions (11 R288). -/
structure CalWords where
  gain : Fin 8
  /-- on channel ZERO. -/
  zero : Vector (BitVec 24) 4
  /-- on the internal source of 0.640 V / G. -/
  half : Vector (BitVec 24) 4
  deriving DecidableEq, Repr

/-- What the array does when a flash or OTP operation ends (14 R358 to R361, R371): cells are the world's, not the manual's. -/
structure FlashOutcome where
  /-- pulses the array needed before every word verified. -/
  pulsesNeeded : Nat
  /-- words (index in the target) that do not verify after the last allowed pulse. -/
  failing : List Nat
  /-- words found to need correction, MARGIN (R361). -/
  corrected : Nat
  /-- words found uncorrectable, MARGIN (R361). -/
  uncorrectable : Nat
  deriving DecidableEq, Repr

/-- Where a session operation comes from (16 R413): the ADDR byte and payload of a SEC_REQ frame, or a mailbox. -/
inductive SecSource
  | link (adr : Byte) (payload : List Byte)
  | mailbox (m : Fin 2)
  deriving DecidableEq, Repr

/-- What cast-on meets outside the registers (19 R472, R473). -/
structure CastOnWorld where
  /-- address straps CSL_ADR5 to CSL_ADR0. -/
  straps : BitVec 6
  /-- the two reads of the OTP row differ, and differ again. -/
  otpDiffers : Bool
  /-- failed attempts of step 4; the third ends cast-on. -/
  pllTries : Nat
  /-- bank 0 or bank 1 not ready within 1 ms. -/
  bank0Failed : Bool
  bank1Failed : Bool
  /-- pulses each bank erase of R485 needs; above 8 is ERS_FAIL. -/
  erasePulses0 : Nat
  erasePulses1 : Nat
  /-- timestamp at step 8. -/
  ticks : BitVec 64
  /-- the crystal gives no clean cycles: step 3a never ends (19 R473, 20 R515). -/
  noCrystal : Bool := false
  /-- other causes of a chip reset that arrive in the same AON clock, as bits of SYS_RST_CAUSE (02 R52). -/
  also : BitVec 5 := 0
  /-- levels of the supplies, in mV, when the last has risen (20 R497, R498). -/
  vioA : Nat := 3300
  vioB : Nat := 3300
  vcore : Nat := 800
  vana : Nat := 1800
  vflash : Nat := 2500
  deriving DecidableEq, Repr

/-- A dip of the supplies: the lowest level of each, in mV, for how long one was below its falling threshold, and whether
one shorter than 1 µs starts a power-on reset (20 R498). -/
structure SupplyDip where
  vcore : Nat := 800
  vioA : Nat := 3300
  vioB : Nat := 3300
  vana : Nat := 1800
  vflash : Nat := 2500
  ns : Nat
  taken : Bool := false
  deriving DecidableEq, Repr

/-- The commands: one constructor for each row of spec/opcode_table.json.  `us`, `ticks`, `clocks` and `stable` are how
long the condition a command reports has lasted, in the unit of the rule that judges it; where the sender leaves such an
operand out the condition has lasted long enough for every limit the block can be set to. -/
inductive Instr
  -- 00 to 02: register access, block states, SYS
  | registerWrite (rq : Requester) (addr val : Word)
  /-- `beats`: the words of a burst after the first (01 R15). -/
  | crossbarAccess (rq : Requester) (wr : Bool) (size : Nat) (addr val : Word) (beats : List Word := [])
  | writeTakesEffect (rq : Requester) (addr : Word)
  | loReadSnapshot (rq : Requester) (addr : Word)
  | hiRead (rq : Requester) (addr : Word)
  | loWriteHold (rq : Requester) (addr val : Word)
  | hiWritePair (rq : Requester) (addr val : Word)
  | counterClear (rq : Requester) (addr val : Word)
  | blockEnable (pg : PageIx)
  | blockDrain (pg : PageIx)
  | drainComplete (pg : PageIx)
  | blockSrst (pg : PageIx)
  | resetComplete (pg : PageIx)
  | pgCommit (pg : PageIx)
  | commitDone (pg : PageIx)
  | pgFltForce (pg : PageIx) (bits : Word)
  | sysSwrst (val : Word) (w : CastOnWorld)
  | aerrClear (val : Word)
  -- 03: queues
  | doorbell (q : QNum) (t : BitVec 16) (rq : Requester := .csl)
  | crdWrite (q : QNum) (v : BitVec 16)
  | queueEnable (q : QNum) (cfg : Word)
  | queueDisable (q : QNum) (cfg : Word)
  | queueReconfigure (q : QNum) (reg : Fin 3) (val : Word)
  | rcmdResume (q : QNum)
  | rcmdSkipJob (q : QNum)
  | rcmdFlush (q : QNum)
  | completionWrite (q : QNum)
  | autoRecovery (q : QNum)
  -- 04: job commands, issued by a thread
  | undefinedOpcode (t : QNum)
  | jobBegin (t : QNum)
  | jobEnd (t : QNum)
  | bandRaw (t : QNum)
  | textRun (t : QNum)
  | logo (t : QNum)
  | rule (t : QNum)
  | bars (t : QNum)
  | print (t : QNum)
  | printCommit (t : QNum)
  | feed (t : QNum)
  | cut (t : QNum)
  | waitMedia (t : QNum)
  | mediaOrderSatisfied (t : QNum)
  | waitMediaTimeout (t : QNum)
  | setProfile (t : QNum)
  | verifyOpen (t : QNum)
  | verifyClose (t : QNum)
  | jump (t : QNum)
  | call (t : QNum)
  | ret (t : QNum)
  | loop (t : QNum)
  | ifState (t : QNum)
  | fence (t : QNum)
  | signalSet (t : QNum)
  | signalClear (t : QNum)
  | signalPulse (t : QNum)
  | signalToggle (t : QNum)
  | waitEvent (t : QNum)
  | waitEventTimeout (t : QNum)
  | seqEventSet (bits : Word)
  | seqEventClr (bits : Word)
  | writeReg (t : QNum)
  | keyed (t : QNum)
  | nop (t : QNum)
  | btcInvalidate
  | seqFlashRetry (t : QNum)
  | listEntryFetch (t : QNum)
  | trapListStart (t : QNum)
  -- 05: rendering
  | bandWaitGrant
  | stepAged (p : Port)
  | drawComplete (p : Port)
  | rndDirCheck (val : Word)
  | rndFlashRetry (p : Port)
  -- 06: heat history
  | lineCompute
  | sourceStale (p : Port)
  | hhePause (p : Port)
  | profilePublish (p : Port) (j : Fin 16) (ctl : Word)
  | hhePortEnable (p : Port)
  | hhePortDisable (p : Port)
  -- 07: head ports
  | startOfScan (p : Port)
  | lineTimerExpire (p : Port)
  | sliceLatch (p : Port)
  | sbaGrant (p : Port)
  | strobeOn (p : Port)
  | sliceFireEnd (p : Port)
  | lineEnd (p : Port)
  | shutterCloseHost (p : Port)
  | shutterOpen (p : Port)
  | stbLong (p : Port) (strobe : Fin 8) (us : Word := 0xFFFFFFFF)
  | hpEsync (p : Port) (pos : Word)
  -- 08: supply budget
  | energyBucketRoll (p : Port)
  | governorResumeTimeout (p : Port)
  -- 09: element health
  | elementWindowWrite (rq : Requester) (lo hi : Word)
  | restoreCopyStart (ctl : Word)
  | restoreCopyEnd
  | measureSlotStart (p : Port)
  | measureSlotEnd (p : Port)
  | settleExpire (p : Port)
  | ehmPrioAdd (p : Port) (elem : Word)
  | optAutoEnable (p : Port) (val : Word)
  -- 10: motion
  | axMove (a : AxNum) (sync : Bool)
  | axVel (a : AxNum) (sync : Bool)
  | axStop (a : AxNum) (sync : Bool)
  | axEstop (a : AxNum) (sync : Bool)
  | axLineadv (a : AxNum) (sync : Bool)
  | axGear (a : AxNum) (sync : Bool)
  | axHome (a : AxNum) (sync : Bool)
  | axSetpos (a : AxNum) (sync : Bool)
  | mocGo (axes : BitVec 8)
  | mocEstop (axes : BitVec 8)
  | profileTick (a : AxNum)
  | stepEmit (a : AxNum)
  | lineAdvance (p : Port)
  | currentStandby (a : AxNum)
  | stall (a : AxNum)
  | qeCount (e : QeNum) (levelA levelB : Bool) (stable : Word := 0xFFFFFFFF)
  | qeIndex (e : QeNum) (level : Bool := true) (stable : Word := 0xFFFFFFFF)
  | qeRateWindow (e : QeNum)
  -- 11: converter
  | scanStart
  | adcStart
  | backgroundVisitStart
  | adcWordEnd (l : UnitNum) (raw : BitVec 24)
  | adcFifoRead (rq : Requester)
  | burstRequest (p : Port)
  | initialCalibrationDone (means : List (List CalWords))
  | spareCalibrate (means : List CalWords)
  | spareHandover (l : UnitNum)
  -- 12: media
  | gpiDebounce (i : Fin 16) (level : Bool) (us : Word := 0xFFFFFFFF)
  | unitStale (u : UnitNum)
  | medCalstart (units : BitVec 8)
  -- 13: cameras
  | csiFrameStart (vc : Fin 4) (fnum : BitVec 16) (ecc : HeaderEcc) (first : Bool := true) (last : Bool := true)
  | csiFrameEnd (vc : Fin 4) (ecc : HeaderEcc) (first : Bool := true) (last : Bool := true)
  | csiLongPacket (vc : Fin 4) (dt : BitVec 6) (pixels : List Nat) (ecc : HeaderEcc) (first : Bool := true) (last : Bool := true)
  | csiSotError (last : Bool := true)
  | frameResultsFinal (v : VpNum)
  | roundTurnTimeout (v : VpNum)
  | lineEvalTimeout (v : VpNum)
  | frameloss (v : VpNum) (ctx : Fin 2)
  | snapArm (v : VpNum)
  | snapdataRead (rq : Requester) (v : VpNum)
  | statsHoldRelease (v : VpNum)
  | i2cTransaction (k : Fin 2) (cmd : Word)
  | i2cTransactionEnd (k : Fin 2) (outcome : I2cOutcome) (rx : List Byte)
  | i2cStretchTimeout (k : Fin 2) (sdaLow stuck : Bool) (us : Word := 0xFFFFFFFF)
  -- 14: flash
  | flcProgram (rq : Requester) (cmd : Word)
  | flcErase (rq : Requester) (cmd : Word)
  | flcEraseBank (rq : Requester) (cmd : Word)
  | flcBlank (rq : Requester) (cmd : Word)
  | flcMargin (rq : Requester) (cmd : Word)
  | flcEraseBlock (rq : Requester) (cmd : Word)
  | flcProgramPage (rq : Requester) (cmd : Word)
  | flcOtpProgram (rq : Requester) (cmd : Word)
  | flcUnknownCmd (rq : Requester) (cmd : Word)
  | flashOperationDone (out : FlashOutcome)
  | flashDemandRead (rq : Requester) (addr : Word)
  | flashPrefetch (cls : FlashClass)
  | flashSuspend
  | flashResume
  | wbufWrite (rq : Requester) (j : Fin 128) (val : Word)
  | wbufClear
  | passwordCheck (lo hi : Word)
  | passwordRelock
  | protWrite (r : Fin 8) (val : Word)
  -- 15: Castos link; `adr` is the ADDR byte of the frame, `payload` its payload bytes
  | poll (adr : Byte) (payload : List Byte)
  | regRd (adr : Byte) (payload : List Byte)
  | regWr (adr : Byte) (payload : List Byte)
  /-- `slow`: the keyed check still runs when the reply slot begins, here and in `secClose` and `secTouch` (15 R388). -/
  | kregWr (adr : Byte) (payload : List Byte) (slow : Bool := false)
  | enq (adr : Byte) (payload : List Byte)
  | memWr (adr : Byte) (payload : List Byte)
  | memRd (adr : Byte) (payload : List Byte)
  | bulkWr (adr : Byte) (payload : List Byte)
  | bulkRd (adr : Byte) (payload : List Byte)
  | replySlot (lineLeftIdle : Bool) (mismatchBit : Option Nat)
  | requestFinish
  | txguard (ticks : Word := 0xFFFFFFFF)
  | lineBreak (ticks : Word := 0xFFFFFFFF)
  | lineDead (ticks : Word := 0xFFFFFFFF)
  | lineRestored (ticks : Word := 0xFFFFFFFF)
  | hostlost
  | cslRateChange
  | cslAddrWrite (rq : Requester) (val : Word)
  -- 16: sessions
  | secOpen (src : SecSource) (nd : BitVec 128)
  | secProve (src : SecSource)
  | secClose (src : SecSource) (slow : Bool := false)
  | secTouch (src : SecSource) (slow : Bool := false)
  | mailboxWrite (m : Fin 2)
  | openTimeout (i : SlotNum)
  | sessionIdleClose (i : SlotNum)
  | bootend
  -- 17: UARTs and SPI target
  /-- `rose`: the line has been high since the last stop bit. -/
  | uartCharReceived (u : UaNum) (samples : List (List Bool)) (low : Bool := false) (rose : Bool := false)
  | uartDataRead (rq : Requester) (u : UaNum)
  | uartDataWrite (rq : Requester) (u : UaNum) (val : Word)
  /-- `ball`: the levels of the single wire at the sample points of the bits (17 R438). -/
  | uartTxChar (u : UaNum) (cts : Bool) (ball : List Bool)
  | uartCollClear (u : UaNum)
  | uartBreak (u : UaNum) (ticks : BitVec 64 := 0xFFFFFFFFFFFFFFFF)
  | uartLineDead (u : UaNum) (ticks : BitVec 64 := 0xFFFFFFFFFFFFFFFF)
  | uartLineRestored (u : UaNum) (ticks : BitVec 64 := 0xFFFFFFFFFFFFFFFF)
  | uartFeedEnqueue (u : UaNum)
  | feedGapDiscard (u : UaNum)
  /-- `part`: bits clocked after the last whole byte, or, in a read, of the word in which nCS rises. -/
  | sptWrite (mode3 : Bool) (addr : Word) (data : List Byte) (part : Nat := 0)
  | sptRead (mode3 : Bool) (addr : Word) (words : Nat) (waits : List Nat) (part : Nat := 0)
  | sptQwrite (mode3 : Bool) (addr : Word) (data : List Byte) (part : Nat := 0)
  | sptQread (mode3 : Bool) (addr : Word) (words : Nat) (waits : List Nat) (part : Nat := 0)
  /-- `wips`: for each status byte clocked, whether a posted write of SPT waits to be accepted (17 R450). -/
  | sptRdsr (mode3 : Bool) (wips : List Bool := [false])
  | sptRdid (mode3 : Bool)
  /-- `cmd`: the command byte. -/
  | sptUnknownCmd (mode3 : Bool) (cmd : Byte := 0)
  -- 18: faults
  | faultReport
  | crstReaction (w : CastOnWorld)
  | pathbrk (pg : PageIx) (k : Fin 32) (clocks : Word := 0xFFFFFFFF)
  | clkloss (isl : Fin 11 := 0) (ticks : Word := 0xFFFFFFFF) (stopped : Bool := true)
  | sysclkLossAliveStop (ticks : Word := 0xFFFFFFFF)
  | shadowEnd (pg : PageIx)
  | ferClear (id : Word)
  | faultInject (j : Fin 4) (bits : Word)
  | pendClear (j : Fin 4) (bits : Word)
  -- 19, 20: resets, life cycle, debug
  /-- no `dip`: the supplies come up. -/
  | powerOnReset (w : CastOnWorld) (dip : Option SupplyDip := none)
  | nreset (lowNs : Nat) (taken : Bool) (w : CastOnWorld)
  | pllLockLoss (w : CastOnWorld)
  | transMakerTest (own : Bool) (confirm : Byte)
  | transProvisioned (own : Bool) (confirm : Byte)
  | transField (own : Bool) (confirm : Byte)
  | transReturned (own : Bool) (confirm : Byte)
  | transScrapped (own : Bool) (confirm : Byte)
  | keyProgram (rq : Requester) (sel : Bool)
  | transomRead (addr : Word)
  | transomWrite (addr data : Word)
  /-- `bits`: what Update-DR puts into the boundary register; `board`: the levels that the board gives the covered balls,
  in the order of 20 R493, at Capture-DR. -/
  | bscanExtest (bits : BitVec 547 := 0) (board : BitVec 217 := 0)
  | bscanClamp
  | bscanHighz
  | bscanSamplePreload (bits : BitVec 547 := 0) (board : BitVec 217 := 0)
  /-- `tlr`: by way of Test-Logic-Reset. -/
  | bscanIdcode (tlr : Bool := false)
  /-- `code`: 0x1F or one that 19 R488 does not list. -/
  | bscanBypass (code : BitVec 5 := 0x1F)
  | bscanTransom
  | bscanResetRelease (w : CastOnWorld)
  | restoreFlashRetry
  | cslFlashRetry
  | aliveEdge
  | scanEnd
  /-- `goesOn`: no frame has ended yet; `bytes` are the first of one that is being received. -/
  | badFrame (preamble : Bool) (bytes : List Byte) (damaged : Bool) (goesOn : Bool := false)
  | invalidTransition (e : QeNum) (levelA levelB : Bool) (stable : Word := 0xFFFFFFFF)
  | lcsProgrammingEnd (readBackGood : Bool) (w : CastOnWorld)
  deriving DecidableEq, Repr

end Sys2Proof
end

