-- ==== Sys2Proof/Decode.lean ====
section
/-! DEFINITION. The table's rows give no bits, so no word spells a command. -/

namespace Sys2Proof

/-- The command that a word of the table's bits spells: none, as no row of spec/opcode_table.json gives bits.
DESIGN CHOICE, log entry 57. -/
def decodeTableWord (_nbits _w : Nat) : Option Instr := none

end Sys2Proof
end

