-- ==== Sys2Proof/Config.lean ====
section
/-! DEFINITION. What an implementation fixes, and the free values: constants without a body for every value that the
manual leaves open while the machine goes on. Each takes the model's counter `freeCtr` (or the name of the operation
that spoiled the data), so that a statement about it holds for every value. -/

namespace Sys2Proof.Config

/-- A byte of flash or OTP whose contents the manual leaves undefined (14 R353, note after R368): the operation's
name and the address. -/
opaque freeByte : Nat → Nat → Byte

/-- What the error check finds in such a word: no error, a corrected one, an uncorrectable one. -/
opaque freeEcc : Nat → Nat → Fin 3

/-- The line rate of a port whose HPn_TACT is 0, for which the manual's quotient has no value (10 R257). -/
opaque freeRate : Fin 4 → Nat

/-- Any other value that the manual leaves open, by its name. -/
opaque freeWord : Nat → Word

end Sys2Proof.Config
end

