-- ==== Sys2Proof/Machine/State.lean ====
section
/-! DEFINITION. The state of the IK7440 as plain data: register store, memory, the typed state of every block, and
the queue of waiting commands. -/

namespace Sys2Proof.Machine

/-- Why the block stops with a fault. No meaning of this model stops: every command of the table has an effect, and
an access outside the reach of R13 is answered by the device itself. -/
inductive Fault
  /-- Raised by no meaning; kept so that the outcome type has a named case. Safe: nothing is proved through it. -/
  | never
  deriving DecidableEq, Repr

/-- Why the block refuses a command. -/
inductive Refusal
  /-- Raised by an arm of exec whose command has no meaning yet. Safe: the model stops and claims nothing. -/
  | notModelled (mnemonic : String)
  deriving DecidableEq, Repr

-- 02: pages

/-- The states of a block (02 R35, R36). -/
inductive BlockSt
  | off | run | draining | disabled | resetting
  deriving DecidableEq, Repr

/-- The common header of one page (02 R33 to R42); PG_ID is constant. -/
structure PageSt where
  st : BlockSt
  /-- EN as last written (R37). -/
  en : Bool
  drainAck : Bool := false
  irqStat : Word := 0
  irqEn : Word := 0
  actTag : Byte := 0
  tag : Byte := 0
  pend : Bool := false
  pendTag : Byte := 0
  merged : Bool := false
  rej : Bool := false
  deriving DecidableEq, Repr

/-- A posted write that has been accepted by the crossbar and has not taken effect (01 R18). -/
structure Posted where
  rq : Requester
  addr : Word
  val : Word
  size : Nat
  keyed : Bool := false
  deriving DecidableEq, Repr

/-- What a snapshot slot holds (02 R46, R47): the _HI half of a pair read, or a _LO half written. -/
inductive Snap
  | hi (addr : Nat) (v : Word)
  | lo (addr : Nat) (v : Word)
  deriving DecidableEq, Repr

/-- The answer of an access as the requester sees it: the value, the access error of 01 R13, and the
status-substituted flag of 14 R351. -/
structure Answer where
  rq : Requester
  addr : Word
  val : Word
  err : Bool := false
  subst : Bool := false
  /-- the words of a burst after the first (01 R15). -/
  beats : List Word := []
  deriving DecidableEq, Repr

/-- The crossbar as the requesters see it. -/
structure BusSt where
  posted : List Posted := []
  /-- at most one entry for each requester. -/
  snaps : List (Requester × Snap) := []
  /-- the latest answer of each requester. -/
  answers : List Answer := []
  deriving DecidableEq, Repr

/-- A report on its way from a fault source to FCC (18 R453). -/
structure Report where
  page : PageIx
  k : Fin 32
  inj : Bool := false
  /-- when it was raised. -/
  at_ : BitVec 64 := 0
  /-- ports, or the thread, that a TRAP of this report names, where the source alone cannot tell (18 R460). -/
  ports : List Port := []
  queue : Option QNum := none
  /-- the page and local source that the record of PATHBRK or ESCALATED names (18 R454, R466). -/
  named : Option (PageIx × Fin 32) := none
  deriving DecidableEq, Repr

-- 03, 04: queues and threads

/-- One 16-byte job command entry (04 R87). -/
structure Entry where
  w0 : Word
  w1 : Word
  w2 : Word
  w3 : Word
  deriving DecidableEq, Repr

/-- A command that a thread has started and whose completion entry is not yet written (03 R59, R61). -/
structure Cmd where
  /-- the model's own name of the command. -/
  uid : Nat
  idx : BitVec 16
  /-- ring slots of the entry: 2 for KEYED (04 R114). -/
  slots : Nat := 1
  /-- the CALL or IF_STATE through which a list command was reached. -/
  parent : Option Nat := none
  /-- the ring entry of its list; its own name for a ring entry. -/
  root : Nat := 0
  job : BitVec 16
  e : Entry
  /-- the second slot of a KEYED, else the entry itself. -/
  e2 : Entry
  cont : Bool := false
  auto : Bool := false
  /-- a CALL, or an IF_STATE of the ring whose call was taken (04 R107). -/
  call : Bool := false
  /-- for a call: the thread has left the list; `early` when before its outermost RET. -/
  closed : Bool := false
  early : Bool := false
  /-- for a PRINT: lines committed, lines fired or dropped, first dropped line, tag of the last fired line. -/
  committed : Bool := false
  lines : Nat := 0
  gone : Nat := 0
  /-- lines beyond `gone` that have fired or been dropped: an overrun drops the line after the pending one. -/
  ahead : List Nat := []
  dropped : Option Nat := none
  tag : Byte := 0
  out : Option Byte := none
  outTime : Word := 0
  /-- for a call with a known outcome, or for any command: the RESUME_LINE that its entry reports. -/
  resume : Word := 0
  /-- for a call: the status that a flash error of its list gives it (04 R117, R118). -/
  forced : Option Byte := none
  deriving DecidableEq, Repr

/-- What governs a queue apart from its indices (03 R85). -/
inductive QMode
  | off | run | bindoff | halted | recovering
  deriving DecidableEq, Repr

/-- The cancellations a queue in RECOVERING still writes (03 R77, R78). -/
inductive Recov
  | skip
  | flush (tail : BitVec 16)
  deriving DecidableEq, Repr

/-- One queue of QMG (03). -/
structure Queue where
  mode : QMode := .off
  tail : BitVec 16 := 0
  /-- TAIL as presented to the thread: it trails TAIL while QMG drains (02 R38). -/
  pres : BitVec 16 := 0
  head : BitVec 16 := 0
  next : BitVec 16 := 0
  cwr : BitVec 16 := 0
  crd : BitVec 16 := 0
  phase : Bool := true
  cmds : List Cmd := []
  conts : List Cmd := []
  haltSet : List Cmd := []
  /-- the HALT flag of this bind-off has been given (R73). -/
  haltGiven : Bool := false
  hstat : Byte := 0
  hidx : BitVec 16 := 0
  hjob : BitVec 16 := 0xFFFF
  flushTo : Option (BitVec 16) := none
  recov : Option Recov := none
  recovAuto : Bool := false
  /-- job number that cancelled entries report. -/
  recovJob : BitVec 16 := 0xFFFF
  autoAct : Option Nat := none
  /-- a SEQ reset lost the thread context (18 R468). -/
  lost : Bool := false
  jobOpen : Bool := false
  jobNum : BitVec 16 := 0xFFFF
  policy : Byte := 0
  retryUsed : Nat := 0
  /-- the current media profile (04 R100). -/
  profile : Nat := 0
  /-- entries not yet issued that a block leaving RUN has cancelled (02 R39). -/
  cancelled : List (BitVec 16 × Word) := []
  deriving DecidableEq, Repr

/-- A loop counter (04 R104). -/
structure LoopCtr where
  active : Bool := false
  remain : Nat := 0
  origin : Nat := 0
  deriving DecidableEq, Repr

/-- One call level of a thread: where RET goes (none: back to the ring) and the loop counter of the level. -/
structure Level where
  ret : Option Nat
  /-- the CALL, or the IF_STATE of the ring, that opened the level. -/
  call : Nat
  loop : LoopCtr := {}
  deriving DecidableEq, Repr

/-- What a thread waits for after an issue (04 R91, R122). -/
inductive Wait
  | none
  | outcome (uid : Nat)
  | event (uid : Nat) (since : BitVec 64)
  | commit (uid : Nat)
  deriving DecidableEq, Repr

/-- A trap list that runs (04 R119, R120). -/
structure TrapRun where
  pc : Nat
  loop : LoopCtr := {}
  count : Nat := 0
  result : Byte := 0
  deriving DecidableEq, Repr

/-- A flash line that came back status-substituted and is retried (04 R117, 05 R145, 09 R226, 15 R388). -/
structure Retry where
  addr : Nat
  count : Nat
  deriving DecidableEq, Repr

/-- One SEQ thread context (04). -/
structure Thread where
  pc : Nat := 0
  /-- call levels, innermost first; empty in the ring. -/
  levels : List Level := []
  /-- the thread leaves every level at its next command boundary (04 R107). -/
  leaving : Bool := false
  wait : Wait := .none
  timedOut : Bool := false
  /-- the next list entry was reached by a transfer whose line missed in the branch target cache (04 R116). -/
  jumped : Bool := false
  /-- the list entry fetched from flash, with its address. -/
  fetched : Option (Nat × Entry) := none
  retry : Option Retry := none
  transfers : Nat := 0
  /-- issue slots in which the thread was ready and passed over (03 R55). -/
  passed : Nat := 0
  trap : Option TrapRun := none
  /-- a TRAP has been applied and the list has not started (04 R119). -/
  trapDue : Bool := false
  trapPend : Bool := false
  trapResult : Byte := 0
  /-- nothing has run since SEQ was reset: STATE and PC show the reset values of R121. -/
  fresh : Bool := true
  deriving DecidableEq, Repr

/-- One line of the branch target cache (04 R116). -/
structure BtcLine where
  addr : Nat
  e0 : Entry
  e1 : Entry
  deriving DecidableEq, Repr

/-- SEQ apart from its threads. -/
structure SeqSt where
  threads : Vector Thread 16
  event : Word := 0
  /-- lines of the branch target cache, most recently used first; at most 16. -/
  btc : List BtcLine := []
  /-- the thread that issued last at each priority (03 R55). -/
  lastAt : Vector (Option QNum) 4
  deriving DecidableEq, Repr

-- 05: rendering and the Skein

/-- The states of a band (05 R126). -/
inductive BandSt
  | free | compose | committed
  deriving DecidableEq, Repr

/-- One Skein band (05). -/
structure Band where
  st : BandSt := .free
  port : Port := 0
  slot : Fin 4 := 0
  /-- lines committed, and lines fired, dropped or released. -/
  committed : Nat := 0
  fired : Nat := 0
  /-- lines that have lost their blank mark (R125). -/
  written : BitVec 64 := 0
  deriving DecidableEq, Repr

/-- One committed line that has not fired (05 R127). -/
structure Line where
  /-- the PRINT it belongs to, its queue and its number there. -/
  uid : Nat
  q : QNum
  k : Nat
  band : Fin 128
  row : Fin 64
  profile : Nat
  /-- its number in the open verification window (13 R332). -/
  verify : Option Nat := none
  deriving DecidableEq, Repr

/-- A step that waits in SKN for bands, oldest first in the list (05 R130). -/
structure BandWait where
  port : Port
  /-- first area line and number of lines of its object: the window slots it asks for. -/
  y : Nat := 0
  h : Nat := 0
  since : BitVec 64
  aged : Bool := false
  deriving DecidableEq, Repr

/-- SKN (05). -/
structure SknSt where
  bands : Vector Band 128
  /-- position of line 0 of each port's area in its band (04 R94). -/
  o : Vector Nat 4
  /-- committed lines of each port that have not fired, in order. -/
  lines : Vector (List Line) 4
  waits : List BandWait := []
  deriving DecidableEq, Repr

/-- One composition step or PRINT that RND holds (05 R129, R131). -/
structure Step where
  uid : Nat
  q : QNum
  e : Entry
  granted : Bool := false
  /-- bands acquired for it: a block reset of RND returns them. -/
  got : List (Fin 128) := []
  retry : Option Retry := none
  deriving DecidableEq, Repr

/-- RND (05). -/
structure RndSt where
  /-- steps of each port, oldest first. -/
  steps : Vector (List Step) 4
  /-- the port whose step is being drawn, and the port served last (R131). -/
  cur : Option Port := none
  last : Option Port := none
  dirValid : Bool := false
  nAtlas : Nat := 0
  nLogo : Nat := 0
  atlasTab : Nat := 0
  logoTab : Nat := 0
  /-- a header check waits on flash (R134). -/
  dirChk : Option Retry := none
  deriving DecidableEq, Repr

-- 06: heat history

/-- The states of an HHE port (06 R174). -/
inductive HheMode
  | off | idle | running | paused | holdVh | stopped
  deriving DecidableEq, Repr

/-- What the HHE computed for one line (06 R148). -/
structure LineData where
  /-- slice count of each element. -/
  counts : List Nat
  nLine : Nat
  eSlice : Nat
  /-- the duty ceiling, the energy ceiling lowered some count (08 R213). -/
  duty : Bool := false
  energy : Bool := false
  deriving DecidableEq, Repr

/-- One record of a port's ring (06 R150); a position without a record is EMPTY. -/
structure RingLine where
  uid : Nat
  k : Nat
  /-- FIRED, else HELD. -/
  fired : Bool
  /-- start of scan, for a HELD line the projection it was computed for. -/
  start : BitVec 64
  stale : Bool := false
  data : LineData
  deriving DecidableEq, Repr

/-- The four words of a published profile (06 R160). -/
structure Profile where
  e : Word := 0
  a : Word := 0
  n : Word := 0
  ctl : Word := 0
  deriving DecidableEq, Repr

/-- One port of the HHE. -/
structure HhePort where
  mode : HheMode := .off
  /-- at most six records, oldest first. -/
  ring : List RingLine := []
  /-- start of scan of the most recent line whose start has passed (R163). -/
  lastStart : Option (BitVec 64) := none
  profiles : Vector Profile 16
  /-- overruns that dropped lines before the next line to start, and before the one after it (R163). -/
  gap0 : Nat := 0
  gap1 : Nat := 0
  /-- the next line is computed on demand: nothing is computed ahead (R159, R170). -/
  demand : Bool := false
  deriving DecidableEq, Repr

-- 07: head ports

/-- Where a line in progress stands (07 R181). -/
inductive SliceSt
  /-- start of scan passed, data not delivered (R192). -/
  | waitData
  /-- slice k is shifted. -/
  | shifting
  /-- slice k is latched and its grant requested, at the given instant. -/
  | latched (at_ : BitVec 64)
  /-- granted to start at the given instant. -/
  | granted (at_ : BitVec 64)
  /-- strobes active until the given instant. -/
  | firing (until_ : BitVec 64)
  /-- refused by SBA as too large (08 R209). -/
  | refused
  /-- the last slice has fired; the line ends at the given instant. -/
  | ending (at_ : BitVec 64)
  deriving DecidableEq, Repr

/-- The line between its start of scan and its end. -/
structure CurLine where
  line : Line
  start : BitVec 64
  tag : Byte
  /-- ticks since the start of scan before, and T_r at this one (08 R211). -/
  gap : Option Nat := none
  tr : Nat := 0
  /-- energy buckets started since then (08 R212). -/
  rolled : Nat := 0
  /-- the head supply in mV at the start of scan (06 R158). -/
  vh : Option Int := none
  data : Option LineData := none
  /-- slice width in 20 ns units (R181). -/
  w : Nat := 0
  slice : Nat := 0
  st : SliceSt := .waitData
  /-- earliest instant of the next latch pulse (R181). -/
  nextLatch : BitVec 64 := 0
  defer : Nat := 0
  deriving DecidableEq, Repr

/-- Causes that hold a Shutter closed (07 R194). -/
structure Causes where
  fault : Bool := false
  headOpen : Bool := false
  stbLong : Bool := false
  sbaRst : Bool := false
  host : Bool := false
  reset : Bool := false
  deriving DecidableEq, Repr

/-- The pulse of one strobe group in the slice that fires: active from `on` until `off` (07 R183). -/
structure Pulse where
  group : Nat
  on : BitVec 64
  off : BitVec 64
  deriving DecidableEq, Repr

/-- One head port (07). -/
structure HpSt where
  cur : Option CurLine := none
  causes : Causes := {}
  /-- in HOLD, with the status that its PRINTs complete with (R193, R196). -/
  hold : Option Byte := none
  /-- paper-out has come while a line is in progress: the port enters HOLD at its end (R193). -/
  paperOut : Bool := false
  /-- lines were held when the port left RUN (R198). -/
  heldAtStop : Bool := false
  /-- the line timer has reached S(n) + T_act (R185). -/
  timerDone : Bool := true
  /-- fraction of LINE_T carried from line to line, 1/256 clock. -/
  frac : Nat := 0
  /-- last start of scan. -/
  lastS : BitVec 64 := 0
  /-- period in force since then, whole clocks, and the instant it ends (R185). -/
  tAct : Nat := 0
  dueAt : BitVec 64 := 0
  /-- the last E(n). -/
  lastEnd : BitVec 64 := 0
  pendTrig : Bool := false
  /-- line advances sent to the feed axis and not yet there (R185). -/
  advDue : Nat := 0
  hwm : Word := 0
  /-- next trigger position, UQ32.16 (R188). -/
  trigAt : BitVec 48 := 0
  /-- MEDIA_REVERSE may be raised again (R187). -/
  revArmed : Bool := true
  /-- triggers seen, and the numbers of those among them that dropped a line (R190). -/
  trigNo : Nat := 0
  overruns : List Nat := []
  burstArmed : Bool := true
  /-- times of the latest triggers since the port entered RUN, newest first, at most 9 (08 R217). -/
  trigTimes : List (BitVec 64) := []
  /-- the bits in the head's latch: one list for each lane, in the order in which they were shifted (07 R178, R179). -/
  latch : List (List Bool) := []
  /-- the start of the latch pulse last given in the line or slot in progress (07 R181). -/
  latAt : Option (BitVec 64) := none
  /-- the start of the shift last begun in it, and the bits of every lane in use (07 R178, R181). -/
  shiftAt : Option (BitVec 64) := none
  shiftBits : List (List Bool) := []
  /-- the strobe pulses last begun in it. -/
  pulses : List Pulse := []
  /-- most recent width and line slice count. -/
  lastW : Nat := 0
  lastN : Nat := 0
  deriving DecidableEq, Repr

-- 08: supply budget and governor

/-- A reservation of the calendar: [start, stop) at a current in mA (08 R206). -/
structure Resv where
  port : Port
  start : BitVec 64
  stop : BitVec 64
  ma : Nat
  deriving DecidableEq, Repr

/-- SBA's part for one port. -/
structure SbaPort where
  /-- duty accumulators of elements 0 upward; the rest are 0 (R211). -/
  duty : List Nat := []
  /-- energy buckets, newest first, at most 16 (R212), and the start of the newest. -/
  buckets : List Nat := []
  bucketStart : BitVec 64 := 0
  consec : Nat := 0
  burstArmed : Bool := true
  /-- deferral of the port's previous slice (R206). -/
  lastDefer : Nat := 0
  /-- governor: line rate, f_max of the last evaluation, requested period (R215). -/
  f : Nat := 0
  fMax : Nat := 0
  tGov : Nat := 0
  /-- the next evaluation restarts f (R215). -/
  restart : Bool := true
  paused : Bool := false
  warn : Bool := false
  short : Bool := false
  /-- when the ready lines last grew (R216). -/
  grewAt : BitVec 64 := 0
  deriving DecidableEq, Repr

/-- SBA (08). -/
structure SbaSt where
  calendar : List Resv := []
  lastPort : Option Port := none
  ports : Vector SbaPort 4
  deriving DecidableEq, Repr

-- 09: element health

/-- Classes of a measured element (09 R231). -/
inductive ElemClass
  | ok | worn | dead | openCircuit | short
  deriving DecidableEq, Repr

/-- What a measurement slot is for (09 R232). -/
inductive SlotKind
  | plain
  /-- the confirmation of a candidate. -/
  | confirm (c : ElemClass)
  /-- the reference check of an OPEN of the given element. -/
  | reference (elem : Nat)
  deriving DecidableEq, Repr

/-- A measurement slot in progress (09 R229). -/
structure MeasSlot where
  elem : Nat
  kind : SlotKind
  start : BitVec 64
  /-- the cursor chose the element (R236). -/
  fromCur : Bool := false
  /-- words delivered since word 0, newest first; none for one with VALID = 0. -/
  words : List (Option Int) := []
  /-- granted pulse, [start, stop). -/
  grant : Option (BitVec 64 × BitVec 64) := none
  strobe : Bool := false
  /-- abandoned for a line once the strobe is inactive (R234). -/
  yielded : Bool := false
  /-- lost: a word is missing, or the pulse found no place in time. -/
  lost : Bool := false
  deriving DecidableEq, Repr

/-- EHM's part for one port (09). -/
structure EhmPort where
  slot : Option MeasSlot := none
  /-- the slot that comes next: a confirmation, a reference check or a repetition; whether the cursor chose its
  element. -/
  next : Option (Nat × SlotKind × Bool) := none
  stopped : Bool := false
  /-- slots since the last settle wait. -/
  chunk : Nat := 0
  settled : Bool := false
  /-- since when the conditions of R228 other than SETTLE may hold. -/
  availFrom : BitVec 64 := 0
  prio : List Nat := []
  /-- a write of CURSOR during a slot (R240). -/
  curWrite : Option Nat := none
  /-- optical vote counts c and v of the elements that have any, by element (R237). -/
  votes : List (Nat × (Nat × Int)) := []
  deriving DecidableEq, Repr

/-- A restore copy that runs (09 R226). -/
structure Restore where
  src : Nat
  port : Port
  first : Nat
  count : Nat
  done : Nat := 0
  retry : Option Retry := none
  deriving DecidableEq, Repr

/-- EHM (09). -/
structure EhmSt where
  ports : Vector EhmPort 4
  /-- EHM_EWSEL of each snapshot slot that has set one (R239). -/
  sel : List (Requester × Word) := []
  restore : Option Restore := none
  deriving DecidableEq, Repr

-- 10: motion

/-- What an axis is doing (10 R271). -/
inductive AxAct
  | idle | move | vel | lineadv | gear
  /-- the search of a feeding WAIT_MEDIA, forward at SEARCHV. -/
  | search
  /-- a home search, negative at SEARCHV. -/
  | home
  deriving DecidableEq, Repr

/-- What a SEQ command asks of an axis (10 R255, R256, R265). -/
inductive AxKind
  /-- a distance in dot lines or in steps. -/
  | feed (lines : Bool) (n : Int)
  | cut (part : Bool)
  /-- limit of travel in dot lines, and the STOPAT offset in dot lines. -/
  | search (limit : Nat) (stopAt : Option Int)
  /-- a search whose event has come before it could start: the position of STOPAT. -/
  | goto (target : Word)
  deriving DecidableEq, Repr

/-- A SEQ command on an axis. -/
structure AxJob where
  q : QNum
  uid : Nat
  port : Option Port
  kind : AxKind
  deriving DecidableEq, Repr

/-- One axis (10). Its position P is the register AXn_POS. -/
structure AxSt where
  act : AxAct := .idle
  /-- a stop in progress: an emergency stop, or a normal one (R251). -/
  stop : Option Bool := none
  /-- speed in 10^−6 steps/s, and the fraction accumulator in 10^−14 steps with the instant it was advanced to. -/
  v : Nat := 0
  neg : Bool := false
  acc : Nat := 0
  accAt : BitVec 64 := 0
  tickAt : BitVec 64 := 0
  /-- the first tick of a start waits until then (R247). -/
  startAt : Option (BitVec 64) := none
  waking : Bool := false
  target : Word := 0
  decel : Bool := false
  /-- the ramp segment that runs and its rate (R249). -/
  ramp : Option (Nat × Nat) := none
  /-- target of the move that follows the stop (R250). -/
  next : Option Word := none
  /-- a speed command that starts after the stop (R250, R254). -/
  nextVel : Bool := false
  /-- owner host. -/
  host : Bool := false
  job : Option AxJob := none
  waiting : List AxJob := []
  /-- outcome of the job once the axis stands. -/
  endSt : Byte := 0
  inAdv : Bool := false
  budget : Nat := 0
  held : Bool := false
  lagArmed : Bool := true
  /-- speed command of VEL, steps/s, and its direction. -/
  vCmd : Nat := 0
  vNeg : Bool := false
  ired : Bool := false
  standSince : BitVec 64 := 0
  pRef : Word := 0
  eRef : Word := 0
  /-- since when the deviation has been below the window (R260). -/
  below : Option (BitVec 64) := none
  stalled : Bool := false
  /-- gear target with 24 fraction bits, segment, ratio in force, ratio at the crossing, counts since it. -/
  g : Int := 0
  gseg : Nat := 0
  rEff : Int := 0
  rOld : Int := 0
  blendC : Nat := 0
  /-- the last step, the ticks between the last two, and the last change of DIR. -/
  lastStep : Option (BitVec 64) := none
  stepGap : Nat := 0
  dirAt : BitVec 64 := 0
  /-- phase of a CUT (R265), and P at its start. -/
  cut : Option Nat := none
  phaseFrom : Word := 0
  sync : Option Nat := none
  deriving DecidableEq, Repr

/-- One encoder input (10). Its position is the pair QEn_POS. -/
structure QeSt where
  /-- the levels of the inputs A, B and index that were last taken, before SWAP and the inversions (R266). -/
  a : Bool := false
  b : Bool := false
  i : Bool := false
  /-- position bits [31:0] at the start of the rate window, and that instant. -/
  rateBase : Word := 0
  windowAt : BitVec 64 := 0
  deriving DecidableEq, Repr

-- 11: the converter

/-- A settled word as the HHE takes it (11 R287): its code and the instant it ended. -/
structure AdcSample where
  code : Int
  time : BitVec 64
  deriving DecidableEq, Repr

/-- A visit in progress on a logical slice (11 R278). -/
structure Visit where
  entry : Nat
  /-- unsettled words at its start, and words in all (none: a DWELL visit goes on). -/
  s : Nat
  total : Option Nat
  done : Nat := 0
  /-- start in modulator clocks (AdcSt.base). -/
  start : Nat
  /-- the next word is the first after a handover (R292). -/
  swap : Bool := false
  /-- a burst visit's port. -/
  port : Option Port := none
  /-- EHM has been given the slot. -/
  taken : Bool := false
  deriving DecidableEq, Repr

/-- One logical slice (11 R273). -/
structure Slice where
  /-- the physical slice that carries it. -/
  phys : Option Nat
  visit : Option Visit := none
  /-- entries due in this scan whose visits have not begun. -/
  due : List Nat := []
  /-- entries that the active set assigns to it (R280). -/
  assigned : List Nat := []
  swapNext : Bool := false
  /-- a handover took place while it was idle, and no word has followed (R292). -/
  swapped : Bool := false
  deriving DecidableEq, Repr

/-- A pending background visit (11 R283, R284). -/
structure BgPend where
  entry : Nat
  /-- modulator clock at which it became pending. -/
  since : Nat
  port : Option Port := none
  deriving DecidableEq, Repr

/-- ADC and ADT (11). -/
structure AdcSt where
  /-- the instant from which modulator clocks are counted. -/
  base : BitVec 64 := 0
  slices : Vector Slice 8
  spare : Option Nat := some 8
  failed : BitVec 9 := 0
  calInit : Bool := false
  spareReady : Option (BitVec 64) := none
  lastHandover : BitVec 64 := 0
  /-- physical slices with their last calibration. -/
  calAt : List (Nat × BitVec 64) := []
  /-- OFS and GC by 8 × physical slice + gain code. -/
  cal : List (Nat × (Int × Nat)) := []
  scanning : Bool := false
  scanAt : Nat := 0
  /-- the next commit to become active restarts the scan number (R279). -/
  freshSet : Bool := true
  startHeld : Bool := false
  pendBg : List BgPend := []
  /-- background entries pending at the start of this scan and not yet visited (R279). -/
  bgLeft : List Nat := []
  /-- result FIFO, oldest first: data and metadata. -/
  fifo : List (Word × Word) := []
  lastValid : Vector (Option AdcSample) 40
  deriving DecidableEq, Repr

-- 12: media sensing

/-- One sensor unit (12 R303 to R310). -/
structure MedUnit where
  /-- the latest values y of the filter, newest first. -/
  ys : List Int := []
  y : Int := 0
  active : Bool := false
  stale : Bool := false
  /-- consecutive words that voted for the other state, and the feed position at the first of them. -/
  votes : Nat := 0
  tag : Word := 0
  /-- tag of the last leading edge, and whether the next one sets PITCH. -/
  lead : Option Word := none
  pitch : Bool := false
  /-- MAXACT is exceeded (R307). -/
  tooLong : Bool := false
  bacc : Int := 0
  b : Int := 0
  driftArmed : Bool := true
  /-- last settled word of the channel, or the enable. -/
  lastWord : BitVec 64 := 0
  /-- calibration: position at its start, Ymin and Ymax so far. -/
  cal : Option (Word × Option (Int × Int)) := none
  trailing : Bool := false
  deriving DecidableEq, Repr

/-- A WAIT_MEDIA that waits (04 R99). -/
structure MediaWait where
  q : QNum
  uid : Nat
  port : Port
  ev : Nat
  axis : Option AxNum := none
  /-- instant at which a LIMIT in ms is reached. -/
  due : Option (BitVec 64) := none
  deriving DecidableEq, Repr

/-- MED (12). -/
structure MedSt where
  units : Vector MedUnit 8
  /-- PAPER and HEAD_CLOSED of each port as last reported. -/
  paper : Vector Bool 4
  head : Vector Bool 4
  refArmed : Bool := true
  /-- MED has not run since its reset: MED_GPI and MED_PSTATp read their reset values (02 R36). -/
  blank : Bool := false
  waits : List MediaWait := []
  deriving DecidableEq, Repr

-- 13: cameras

/-- The open VERIFY window of a port (04 R101, 13 R332, R338). -/
structure Win where
  maxDot : Nat
  maxMis : Nat
  /-- number of the next line committed in it. -/
  nextW : Nat := 0
  /-- the VERIFY close that waits for it. -/
  closing : Option (QNum × Nat) := none
  deriving DecidableEq, Repr

/-- A captured line of a context (13 R332). -/
structure CapLine where
  port : Port
  uid : Nat
  k : Nat
  /-- E0 when it was captured: the first of the elements that `codes` and `dead` are about. -/
  e0 : Nat := 0
  codes : List Nat
  dead : List Bool
  bytes : Nat
  /-- P_n and S(n), once the line has started. -/
  start : Option (Word × BitVec 64) := none
  /-- the row in the frame in progress, where the line is seen in it (R334). -/
  row : Option Nat := none
  deriving DecidableEq, Repr

/-- A context of a verification pipeline (13). -/
structure VpCtx where
  caps : List CapLine := []
  /-- the line started last, by uid and number, with P_n and S(n) (R332). -/
  lastStart : Option (Nat × Nat × Word × BitVec 64) := none
  /-- lines that did not fit in the intent RAM (R332). -/
  missed : List (Nat × Nat) := []
  /-- consecutive blank ink dots of the columns that have any (R337). -/
  blanks : List (Nat × Nat) := []
  /-- the columns whose dot-out has been reported since their count was reset (R337). -/
  reported : List Nat := []
  /-- distinct columns reported as dot-outs in the window (R338), and DEAD columns reported in it (R337). -/
  dotCols : List Nat := []
  deadCols : List Nat := []
  ver : Nat := 0
  mis : Nat := 0
  unseen : Nat := 0
  /-- last frame processed since the pipeline entered RUN (R338); FRAMELOSS has been given since it, in this window. -/
  lastFrame : BitVec 64 := 0
  lossGiven : Bool := false
  deriving DecidableEq, Repr

/-- The frame that a pipeline has accepted (13 R321). -/
structure VpFrame where
  ctx : Fin 2
  vc : Fin 4
  fnum : BitVec 16
  tag : Byte
  itag : Byte
  /-- CSI_VCv_CFG of its channel at the FS. -/
  cfg : Word
  /-- input pixels not yet processed, and when that was so (R322). -/
  backlog : Nat := 0
  backTime : BitVec 64
  snap : Bool
  /-- rows, one list for each row packet, set at the frame end. -/
  rows : Option (List (List Nat)) := none
  endTime : BitVec 64 := 0
  deriving DecidableEq, Repr

/-- A statistics set (13 R326): SFRM, SINFO, STIME, SMEAN0, SMEAN1 and the histogram. -/
structure StatSet where
  sfrm : Word
  sinfo : Word
  stime : Word
  mean0 : Word
  mean1 : Word
  hist : List Nat
  deriving DecidableEq, Repr

/-- A verification pipeline (13). -/
structure VpSt where
  ctx : Vector VpCtx 2
  frame : Option VpFrame := none
  turn : Fin 2 := 0
  turnSince : BitVec 64 := 0
  /-- channel of the accepted frame until its FE, also after it was dropped. -/
  accepted : Option (Fin 4) := none
  armed : Bool := false
  /-- the latest statistics set that waits for HOLD to end. -/
  waiting : Option StatSet := none
  snapRam : List Byte := []
  deriving DecidableEq, Repr

/-- A virtual channel of the receiver (13 R317, R320). -/
structure CsiVc where
  isOpen : Bool := false
  damaged : Bool := false
  /-- CSI_VCv_CFG as it stood at the FS. -/
  cfg : Word := 0
  /-- row packets, newest first. -/
  rows : List (List Nat) := []
  deriving DecidableEq, Repr

/-- An I²C controller (13 R330). -/
structure IcSt where
  pend : Bool := false
  busy : Bool := false
  cmd : Word := 0
  /-- bytes that the controller sends, addresses included, in order (13 R330). -/
  sends : List Byte := []
  deriving DecidableEq, Repr

/-- The camera island (13). -/
structure CamSt where
  vc : Vector CsiVc 4
  /-- the rest of the high-speed transmission is discarded (13 R318). -/
  skip : Bool := false
  /-- a high-speed transmission is in progress, or all lanes are in stop state; none before the first one (13 R341). -/
  lanes : Option Bool := none
  vp : Vector VpSt 2
  ic : Vector IcSt 2
  wins : Vector (Option Win) 4
  deriving DecidableEq, Repr

-- 14: flash

/-- The operation FLC runs on a bank or on OTP (14 R357). -/
structure FlcOp where
  cmd : Nat
  /-- 0 or 1, or 2 for OTP. -/
  bank : Nat
  /-- bytes [lo, hi) of the target. -/
  lo : Nat
  hi : Nat
  waddr : Nat
  count : Nat
  /-- the array latches: 64-bit words copied from the write buffer at the start (R356). -/
  latches : List (BitVec 64) := []
  /-- start of the operation or its last resume (R352). -/
  runSince : BitVec 64
  /-- a suspend has been requested and not yet entered. -/
  spend : Bool := false
  suspSince : Option (BitVec 64) := none
  /-- the latest demand read of the suspended bank (R353). -/
  lastDemand : BitVec 64 := 0
  /-- when the first pulse of an erase begins, until the cycle counts of its sectors have stepped (R360, R362). -/
  pulseAt : Option (BitVec 64) := none
  /-- name of the free values that reads of the target return meanwhile. -/
  salt : Nat
  deriving DecidableEq, Repr

/-- A line of a prefetch buffer with the error flag that travels with it (14 R348, R349). -/
structure BufLine where
  addr : Nat
  /-- one bit for each 64-bit word of the line: it is uncorrectable. -/
  uncor : BitVec 4
  deriving DecidableEq, Repr

/-- Flash bytes [lo, hi) whose contents the manual leaves undefined (14 note after R368). -/
structure Undef where
  lo : Nat
  hi : Nat
  salt : Nat
  deriving DecidableEq, Repr

/-- FLC (14). -/
structure FlcSt where
  op : Option FlcOp := none
  /-- owner of the write buffer (R356). -/
  owner : Option Requester := none
  /-- prefetch buffers of the classes SEQ, RND and HOST, most recently used first, at most 4 lines each. -/
  bufs : Vector (List BufLine) 3
  /-- the line each class demanded last (R348). -/
  lastDem : Vector (Option Nat) 3
  /-- erase cycles of the sectors that have any (R360). -/
  cycles : List (Nat × Nat) := []
  /-- next page of the blocks for which it is known (R364). -/
  nextPage : List (Nat × Nat) := []
  fails : Nat := 0
  blocked : Bool := false
  unlocked : Bool := false
  /-- EARLY_WARN has been raised and not re-armed: bank 0 count, bank 1 count, program pulses, erase pulses (R368). -/
  warned : Vector Bool 4
  /-- words (by byte address) stored with a single-bit error, 1, or an uncorrectable one, 2 (R349). -/
  ecc : List (Nat × Nat) := []
  undef : List Undef := []
  deriving DecidableEq, Repr

-- 15: the Castos link

/-- A reply of CSL: its frame type and its payload (15 R389). -/
structure Reply where
  typ : Byte
  payload : List Byte
  deriving DecidableEq, Repr

/-- A request as CSL compares it (15 R383): what its length and its checks leave free. -/
structure Request where
  adr : Byte
  typ : Byte
  payload : List Byte
  deriving DecidableEq, Repr

/-- A request that still executes: a MEM_RD or BULK_RD whose flash read met a busy bank, or a keyed request whose check
still runs (15 R388). -/
structure LinkExec where
  req : Request
  /-- next address, words left, data so far and the first word that got an access error. -/
  addr : Nat
  left : Nat
  data : List Byte := []
  bad : Option Nat := none
  tried : BitVec 64
  done : Option Reply := none
  /-- ACK PENDING was its answer. -/
  pending : Bool := false
  /-- its keyed check still runs. -/
  keyed : Bool := false
  deriving DecidableEq, Repr

/-- A reply slot to come: the instant it begins, and the reply unless the request still executes (15 R385, R388). -/
structure ReplySlot where
  due : BitVec 64
  reply : Option Reply
  /-- SEQ of the request. -/
  seq : Bool := false
  deriving DecidableEq, Repr

/-- The link (15). -/
structure CslSt where
  stored : Option Request := none
  reply : Option Reply := none
  exec : Option LinkExec := none
  slot : Option ReplySlot := none
  /-- the latest reply that was transmitted in full. -/
  sent : Option Reply := none
  /-- a RATE that waits; the flag says that it came through the link (R401). -/
  rate : Option (BitVec 3 × Bool) := none
  fresh : Bool := true
  /-- HOSTLOST: raised and not re-armed; raised since the last STATUS (R391, R399). -/
  lost : Bool := false
  lostSince : Bool := false
  lastFrame : BitVec 64 := 0
  txoff : Bool := false
  /-- when CSL_DE goes inactive after the reply last begun (R385, R396). -/
  txEnd : BitVec 64 := 0
  /-- the frame of that reply as far as it was driven, and when its first bit began (R379). -/
  wire : List Byte := []
  txStart : BitVec 64 := 0
  /-- when CSL left RUN, while the frame that it was receiving then may still end (R400). -/
  finish : Option (BitVec 64) := none
  /-- a frame is being received. -/
  rx : Bool := false
  /-- when the latest frame on the line ended (R378). -/
  lineEnd : Option (BitVec 64) := none
  /-- CSL_STAT.LINE but for RX and TX: 0 IDLE, 3 LOW, 4 DEAD (R398). -/
  line : Nat := 0
  straps : BitVec 6 := 63
  deriving DecidableEq, Repr

-- 16: sessions

/-- States of a session slot (16 R405). -/
inductive SlotSt
  | free | pending | opened | boot
  deriving DecidableEq, Repr

/-- Owners of a slot, as SEC_SSs_STAT numbers them (16 R427). -/
inductive SlotOwner
  | csl | spt | transom | device
  deriving DecidableEq, Repr

/-- One session slot; the session key and nonces as their 16 bytes (16 R405 to R408). -/
structure SecSlot where
  st : SlotSt := .free
  owner : SlotOwner := .csl
  maker : Bool := false
  ks : List Byte := []
  nh : List Byte := []
  nd : List Byte := []
  last : Word := 0
  run : Nat := 0
  /-- start of the OPENT or IDLE time. -/
  since : BitVec 64 := 0
  deriving DecidableEq, Repr

/-- SEC (16). -/
structure SecSt where
  slots : Vector SecSlot 8
  /-- the boot queue and COUNT while its copied entries may still be issued (19 R478). -/
  bootQ : Option (QNum × Nat) := none
  /-- SPT, CSL or the Transom: whose keyed commands SEC has still to check, in its order, and when each reached it
  (16 R413). -/
  checks : List (Requester × BitVec 64) := []
  deriving DecidableEq, Repr

-- 17: serial ports

/-- One UART (17). -/
structure UaSt where
  /-- transmit FIFO, oldest first. -/
  tx : List Byte := []
  /-- bytes of the fed queue's oldest unread completion entry that have entered the transmit FIFO (R441). -/
  echoAt : Nat := 0
  /-- receive FIFO, oldest first; bit 8 is FERR. -/
  rx : List (BitVec 9) := []
  /-- RTS stands at "stop". -/
  stop : Bool := false
  /-- generated XOFF (true) and XON (false) bytes that wait for a character boundary, and the latest of them (R439). -/
  gen : List Bool := []
  xoff : Bool := false
  xoffSent : Bool := false
  txPause : Bool := false
  /-- UAn_CTS reads "send", as last sampled. -/
  cts : Bool := false
  /-- the line after a break: 0 IDLE, 2 LOW, 3 DEAD (R437). -/
  line : Nat := 0
  /-- a character is being received (R432). -/
  rxing : Bool := false
  /-- the receiver's latest sample of the line was low: no start is detected before a high one (R432, R433). -/
  low : Bool := false
  /-- end of the last received character. -/
  lastChar : BitVec 64 := 0
  /-- the latest character that left the transmitter, and the bits the transmitter drove last (R430, R438). -/
  sent : Option Byte := none
  wire : List Bool := []
  /-- when the character in transmission ends (R436). -/
  txEnd : BitVec 64 := 0
  deriving DecidableEq, Repr

/-- SPT (17 R445 to R451). -/
structure SptSt where
  mode3 : Bool := false
  /-- nCS is low. -/
  active : Bool := false
  /-- bytes driven in the latest transaction, whether on four lanes, and its length in clocks of SCK. -/
  out : List Byte := []
  quad : Bool := false
  clocks : Nat := 0
  deriving DecidableEq, Repr

-- 18: the fault collector

/-- FCC (18). -/
structure FccSt where
  /-- REAL and INJ bits of the local sources of each page. -/
  real : Vector Word 44
  inj : Vector Word 44
  /-- open reset shadows: of a block in RESETTING, or with the instant it ends (R465). -/
  shadow : Vector (Option (Option (BitVec 64))) 44
  /-- from when an open shadow holds reports (R455, R465). -/
  shadowAt : Vector (BitVec 64) 44
  /-- the latest BRST reaction carried out on each page (R466). -/
  lastBrst : Vector (Option (BitVec 64)) 44
  /-- when the report path of each group broke (R454). -/
  broken : Vector (Option (BitVec 64)) 44
  /-- when a CRST reaction was decided, whose chip reset comes 1 µs later (R458). -/
  crst : Option (BitVec 64) := none
  /-- ALIVE: its level, its last edge, and whether it is stopped until chip reset (R464). -/
  alive : Bool := true
  edgeAt : BitVec 64 := 0
  /-- half period in force, in ticks: a new DIV applies from the next edge. -/
  half : Nat := 50000
  stopped : Bool := false
  deriving DecidableEq, Repr

-- 19, 20: life cycle, debug access and the chip as a whole

/-- What LCS programs (19 R481, R483, R484): OTP words by byte address with the bits to set, in order. -/
structure LcsOp where
  words : List (Nat × BitVec 64)
  since : BitVec 64
  /-- a life-cycle transition, else a key. -/
  trans : Bool
  /-- target of the transition. -/
  target : Nat := 0
  deriving DecidableEq, Repr

/-- Instructions of the TAP (19 R488). -/
inductive TapInstr
  | extest | samplePreload | idcode | clamp | highz | transom | bypass
  deriving DecidableEq, Repr

/-- What the chip as a whole does. -/
inductive Phase
  /-- cast-on has reached step 8. -/
  | up
  /-- every island but AON is held in reset: EXTEST, CLAMP or HIGHZ is current (19 R489). -/
  | held
  /-- cast-on failed in step 4 for the third time (19 R473). -/
  | failed
  /-- cast-on waits in step 3a for clean crystal cycles (19 R473). -/
  | noCrystal
  /-- the power-on reset holds the chip: a supply is below its rising threshold (19 R473, 20 R498). -/
  | noSupply
  deriving DecidableEq, Repr

/-- Debug access and the chip. -/
structure ChipSt where
  phase : Phase := .up
  lcs : Option LcsOp := none
  /-- a keyed write of SYS_SWRST has asked for a chip reset (02 R51). -/
  swrst : Bool := false
  tap : TapInstr := .idcode
  /-- the boundary register, and what its latest Capture-DR took (20 R496). -/
  boundary : BitVec 547 := 0
  captured : BitVec 547 := 0
  /-- what Capture-DR of the Transom register takes (19 R486). -/
  tdata : Word := 0
  tres : BitVec 2 := 0
  /-- an access of the Transom runs until this tick; the data of the read before it. Its length is a free value,
  DESIGN CHOICE, log entry 189. -/
  tuntil : BitVec 64 := 0
  tprev : Word := 0
  /-- I/O banks A and B are in 3.3 V mode (20 R497). Their modes at State.reset: DESIGN CHOICE, log entry 155. -/
  bankA : Bool := true
  bankB : Bool := true
  /-- islands whose clock has been lost, in the order of ISL_RDY and ISL_RDY2 (02 R51). -/
  noClk : BitVec 11 := 0
  /-- the SYS clock has stopped, and FCC with it (18 R457). -/
  sysStopped : Bool := false
  deriving DecidableEq, Repr

/-- The machine. -/
structure State where
  /-- commands that wait, first in, first out. -/
  pending : List Instr := []
  /-- the timestamp of 02 R50, in 10 ns ticks. -/
  time : BitVec 64 := 0
  /-- block-specific registers that differ from their reset value, by address. -/
  regs : List (Nat × Word) := []
  /-- the active values of RWS registers: a page's registers as its last activated commit left them (02 R43). -/
  active : List (Nat × Word) := []
  /-- the pending sets that wait for their boundary (02 R43). -/
  pendSet : List (Nat × Word) := []
  /-- flash, Skein, working RAM, element table and OTP row. -/
  mem : List Host.Cell := []
  pages : Vector PageSt 44
  bus : BusSt := {}
  reports : List Report := []
  queues : Vector Queue 16
  nextUid : Nat := 0
  seq : SeqSt
  rnd : RndSt
  skn : SknSt
  hhe : Vector HhePort 4
  hp : Vector HpSt 4
  sba : SbaSt
  /-- computations of the last 1.024 ms: end and SYS clocks (06 R165). -/
  hheLog : List (BitVec 64 × Nat) := []
  ax : Vector AxSt 8
  qe : Vector QeSt 6
  ehm : EhmSt
  adc : AdcSt
  med : MedSt
  cam : CamSt
  flc : FlcSt
  csl : CslSt := {}
  sec : SecSt
  uas : Vector UaSt 4
  spt : SptSt := {}
  fcc : FccSt
  chip : ChipSt := {}
  /-- the model's own counter: it names the next free value. -/
  freeCtr : Nat := 0
  deriving DecidableEq, Repr

/-- Pages whose block has EN = 1 after a chip reset (02 R38). -/
def pageEnReset (i : Nat) : Bool :=
  i ≤ 4 || i == 6 || i == 30 || i == 36 || i == 37 || i == 38 || i == 43

/-- A page header after reset (02 R33 to R42). -/
def PageSt.reset (i : Nat) : PageSt :=
  if pageEnReset i then { st := .run, en := true } else { st := .off, en := false }

def SeqSt.reset : SeqSt := { threads := Vector.replicate 16 {}, lastAt := Vector.replicate 4 none }
def RndSt.reset : RndSt := { steps := Vector.replicate 4 [] }
def SknSt.reset : SknSt :=
  { bands := Vector.replicate 128 {}, o := Vector.replicate 4 0, lines := Vector.replicate 4 [] }
def FlcSt.reset : FlcSt := { bufs := Vector.replicate 3 [], lastDem := Vector.replicate 3 none, warned := Vector.replicate 4 false }

def AdcSt.reset : AdcSt :=
  { slices := Vector.ofFn fun i => { phys := some i.val }, lastValid := Vector.replicate 40 none }
def CamSt.reset : CamSt :=
  { vc := Vector.replicate 4 {}, vp := Vector.replicate 2 { ctx := Vector.replicate 2 {} }, ic := Vector.replicate 2 {},
    wins := Vector.replicate 4 none }

def FccSt.reset : FccSt :=
  { real := Vector.replicate 44 0, inj := Vector.replicate 44 0, shadow := Vector.replicate 44 none,
    shadowAt := Vector.replicate 44 0,
    lastBrst := Vector.replicate 44 none, broken := Vector.replicate 44 none }

def HhePort.reset : HhePort := { profiles := Vector.replicate 16 {} }

/-- The machine right after reset: every register at the reset value of its table, memory with nothing listed. -/
def State.reset : State where
  pages := Vector.ofFn fun i => PageSt.reset i.val
  queues := Vector.replicate 16 {}
  seq := SeqSt.reset
  rnd := RndSt.reset
  skn := SknSt.reset
  hhe := Vector.replicate 4 HhePort.reset
  hp := Vector.replicate 4 {}
  sba := { ports := Vector.replicate 4 {} }
  ax := Vector.replicate 8 {}
  qe := Vector.replicate 6 {}
  ehm := { ports := Vector.replicate 4 {} }
  adc := AdcSt.reset
  med := { units := Vector.replicate 8 {}, paper := Vector.replicate 4 true, head := Vector.replicate 4 true, blank := true }
  cam := CamSt.reset
  flc := FlcSt.reset
  sec := { slots := Vector.replicate 8 {} }
  uas := Vector.replicate 4 {}
  fcc := FccSt.reset

end Sys2Proof.Machine
end

