-- ==== Sys2Proof/Machine/RegTable.lean ====
section
/-! DEFINITION. The block-specific registers of every page: where each lies, its reset value and the access type of
its bits, as the register tables of the chapters give them. The common header of a page (02 R32 to R42) is not here:
Machine/Header.lean holds it. A register with several copies lies at base + i * s1 + j * s2. -/

namespace Sys2Proof.Machine

/-- One register of the tables, with the masks of its access types (00 R7). -/
structure Reg where
  base : Nat
  c1 : Nat := 1
  s1 : Nat := 0
  c2 : Nat := 1
  s2 : Nat := 0
  reset : Nat := 0
  /-- reset values copy by copy, where the table gives one per copy. -/
  resets : List Nat := []
  rw : Nat := 0
  rws : Nat := 0
  w1c : Nat := 0
  w1s : Nat := 0
  wo : Nat := 0
  kw : Nat := 0
  /-- a SAT counter with its flag in bit 31 (02 R48). -/
  sat : Bool := false
  /-- reserved bits of the last copy, where it has fewer fields than the others (00 R9). -/
  lastHole : Nat := 0
  deriving DecidableEq, Repr

/-- One field of a register. -/
structure Fld where
  reg : Reg
  lo : Nat
  width : Nat
  deriving DecidableEq, Repr

namespace R

/-- 02 R51. -/
def SYS_CHIP_ID : Reg := { base := 0x40000040, reset := 0xf1b07440 }
/-- 02 R51. -/
def SYS_CLK_STAT : Reg := { base := 0x40000044 }
/-- 02 R51. -/
def SYS_CLK_STAT2 : Reg := { base := 0x40000048 }
/-- 02 R51. -/
def SYS_TIME_LO : Reg := { base := 0x40000050 }
/-- 02 R51. -/
def SYS_TIME_HI : Reg := { base := 0x40000054 }
/-- 02 R51. -/
def SYS_IRQ_SUM0 : Reg := { base := 0x40000058 }
/-- 02 R51. -/
def SYS_IRQ_SUM1 : Reg := { base := 0x4000005c }
/-- 02 R51. -/
def SYS_IRQ_PIN_EN0 : Reg := { base := 0x40000060, rw := 0xffffffff }
/-- 02 R51. -/
def SYS_IRQ_PIN_EN1 : Reg := { base := 0x40000064, rw := 0xfff }
/-- 02 R51. -/
def SYS_AERR_ADDR : Reg := { base := 0x40000068 }
/-- 02 R51. -/
def SYS_AERR_INFO : Reg := { base := 0x4000006c, sat := true }
/-- 02 R51. -/
def SYS_RST_CAUSE : Reg := { base := 0x40000070, reset := 1 }
/-- 02 R51. -/
def SYS_SWRST : Reg := { base := 0x40000074, kw := 0xff }
/-- 02 R51. -/
def SYS_SCRATCH : Reg := { base := 0x40000078, rw := 0xffffffff }
/-- 03 R86. -/
def QMG_CMPL_PEND : Reg := { base := 0x40003040 }
/-- 03 R86. -/
def QMG_HALTED : Reg := { base := 0x40003044 }
/-- 03 R86. -/
def QMG_DBERR : Reg := { base := 0x40003048, w1c := 0xffff }
/-- 03 R86. -/
def QMG_REFUSED : Reg := { base := 0x4000304c, w1c := 0xffff }
/-- 03 R86. -/
def QMG_Qn_CFG : Reg := { base := 0x40003100, c1 := 16, s1 := 0x40, reset := 0x11000, rw := 0x3fdf1 }
/-- 03 R86. -/
def QMG_Qn_RING : Reg := { base := 0x40003104, c1 := 16, s1 := 0x40, reset := 0x20000000, rw := 0xffffffff }
/-- 03 R86. -/
def QMG_Qn_CRING : Reg := { base := 0x40003108, c1 := 16, s1 := 0x40, reset := 0x20000000, rw := 0xffffffff }
/-- 03 R86. -/
def QMG_Qn_DB : Reg := { base := 0x4000310c, c1 := 16, s1 := 0x40, rw := 0xffff }
/-- 03 R86. -/
def QMG_Qn_HEAD : Reg := { base := 0x40003110, c1 := 16, s1 := 0x40 }
/-- 03 R86. -/
def QMG_Qn_CREDIT : Reg := { base := 0x40003114, c1 := 16, s1 := 0x40, reset := 0x10 }
/-- 03 R86. -/
def QMG_Qn_CWR : Reg := { base := 0x40003118, c1 := 16, s1 := 0x40, reset := 0x10000 }
/-- 03 R86. -/
def QMG_Qn_CRD : Reg := { base := 0x4000311c, c1 := 16, s1 := 0x40, rw := 0xffff }
/-- 03 R86. -/
def QMG_Qn_STAT : Reg := { base := 0x40003120, c1 := 16, s1 := 0x40 }
/-- 03 R86. -/
def QMG_Qn_RCMD : Reg := { base := 0x40003124, c1 := 16, s1 := 0x40, wo := 3 }
/-- 03 R86. -/
def QMG_Qn_JOB : Reg := { base := 0x40003128, c1 := 16, s1 := 0x40, reset := 0xffff }
/-- 03 R86. -/
def QMG_Qn_CTHR : Reg := { base := 0x4000312c, c1 := 16, s1 := 0x40, reset := 1, rw := 0x1fff }
/-- 03 R86. -/
def QMG_Qn_DONE : Reg := { base := 0x40003130, c1 := 16, s1 := 0x40, sat := true }
/-- 03 R86. -/
def QMG_Qn_DBREJ : Reg := { base := 0x40003134, c1 := 16, s1 := 0x40, sat := true }
/-- 03 R86. -/
def QMG_Qn_INFL : Reg := { base := 0x40003138, c1 := 16, s1 := 0x40 }
/-- 04 R121. -/
def SEQ_EVENT : Reg := { base := 0x40004040 }
/-- 04 R121. -/
def SEQ_EVENT_SET : Reg := { base := 0x40004044, w1s := 0xffffffff }
/-- 04 R121. -/
def SEQ_EVENT_CLR : Reg := { base := 0x40004048, w1c := 0xffffffff }
/-- 04 R121. -/
def SEQ_BRLIM : Reg := { base := 0x4000404c, reset := 0x10000, rw := 0x1ffff }
/-- 04 R121. -/
def SEQ_BTC_CTL : Reg := { base := 0x40004050, rw := 2, w1s := 1 }
/-- 04 R121. -/
def SEQ_BTC_HIT : Reg := { base := 0x40004054, sat := true }
/-- 04 R121. -/
def SEQ_BTC_MISS : Reg := { base := 0x40004058, sat := true }
/-- 04 R121. -/
def SEQ_FLRETRY : Reg := { base := 0x4000405c, sat := true }
/-- 04 R121. -/
def SEQ_Tn_STAT : Reg := { base := 0x40004100, c1 := 16, s1 := 0x20 }
/-- 04 R121. -/
def SEQ_Tn_PC : Reg := { base := 0x40004104, c1 := 16, s1 := 0x20 }
/-- 04 R121. -/
def SEQ_Tn_LOOP : Reg := { base := 0x40004108, c1 := 16, s1 := 0x20 }
/-- 04 R121. -/
def SEQ_Tn_TRAP : Reg := { base := 0x4000410c, c1 := 16, s1 := 0x20, rw := 0xfffffff1 }
/-- 04 R121. -/
def SEQ_Tn_TRAPSTAT : Reg := { base := 0x40004110, c1 := 16, s1 := 0x20 }
/-- 04 R121. -/
def SEQ_Tn_TRAPCNT : Reg := { base := 0x40004114, c1 := 16, s1 := 0x20, sat := true }
/-- 04 R121. -/
def SEQ_Tn_BADCMD : Reg := { base := 0x40004118, c1 := 16, s1 := 0x20 }
/-- 04 R121. -/
def SEQ_Tn_MISSED : Reg := { base := 0x4000411c, c1 := 16, s1 := 0x20, sat := true }
/-- 05 R146. -/
def RND_DIR : Reg := { base := 0x40005040, rw := 0xfff000 }
/-- 05 R146. -/
def RND_STAT : Reg := { base := 0x40005044 }
/-- 05 R146. -/
def RND_DIRINFO : Reg := { base := 0x40005048 }
/-- 05 R146. -/
def RND_STEPS : Reg := { base := 0x4000504c, sat := true }
/-- 05 R146. -/
def RND_FLRETRY : Reg := { base := 0x40005050, sat := true }
/-- 05 R146. -/
def RND_Pp_AREA : Reg := { base := 0x40005060, c1 := 4, s1 := 4, reset := 0x1000000 }
/-- 05 R147. -/
def SKN_AGE : Reg := { base := 0x40006040, reset := 0x7d0, rw := 0xffff }
/-- 05 R147. -/
def SKN_FREE : Reg := { base := 0x40006044, reset := 0x444470 }
/-- 05 R147. -/
def SKN_POOL_MIN : Reg := { base := 0x40006048, reset := 0x70, rw := 0x7f }
/-- 05 R147. -/
def SKN_WAIT : Reg := { base := 0x4000604c }
/-- 05 R147. -/
def SKN_Pp_HELD : Reg := { base := 0x40006080, c1 := 4, s1 := 0x10 }
/-- 05 R147. -/
def SKN_Pp_LINES : Reg := { base := 0x40006084, c1 := 4, s1 := 0x10 }
/-- 05 R147. -/
def SKN_Pp_WAITS : Reg := { base := 0x40006088, c1 := 4, s1 := 0x10, sat := true }
/-- 05 R147. -/
def SKN_Pp_WMAX : Reg := { base := 0x4000608c, c1 := 4, s1 := 0x10, rw := 0xffff }
/-- 05 R147. -/
def SKN_BANDb : Reg := { base := 0x40006200, c1 := 128, s1 := 4 }
/-- 06 R173. -/
def HHE_STAT : Reg := { base := 0x40007040, w1c := 0xff }
/-- 06 R173. -/
def HHE_LOAD : Reg := { base := 0x40007044, rw := 0xffff0000 }
/-- 06 R173. -/
def HHE_TLINj : Reg := { base := 0x40007080, c1 := 17, s1 := 4, rw := 0xffff }
/-- 06 R174. -/
def HHE_Pp_CFG : Reg := { base := 0x40007100, c1 := 4, s1 := 0x40, rw := 3 }
/-- 06 R174. -/
def HHE_Pp_SRC : Reg := { base := 0x40007104, c1 := 4, s1 := 0x40, reset := 0x320000, rw := 0xff3f3f }
/-- 06 R174. -/
def HHE_Pp_VHFS : Reg := { base := 0x40007108, c1 := 4, s1 := 0x40, reset := 0x8ca0, rw := 0x1ffff }
/-- 06 R174. -/
def HHE_Pp_VHLIM : Reg := { base := 0x4000710c, c1 := 4, s1 := 0x40, reset := 0x75302ee0, rw := 0xffffffff }
/-- 06 R174. -/
def HHE_Pp_RNOM : Reg := { base := 0x40007110, c1 := 4, s1 := 0x40, reset := 0x3e803e8, rw := 0xffffffff }
/-- 06 R174. -/
def HHE_Pp_DCFG : Reg := { base := 0x40007114, c1 := 4, s1 := 0x40, reset := 0x50014, rw := 0xff03ff }
/-- 06 R174. -/
def HHE_Pp_WLIM : Reg := { base := 0x40007118, c1 := 4, s1 := 0x40, reset := 0xffff, rw := 0xffff }
/-- 06 R174. -/
def HHE_Pp_STAT : Reg := { base := 0x4000711c, c1 := 4, s1 := 0x40, w1c := 0x100 }
/-- 06 R174. -/
def HHE_Pp_VHT : Reg := { base := 0x40007120, c1 := 4, s1 := 0x40 }
/-- 06 R174. -/
def HHE_Pp_WIDTH : Reg := { base := 0x40007124, c1 := 4, s1 := 0x40 }
/-- 06 R174. -/
def HHE_Pp_RECOMP : Reg := { base := 0x40007128, c1 := 4, s1 := 0x40, sat := true }
/-- 06 R174. -/
def HHE_Pp_MISS : Reg := { base := 0x4000712c, c1 := 4, s1 := 0x40, sat := true }
/-- 06 R174. -/
def HHE_Pp_CLIP : Reg := { base := 0x40007130, c1 := 4, s1 := 0x40, sat := true }
/-- 06 R174. -/
def HHE_Pp_LINES : Reg := { base := 0x40007134, c1 := 4, s1 := 0x40 }
/-- 06 R175. -/
def HHE_Pp_Dw : Reg := { base := 0x40007200, c1 := 4, s1 := 0x20, c2 := 8, s2 := 4, rw := 0xffffffff }
/-- 06 R175. -/
def HHE_Pp_PRj_E : Reg := { base := 0x40007400, c1 := 4, s1 := 0x100, c2 := 16, s2 := 0x10, rw := 0xffffff }
/-- 06 R175. -/
def HHE_Pp_PRj_A : Reg := { base := 0x40007404, c1 := 4, s1 := 0x100, c2 := 16, s2 := 0x10, rw := 0xffffffff }
/-- 06 R175. -/
def HHE_Pp_PRj_N : Reg := { base := 0x40007408, c1 := 4, s1 := 0x100, c2 := 16, s2 := 0x10, rw := 0xffffff }
/-- 06 R175. -/
def HHE_Pp_PRj_CTL : Reg := { base := 0x4000740c, c1 := 4, s1 := 0x100, c2 := 16, s2 := 0x10, rw := 0x8000ffff }
/-- 07 R202. -/
def HPn_CFG : Reg := { base := 0x40008040, c1 := 4, s1 := 0x1000, reset := 0x44009, rw := 0xffff7f }
/-- 07 R202. -/
def HPn_POL : Reg := { base := 0x40008044, c1 := 4, s1 := 0x1000, rw := 0xff07 }
/-- 07 R202. -/
def HPn_PACE : Reg := { base := 0x40008048, c1 := 4, s1 := 0x1000, reset := 0x20, rw := 0xfff }
/-- 07 R202. -/
def HPn_LINE_T : Reg := { base := 0x4000804c, c1 := 4, s1 := 0x1000, reset := 0x516155, rws := 0xffffffff }
/-- 07 R202. -/
def HPn_EPITCH : Reg := { base := 0x40008050, c1 := 4, s1 := 0x1000, reset := 0x10000, rws := 0xffffffff }
/-- 07 R202. -/
def HPn_ESYNC : Reg := { base := 0x40008054, c1 := 4, s1 := 0x1000, wo := 0xffffffff }
/-- 07 R202. -/
def HPn_WFIX : Reg := { base := 0x40008058, c1 := 4, s1 := 0x1000, reset := 0x1f4, rws := 0xffff }
/-- 07 R202. -/
def HPn_GUARD : Reg := { base := 0x4000805c, c1 := 4, s1 := 0x1000, reset := 0x50a0a0a, rws := 0xffffffff }
/-- 07 R202. -/
def HPn_SGCFG : Reg := { base := 0x40008060, c1 := 4, s1 := 0x1000, reset := 0xa11, rws := 0xffffff1f }
/-- 07 R202. -/
def HPn_SGB0 : Reg := { base := 0x40008064, c1 := 4, s1 := 0x1000, rws := 0x7f7f7f7f }
/-- 07 R202. -/
def HPn_SGB1 : Reg := { base := 0x40008068, c1 := 4, s1 := 0x1000, rws := 0x7f7f7f }
/-- 07 R202. -/
def HPn_STBMAX : Reg := { base := 0x4000806c, c1 := 4, s1 := 0x1000, reset := 0x5dc, kw := 0xffff }
/-- 07 R202. -/
def HPn_SHUT : Reg := { base := 0x40008070, c1 := 4, s1 := 0x1000, w1s := 6 }
/-- 07 R202. -/
def HPn_STAT : Reg := { base := 0x40008074, c1 := 4, s1 := 0x1000 }
/-- 07 R202. -/
def HPn_LREP : Reg := { base := 0x40008078, c1 := 4, s1 := 0x1000 }
/-- 07 R202. -/
def HPn_LTIME : Reg := { base := 0x4000807c, c1 := 4, s1 := 0x1000 }
/-- 07 R202. -/
def HPn_TACT : Reg := { base := 0x40008080, c1 := 4, s1 := 0x1000 }
/-- 07 R202. -/
def HPn_HWM : Reg := { base := 0x40008084, c1 := 4, s1 := 0x1000 }
/-- 07 R202. -/
def HPn_NEXTTRIG : Reg := { base := 0x40008088, c1 := 4, s1 := 0x1000 }
/-- 07 R202. -/
def HPn_OVR : Reg := { base := 0x4000808c, c1 := 4, s1 := 0x1000, sat := true }
/-- 07 R202. -/
def HPn_STARVE : Reg := { base := 0x40008090, c1 := 4, s1 := 0x1000, sat := true }
/-- 07 R202. -/
def HPn_LATE : Reg := { base := 0x40008094, c1 := 4, s1 := 0x1000, sat := true }
/-- 07 R202. -/
def HPn_REVERSE : Reg := { base := 0x40008098, c1 := 4, s1 := 0x1000, sat := true }
/-- 07 R202. -/
def HPn_LINES : Reg := { base := 0x4000809c, c1 := 4, s1 := 0x1000 }
/-- 07 R202. -/
def HPn_ERR : Reg := { base := 0x400080a0, c1 := 4, s1 := 0x1000, w1c := 3 }
/-- 08 R219. -/
def SBA_GCAP : Reg := { base := 0x4000c040, reset := 0x64, kw := 0xffff }
/-- 08 R219. -/
def SBA_ISUM : Reg := { base := 0x4000c044, rw := 0xffff0000 }
/-- 08 R219. -/
def SBA_GRANT : Reg := { base := 0x4000c048 }
/-- 08 R220. -/
def SBA_PCAPp : Reg := { base := 0x4000c100, c1 := 4, s1 := 0x40, reset := 0x64, kw := 0xffff }
/-- 08 R220. -/
def SBA_Pp_EST : Reg := { base := 0x4000c104, c1 := 4, s1 := 0x40, reset := 0xa00, rws := 0x3fff }
/-- 08 R220. -/
def SBA_Pp_DUTY : Reg := { base := 0x4000c108, c1 := 4, s1 := 0x40, reset := 0x32000a, kw := 0x7f007f }
/-- 08 R220. -/
def SBA_Pp_ENERGY : Reg := { base := 0x4000c10c, c1 := 4, s1 := 0x40, reset := 0x64, kw := 0xffff03ff }
/-- 08 R220. -/
def SBA_GVp_CTL : Reg := { base := 0x4000c110, c1 := 4, s1 := 0x40, reset := 0x7d00001, rws := 0xffff0001 }
/-- 08 R220. -/
def SBA_GVp_RATE : Reg := { base := 0x4000c114, c1 := 4, s1 := 0x40, reset := 0x280258, rws := 0xffffffff }
/-- 08 R220. -/
def SBA_GVp_LEAD : Reg := { base := 0x4000c118, c1 := 4, s1 := 0x40, reset := 0x20040032, rws := 0xffffffff }
/-- 08 R220. -/
def SBA_GVp_LIM : Reg := { base := 0x4000c11c, c1 := 4, s1 := 0x40, reset := 0x5a08000a, rws := 0xffffffff }
/-- 08 R220. -/
def SBA_GVp_STAT : Reg := { base := 0x4000c120, c1 := 4, s1 := 0x40 }
/-- 08 R220. -/
def SBA_GVp_F : Reg := { base := 0x4000c124, c1 := 4, s1 := 0x40 }
/-- 08 R220. -/
def SBA_Pp_IEST : Reg := { base := 0x4000c128, c1 := 4, s1 := 0x40 }
/-- 08 R220. -/
def SBA_Pp_DEFER : Reg := { base := 0x4000c12c, c1 := 4, s1 := 0x40, sat := true }
/-- 08 R220. -/
def SBA_Pp_DMAX : Reg := { base := 0x4000c130, c1 := 4, s1 := 0x40, rw := 0xffff }
/-- 08 R220. -/
def SBA_Pp_CLIP : Reg := { base := 0x4000c134, c1 := 4, s1 := 0x40 }
/-- 08 R220. -/
def SBA_Pp_EWIN : Reg := { base := 0x4000c138, c1 := 4, s1 := 0x40 }
/-- 08 R220. -/
def SBA_Pp_SLOW : Reg := { base := 0x4000c13c, c1 := 4, s1 := 0x40, sat := true }
/-- 09 R239. -/
def EHM_EWSEL : Reg := { base := 0x4000d040, rw := 0x31fff }
/-- 09 R239. -/
def EHM_EW_LO : Reg := { base := 0x4000d044, reset := 0x33, kw := 0xffffffff }
/-- 09 R239. -/
def EHM_EW_HI : Reg := { base := 0x4000d048, kw := 0xffffffff }
/-- 09 R239. -/
def EHM_RSTSRC : Reg := { base := 0x4000d04c, kw := 0xfffffff8 }
/-- 09 R239. -/
def EHM_RSTCTL : Reg := { base := 0x4000d050, kw := 0x9fffdfff }
/-- 09 R239. -/
def EHM_RSTSTAT : Reg := { base := 0x4000d054 }
/-- 09 R240. -/
def EHM_Pp_SCAN : Reg := { base := 0x4000d100, c1 := 4, s1 := 0x40, reset := 0xff140002, rw := 0xffff0003 }
/-- 09 R240. -/
def EHM_Pp_MCFG : Reg := { base := 0x4000d104, c1 := 4, s1 := 0x40, reset := 0x640000, rw := 0xff3f, kw := 0xff0000 }
/-- 09 R240. -/
def EHM_Pp_SENSE : Reg := { base := 0x4000d108, c1 := 4, s1 := 0x40, reset := 0x27100014, rw := 0xffffffff }
/-- 09 R240. -/
def EHM_Pp_REF : Reg := { base := 0x4000d10c, c1 := 4, s1 := 0x40, rw := 0x1fff }
/-- 09 R240. -/
def EHM_Pp_CUR : Reg := { base := 0x4000d110, c1 := 4, s1 := 0x40, rw := 0x1fff }
/-- 09 R240. -/
def EHM_Pp_LAST : Reg := { base := 0x4000d114, c1 := 4, s1 := 0x40 }
/-- 09 R240. -/
def EHM_Pp_STAT : Reg := { base := 0x4000d118, c1 := 4, s1 := 0x40 }
/-- 09 R240. -/
def EHM_Pp_CNT : Reg := { base := 0x4000d11c, c1 := 4, s1 := 0x40 }
/-- 09 R240. -/
def EHM_Pp_OPT : Reg := { base := 0x4000d120, c1 := 4, s1 := 0x40, reset := 0x1f200040, kw := 0xbf3f007f }
/-- 09 R240. -/
def EHM_Pp_PRIO : Reg := { base := 0x4000d124, c1 := 4, s1 := 0x40, wo := 0x1fff }
/-- 09 R240. -/
def EHM_Pp_DISC : Reg := { base := 0x4000d128, c1 := 4, s1 := 0x40, sat := true }
/-- 09 R240. -/
def EHM_Pp_YIELD : Reg := { base := 0x4000d12c, c1 := 4, s1 := 0x40, sat := true }
/-- 09 R240. -/
def EHM_Pp_OSTEP : Reg := { base := 0x4000d130, c1 := 4, s1 := 0x40, sat := true }
/-- 09 R240. -/
def EHM_Pp_MEAS : Reg := { base := 0x4000d134, c1 := 4, s1 := 0x40, sat := true }
/-- 10 R269. -/
def MOC_ESTOP : Reg := { base := 0x4000e040, w1s := 0xff }
/-- 10 R269. -/
def MOC_GO : Reg := { base := 0x4000e044, w1s := 0xff }
/-- 10 R269. -/
def MOC_BUSY : Reg := { base := 0x4000e048 }
/-- 10 R269. -/
def MOC_ADVDISC : Reg := { base := 0x4000e04c, sat := true }
/-- 10 R269. -/
def MOC_PORTp : Reg := { base := 0x4000e080, c1 := 4, s1 := 8, rw := 0xf0f }
/-- 10 R269. -/
def MOC_PORTp_FPOS : Reg := { base := 0x4000e084, c1 := 4, s1 := 8 }
/-- 10 R270. -/
def AXn_CFG : Reg := { base := 0x40010040, c1 := 8, s1 := 0x1000, reset := 0x14050000, rw := 0xffff0fc3 }
/-- 10 R270. -/
def AXn_VSTART : Reg := { base := 0x40010044, c1 := 8, s1 := 0x1000, reset := 0x3e8, rws := 0x1fffff }
/-- 10 R270. -/
def AXn_ACC1 : Reg := { base := 0x40010048, c1 := 8, s1 := 0x1000, reset := 0x186a0, rws := 0xffffff }
/-- 10 R270. -/
def AXn_VBRK : Reg := { base := 0x4001004c, c1 := 8, s1 := 0x1000, reset := 0xfa0, rws := 0x1fffff }
/-- 10 R270. -/
def AXn_ACC2 : Reg := { base := 0x40010050, c1 := 8, s1 := 0x1000, reset := 0xc350, rws := 0xffffff }
/-- 10 R270. -/
def AXn_VMAX : Reg := { base := 0x40010054, c1 := 8, s1 := 0x1000, reset := 0x2710, rws := 0x1fffff }
/-- 10 R270. -/
def AXn_DEC2 : Reg := { base := 0x40010058, c1 := 8, s1 := 0x1000, reset := 0xc350, rws := 0xffffff }
/-- 10 R270. -/
def AXn_DEC1 : Reg := { base := 0x4001005c, c1 := 8, s1 := 0x1000, reset := 0x186a0, rws := 0xffffff }
/-- 10 R270. -/
def AXn_VSTOP : Reg := { base := 0x40010060, c1 := 8, s1 := 0x1000, reset := 0x3e8, rws := 0x1fffff }
/-- 10 R270. -/
def AXn_EDEC : Reg := { base := 0x40010064, c1 := 8, s1 := 0x1000, reset := 0xf4240, rw := 0xffffff }
/-- 10 R270. -/
def AXn_LPITCH : Reg := { base := 0x40010068, c1 := 8, s1 := 0x1000, reset := 0x10000, rws := 0xffffffff }
/-- 10 R270. -/
def AXn_SEARCH : Reg := { base := 0x4001006c, c1 := 8, s1 := 0x1000, reset := 0x1f4, rws := 0x1fffff }
/-- 10 R270. -/
def AXn_CUT : Reg := { base := 0x40010070, c1 := 8, s1 := 0x1000, rws := 0xffffffff }
/-- 10 R270. -/
def AXn_HOME : Reg := { base := 0x40010074, c1 := 8, s1 := 0x1000, reset := 0xfa02000, rw := 0xffffff8f }
/-- 10 R270. -/
def AXn_IREF : Reg := { base := 0x40010078, c1 := 8, s1 := 0x1000, rw := 0xffffffff }
/-- 10 R270. -/
def AXn_ISTBY : Reg := { base := 0x4001007c, c1 := 8, s1 := 0x1000, reset := 0x3201f4, rw := 0xffffff }
/-- 10 R270. -/
def AXn_ENC : Reg := { base := 0x40010080, c1 := 8, s1 := 0x1000, reset := 0xa0010, rw := 0x87ffffff }
/-- 10 R270. -/
def AXn_ENCR : Reg := { base := 0x40010084, c1 := 8, s1 := 0x1000, reset := 0x1000000, rw := 0xffffffff }
/-- 10 R270. -/
def AXn_LAG : Reg := { base := 0x40010088, c1 := 8, s1 := 0x1000, reset := 0x1000040, rw := 0xffffffff }
/-- 10 R270. -/
def AXn_GEAR : Reg := { base := 0x4001008c, c1 := 8, s1 := 0x1000, rw := 0xffff00ff }
/-- 10 R270. -/
def AXn_TARGET : Reg := { base := 0x40010090, c1 := 8, s1 := 0x1000, rw := 0xffffffff }
/-- 10 R270. -/
def AXn_VCMD : Reg := { base := 0x40010094, c1 := 8, s1 := 0x1000, rw := 0x801fffff }
/-- 10 R270. -/
def AXn_CMD : Reg := { base := 0x40010098, c1 := 8, s1 := 0x1000, wo := 0x10f }
/-- 10 R270. -/
def AXn_POS : Reg := { base := 0x4001009c, c1 := 8, s1 := 0x1000 }
/-- 10 R270. -/
def AXn_VEL : Reg := { base := 0x400100a0, c1 := 8, s1 := 0x1000 }
/-- 10 R270. -/
def AXn_DEV : Reg := { base := 0x400100a4, c1 := 8, s1 := 0x1000 }
/-- 10 R270. -/
def AXn_BUDGET : Reg := { base := 0x400100a8, c1 := 8, s1 := 0x1000 }
/-- 10 R270. -/
def AXn_STAT : Reg := { base := 0x400100ac, c1 := 8, s1 := 0x1000 }
/-- 10 R270. -/
def AXn_STALLS : Reg := { base := 0x400100b0, c1 := 8, s1 := 0x1000, sat := true }
/-- 10 R270. -/
def AXn_YANKS : Reg := { base := 0x400100b4, c1 := 8, s1 := 0x1000, sat := true }
/-- 10 R270. -/
def AXn_LAGS : Reg := { base := 0x400100b8, c1 := 8, s1 := 0x1000, sat := true }
/-- 10 R270. -/
def AXn_ERR : Reg := { base := 0x400100bc, c1 := 8, s1 := 0x1000, w1c := 7 }
/-- 10 R270. -/
def AXn_HINGEh : Reg := { base := 0x40010104, c1 := 8, s1 := 0x1000, c2 := 7, s2 := 4, rws := 0xffffffff }
/-- 10 R270. -/
def AXn_RATIOh : Reg := { base := 0x40010120, c1 := 8, s1 := 0x1000, c2 := 8, s2 := 4, rws := 0xffffffff }
/-- 10 R272. -/
def QEn_CFG : Reg := { base := 0x40018040, c1 := 6, s1 := 0x1000, rw := 0x7f3 }
/-- 10 R272. -/
def QEn_POS_LO : Reg := { base := 0x40018044, c1 := 6, s1 := 0x1000 }
/-- 10 R272. -/
def QEn_POS_HI : Reg := { base := 0x40018048, c1 := 6, s1 := 0x1000 }
/-- 10 R272. -/
def QEn_IDX : Reg := { base := 0x4001804c, c1 := 6, s1 := 0x1000 }
/-- 10 R272. -/
def QEn_RATE : Reg := { base := 0x40018050, c1 := 6, s1 := 0x1000 }
/-- 10 R272. -/
def QEn_IDXCNT : Reg := { base := 0x40018054, c1 := 6, s1 := 0x1000 }
/-- 10 R272. -/
def QEn_QERR : Reg := { base := 0x40018058, c1 := 6, s1 := 0x1000, sat := true }
/-- 11 R297. -/
def ADC_CTRL : Reg := { base := 0x40020040, rws := 7 }
/-- 11 R297. -/
def ADC_SCAN : Reg := { base := 0x40020044, reset := 0x1800, rws := 0xfffff }
/-- 11 R297. -/
def ADC_START : Reg := { base := 0x40020048, w1s := 1 }
/-- 11 R297. -/
def ADC_FMT : Reg := { base := 0x4002004c, rw := 1 }
/-- 11 R297. -/
def ADC_CAL : Reg := { base := 0x40020050, reset := 0x80000064, rw := 0x8000ffff }
/-- 11 R297. -/
def ADC_STAT : Reg := { base := 0x40020054, reset := 0x8000 }
/-- 11 R297. -/
def ADC_SLMAP : Reg := { base := 0x40020058, reset := 0x76543210 }
/-- 11 R297. -/
def ADC_FIT : Reg := { base := 0x4002005c }
/-- 11 R297. -/
def ADC_SCANS : Reg := { base := 0x40020060 }
/-- 11 R297. -/
def ADC_FIFO_LO : Reg := { base := 0x40020064 }
/-- 11 R297. -/
def ADC_FIFO_HI : Reg := { base := 0x40020068 }
/-- 11 R297. -/
def ADC_FIFO_LVL : Reg := { base := 0x4002006c, reset := 0x800000, rw := 0x1ff0000 }
/-- 11 R297. -/
def ADC_FIFO_OVF : Reg := { base := 0x40020070, sat := true }
/-- 11 R297. -/
def ADC_BGLATE : Reg := { base := 0x40020074, sat := true }
/-- 11 R297. -/
def ADC_BREFUSE : Reg := { base := 0x40020078, sat := true }
/-- 11 R297. -/
def ADC_CALSEL : Reg := { base := 0x4002007c, rw := 0xf7 }
/-- 11 R297. -/
def ADC_CALOFS : Reg := { base := 0x40020080 }
/-- 11 R297. -/
def ADC_CALGC : Reg := { base := 0x40020084, reset := 0x400000 }
/-- 11 R297. -/
def ADC_HANDOVERS : Reg := { base := 0x40020088 }
/-- 11 R297. -/
def ADC_LASTc_LO : Reg := { base := 0x40020200, c1 := 40, s1 := 8 }
/-- 11 R297. -/
def ADC_LASTc_HI : Reg := { base := 0x40020204, c1 := 40, s1 := 8 }
/-- 11 R298. -/
def ADT_REJ : Reg := { base := 0x40021040 }
/-- 11 R298. -/
def ADT_Ee_CFG : Reg := { base := 0x40021100, c1 := 40, s1 := 8, rws := 0xe3fff77f }
/-- 11 R298. -/
def ADT_Ee_RATE : Reg := { base := 0x40021104, c1 := 40, s1 := 8, reset := 1, rws := 0xff }
/-- 12 R316. -/
def MED_GPI : Reg := { base := 0x40022040 }
/-- 12 R316. -/
def MED_GPIDEB : Reg := { base := 0x40022044, reset := 0xa, rw := 0xff }
/-- 12 R316. -/
def MED_GPIIRQ : Reg := { base := 0x40022048, rw := 0xffffffff }
/-- 12 R316. -/
def MED_REF : Reg := { base := 0x4002204c, reset := 0x10000, rw := 0x8001ffff }
/-- 12 R316. -/
def MED_STALE : Reg := { base := 0x40022050, reset := 0xa, rw := 0xff }
/-- 12 R316. -/
def MED_CALSTART : Reg := { base := 0x40022054, w1s := 0xff }
/-- 12 R316. -/
def MED_LEDk : Reg := { base := 0x40022060, c1 := 8, s1 := 4, rw := 0x103ff }
/-- 12 R316. -/
def MED_PORTp : Reg := { base := 0x40022080, c1 := 4, s1 := 8, rw := 0x3ffff }
/-- 12 R316. -/
def MED_PSTATp : Reg := { base := 0x40022084, c1 := 4, s1 := 8 }
/-- 12 R316. -/
def MED_Uu_CFG : Reg := { base := 0x40022100, c1 := 8, s1 := 0x40, reset := 0x900300, rw := 0xfffeff3f }
/-- 12 R316. -/
def MED_Uu_THR : Reg := { base := 0x40022104, c1 := 8, s1 := 0x40, reset := 0x20001000, rw := 0xffffffff }
/-- 12 R316. -/
def MED_Uu_LVL : Reg := { base := 0x40022108, c1 := 8, s1 := 0x40 }
/-- 12 R316. -/
def MED_Uu_BASE : Reg := { base := 0x4002210c, c1 := 8, s1 := 0x40, rw := 0xffff0000 }
/-- 12 R316. -/
def MED_Uu_EDGE : Reg := { base := 0x40022110, c1 := 8, s1 := 0x40 }
/-- 12 R316. -/
def MED_Uu_LEN : Reg := { base := 0x40022114, c1 := 8, s1 := 0x40 }
/-- 12 R316. -/
def MED_Uu_CAL : Reg := { base := 0x40022118, c1 := 8, s1 := 0x40, reset := 0xbb80800, rw := 0xffffffff }
/-- 12 R316. -/
def MED_Uu_LIM : Reg := { base := 0x4002211c, c1 := 8, s1 := 0x40, reset := 0x800, rw := 0xffffffff }
/-- 12 R316. -/
def MED_Uu_STAT : Reg := { base := 0x40022120, c1 := 8, s1 := 0x40, w1c := 4 }
/-- 12 R316. -/
def MED_Uu_EDGES : Reg := { base := 0x40022124, c1 := 8, s1 := 0x40, sat := true }
/-- 13 R341. -/
def CSI_CFG : Reg := { base := 0x40030040, reset := 0x2801, rw := 0xff03 }
/-- 13 R341. -/
def CSI_STAT : Reg := { base := 0x40030044 }
/-- 13 R341. -/
def CSI_ECCCOR : Reg := { base := 0x40030048, sat := true }
/-- 13 R341. -/
def CSI_ECCERR : Reg := { base := 0x4003004c, sat := true }
/-- 13 R341. -/
def CSI_SOTERR : Reg := { base := 0x40030050, sat := true }
/-- 13 R341. -/
def CSI_FMTERR : Reg := { base := 0x40030054, sat := true }
/-- 13 R341. -/
def CSI_DROPPKT : Reg := { base := 0x40030058, sat := true }
/-- 13 R341. -/
def CSI_VCv_CFG : Reg := { base := 0x40030080, c1 := 4, s1 := 8, reset := 0x2b500100, rw := 0xffffffff }
/-- 13 R341. -/
def CSI_VCv_FRM : Reg := { base := 0x40030084, c1 := 4, s1 := 8 }
/-- 13 R342. -/
def VPn_BIND : Reg := { base := 0x40031040, c1 := 2, s1 := 0x1000, reset := 0x640000, rw := 0xffff0004, w1c := 2 }
/-- 13 R342. -/
def VPn_PIPE : Reg := { base := 0x40031044, c1 := 2, s1 := 0x1000, rws := 0x87 }
/-- 13 R342. -/
def VPn_MERGE : Reg := { base := 0x40031048, c1 := 2, s1 := 0x1000, reset := 0x4000f00, rws := 0xffff0fff }
/-- 13 R342. -/
def VPn_BLK0 : Reg := { base := 0x4003104c, c1 := 2, s1 := 0x1000, rws := 0xffffffff }
/-- 13 R342. -/
def VPn_BLK1 : Reg := { base := 0x40031050, c1 := 2, s1 := 0x1000, rws := 0xffffffff }
/-- 13 R342. -/
def VPn_WB0 : Reg := { base := 0x40031054, c1 := 2, s1 := 0x1000, reset := 0x10001000, rws := 0xffffffff }
/-- 13 R342. -/
def VPn_WB1 : Reg := { base := 0x40031058, c1 := 2, s1 := 0x1000, reset := 0x1000, rws := 0xffff }
/-- 13 R342. -/
def VPn_CCM0 : Reg := { base := 0x4003105c, c1 := 2, s1 := 0x1000, reset := 0x1000, rws := 0xffffffff }
/-- 13 R342. -/
def VPn_CCM1 : Reg := { base := 0x40031060, c1 := 2, s1 := 0x1000, rws := 0xffffffff }
/-- 13 R342. -/
def VPn_CCM2 : Reg := { base := 0x40031064, c1 := 2, s1 := 0x1000, reset := 0x1000, rws := 0xffffffff }
/-- 13 R342. -/
def VPn_CCM3 : Reg := { base := 0x40031068, c1 := 2, s1 := 0x1000, rws := 0xffffffff }
/-- 13 R342. -/
def VPn_CCM4 : Reg := { base := 0x4003106c, c1 := 2, s1 := 0x1000, reset := 0x1000, rws := 0xffff }
/-- 13 R342. -/
def VPn_CLS : Reg := { base := 0x40031070, c1 := 2, s1 := 0x1000, reset := 0x64800400, rws := 0xffffff0f }
/-- 13 R342. -/
def VPn_DENS : Reg := { base := 0x40031074, c1 := 2, s1 := 0x1000, reset := 0x966e3c1e, rws := 0xffffffff }
/-- 13 R342. -/
def VPn_SCROP0 : Reg := { base := 0x40031078, c1 := 2, s1 := 0x1000, rws := 0xfff0fff }
/-- 13 R342. -/
def VPn_SCROP1 : Reg := { base := 0x4003107c, c1 := 2, s1 := 0x1000, reset := 0x3ff07ff, rws := 0xcfff0fff }
/-- 13 R342. -/
def VPn_SNAP0 : Reg := { base := 0x40031080, c1 := 2, s1 := 0x1000, rws := 0xfff0fff }
/-- 13 R342. -/
def VPn_SNAP1 : Reg := { base := 0x40031084, c1 := 2, s1 := 0x1000, reset := 0x800080, rws := 0xcfff0fff }
/-- 13 R342. -/
def VPn_SNAPCTL : Reg := { base := 0x40031088, c1 := 2, s1 := 0x1000, w1c := 2, w1s := 1 }
/-- 13 R342. -/
def VPn_SNAPADDR : Reg := { base := 0x4003108c, c1 := 2, s1 := 0x1000, rw := 0x7fff }
/-- 13 R342. -/
def VPn_SNAPDATA : Reg := { base := 0x40031090, c1 := 2, s1 := 0x1000 }
/-- 13 R342. -/
def VPn_TMO : Reg := { base := 0x40031094, c1 := 2, s1 := 0x1000, reset := 0x3e801f4, rw := 0xffffffff }
/-- 13 R342. -/
def VPn_STAT : Reg := { base := 0x40031098, c1 := 2, s1 := 0x1000 }
/-- 13 R342. -/
def VPn_DROP : Reg := { base := 0x4003109c, c1 := 2, s1 := 0x1000, sat := true }
/-- 13 R342. -/
def VPn_DROPR : Reg := { base := 0x400310a0, c1 := 2, s1 := 0x1000 }
/-- 13 R342. -/
def VPn_FRAMES : Reg := { base := 0x400310a4, c1 := 2, s1 := 0x1000 }
/-- 13 R342. -/
def VPn_UNSEEN : Reg := { base := 0x400310a8, c1 := 2, s1 := 0x1000, sat := true }
/-- 13 R342. -/
def VPn_DOLAST : Reg := { base := 0x400310ac, c1 := 2, s1 := 0x1000 }
/-- 13 R342. -/
def VPn_STATCTL : Reg := { base := 0x400310b0, c1 := 2, s1 := 0x1000, rw := 1 }
/-- 13 R342. -/
def VPn_SFRM : Reg := { base := 0x400310b4, c1 := 2, s1 := 0x1000 }
/-- 13 R342. -/
def VPn_SINFO : Reg := { base := 0x400310b8, c1 := 2, s1 := 0x1000 }
/-- 13 R342. -/
def VPn_STIME : Reg := { base := 0x400310bc, c1 := 2, s1 := 0x1000 }
/-- 13 R342. -/
def VPn_SMEAN0 : Reg := { base := 0x400310c0, c1 := 2, s1 := 0x1000 }
/-- 13 R342. -/
def VPn_SMEAN1 : Reg := { base := 0x400310c4, c1 := 2, s1 := 0x1000 }
/-- 13 R342. -/
def VPn_WVER : Reg := { base := 0x400310c8, c1 := 2, s1 := 0x1000, sat := true }
/-- 13 R342. -/
def VPn_WMIS : Reg := { base := 0x400310cc, c1 := 2, s1 := 0x1000, sat := true }
/-- 13 R342. -/
def VPn_WCNT : Reg := { base := 0x400310d0, c1 := 2, s1 := 0x1000 }
/-- 13 R342. -/
def VPn_SHISTj : Reg := { base := 0x40031100, c1 := 2, s1 := 0x1000, c2 := 16, s2 := 4 }
/-- 13 R342. -/
def VPn_LINw : Reg := { base := 0x40031140, c1 := 2, s1 := 0x1000, c2 := 9, s2 := 4, resets := [0x10000000, 0x30002000, 0x50004000, 0x70006000, 0x90008000, 0xb000a000, 0xd000c000, 0xf000e000, 0xffff], rws := 0xffffffff, lastHole := 0xffff0000 }
/-- 13 R342. -/
def VPn_TONEw : Reg := { base := 0x40031170, c1 := 2, s1 := 0x1000, c2 := 5, s2 := 4, resets := [0x30201000, 0x70605040, 0xb0a09080, 0xf0e0d0c0, 0xff], rws := 0xffffffff, lastHole := 0xffffff00 }
/-- 13 R343. -/
def VPn_Cx_CFG : Reg := { base := 0x40031200, c1 := 2, s1 := 0x1000, c2 := 2, s2 := 0x40, rw := 0x800000cf }
/-- 13 R343. -/
def VPn_Cx_E : Reg := { base := 0x40031204, c1 := 2, s1 := 0x1000, c2 := 2, s2 := 0x40, reset := 0x400000, rws := 0x1fff1fff }
/-- 13 R343. -/
def VPn_Cx_X0 : Reg := { base := 0x40031208, c1 := 2, s1 := 0x1000, c2 := 2, s2 := 0x40, rws := 0xffff }
/-- 13 R343. -/
def VPn_Cx_XP : Reg := { base := 0x4003120c, c1 := 2, s1 := 0x1000, c2 := 2, s2 := 0x40, reset := 0x10000, rws := 0xffffffff }
/-- 13 R343. -/
def VPn_Cx_ROW : Reg := { base := 0x40031210, c1 := 2, s1 := 0x1000, c2 := 2, s2 := 0x40, reset := 0x3ff0000, rws := 0xfff0fff }
/-- 13 R343. -/
def VPn_Cx_OFFS : Reg := { base := 0x40031214, c1 := 2, s1 := 0x1000, c2 := 2, s2 := 0x40, rws := 0xffffffff }
/-- 13 R343. -/
def VPn_Cx_RP : Reg := { base := 0x40031218, c1 := 2, s1 := 0x1000, c2 := 2, s2 := 0x40, reset := 0x10000, rws := 0xffffffff }
/-- 13 R343. -/
def VPn_Cx_LAG : Reg := { base := 0x4003121c, c1 := 2, s1 := 0x1000, c2 := 2, s2 := 0x40, rws := 0xffff }
/-- 13 R344. -/
def ICk_CFG : Reg := { base := 0x40033100, c1 := 2, s1 := 0x40, reset := 0xa01, rw := 0xff07 }
/-- 13 R344. -/
def ICk_CMD : Reg := { base := 0x40033104, c1 := 2, s1 := 0x40, wo := 0xfffffc7f }
/-- 13 R344. -/
def ICk_TXi : Reg := { base := 0x40033108, c1 := 2, s1 := 0x40, c2 := 4, s2 := 4, rw := 0xffffffff }
/-- 13 R344. -/
def ICk_RXi : Reg := { base := 0x40033118, c1 := 2, s1 := 0x40, c2 := 4, s2 := 4 }
/-- 13 R344. -/
def ICk_STAT : Reg := { base := 0x40033128, c1 := 2, s1 := 0x40, w1c := 0x20 }
/-- 13 R344. -/
def ICk_NACKS : Reg := { base := 0x4003312c, c1 := 2, s1 := 0x40, sat := true }
/-- 13 R344. -/
def ICk_LFRM : Reg := { base := 0x40033130, c1 := 2, s1 := 0x40 }
/-- 14 R373. -/
def FLC_CFG : Reg := { base := 0x40040040, reset := 0xc00, rw := 0xf70, kw := 3 }
/-- 14 R373. -/
def FLC_CMD : Reg := { base := 0x40040044, kw := 0xffdfffff }
/-- 14 R373. -/
def FLC_STAT : Reg := { base := 0x40040048 }
/-- 14 R373. -/
def FLC_RES : Reg := { base := 0x4004004c }
/-- 14 R373. -/
def FLC_FADDR : Reg := { base := 0x40040050 }
/-- 14 R373. -/
def FLC_CNT : Reg := { base := 0x40040054 }
/-- 14 R373. -/
def FLC_REJ : Reg := { base := 0x40040058 }
/-- 14 R373. -/
def FLC_ERRTH : Reg := { base := 0x4004005c, reset := 0x4060100, rw := 0xffffffff }
/-- 14 R373. -/
def FLC_CORR0 : Reg := { base := 0x40040060, sat := true }
/-- 14 R373. -/
def FLC_CORR1 : Reg := { base := 0x40040064, sat := true }
/-- 14 R373. -/
def FLC_DED : Reg := { base := 0x40040068, sat := true }
/-- 14 R373. -/
def FLC_ECCADDR : Reg := { base := 0x4004006c }
/-- 14 R373. -/
def FLC_HSUB : Reg := { base := 0x40040070, w1c := 7 }
/-- 14 R373. -/
def FLC_SUSP : Reg := { base := 0x40040074, reset := 0x3e80002, rw := 0xffff00ff }
/-- 14 R373. -/
def FLC_SUSCNT : Reg := { base := 0x40040078, sat := true }
/-- 14 R373. -/
def FLC_CYCSEL : Reg := { base := 0x4004007c, rw := 0xfff }
/-- 14 R373. -/
def FLC_CYC : Reg := { base := 0x40040080 }
/-- 14 R373. -/
def FLC_WOWN : Reg := { base := 0x40040084 }
/-- 14 R373. -/
def FLC_WCLR : Reg := { base := 0x40040088, w1s := 1 }
/-- 14 R373. -/
def FLC_WDISC : Reg := { base := 0x4004008c, sat := true }
/-- 14 R373. -/
def FLC_PWD_LO : Reg := { base := 0x40040090, kw := 0xffffffff }
/-- 14 R373. -/
def FLC_PWD_HI : Reg := { base := 0x40040094, kw := 0xffffffff }
/-- 14 R373. -/
def FLC_PWDSTAT : Reg := { base := 0x40040098, w1s := 0x10 }
/-- 14 R373. -/
def FLC_PROTr : Reg := { base := 0x400400c0, c1 := 8, s1 := 4, kw := 0xf8ffffff }
/-- 14 R373. -/
def FLC_WBUFj : Reg := { base := 0x40040200, c1 := 128, s1 := 4, reset := 0xffffffff, rw := 0xffffffff }
/-- 15 R403. -/
def CSL_RATE : Reg := { base := 0x40050040, reset := 3, rw := 7 }
/-- 15 R403. -/
def CSL_ADDR : Reg := { base := 0x40050044, reset := 0x3f, rw := 0x3f }
/-- 15 R403. -/
def CSL_TIMING : Reg := { base := 0x40050048, reset := 0x40010a, rw := 0xff0fff }
/-- 15 R403. -/
def CSL_HTMO : Reg := { base := 0x4005004c, reset := 0x3e8, rw := 0xffff }
/-- 15 R403. -/
def CSL_STAT : Reg := { base := 0x40050050, reset := 0x200 }
/-- 15 R403. -/
def CSL_RXOK : Reg := { base := 0x40050054, sat := true }
/-- 15 R403. -/
def CSL_HCRC : Reg := { base := 0x40050058, sat := true }
/-- 15 R403. -/
def CSL_PCRC : Reg := { base := 0x4005005c, sat := true }
/-- 15 R403. -/
def CSL_BADFRM : Reg := { base := 0x40050060, sat := true }
/-- 15 R403. -/
def CSL_DUP : Reg := { base := 0x40050064, sat := true }
/-- 15 R403. -/
def CSL_COLL : Reg := { base := 0x40050068, sat := true }
/-- 15 R403. -/
def CSL_OVRN : Reg := { base := 0x4005006c, sat := true }
/-- 15 R403. -/
def CSL_BREAKS : Reg := { base := 0x40050070, sat := true }
/-- 15 R403. -/
def CSL_ADDRCONF : Reg := { base := 0x40050074, sat := true }
/-- 16 R427. -/
def SEC_CTRL : Reg := { base := 0x40051040, w1s := 1 }
/-- 16 R427. -/
def SEC_TMO : Reg := { base := 0x40051044, reset := 0x12c0064, rw := 0xffffffff }
/-- 16 R427. -/
def SEC_AUTHFAIL : Reg := { base := 0x40051048, sat := true }
/-- 16 R427. -/
def SEC_OPENREF : Reg := { base := 0x4005104c, sat := true }
/-- 16 R427. -/
def SEC_LASTFAIL : Reg := { base := 0x40051050 }
/-- 16 R427. -/
def SEC_SSs_STAT : Reg := { base := 0x40051080, c1 := 8, s1 := 0x10 }
/-- 16 R427. -/
def SEC_SSs_LAST : Reg := { base := 0x40051084, c1 := 8, s1 := 0x10 }
/-- 16 R427. -/
def SEC_SSs_OK : Reg := { base := 0x40051088, c1 := 8, s1 := 0x10, sat := true }
/-- 16 R427. -/
def SEC_SSs_FAIL : Reg := { base := 0x4005108c, c1 := 8, s1 := 0x10, sat := true }
/-- 16 R428. -/
def SEC_MBm_CTL : Reg := { base := 0x40051200, c1 := 2, s1 := 0x40, rw := 0x700f8, w1s := 1 }
/-- 16 R428. -/
def SEC_MBm_DATAi : Reg := { base := 0x40051204, c1 := 2, s1 := 0x40, c2 := 4, s2 := 4, rw := 0xffffffff }
/-- 16 R428. -/
def SEC_MBm_CTR : Reg := { base := 0x40051214, c1 := 2, s1 := 0x40, rw := 0xffffffff }
/-- 16 R428. -/
def SEC_MBm_TAG_LO : Reg := { base := 0x40051218, c1 := 2, s1 := 0x40, rw := 0xffffffff }
/-- 16 R428. -/
def SEC_MBm_TAG_HI : Reg := { base := 0x4005121c, c1 := 2, s1 := 0x40, rw := 0xffffffff }
/-- 17 R444. -/
def UAn_CFG : Reg := { base := 0x40060040, c1 := 4, s1 := 0x1000, reset := 0x800, rw := 0x3f3fff }
/-- 17 R444. -/
def UAn_BAUD : Reg := { base := 0x40060044, c1 := 4, s1 := 0x1000, reset := 0x3415, rw := 0xfffff }
/-- 17 R444. -/
def UAn_RXTHR : Reg := { base := 0x40060048, c1 := 4, s1 := 0x1000, reset := 0x300010, rw := 0x7f007f }
/-- 17 R444. -/
def UAn_IRQTHR : Reg := { base := 0x4006004c, c1 := 4, s1 := 0x1000, reset := 0x10008, rw := 0x7f007f }
/-- 17 R444. -/
def UAn_XCH : Reg := { base := 0x40060050, c1 := 4, s1 := 0x1000, reset := 0x1311, rw := 0xffff }
/-- 17 R444. -/
def UAn_DATA : Reg := { base := 0x40060054, c1 := 4, s1 := 0x1000, reset := 0x80000000, rw := 0xff }
/-- 17 R444. -/
def UAn_LVL : Reg := { base := 0x40060058, c1 := 4, s1 := 0x1000 }
/-- 17 R444. -/
def UAn_STAT : Reg := { base := 0x4006005c, c1 := 4, s1 := 0x1000 }
/-- 17 R444. -/
def UAn_ERR : Reg := { base := 0x40060060, c1 := 4, s1 := 0x1000, w1c := 7 }
/-- 17 R444. -/
def UAn_LDT : Reg := { base := 0x40060064, c1 := 4, s1 := 0x1000, reset := 0x100040, rw := 0xffffff }
/-- 17 R444. -/
def UAn_COLLCH : Reg := { base := 0x40060068, c1 := 4, s1 := 0x1000 }
/-- 17 R444. -/
def UAn_RXDROP : Reg := { base := 0x4006006c, c1 := 4, s1 := 0x1000, sat := true }
/-- 17 R444. -/
def UAn_TXDROP : Reg := { base := 0x40060070, c1 := 4, s1 := 0x1000, sat := true }
/-- 17 R444. -/
def UAn_FERRS : Reg := { base := 0x40060074, c1 := 4, s1 := 0x1000, sat := true }
/-- 17 R444. -/
def UAn_BREAKS : Reg := { base := 0x40060078, c1 := 4, s1 := 0x1000, sat := true }
/-- 17 R444. -/
def UAn_COLLS : Reg := { base := 0x4006007c, c1 := 4, s1 := 0x1000, sat := true }
/-- 17 R444. -/
def UAn_FEEDDISC : Reg := { base := 0x40060080, c1 := 4, s1 := 0x1000, sat := true }
/-- 17 R452. -/
def SPT_CFG : Reg := { base := 0x40064040, reset := 4, rw := 0xf }
/-- 17 R452. -/
def SPT_STAT : Reg := { base := 0x40064044 }
/-- 17 R452. -/
def SPT_ERR : Reg := { base := 0x40064048, w1c := 7 }
/-- 17 R452. -/
def SPT_TRUNC : Reg := { base := 0x4006404c, sat := true }
/-- 17 R452. -/
def SPT_AERRS : Reg := { base := 0x40064050, sat := true }
/-- 17 R452. -/
def SPT_WAITS : Reg := { base := 0x40064054, sat := true }
/-- 18 R471. -/
def FCC_FER : Reg := { base := 0x40002040 }
/-- 18 R471. -/
def FCC_FER_TIME_LO : Reg := { base := 0x40002044 }
/-- 18 R471. -/
def FCC_FER_TIME_HI : Reg := { base := 0x40002048 }
/-- 18 R471. -/
def FCC_FER_CLR : Reg := { base := 0x4000204c, wo := 0x7f }
/-- 18 R471. -/
def FCC_STAT : Reg := { base := 0x40002050 }
/-- 18 R471. -/
def FCC_ESC : Reg := { base := 0x40002054, reset := 0x64, kw := 0xffff }
/-- 18 R471. -/
def FCC_ALIVE : Reg := { base := 0x40002058, reset := 0x30d4, kw := 0x1ffff }
/-- 18 R471. -/
def FCC_TRAPQ : Reg := { base := 0x4000205c, kw := 0xffff }
/-- 18 R471. -/
def FCC_SUPPR : Reg := { base := 0x40002060, sat := true }
/-- 18 R471. -/
def FCC_SUPPRLAST : Reg := { base := 0x40002064 }
/-- 18 R471. -/
def FCC_TRAPLOST : Reg := { base := 0x40002068, sat := true }
/-- 18 R471. -/
def FCC_CRSTREC : Reg := { base := 0x4000206c }
/-- 18 R471. -/
def FCC_REPORTS : Reg := { base := 0x40002070, sat := true }
/-- 18 R471. -/
def FCC_PENDj : Reg := { base := 0x40002080, c1 := 4, s1 := 4, w1c := 0xffffffff }
/-- 18 R471. -/
def FCC_INJj : Reg := { base := 0x40002090, c1 := 4, s1 := 4 }
/-- 18 R471. -/
def FCC_FORCEj : Reg := { base := 0x400020a0, c1 := 4, s1 := 4, w1s := 0xffffffff, kw := 0xffffffff }
/-- reset values 0 to 15 of FCC_RCFGi (R456). -/
def FCC_RCFGi_resets0 : List Nat := [0x311, 0x311, 0x311, 0x101, 0x101, 0x201, 0x201, 0x101, 0x101, 0x101, 0x101, 0x603, 0x603, 0x603, 0x603, 0x603]
/-- reset values 16 to 31 of FCC_RCFGi (R456). -/
def FCC_RCFGi_resets1 : List Nat := [0x603, 0x603, 0x603, 0x101, 0x101, 0x101, 0x101, 0x101, 0x603, 0x101, 0x605, 0x101, 0x603, 0x101, 0x605, 0x101]
/-- reset values 32 to 47 of FCC_RCFGi (R456). -/
def FCC_RCFGi_resets2 : List Nat := [0x603, 0x101, 0x605, 0x101, 0x603, 0x101, 0x605, 0x101, 0x101, 0x101, 0x101, 0x603, 0x603, 0x603, 0x603, 0x603]
/-- reset values 48 to 63 of FCC_RCFGi (R456). -/
def FCC_RCFGi_resets3 : List Nat := [0x603, 0x603, 0x603, 0x101, 0x101, 0x101, 0x101, 0x201, 0x201, 0x201, 0x201, 0x201, 0x201, 0x201, 0x201, 0x101]
/-- reset values 64 to 79 of FCC_RCFGi (R456). -/
def FCC_RCFGi_resets4 : List Nat := [0x101, 0x101, 0x101, 0x203, 0x101, 0x203, 0x203, 0x101, 0x203, 0x203, 0x101, 0x203, 0x203, 0x101, 0x203, 0x203]
/-- reset values 80 to 95 of FCC_RCFGi (R456). -/
def FCC_RCFGi_resets5 : List Nat := [0x101, 0x203, 0x203, 0x101, 0x203, 0x203, 0x101, 0x203, 0x203, 0x101, 0x203, 0x101, 0x101, 0x101, 0x201, 0x101]
/-- reset values 96 to 111 of FCC_RCFGi (R456). -/
def FCC_RCFGi_resets6 : List Nat := [0x101, 0x101, 0x201, 0x101, 0x101, 0x101, 0x101, 0x101, 0x101, 0x201, 0x101, 0x201, 0x201, 0x101, 0x201, 0x201]
/-- reset values 112 to 127 of FCC_RCFGi (R456). -/
def FCC_RCFGi_resets7 : List Nat := [0x101, 0x101, 0x101, 0x101, 0x201, 0x201, 0x201, 0x201, 0, 0, 0, 0, 0, 0, 0, 0]
/-- 18 R471. -/
def FCC_RCFGi : Reg := { base := 0x40002200, c1 := 128, s1 := 4, resets := FCC_RCFGi_resets0 ++ FCC_RCFGi_resets1 ++ FCC_RCFGi_resets2 ++ FCC_RCFGi_resets3 ++ FCC_RCFGi_resets4 ++ FCC_RCFGi_resets5 ++ FCC_RCFGi_resets6 ++ FCC_RCFGi_resets7, kw := 0x1f }
/-- 19 R491. -/
def LCS_STATE : Reg := { base := 0x40001040 }
/-- 19 R491. -/
def LCS_DBG : Reg := { base := 0x40001044 }
/-- 19 R491. -/
def LCS_TRANS : Reg := { base := 0x40001048, kw := 0xff07 }
/-- 19 R491. -/
def LCS_OWNTRANS : Reg := { base := 0x4000104c, kw := 0xff07 }
/-- 19 R491. -/
def LCS_TRES : Reg := { base := 0x40001050 }
/-- 19 R491. -/
def LCS_KEYPROG : Reg := { base := 0x40001054, rw := 2, w1s := 1 }
/-- 19 R491. -/
def LCS_KEYDATAi : Reg := { base := 0x40001058, c1 := 4, s1 := 4, rw := 0xffffffff }
/-- 19 R491. -/
def LCS_CASTON : Reg := { base := 0x40001068 }
/-- 19 R491. -/
def LCS_CASTON_T : Reg := { base := 0x4000106c }
/-- 19 R491. -/
def LCS_BOOTQ : Reg := { base := 0x40001070 }

end R

/-- the registers of the SYS page. -/
def regsSYS : List Reg :=
  [R.SYS_CHIP_ID, R.SYS_CLK_STAT, R.SYS_CLK_STAT2, R.SYS_TIME_LO, R.SYS_TIME_HI, R.SYS_IRQ_SUM0, R.SYS_IRQ_SUM1, R.SYS_IRQ_PIN_EN0, R.SYS_IRQ_PIN_EN1, R.SYS_AERR_ADDR, R.SYS_AERR_INFO, R.SYS_RST_CAUSE, R.SYS_SWRST, R.SYS_SCRATCH]
/-- the registers of the QMG page. -/
def regsQMG : List Reg :=
  [R.QMG_CMPL_PEND, R.QMG_HALTED, R.QMG_DBERR, R.QMG_REFUSED, R.QMG_Qn_CFG, R.QMG_Qn_RING, R.QMG_Qn_CRING, R.QMG_Qn_DB, R.QMG_Qn_HEAD, R.QMG_Qn_CREDIT, R.QMG_Qn_CWR, R.QMG_Qn_CRD, R.QMG_Qn_STAT, R.QMG_Qn_RCMD, R.QMG_Qn_JOB, R.QMG_Qn_CTHR, R.QMG_Qn_DONE, R.QMG_Qn_DBREJ, R.QMG_Qn_INFL]
/-- the registers of the SEQ page. -/
def regsSEQ : List Reg :=
  [R.SEQ_EVENT, R.SEQ_EVENT_SET, R.SEQ_EVENT_CLR, R.SEQ_BRLIM, R.SEQ_BTC_CTL, R.SEQ_BTC_HIT, R.SEQ_BTC_MISS, R.SEQ_FLRETRY, R.SEQ_Tn_STAT, R.SEQ_Tn_PC, R.SEQ_Tn_LOOP, R.SEQ_Tn_TRAP, R.SEQ_Tn_TRAPSTAT, R.SEQ_Tn_TRAPCNT, R.SEQ_Tn_BADCMD, R.SEQ_Tn_MISSED]
/-- the registers of the RND page. -/
def regsRND : List Reg :=
  [R.RND_DIR, R.RND_STAT, R.RND_DIRINFO, R.RND_STEPS, R.RND_FLRETRY, R.RND_Pp_AREA]
/-- the registers of the SKN page. -/
def regsSKN : List Reg :=
  [R.SKN_AGE, R.SKN_FREE, R.SKN_POOL_MIN, R.SKN_WAIT, R.SKN_Pp_HELD, R.SKN_Pp_LINES, R.SKN_Pp_WAITS, R.SKN_Pp_WMAX, R.SKN_BANDb]
/-- the registers of the HHE page. -/
def regsHHE : List Reg :=
  [R.HHE_STAT, R.HHE_LOAD, R.HHE_TLINj, R.HHE_Pp_CFG, R.HHE_Pp_SRC, R.HHE_Pp_VHFS, R.HHE_Pp_VHLIM, R.HHE_Pp_RNOM, R.HHE_Pp_DCFG, R.HHE_Pp_WLIM, R.HHE_Pp_STAT, R.HHE_Pp_VHT, R.HHE_Pp_WIDTH, R.HHE_Pp_RECOMP, R.HHE_Pp_MISS, R.HHE_Pp_CLIP, R.HHE_Pp_LINES, R.HHE_Pp_Dw, R.HHE_Pp_PRj_E, R.HHE_Pp_PRj_A, R.HHE_Pp_PRj_N, R.HHE_Pp_PRj_CTL]
/-- registers of the HPn page, part 0. -/
def regsHP0 : List Reg :=
  [R.HPn_CFG, R.HPn_POL, R.HPn_PACE, R.HPn_LINE_T, R.HPn_EPITCH, R.HPn_ESYNC, R.HPn_WFIX, R.HPn_GUARD, R.HPn_SGCFG, R.HPn_SGB0, R.HPn_SGB1, R.HPn_STBMAX, R.HPn_SHUT, R.HPn_STAT, R.HPn_LREP, R.HPn_LTIME, R.HPn_TACT, R.HPn_HWM, R.HPn_NEXTTRIG, R.HPn_OVR, R.HPn_STARVE, R.HPn_LATE, R.HPn_REVERSE, R.HPn_LINES]
/-- registers of the HPn page, part 1. -/
def regsHP1 : List Reg :=
  [R.HPn_ERR]
/-- the registers of the HPn page. -/
def regsHP : List Reg := regsHP0 ++ regsHP1
/-- the registers of the SBA page. -/
def regsSBA : List Reg :=
  [R.SBA_GCAP, R.SBA_ISUM, R.SBA_GRANT, R.SBA_PCAPp, R.SBA_Pp_EST, R.SBA_Pp_DUTY, R.SBA_Pp_ENERGY, R.SBA_GVp_CTL, R.SBA_GVp_RATE, R.SBA_GVp_LEAD, R.SBA_GVp_LIM, R.SBA_GVp_STAT, R.SBA_GVp_F, R.SBA_Pp_IEST, R.SBA_Pp_DEFER, R.SBA_Pp_DMAX, R.SBA_Pp_CLIP, R.SBA_Pp_EWIN, R.SBA_Pp_SLOW]
/-- the registers of the EHM page. -/
def regsEHM : List Reg :=
  [R.EHM_EWSEL, R.EHM_EW_LO, R.EHM_EW_HI, R.EHM_RSTSRC, R.EHM_RSTCTL, R.EHM_RSTSTAT, R.EHM_Pp_SCAN, R.EHM_Pp_MCFG, R.EHM_Pp_SENSE, R.EHM_Pp_REF, R.EHM_Pp_CUR, R.EHM_Pp_LAST, R.EHM_Pp_STAT, R.EHM_Pp_CNT, R.EHM_Pp_OPT, R.EHM_Pp_PRIO, R.EHM_Pp_DISC, R.EHM_Pp_YIELD, R.EHM_Pp_OSTEP, R.EHM_Pp_MEAS]
/-- the registers of the MOC page. -/
def regsMOC : List Reg :=
  [R.MOC_ESTOP, R.MOC_GO, R.MOC_BUSY, R.MOC_ADVDISC, R.MOC_PORTp, R.MOC_PORTp_FPOS]
/-- registers of the AXn page, part 0. -/
def regsAX0 : List Reg :=
  [R.AXn_CFG, R.AXn_VSTART, R.AXn_ACC1, R.AXn_VBRK, R.AXn_ACC2, R.AXn_VMAX, R.AXn_DEC2, R.AXn_DEC1, R.AXn_VSTOP, R.AXn_EDEC, R.AXn_LPITCH, R.AXn_SEARCH, R.AXn_CUT, R.AXn_HOME, R.AXn_IREF, R.AXn_ISTBY, R.AXn_ENC, R.AXn_ENCR, R.AXn_LAG, R.AXn_GEAR, R.AXn_TARGET, R.AXn_VCMD, R.AXn_CMD, R.AXn_POS]
/-- registers of the AXn page, part 1. -/
def regsAX1 : List Reg :=
  [R.AXn_VEL, R.AXn_DEV, R.AXn_BUDGET, R.AXn_STAT, R.AXn_STALLS, R.AXn_YANKS, R.AXn_LAGS, R.AXn_ERR, R.AXn_HINGEh, R.AXn_RATIOh]
/-- the registers of the AXn page. -/
def regsAX : List Reg := regsAX0 ++ regsAX1
/-- the registers of the QEn page. -/
def regsQE : List Reg :=
  [R.QEn_CFG, R.QEn_POS_LO, R.QEn_POS_HI, R.QEn_IDX, R.QEn_RATE, R.QEn_IDXCNT, R.QEn_QERR]
/-- the registers of the ADC page. -/
def regsADC : List Reg :=
  [R.ADC_CTRL, R.ADC_SCAN, R.ADC_START, R.ADC_FMT, R.ADC_CAL, R.ADC_STAT, R.ADC_SLMAP, R.ADC_FIT, R.ADC_SCANS, R.ADC_FIFO_LO, R.ADC_FIFO_HI, R.ADC_FIFO_LVL, R.ADC_FIFO_OVF, R.ADC_BGLATE, R.ADC_BREFUSE, R.ADC_CALSEL, R.ADC_CALOFS, R.ADC_CALGC, R.ADC_HANDOVERS, R.ADC_LASTc_LO, R.ADC_LASTc_HI]
/-- the registers of the ADT page. -/
def regsADT : List Reg :=
  [R.ADT_REJ, R.ADT_Ee_CFG, R.ADT_Ee_RATE]
/-- the registers of the MED page. -/
def regsMED : List Reg :=
  [R.MED_GPI, R.MED_GPIDEB, R.MED_GPIIRQ, R.MED_REF, R.MED_STALE, R.MED_CALSTART, R.MED_LEDk, R.MED_PORTp, R.MED_PSTATp, R.MED_Uu_CFG, R.MED_Uu_THR, R.MED_Uu_LVL, R.MED_Uu_BASE, R.MED_Uu_EDGE, R.MED_Uu_LEN, R.MED_Uu_CAL, R.MED_Uu_LIM, R.MED_Uu_STAT, R.MED_Uu_EDGES]
/-- the registers of the CSI page. -/
def regsCSI : List Reg :=
  [R.CSI_CFG, R.CSI_STAT, R.CSI_ECCCOR, R.CSI_ECCERR, R.CSI_SOTERR, R.CSI_FMTERR, R.CSI_DROPPKT, R.CSI_VCv_CFG, R.CSI_VCv_FRM]
/-- registers of the VPn page, part 0. -/
def regsVP0 : List Reg :=
  [R.VPn_BIND, R.VPn_PIPE, R.VPn_MERGE, R.VPn_BLK0, R.VPn_BLK1, R.VPn_WB0, R.VPn_WB1, R.VPn_CCM0, R.VPn_CCM1, R.VPn_CCM2, R.VPn_CCM3, R.VPn_CCM4, R.VPn_CLS, R.VPn_DENS, R.VPn_SCROP0, R.VPn_SCROP1, R.VPn_SNAP0, R.VPn_SNAP1, R.VPn_SNAPCTL, R.VPn_SNAPADDR, R.VPn_SNAPDATA, R.VPn_TMO, R.VPn_STAT, R.VPn_DROP]
/-- registers of the VPn page, part 1. -/
def regsVP1 : List Reg :=
  [R.VPn_DROPR, R.VPn_FRAMES, R.VPn_UNSEEN, R.VPn_DOLAST, R.VPn_STATCTL, R.VPn_SFRM, R.VPn_SINFO, R.VPn_STIME, R.VPn_SMEAN0, R.VPn_SMEAN1, R.VPn_WVER, R.VPn_WMIS, R.VPn_WCNT, R.VPn_SHISTj, R.VPn_LINw, R.VPn_TONEw, R.VPn_Cx_CFG, R.VPn_Cx_E, R.VPn_Cx_X0, R.VPn_Cx_XP, R.VPn_Cx_ROW, R.VPn_Cx_OFFS, R.VPn_Cx_RP, R.VPn_Cx_LAG]
/-- the registers of the VPn page. -/
def regsVP : List Reg := regsVP0 ++ regsVP1
/-- the registers of the ICk page. -/
def regsIC : List Reg :=
  [R.ICk_CFG, R.ICk_CMD, R.ICk_TXi, R.ICk_RXi, R.ICk_STAT, R.ICk_NACKS, R.ICk_LFRM]
/-- registers of the FLC page, part 0. -/
def regsFLC0 : List Reg :=
  [R.FLC_CFG, R.FLC_CMD, R.FLC_STAT, R.FLC_RES, R.FLC_FADDR, R.FLC_CNT, R.FLC_REJ, R.FLC_ERRTH, R.FLC_CORR0, R.FLC_CORR1, R.FLC_DED, R.FLC_ECCADDR, R.FLC_HSUB, R.FLC_SUSP, R.FLC_SUSCNT, R.FLC_CYCSEL, R.FLC_CYC, R.FLC_WOWN, R.FLC_WCLR, R.FLC_WDISC, R.FLC_PWD_LO, R.FLC_PWD_HI, R.FLC_PWDSTAT, R.FLC_PROTr]
/-- registers of the FLC page, part 1. -/
def regsFLC1 : List Reg :=
  [R.FLC_WBUFj]
/-- the registers of the FLC page. -/
def regsFLC : List Reg := regsFLC0 ++ regsFLC1
/-- the registers of the CSL page. -/
def regsCSL : List Reg :=
  [R.CSL_RATE, R.CSL_ADDR, R.CSL_TIMING, R.CSL_HTMO, R.CSL_STAT, R.CSL_RXOK, R.CSL_HCRC, R.CSL_PCRC, R.CSL_BADFRM, R.CSL_DUP, R.CSL_COLL, R.CSL_OVRN, R.CSL_BREAKS, R.CSL_ADDRCONF]
/-- the registers of the SEC page. -/
def regsSEC : List Reg :=
  [R.SEC_CTRL, R.SEC_TMO, R.SEC_AUTHFAIL, R.SEC_OPENREF, R.SEC_LASTFAIL, R.SEC_SSs_STAT, R.SEC_SSs_LAST, R.SEC_SSs_OK, R.SEC_SSs_FAIL, R.SEC_MBm_CTL, R.SEC_MBm_DATAi, R.SEC_MBm_CTR, R.SEC_MBm_TAG_LO, R.SEC_MBm_TAG_HI]
/-- the registers of the UAn page. -/
def regsUA : List Reg :=
  [R.UAn_CFG, R.UAn_BAUD, R.UAn_RXTHR, R.UAn_IRQTHR, R.UAn_XCH, R.UAn_DATA, R.UAn_LVL, R.UAn_STAT, R.UAn_ERR, R.UAn_LDT, R.UAn_COLLCH, R.UAn_RXDROP, R.UAn_TXDROP, R.UAn_FERRS, R.UAn_BREAKS, R.UAn_COLLS, R.UAn_FEEDDISC]
/-- the registers of the SPT page. -/
def regsSPT : List Reg :=
  [R.SPT_CFG, R.SPT_STAT, R.SPT_ERR, R.SPT_TRUNC, R.SPT_AERRS, R.SPT_WAITS]
/-- the registers of the FCC page. -/
def regsFCC : List Reg :=
  [R.FCC_FER, R.FCC_FER_TIME_LO, R.FCC_FER_TIME_HI, R.FCC_FER_CLR, R.FCC_STAT, R.FCC_ESC, R.FCC_ALIVE, R.FCC_TRAPQ, R.FCC_SUPPR, R.FCC_SUPPRLAST, R.FCC_TRAPLOST, R.FCC_CRSTREC, R.FCC_REPORTS, R.FCC_PENDj, R.FCC_INJj, R.FCC_FORCEj, R.FCC_RCFGi]
/-- the registers of the LCS page. -/
def regsLCS : List Reg :=
  [R.LCS_STATE, R.LCS_DBG, R.LCS_TRANS, R.LCS_OWNTRANS, R.LCS_TRES, R.LCS_KEYPROG, R.LCS_KEYDATAi, R.LCS_CASTON, R.LCS_CASTON_T, R.LCS_BOOTQ]

namespace F

/-- QMG_Qn_CFG.LOG2CSIZE -/
def QMG_Qn_CFG_LOG2CSIZE : Fld := ⟨R.QMG_Qn_CFG, 14, 4⟩
/-- QMG_Qn_CFG.LOG2SIZE -/
def QMG_Qn_CFG_LOG2SIZE : Fld := ⟨R.QMG_Qn_CFG, 10, 4⟩
/-- QMG_Qn_CFG.BOUND -/
def QMG_Qn_CFG_BOUND : Fld := ⟨R.QMG_Qn_CFG, 8, 1⟩
/-- QMG_Qn_CFG.PORT -/
def QMG_Qn_CFG_PORT : Fld := ⟨R.QMG_Qn_CFG, 6, 2⟩
/-- QMG_Qn_CFG.PRIO -/
def QMG_Qn_CFG_PRIO : Fld := ⟨R.QMG_Qn_CFG, 4, 2⟩
/-- QMG_Qn_CFG.EN -/
def QMG_Qn_CFG_EN : Fld := ⟨R.QMG_Qn_CFG, 0, 1⟩
/-- QMG_Qn_CTHR.THR -/
def QMG_Qn_CTHR_THR : Fld := ⟨R.QMG_Qn_CTHR, 0, 13⟩
/-- SEQ_BRLIM.LIMIT -/
def SEQ_BRLIM_LIMIT : Fld := ⟨R.SEQ_BRLIM, 0, 17⟩
/-- SEQ_BTC_CTL.DIS -/
def SEQ_BTC_CTL_DIS : Fld := ⟨R.SEQ_BTC_CTL, 1, 1⟩
/-- SEQ_Tn_TRAP.BASE -/
def SEQ_Tn_TRAP_BASE : Fld := ⟨R.SEQ_Tn_TRAP, 4, 28⟩
/-- SEQ_Tn_TRAP.EN -/
def SEQ_Tn_TRAP_EN : Fld := ⟨R.SEQ_Tn_TRAP, 0, 1⟩
/-- RND_DIR.BASE -/
def RND_DIR_BASE : Fld := ⟨R.RND_DIR, 12, 12⟩
/-- SKN_AGE.AGE -/
def SKN_AGE_AGE : Fld := ⟨R.SKN_AGE, 0, 16⟩
/-- SKN_POOL_MIN.MIN -/
def SKN_POOL_MIN_MIN : Fld := ⟨R.SKN_POOL_MIN, 0, 7⟩
/-- SKN_Pp_WMAX.US -/
def SKN_Pp_WMAX_US : Fld := ⟨R.SKN_Pp_WMAX, 0, 16⟩
/-- HHE_LOAD.PEAK -/
def HHE_LOAD_PEAK : Fld := ⟨R.HHE_LOAD, 16, 16⟩
/-- HHE_TLINj.T -/
def HHE_TLINj_T : Fld := ⟨R.HHE_TLINj, 0, 16⟩
/-- HHE_Pp_CFG.VHCOMP -/
def HHE_Pp_CFG_VHCOMP : Fld := ⟨R.HHE_Pp_CFG, 1, 1⟩
/-- HHE_Pp_CFG.EN -/
def HHE_Pp_CFG_EN : Fld := ⟨R.HHE_Pp_CFG, 0, 1⟩
/-- HHE_Pp_SRC.AGE -/
def HHE_Pp_SRC_AGE : Fld := ⟨R.HHE_Pp_SRC, 16, 8⟩
/-- HHE_Pp_SRC.TCH -/
def HHE_Pp_SRC_TCH : Fld := ⟨R.HHE_Pp_SRC, 8, 6⟩
/-- HHE_Pp_SRC.VHCH -/
def HHE_Pp_SRC_VHCH : Fld := ⟨R.HHE_Pp_SRC, 0, 6⟩
/-- HHE_Pp_VHFS.VHFS -/
def HHE_Pp_VHFS_VHFS : Fld := ⟨R.HHE_Pp_VHFS, 0, 17⟩
/-- HHE_Pp_VHLIM.MAX -/
def HHE_Pp_VHLIM_MAX : Fld := ⟨R.HHE_Pp_VHLIM, 16, 16⟩
/-- HHE_Pp_VHLIM.MIN -/
def HHE_Pp_VHLIM_MIN : Fld := ⟨R.HHE_Pp_VHLIM, 0, 16⟩
/-- HHE_Pp_RNOM.QUANT -/
def HHE_Pp_RNOM_QUANT : Fld := ⟨R.HHE_Pp_RNOM, 16, 16⟩
/-- HHE_Pp_RNOM.RNOM -/
def HHE_Pp_RNOM_RNOM : Fld := ⟨R.HHE_Pp_RNOM, 0, 16⟩
/-- HHE_Pp_DCFG.RCTOL -/
def HHE_Pp_DCFG_RCTOL : Fld := ⟨R.HHE_Pp_DCFG, 16, 8⟩
/-- HHE_Pp_DCFG.UNIT -/
def HHE_Pp_DCFG_UNIT : Fld := ⟨R.HHE_Pp_DCFG, 0, 10⟩
/-- HHE_Pp_WLIM.WMAX -/
def HHE_Pp_WLIM_WMAX : Fld := ⟨R.HHE_Pp_WLIM, 0, 16⟩
/-- HHE_Pp_STAT.NLINE -/
def HHE_Pp_STAT_NLINE : Fld := ⟨R.HHE_Pp_STAT, 16, 5⟩
/-- HHE_Pp_STAT.TSTALE -/
def HHE_Pp_STAT_TSTALE : Fld := ⟨R.HHE_Pp_STAT, 10, 1⟩
/-- HHE_Pp_STAT.VHSTALE -/
def HHE_Pp_STAT_VHSTALE : Fld := ⟨R.HHE_Pp_STAT, 9, 1⟩
/-- HHE_Pp_STAT.WSAT -/
def HHE_Pp_STAT_WSAT : Fld := ⟨R.HHE_Pp_STAT, 8, 1⟩
/-- HHE_Pp_VHT.TSUB -/
def HHE_Pp_VHT_TSUB : Fld := ⟨R.HHE_Pp_VHT, 16, 16⟩
/-- HHE_Pp_VHT.VHMV -/
def HHE_Pp_VHT_VHMV : Fld := ⟨R.HHE_Pp_VHT, 0, 16⟩
/-- HHE_Pp_WIDTH.LEAD -/
def HHE_Pp_WIDTH_LEAD : Fld := ⟨R.HHE_Pp_WIDTH, 16, 16⟩
/-- HHE_Pp_WIDTH.W -/
def HHE_Pp_WIDTH_W : Fld := ⟨R.HHE_Pp_WIDTH, 0, 16⟩
/-- HPn_CFG.CLKDIV -/
def HPn_CFG_CLKDIV : Fld := ⟨R.HPn_CFG, 16, 8⟩
/-- HPn_CFG.OE -/
def HPn_CFG_OE : Fld := ⟨R.HPn_CFG, 15, 1⟩
/-- HPn_CFG.HOPENSHUT -/
def HPn_CFG_HOPENSHUT : Fld := ⟨R.HPn_CFG, 14, 1⟩
/-- HPn_CFG.PACE -/
def HPn_CFG_PACE : Fld := ⟨R.HPn_CFG, 13, 1⟩
/-- HPn_CFG.MIRROR -/
def HPn_CFG_MIRROR : Fld := ⟨R.HPn_CFG, 12, 1⟩
/-- HPn_CFG.SDIR -/
def HPn_CFG_SDIR : Fld := ⟨R.HPn_CFG, 11, 1⟩
/-- HPn_CFG.LANES -/
def HPn_CFG_LANES : Fld := ⟨R.HPn_CFG, 8, 3⟩
/-- HPn_CFG.NBLK -/
def HPn_CFG_NBLK : Fld := ⟨R.HPn_CFG, 0, 7⟩
/-- HPn_POL.STBPOL -/
def HPn_POL_STBPOL : Fld := ⟨R.HPn_POL, 8, 8⟩
/-- HPn_POL.DATPOL -/
def HPn_POL_DATPOL : Fld := ⟨R.HPn_POL, 2, 1⟩
/-- HPn_POL.LATPOL -/
def HPn_POL_LATPOL : Fld := ⟨R.HPn_POL, 1, 1⟩
/-- HPn_POL.CLKPOL -/
def HPn_POL_CLKPOL : Fld := ⟨R.HPn_POL, 0, 1⟩
/-- HPn_PACE.AXEN -/
def HPn_PACE_AXEN : Fld := ⟨R.HPn_PACE, 11, 1⟩
/-- HPn_PACE.AXIS -/
def HPn_PACE_AXIS : Fld := ⟨R.HPn_PACE, 8, 3⟩
/-- HPn_PACE.WB -/
def HPn_PACE_WB : Fld := ⟨R.HPn_PACE, 4, 4⟩
/-- HPn_PACE.EDIR -/
def HPn_PACE_EDIR : Fld := ⟨R.HPn_PACE, 3, 1⟩
/-- HPn_PACE.QE -/
def HPn_PACE_QE : Fld := ⟨R.HPn_PACE, 0, 3⟩
/-- HPn_LINE_T.PER -/
def HPn_LINE_T_PER : Fld := ⟨R.HPn_LINE_T, 8, 24⟩
/-- HPn_WFIX.W -/
def HPn_WFIX_W : Fld := ⟨R.HPn_WFIX, 0, 16⟩
/-- HPn_GUARD.TDS -/
def HPn_GUARD_TDS : Fld := ⟨R.HPn_GUARD, 24, 8⟩
/-- HPn_GUARD.TSL -/
def HPn_GUARD_TSL : Fld := ⟨R.HPn_GUARD, 16, 8⟩
/-- HPn_GUARD.TLS -/
def HPn_GUARD_TLS : Fld := ⟨R.HPn_GUARD, 8, 8⟩
/-- HPn_GUARD.LATW -/
def HPn_GUARD_LATW : Fld := ⟨R.HPn_GUARD, 0, 8⟩
/-- HPn_SGCFG.PHASE -/
def HPn_SGCFG_PHASE : Fld := ⟨R.HPn_SGCFG, 16, 16⟩
/-- HPn_SGCFG.TPH -/
def HPn_SGCFG_TPH : Fld := ⟨R.HPn_SGCFG, 8, 8⟩
/-- HPn_SGCFG.SKIPEMPTY -/
def HPn_SGCFG_SKIPEMPTY : Fld := ⟨R.HPn_SGCFG, 4, 1⟩
/-- HPn_SGCFG.NGRP -/
def HPn_SGCFG_NGRP : Fld := ⟨R.HPn_SGCFG, 0, 4⟩
/-- HPn_SGB0.START4 -/
def HPn_SGB0_START4 : Fld := ⟨R.HPn_SGB0, 24, 7⟩
/-- HPn_SGB0.START3 -/
def HPn_SGB0_START3 : Fld := ⟨R.HPn_SGB0, 16, 7⟩
/-- HPn_SGB0.START2 -/
def HPn_SGB0_START2 : Fld := ⟨R.HPn_SGB0, 8, 7⟩
/-- HPn_SGB0.START1 -/
def HPn_SGB0_START1 : Fld := ⟨R.HPn_SGB0, 0, 7⟩
/-- HPn_SGB1.START7 -/
def HPn_SGB1_START7 : Fld := ⟨R.HPn_SGB1, 16, 7⟩
/-- HPn_SGB1.START6 -/
def HPn_SGB1_START6 : Fld := ⟨R.HPn_SGB1, 8, 7⟩
/-- HPn_SGB1.START5 -/
def HPn_SGB1_START5 : Fld := ⟨R.HPn_SGB1, 0, 7⟩
/-- HPn_STBMAX.MAX -/
def HPn_STBMAX_MAX : Fld := ⟨R.HPn_STBMAX, 0, 16⟩
/-- HPn_LTIME.T -/
def HPn_LTIME_T : Fld := ⟨R.HPn_LTIME, 0, 24⟩
/-- HPn_TACT.T -/
def HPn_TACT_T : Fld := ⟨R.HPn_TACT, 0, 24⟩
/-- HPn_ERR.ENREJ -/
def HPn_ERR_ENREJ : Fld := ⟨R.HPn_ERR, 1, 1⟩
/-- HPn_ERR.CFGREJ -/
def HPn_ERR_CFGREJ : Fld := ⟨R.HPn_ERR, 0, 1⟩
/-- SBA_GCAP.CAP -/
def SBA_GCAP_CAP : Fld := ⟨R.SBA_GCAP, 0, 16⟩
/-- SBA_ISUM.PEAK -/
def SBA_ISUM_PEAK : Fld := ⟨R.SBA_ISUM, 16, 16⟩
/-- SBA_PCAPp.CAP -/
def SBA_PCAPp_CAP : Fld := ⟨R.SBA_PCAPp, 0, 16⟩
/-- SBA_Pp_EST.MARGIN -/
def SBA_Pp_EST_MARGIN : Fld := ⟨R.SBA_Pp_EST, 8, 6⟩
/-- SBA_Pp_EST.IOFS -/
def SBA_Pp_EST_IOFS : Fld := ⟨R.SBA_Pp_EST, 0, 8⟩
/-- SBA_Pp_DUTY.DE -/
def SBA_Pp_DUTY_DE : Fld := ⟨R.SBA_Pp_DUTY, 16, 7⟩
/-- SBA_Pp_DUTY.WE -/
def SBA_Pp_DUTY_WE : Fld := ⟨R.SBA_Pp_DUTY, 0, 7⟩
/-- SBA_Pp_ENERGY.PH -/
def SBA_Pp_ENERGY_PH : Fld := ⟨R.SBA_Pp_ENERGY, 16, 16⟩
/-- SBA_Pp_ENERGY.WH -/
def SBA_Pp_ENERGY_WH : Fld := ⟨R.SBA_Pp_ENERGY, 0, 10⟩
/-- SBA_GVp_CTL.RTMO -/
def SBA_GVp_CTL_RTMO : Fld := ⟨R.SBA_GVp_CTL, 16, 16⟩
/-- SBA_GVp_CTL.EN -/
def SBA_GVp_CTL_EN : Fld := ⟨R.SBA_GVp_CTL, 0, 1⟩
/-- SBA_GVp_RATE.RAMP -/
def SBA_GVp_RATE_RAMP : Fld := ⟨R.SBA_GVp_RATE, 16, 16⟩
/-- SBA_GVp_RATE.FMIN -/
def SBA_GVp_RATE_FMIN : Fld := ⟨R.SBA_GVp_RATE, 0, 16⟩
/-- SBA_GVp_LEAD.RESUME -/
def SBA_GVp_LEAD_RESUME : Fld := ⟨R.SBA_GVp_LEAD, 24, 8⟩
/-- SBA_GVp_LEAD.RLM -/
def SBA_GVp_LEAD_RLM : Fld := ⟨R.SBA_GVp_LEAD, 16, 8⟩
/-- SBA_GVp_LEAD.HLMIN -/
def SBA_GVp_LEAD_HLMIN : Fld := ⟨R.SBA_GVp_LEAD, 0, 16⟩
/-- SBA_GVp_LIM.EHI -/
def SBA_GVp_LIM_EHI : Fld := ⟨R.SBA_GVp_LIM, 24, 8⟩
/-- SBA_GVp_LIM.TMARG -/
def SBA_GVp_LIM_TMARG : Fld := ⟨R.SBA_GVp_LIM, 16, 8⟩
/-- SBA_GVp_LIM.DALLOW -/
def SBA_GVp_LIM_DALLOW : Fld := ⟨R.SBA_GVp_LIM, 0, 16⟩
/-- SBA_Pp_IEST.MA -/
def SBA_Pp_IEST_MA : Fld := ⟨R.SBA_Pp_IEST, 0, 16⟩
/-- SBA_Pp_DMAX.SUB -/
def SBA_Pp_DMAX_SUB : Fld := ⟨R.SBA_Pp_DMAX, 0, 16⟩
/-- SBA_Pp_CLIP.CONSEC -/
def SBA_Pp_CLIP_CONSEC : Fld := ⟨R.SBA_Pp_CLIP, 0, 5⟩
/-- EHM_RSTSRC.ADDR -/
def EHM_RSTSRC_ADDR : Fld := ⟨R.EHM_RSTSRC, 3, 29⟩
/-- EHM_RSTSTAT.RESULT -/
def EHM_RSTSTAT_RESULT : Fld := ⟨R.EHM_RSTSTAT, 28, 4⟩
/-- EHM_RSTSTAT.DONE -/
def EHM_RSTSTAT_DONE : Fld := ⟨R.EHM_RSTSTAT, 0, 13⟩
/-- EHM_Pp_SCAN.CHUNK -/
def EHM_Pp_SCAN_CHUNK : Fld := ⟨R.EHM_Pp_SCAN, 24, 8⟩
/-- EHM_Pp_SCAN.SETTLE -/
def EHM_Pp_SCAN_SETTLE : Fld := ⟨R.EHM_Pp_SCAN, 16, 8⟩
/-- EHM_Pp_SCAN.AUTOR -/
def EHM_Pp_SCAN_AUTOR : Fld := ⟨R.EHM_Pp_SCAN, 1, 1⟩
/-- EHM_Pp_SCAN.EN -/
def EHM_Pp_SCAN_EN : Fld := ⟨R.EHM_Pp_SCAN, 0, 1⟩
/-- EHM_Pp_MCFG.PW -/
def EHM_Pp_MCFG_PW : Fld := ⟨R.EHM_Pp_MCFG, 16, 8⟩
/-- EHM_Pp_MCFG.RSER -/
def EHM_Pp_MCFG_RSER : Fld := ⟨R.EHM_Pp_MCFG, 8, 8⟩
/-- EHM_Pp_MCFG.SCH -/
def EHM_Pp_MCFG_SCH : Fld := ⟨R.EHM_Pp_MCFG, 0, 6⟩
/-- EHM_Pp_SENSE.VSFS -/
def EHM_Pp_SENSE_VSFS : Fld := ⟨R.EHM_Pp_SENSE, 16, 16⟩
/-- EHM_Pp_SENSE.RSNS -/
def EHM_Pp_SENSE_RSNS : Fld := ⟨R.EHM_Pp_SENSE, 0, 16⟩
/-- EHM_Pp_REF.ELEM -/
def EHM_Pp_REF_ELEM : Fld := ⟨R.EHM_Pp_REF, 0, 13⟩
/-- EHM_Pp_CUR.PASS -/
def EHM_Pp_CUR_PASS : Fld := ⟨R.EHM_Pp_CUR, 16, 16⟩
/-- EHM_Pp_CUR.CURSOR -/
def EHM_Pp_CUR_CURSOR : Fld := ⟨R.EHM_Pp_CUR, 0, 13⟩
/-- EHM_Pp_OPT.OAUTO -/
def EHM_Pp_OPT_OAUTO : Fld := ⟨R.EHM_Pp_OPT, 31, 1⟩
/-- EHM_Pp_OPT.OMAX -/
def EHM_Pp_OPT_OMAX : Fld := ⟨R.EHM_Pp_OPT, 24, 6⟩
/-- EHM_Pp_OPT.OMIN -/
def EHM_Pp_OPT_OMIN : Fld := ⟨R.EHM_Pp_OPT, 16, 6⟩
/-- EHM_Pp_OPT.VTH -/
def EHM_Pp_OPT_VTH : Fld := ⟨R.EHM_Pp_OPT, 0, 7⟩
/-- MOC_PORTp.CUTV -/
def MOC_PORTp_CUTV : Fld := ⟨R.MOC_PORTp, 11, 1⟩
/-- MOC_PORTp.CUTAX -/
def MOC_PORTp_CUTAX : Fld := ⟨R.MOC_PORTp, 8, 3⟩
/-- MOC_PORTp.FEEDV -/
def MOC_PORTp_FEEDV : Fld := ⟨R.MOC_PORTp, 3, 1⟩
/-- MOC_PORTp.FEEDAX -/
def MOC_PORTp_FEEDAX : Fld := ⟨R.MOC_PORTp, 0, 3⟩
/-- AXn_CFG.STEPW -/
def AXn_CFG_STEPW : Fld := ⟨R.AXn_CFG, 24, 8⟩
/-- AXn_CFG.TDIR -/
def AXn_CFG_TDIR : Fld := ⟨R.AXn_CFG, 16, 8⟩
/-- AXn_CFG.PORT -/
def AXn_CFG_PORT : Fld := ⟨R.AXn_CFG, 10, 2⟩
/-- AXn_CFG.DIRINV -/
def AXn_CFG_DIRINV : Fld := ⟨R.AXn_CFG, 9, 1⟩
/-- AXn_CFG.ENAPOL -/
def AXn_CFG_ENAPOL : Fld := ⟨R.AXn_CFG, 8, 1⟩
/-- AXn_CFG.DIRPOL -/
def AXn_CFG_DIRPOL : Fld := ⟨R.AXn_CFG, 7, 1⟩
/-- AXn_CFG.STEPPOL -/
def AXn_CFG_STEPPOL : Fld := ⟨R.AXn_CFG, 6, 1⟩
/-- AXn_CFG.ENA -/
def AXn_CFG_ENA : Fld := ⟨R.AXn_CFG, 1, 1⟩
/-- AXn_CFG.OE -/
def AXn_CFG_OE : Fld := ⟨R.AXn_CFG, 0, 1⟩
/-- AXn_VSTART.V -/
def AXn_VSTART_V : Fld := ⟨R.AXn_VSTART, 0, 21⟩
/-- AXn_ACC1.A -/
def AXn_ACC1_A : Fld := ⟨R.AXn_ACC1, 0, 24⟩
/-- AXn_VBRK.V -/
def AXn_VBRK_V : Fld := ⟨R.AXn_VBRK, 0, 21⟩
/-- AXn_ACC2.A -/
def AXn_ACC2_A : Fld := ⟨R.AXn_ACC2, 0, 24⟩
/-- AXn_VMAX.V -/
def AXn_VMAX_V : Fld := ⟨R.AXn_VMAX, 0, 21⟩
/-- AXn_DEC2.A -/
def AXn_DEC2_A : Fld := ⟨R.AXn_DEC2, 0, 24⟩
/-- AXn_DEC1.A -/
def AXn_DEC1_A : Fld := ⟨R.AXn_DEC1, 0, 24⟩
/-- AXn_VSTOP.V -/
def AXn_VSTOP_V : Fld := ⟨R.AXn_VSTOP, 0, 21⟩
/-- AXn_EDEC.A -/
def AXn_EDEC_A : Fld := ⟨R.AXn_EDEC, 0, 24⟩
/-- AXn_SEARCH.SEARCHV -/
def AXn_SEARCH_SEARCHV : Fld := ⟨R.AXn_SEARCH, 0, 21⟩
/-- AXn_CUT.CUTP -/
def AXn_CUT_CUTP : Fld := ⟨R.AXn_CUT, 16, 16⟩
/-- AXn_CUT.CUTF -/
def AXn_CUT_CUTF : Fld := ⟨R.AXn_CUT, 0, 16⟩
/-- AXn_HOME.HOMEMAX -/
def AXn_HOME_HOMEMAX : Fld := ⟨R.AXn_HOME, 16, 16⟩
/-- AXn_HOME.HOMETOL -/
def AXn_HOME_HOMETOL : Fld := ⟨R.AXn_HOME, 8, 8⟩
/-- AXn_HOME.POL -/
def AXn_HOME_POL : Fld := ⟨R.AXn_HOME, 7, 1⟩
/-- AXn_HOME.IN -/
def AXn_HOME_IN : Fld := ⟨R.AXn_HOME, 0, 4⟩
/-- AXn_IREF.IRUN -/
def AXn_IREF_IRUN : Fld := ⟨R.AXn_IREF, 16, 16⟩
/-- AXn_IREF.IHOLD -/
def AXn_IREF_IHOLD : Fld := ⟨R.AXn_IREF, 0, 16⟩
/-- AXn_ISTBY.TWAKE -/
def AXn_ISTBY_TWAKE : Fld := ⟨R.AXn_ISTBY, 16, 8⟩
/-- AXn_ISTBY.TSTBY -/
def AXn_ISTBY_TSTBY : Fld := ⟨R.AXn_ISTBY, 0, 16⟩
/-- AXn_ENC.EN -/
def AXn_ENC_EN : Fld := ⟨R.AXn_ENC, 31, 1⟩
/-- AXn_ENC.QE -/
def AXn_ENC_QE : Fld := ⟨R.AXn_ENC, 24, 3⟩
/-- AXn_ENC.STALLT -/
def AXn_ENC_STALLT : Fld := ⟨R.AXn_ENC, 16, 8⟩
/-- AXn_ENC.STALLW -/
def AXn_ENC_STALLW : Fld := ⟨R.AXn_ENC, 0, 16⟩
/-- AXn_LAG.LAGMAX -/
def AXn_LAG_LAGMAX : Fld := ⟨R.AXn_LAG, 16, 16⟩
/-- AXn_LAG.GLAG -/
def AXn_LAG_GLAG : Fld := ⟨R.AXn_LAG, 0, 16⟩
/-- AXn_GEAR.BLEND -/
def AXn_GEAR_BLEND : Fld := ⟨R.AXn_GEAR, 16, 16⟩
/-- AXn_GEAR.GDIR -/
def AXn_GEAR_GDIR : Fld := ⟨R.AXn_GEAR, 7, 1⟩
/-- AXn_GEAR.NSEG -/
def AXn_GEAR_NSEG : Fld := ⟨R.AXn_GEAR, 4, 3⟩
/-- AXn_GEAR.SRC -/
def AXn_GEAR_SRC : Fld := ⟨R.AXn_GEAR, 0, 4⟩
/-- AXn_VCMD.DIR -/
def AXn_VCMD_DIR : Fld := ⟨R.AXn_VCMD, 31, 1⟩
/-- AXn_VCMD.V -/
def AXn_VCMD_V : Fld := ⟨R.AXn_VCMD, 0, 21⟩
/-- AXn_ERR.CMDREJ -/
def AXn_ERR_CMDREJ : Fld := ⟨R.AXn_ERR, 2, 1⟩
/-- AXn_ERR.BUSYREJ -/
def AXn_ERR_BUSYREJ : Fld := ⟨R.AXn_ERR, 1, 1⟩
/-- AXn_ERR.CFGREJ -/
def AXn_ERR_CFGREJ : Fld := ⟨R.AXn_ERR, 0, 1⟩
/-- QEn_CFG.INVI -/
def QEn_CFG_INVI : Fld := ⟨R.QEn_CFG, 10, 1⟩
/-- QEn_CFG.INVB -/
def QEn_CFG_INVB : Fld := ⟨R.QEn_CFG, 9, 1⟩
/-- QEn_CFG.INVA -/
def QEn_CFG_INVA : Fld := ⟨R.QEn_CFG, 8, 1⟩
/-- QEn_CFG.SWAP -/
def QEn_CFG_SWAP : Fld := ⟨R.QEn_CFG, 7, 1⟩
/-- QEn_CFG.FILT -/
def QEn_CFG_FILT : Fld := ⟨R.QEn_CFG, 4, 3⟩
/-- QEn_CFG.MODE -/
def QEn_CFG_MODE : Fld := ⟨R.QEn_CFG, 0, 2⟩
/-- QEn_IDXCNT.COUNT -/
def QEn_IDXCNT_COUNT : Fld := ⟨R.QEn_IDXCNT, 0, 16⟩
/-- ADC_CTRL.SKIPU -/
def ADC_CTRL_SKIPU : Fld := ⟨R.ADC_CTRL, 2, 1⟩
/-- ADC_CTRL.LP -/
def ADC_CTRL_LP : Fld := ⟨R.ADC_CTRL, 1, 1⟩
/-- ADC_CTRL.MODE -/
def ADC_CTRL_MODE : Fld := ⟨R.ADC_CTRL, 0, 1⟩
/-- ADC_SCAN.PER -/
def ADC_SCAN_PER : Fld := ⟨R.ADC_SCAN, 0, 20⟩
/-- ADC_FMT.ALIGN -/
def ADC_FMT_ALIGN : Fld := ⟨R.ADC_FMT, 0, 1⟩
/-- ADC_CAL.EN -/
def ADC_CAL_EN : Fld := ⟨R.ADC_CAL, 31, 1⟩
/-- ADC_CAL.INT -/
def ADC_CAL_INT : Fld := ⟨R.ADC_CAL, 0, 16⟩
/-- ADC_FIT.USED -/
def ADC_FIT_USED : Fld := ⟨R.ADC_FIT, 16, 3⟩
/-- ADC_FIT.LOAD -/
def ADC_FIT_LOAD : Fld := ⟨R.ADC_FIT, 0, 11⟩
/-- ADC_FIFO_LVL.THR -/
def ADC_FIFO_LVL_THR : Fld := ⟨R.ADC_FIFO_LVL, 16, 9⟩
/-- ADC_CALSEL.SLICE -/
def ADC_CALSEL_SLICE : Fld := ⟨R.ADC_CALSEL, 4, 4⟩
/-- ADC_CALSEL.GAIN -/
def ADC_CALSEL_GAIN : Fld := ⟨R.ADC_CALSEL, 0, 3⟩
/-- ADT_REJ.ENTRY -/
def ADT_REJ_ENTRY : Fld := ⟨R.ADT_REJ, 16, 6⟩
/-- ADT_REJ.REASON -/
def ADT_REJ_REASON : Fld := ⟨R.ADT_REJ, 0, 4⟩
/-- MED_GPI.RAW -/
def MED_GPI_RAW : Fld := ⟨R.MED_GPI, 16, 16⟩
/-- MED_GPI.LEVEL -/
def MED_GPI_LEVEL : Fld := ⟨R.MED_GPI, 0, 16⟩
/-- MED_GPIDEB.DEB -/
def MED_GPIDEB_DEB : Fld := ⟨R.MED_GPIDEB, 0, 8⟩
/-- MED_GPIIRQ.FALL -/
def MED_GPIIRQ_FALL : Fld := ⟨R.MED_GPIIRQ, 16, 16⟩
/-- MED_GPIIRQ.RISE -/
def MED_GPIIRQ_RISE : Fld := ⟨R.MED_GPIIRQ, 0, 16⟩
/-- MED_REF.EN -/
def MED_REF_EN : Fld := ⟨R.MED_REF, 31, 1⟩
/-- MED_REF.TOL -/
def MED_REF_TOL : Fld := ⟨R.MED_REF, 0, 17⟩
/-- MED_STALE.T -/
def MED_STALE_T : Fld := ⟨R.MED_STALE, 0, 8⟩
/-- MED_LEDk.POL -/
def MED_LEDk_POL : Fld := ⟨R.MED_LEDk, 16, 1⟩
/-- MED_LEDk.DUTY -/
def MED_LEDk_DUTY : Fld := ⟨R.MED_LEDk, 0, 10⟩
/-- MED_PORTp.HOPOL -/
def MED_PORTp_HOPOL : Fld := ⟨R.MED_PORTp, 17, 1⟩
/-- MED_PORTp.HOV -/
def MED_PORTp_HOV : Fld := ⟨R.MED_PORTp, 16, 1⟩
/-- MED_PORTp.HOIN -/
def MED_PORTp_HOIN : Fld := ⟨R.MED_PORTp, 12, 4⟩
/-- MED_PORTp.PAPV -/
def MED_PORTp_PAPV : Fld := ⟨R.MED_PORTp, 11, 1⟩
/-- MED_PORTp.PAPU -/
def MED_PORTp_PAPU : Fld := ⟨R.MED_PORTp, 8, 3⟩
/-- MED_PORTp.MARKV -/
def MED_PORTp_MARKV : Fld := ⟨R.MED_PORTp, 7, 1⟩
/-- MED_PORTp.MARKU -/
def MED_PORTp_MARKU : Fld := ⟨R.MED_PORTp, 4, 3⟩
/-- MED_PORTp.GAPV -/
def MED_PORTp_GAPV : Fld := ⟨R.MED_PORTp, 3, 1⟩
/-- MED_PORTp.GAPU -/
def MED_PORTp_GAPU : Fld := ⟨R.MED_PORTp, 0, 3⟩
/-- MED_Uu_CFG.EN -/
def MED_Uu_CFG_EN : Fld := ⟨R.MED_Uu_CFG, 31, 1⟩
/-- MED_Uu_CFG.AUTOCAL -/
def MED_Uu_CFG_AUTOCAL : Fld := ⟨R.MED_Uu_CFG, 30, 1⟩
/-- MED_Uu_CFG.DRIFT -/
def MED_Uu_CFG_DRIFT : Fld := ⟨R.MED_Uu_CFG, 29, 1⟩
/-- MED_Uu_CFG.INV -/
def MED_Uu_CFG_INV : Fld := ⟨R.MED_Uu_CFG, 28, 1⟩
/-- MED_Uu_CFG.TYPE -/
def MED_Uu_CFG_TYPE : Fld := ⟨R.MED_Uu_CFG, 26, 2⟩
/-- MED_Uu_CFG.PORT -/
def MED_Uu_CFG_PORT : Fld := ⟨R.MED_Uu_CFG, 24, 2⟩
/-- MED_Uu_CFG.TC -/
def MED_Uu_CFG_TC : Fld := ⟨R.MED_Uu_CFG, 19, 5⟩
/-- MED_Uu_CFG.K -/
def MED_Uu_CFG_K : Fld := ⟨R.MED_Uu_CFG, 17, 2⟩
/-- MED_Uu_CFG.DEB -/
def MED_Uu_CFG_DEB : Fld := ⟨R.MED_Uu_CFG, 8, 8⟩
/-- MED_Uu_CFG.CH -/
def MED_Uu_CFG_CH : Fld := ⟨R.MED_Uu_CFG, 0, 6⟩
/-- MED_Uu_THR.THI -/
def MED_Uu_THR_THI : Fld := ⟨R.MED_Uu_THR, 16, 16⟩
/-- MED_Uu_THR.TLO -/
def MED_Uu_THR_TLO : Fld := ⟨R.MED_Uu_THR, 0, 16⟩
/-- MED_Uu_BASE.B0 -/
def MED_Uu_BASE_B0 : Fld := ⟨R.MED_Uu_BASE, 16, 16⟩
/-- MED_Uu_LEN.PITCH -/
def MED_Uu_LEN_PITCH : Fld := ⟨R.MED_Uu_LEN, 16, 16⟩
/-- MED_Uu_LEN.ACTLEN -/
def MED_Uu_LEN_ACTLEN : Fld := ⟨R.MED_Uu_LEN, 0, 16⟩
/-- MED_Uu_CAL.CALDIST -/
def MED_Uu_CAL_CALDIST : Fld := ⟨R.MED_Uu_CAL, 16, 16⟩
/-- MED_Uu_CAL.MINSPAN -/
def MED_Uu_CAL_MINSPAN : Fld := ⟨R.MED_Uu_CAL, 0, 16⟩
/-- MED_Uu_LIM.MAXACT -/
def MED_Uu_LIM_MAXACT : Fld := ⟨R.MED_Uu_LIM, 16, 16⟩
/-- MED_Uu_LIM.DRIFTMAX -/
def MED_Uu_LIM_DRIFTMAX : Fld := ⟨R.MED_Uu_LIM, 0, 16⟩
/-- MED_Uu_STAT.CALFAIL -/
def MED_Uu_STAT_CALFAIL : Fld := ⟨R.MED_Uu_STAT, 2, 1⟩
/-- CSI_CFG.LANES -/
def CSI_CFG_LANES : Fld := ⟨R.CSI_CFG, 0, 2⟩
/-- CSI_VCv_CFG.EN -/
def CSI_VCv_CFG_EN : Fld := ⟨R.CSI_VCv_CFG, 31, 1⟩
/-- CSI_VCv_CFG.WIDTH -/
def CSI_VCv_CFG_WIDTH : Fld := ⟨R.CSI_VCv_CFG, 12, 12⟩
/-- CSI_VCv_CFG.HEIGHT -/
def CSI_VCv_CFG_HEIGHT : Fld := ⟨R.CSI_VCv_CFG, 0, 12⟩
/-- CSI_VCv_FRM.FNUM -/
def CSI_VCv_FRM_FNUM : Fld := ⟨R.CSI_VCv_FRM, 16, 16⟩
/-- CSI_VCv_FRM.COUNT -/
def CSI_VCv_FRM_COUNT : Fld := ⟨R.CSI_VCv_FRM, 0, 16⟩
/-- VPn_BIND.RTMO -/
def VPn_BIND_RTMO : Fld := ⟨R.VPn_BIND, 16, 16⟩
/-- VPn_BIND.ROUND -/
def VPn_BIND_ROUND : Fld := ⟨R.VPn_BIND, 2, 1⟩
/-- VPn_BIND.CFGREJ -/
def VPn_BIND_CFGREJ : Fld := ⟨R.VPn_BIND, 1, 1⟩
/-- VPn_PIPE.KS3 -/
def VPn_PIPE_KS3 : Fld := ⟨R.VPn_PIPE, 7, 1⟩
/-- VPn_PIPE.CFA -/
def VPn_PIPE_CFA : Fld := ⟨R.VPn_PIPE, 0, 3⟩
/-- VPn_MERGE.RATIO -/
def VPn_MERGE_RATIO : Fld := ⟨R.VPn_MERGE, 16, 16⟩
/-- VPn_MERGE.KNEE -/
def VPn_MERGE_KNEE : Fld := ⟨R.VPn_MERGE, 0, 12⟩
/-- VPn_WB0.GG -/
def VPn_WB0_GG : Fld := ⟨R.VPn_WB0, 16, 16⟩
/-- VPn_WB0.GR -/
def VPn_WB0_GR : Fld := ⟨R.VPn_WB0, 0, 16⟩
/-- VPn_WB1.GB -/
def VPn_WB1_GB : Fld := ⟨R.VPn_WB1, 0, 16⟩
/-- VPn_CLS.TRB -/
def VPn_CLS_TRB : Fld := ⟨R.VPn_CLS, 24, 8⟩
/-- VPn_CLS.TG -/
def VPn_CLS_TG : Fld := ⟨R.VPn_CLS, 16, 8⟩
/-- VPn_CLS.DOCNT -/
def VPn_CLS_DOCNT : Fld := ⟨R.VPn_CLS, 8, 8⟩
/-- VPn_CLS.LSTRIDE -/
def VPn_CLS_LSTRIDE : Fld := ⟨R.VPn_CLS, 0, 4⟩
/-- VPn_DENS.RLO -/
def VPn_DENS_RLO : Fld := ⟨R.VPn_DENS, 24, 8⟩
/-- VPn_DENS.RHI -/
def VPn_DENS_RHI : Fld := ⟨R.VPn_DENS, 16, 8⟩
/-- VPn_DENS.BHI -/
def VPn_DENS_BHI : Fld := ⟨R.VPn_DENS, 8, 8⟩
/-- VPn_DENS.BLO -/
def VPn_DENS_BLO : Fld := ⟨R.VPn_DENS, 0, 8⟩
/-- VPn_SCROP0.SY0 -/
def VPn_SCROP0_SY0 : Fld := ⟨R.VPn_SCROP0, 16, 12⟩
/-- VPn_SCROP0.SX0 -/
def VPn_SCROP0_SX0 : Fld := ⟨R.VPn_SCROP0, 0, 12⟩
/-- VPn_SCROP1.SSTEP -/
def VPn_SCROP1_SSTEP : Fld := ⟨R.VPn_SCROP1, 30, 2⟩
/-- VPn_SCROP1.SY1 -/
def VPn_SCROP1_SY1 : Fld := ⟨R.VPn_SCROP1, 16, 12⟩
/-- VPn_SCROP1.SX1 -/
def VPn_SCROP1_SX1 : Fld := ⟨R.VPn_SCROP1, 0, 12⟩
/-- VPn_SNAP0.PY0 -/
def VPn_SNAP0_PY0 : Fld := ⟨R.VPn_SNAP0, 16, 12⟩
/-- VPn_SNAP0.PX0 -/
def VPn_SNAP0_PX0 : Fld := ⟨R.VPn_SNAP0, 0, 12⟩
/-- VPn_SNAP1.PDEC -/
def VPn_SNAP1_PDEC : Fld := ⟨R.VPn_SNAP1, 30, 2⟩
/-- VPn_SNAP1.PH -/
def VPn_SNAP1_PH : Fld := ⟨R.VPn_SNAP1, 16, 12⟩
/-- VPn_SNAP1.PW -/
def VPn_SNAP1_PW : Fld := ⟨R.VPn_SNAP1, 0, 12⟩
/-- VPn_SNAPCTL.DONE -/
def VPn_SNAPCTL_DONE : Fld := ⟨R.VPn_SNAPCTL, 1, 1⟩
/-- VPn_SNAPADDR.ADDR -/
def VPn_SNAPADDR_ADDR : Fld := ⟨R.VPn_SNAPADDR, 0, 15⟩
/-- VPn_TMO.FLTMO -/
def VPn_TMO_FLTMO : Fld := ⟨R.VPn_TMO, 16, 16⟩
/-- VPn_TMO.EVTMO -/
def VPn_TMO_EVTMO : Fld := ⟨R.VPn_TMO, 0, 16⟩
/-- VPn_STATCTL.HOLD -/
def VPn_STATCTL_HOLD : Fld := ⟨R.VPn_STATCTL, 0, 1⟩
/-- VPn_WCNT.DOUT -/
def VPn_WCNT_DOUT : Fld := ⟨R.VPn_WCNT, 16, 16⟩
/-- VPn_WCNT.UNSEEN -/
def VPn_WCNT_UNSEEN : Fld := ⟨R.VPn_WCNT, 0, 16⟩
/-- VPn_Cx_CFG.EN -/
def VPn_Cx_CFG_EN : Fld := ⟨R.VPn_Cx_CFG, 31, 1⟩
/-- VPn_Cx_CFG.SRC -/
def VPn_Cx_CFG_SRC : Fld := ⟨R.VPn_Cx_CFG, 7, 1⟩
/-- VPn_Cx_CFG.ICSEL -/
def VPn_Cx_CFG_ICSEL : Fld := ⟨R.VPn_Cx_CFG, 6, 1⟩
/-- VPn_Cx_CFG.PORT -/
def VPn_Cx_CFG_PORT : Fld := ⟨R.VPn_Cx_CFG, 2, 2⟩
/-- VPn_Cx_CFG.VC -/
def VPn_Cx_CFG_VC : Fld := ⟨R.VPn_Cx_CFG, 0, 2⟩
/-- VPn_Cx_E.NE -/
def VPn_Cx_E_NE : Fld := ⟨R.VPn_Cx_E, 16, 13⟩
/-- VPn_Cx_E.E0 -/
def VPn_Cx_E_E0 : Fld := ⟨R.VPn_Cx_E, 0, 13⟩
/-- VPn_Cx_X0.X0 -/
def VPn_Cx_X0_X0 : Fld := ⟨R.VPn_Cx_X0, 0, 16⟩
/-- VPn_Cx_ROW.CROW1 -/
def VPn_Cx_ROW_CROW1 : Fld := ⟨R.VPn_Cx_ROW, 16, 12⟩
/-- VPn_Cx_ROW.CROW0 -/
def VPn_Cx_ROW_CROW0 : Fld := ⟨R.VPn_Cx_ROW, 0, 12⟩
/-- VPn_Cx_LAG.LAG -/
def VPn_Cx_LAG_LAG : Fld := ⟨R.VPn_Cx_LAG, 0, 16⟩
/-- ICk_CFG.STMO -/
def ICk_CFG_STMO : Fld := ⟨R.ICk_CFG, 8, 8⟩
/-- ICk_CFG.ENA -/
def ICk_CFG_ENA : Fld := ⟨R.ICk_CFG, 2, 1⟩
/-- ICk_STAT.LTAG -/
def ICk_STAT_LTAG : Fld := ⟨R.ICk_STAT, 24, 8⟩
/-- ICk_STAT.REJ -/
def ICk_STAT_REJ : Fld := ⟨R.ICk_STAT, 5, 1⟩
/-- ICk_STAT.RESULT -/
def ICk_STAT_RESULT : Fld := ⟨R.ICk_STAT, 0, 3⟩
/-- ICk_LFRM.FRAME -/
def ICk_LFRM_FRAME : Fld := ⟨R.ICk_LFRM, 0, 16⟩
/-- FLC_CFG.PMAX -/
def FLC_CFG_PMAX : Fld := ⟨R.FLC_CFG, 8, 4⟩
/-- FLC_CFG.PFDIS -/
def FLC_CFG_PFDIS : Fld := ⟨R.FLC_CFG, 4, 3⟩
/-- FLC_CFG.COMPAT -/
def FLC_CFG_COMPAT : Fld := ⟨R.FLC_CFG, 0, 2⟩
/-- FLC_RES.RESULT -/
def FLC_RES_RESULT : Fld := ⟨R.FLC_RES, 28, 4⟩
/-- FLC_RES.PULSES -/
def FLC_RES_PULSES : Fld := ⟨R.FLC_RES, 0, 5⟩
/-- FLC_CNT.CORR -/
def FLC_CNT_CORR : Fld := ⟨R.FLC_CNT, 16, 16⟩
/-- FLC_CNT.NB -/
def FLC_CNT_NB : Fld := ⟨R.FLC_CNT, 0, 16⟩
/-- FLC_REJ.REASON -/
def FLC_REJ_REASON : Fld := ⟨R.FLC_REJ, 0, 4⟩
/-- FLC_ERRTH.ETH -/
def FLC_ERRTH_ETH : Fld := ⟨R.FLC_ERRTH, 24, 8⟩
/-- FLC_ERRTH.PTH -/
def FLC_ERRTH_PTH : Fld := ⟨R.FLC_ERRTH, 16, 8⟩
/-- FLC_ERRTH.TH -/
def FLC_ERRTH_TH : Fld := ⟨R.FLC_ERRTH, 0, 16⟩
/-- FLC_SUSP.SMAX -/
def FLC_SUSP_SMAX : Fld := ⟨R.FLC_SUSP, 16, 16⟩
/-- FLC_SUSP.RESQ -/
def FLC_SUSP_RESQ : Fld := ⟨R.FLC_SUSP, 0, 8⟩
/-- FLC_CYCSEL.SECTOR -/
def FLC_CYCSEL_SECTOR : Fld := ⟨R.FLC_CYCSEL, 0, 12⟩
/-- FLC_PROTr.LOCK -/
def FLC_PROTr_LOCK : Fld := ⟨R.FLC_PROTr, 27, 1⟩
/-- CSL_RATE.RATE -/
def CSL_RATE_RATE : Fld := ⟨R.CSL_RATE, 0, 3⟩
/-- CSL_ADDR.ADDR -/
def CSL_ADDR_ADDR : Fld := ⟨R.CSL_ADDR, 0, 6⟩
/-- CSL_TIMING.DEADT -/
def CSL_TIMING_DEADT : Fld := ⟨R.CSL_TIMING, 16, 8⟩
/-- CSL_TIMING.TDIS -/
def CSL_TIMING_TDIS : Fld := ⟨R.CSL_TIMING, 8, 4⟩
/-- CSL_TIMING.TDE -/
def CSL_TIMING_TDE : Fld := ⟨R.CSL_TIMING, 0, 8⟩
/-- CSL_HTMO.HTMO -/
def CSL_HTMO_HTMO : Fld := ⟨R.CSL_HTMO, 0, 16⟩
/-- SEC_TMO.IDLE -/
def SEC_TMO_IDLE : Fld := ⟨R.SEC_TMO, 16, 16⟩
/-- SEC_TMO.OPENT -/
def SEC_TMO_OPENT : Fld := ⟨R.SEC_TMO, 0, 16⟩
/-- SEC_MBm_CTL.STATUS -/
def SEC_MBm_CTL_STATUS : Fld := ⟨R.SEC_MBm_CTL, 24, 8⟩
/-- SEC_MBm_CTL.SESS -/
def SEC_MBm_CTL_SESS : Fld := ⟨R.SEC_MBm_CTL, 16, 3⟩
/-- SEC_MBm_CTL.OP -/
def SEC_MBm_CTL_OP : Fld := ⟨R.SEC_MBm_CTL, 4, 4⟩
/-- SEC_MBm_CTL.KSEL -/
def SEC_MBm_CTL_KSEL : Fld := ⟨R.SEC_MBm_CTL, 3, 1⟩
/-- SEC_MBm_CTL.BUSY -/
def SEC_MBm_CTL_BUSY : Fld := ⟨R.SEC_MBm_CTL, 1, 1⟩
/-- UAn_CFG.FQ -/
def UAn_CFG_FQ : Fld := ⟨R.UAn_CFG, 18, 4⟩
/-- UAn_CFG.CECHO -/
def UAn_CFG_CECHO : Fld := ⟨R.UAn_CFG, 17, 1⟩
/-- UAn_CFG.FEED -/
def UAn_CFG_FEED : Fld := ⟨R.UAn_CFG, 16, 1⟩
/-- UAn_CFG.CTSPOL -/
def UAn_CFG_CTSPOL : Fld := ⟨R.UAn_CFG, 13, 1⟩
/-- UAn_CFG.RTSPOL -/
def UAn_CFG_RTSPOL : Fld := ⟨R.UAn_CFG, 12, 1⟩
/-- UAn_CFG.XSTRIP -/
def UAn_CFG_XSTRIP : Fld := ⟨R.UAn_CFG, 11, 1⟩
/-- UAn_CFG.ECHO -/
def UAn_CFG_ECHO : Fld := ⟨R.UAn_CFG, 10, 1⟩
/-- UAn_CFG.OD -/
def UAn_CFG_OD : Fld := ⟨R.UAn_CFG, 9, 1⟩
/-- UAn_CFG.HALF -/
def UAn_CFG_HALF : Fld := ⟨R.UAn_CFG, 8, 1⟩
/-- UAn_CFG.FLOW -/
def UAn_CFG_FLOW : Fld := ⟨R.UAn_CFG, 6, 2⟩
/-- UAn_CFG.OS3 -/
def UAn_CFG_OS3 : Fld := ⟨R.UAn_CFG, 5, 1⟩
/-- UAn_CFG.STOP2 -/
def UAn_CFG_STOP2 : Fld := ⟨R.UAn_CFG, 4, 1⟩
/-- UAn_CFG.PAR -/
def UAn_CFG_PAR : Fld := ⟨R.UAn_CFG, 1, 3⟩
/-- UAn_CFG.SEVEN -/
def UAn_CFG_SEVEN : Fld := ⟨R.UAn_CFG, 0, 1⟩
/-- UAn_BAUD.DIV -/
def UAn_BAUD_DIV : Fld := ⟨R.UAn_BAUD, 8, 12⟩
/-- UAn_BAUD.FRAC -/
def UAn_BAUD_FRAC : Fld := ⟨R.UAn_BAUD, 0, 8⟩
/-- UAn_RXTHR.RXHI -/
def UAn_RXTHR_RXHI : Fld := ⟨R.UAn_RXTHR, 16, 7⟩
/-- UAn_RXTHR.RXLO -/
def UAn_RXTHR_RXLO : Fld := ⟨R.UAn_RXTHR, 0, 7⟩
/-- UAn_IRQTHR.RXTHR -/
def UAn_IRQTHR_RXTHR : Fld := ⟨R.UAn_IRQTHR, 16, 7⟩
/-- UAn_IRQTHR.TXTHR -/
def UAn_IRQTHR_TXTHR : Fld := ⟨R.UAn_IRQTHR, 0, 7⟩
/-- UAn_XCH.XOFF -/
def UAn_XCH_XOFF : Fld := ⟨R.UAn_XCH, 8, 8⟩
/-- UAn_XCH.XON -/
def UAn_XCH_XON : Fld := ⟨R.UAn_XCH, 0, 8⟩
/-- UAn_ERR.ENREJ -/
def UAn_ERR_ENREJ : Fld := ⟨R.UAn_ERR, 2, 1⟩
/-- UAn_ERR.CFGREJ -/
def UAn_ERR_CFGREJ : Fld := ⟨R.UAn_ERR, 1, 1⟩
/-- UAn_ERR.COLL -/
def UAn_ERR_COLL : Fld := ⟨R.UAn_ERR, 0, 1⟩
/-- UAn_LDT.FGAP -/
def UAn_LDT_FGAP : Fld := ⟨R.UAn_LDT, 16, 8⟩
/-- UAn_LDT.LDT -/
def UAn_LDT_LDT : Fld := ⟨R.UAn_LDT, 0, 16⟩
/-- UAn_COLLCH.CH -/
def UAn_COLLCH_CH : Fld := ⟨R.UAn_COLLCH, 0, 8⟩
/-- SPT_CFG.DUMMY -/
def SPT_CFG_DUMMY : Fld := ⟨R.SPT_CFG, 0, 4⟩
/-- SPT_ERR.CMDERR -/
def SPT_ERR_CMDERR : Fld := ⟨R.SPT_ERR, 2, 1⟩
/-- SPT_ERR.TRUNC -/
def SPT_ERR_TRUNC : Fld := ⟨R.SPT_ERR, 1, 1⟩
/-- SPT_ERR.AERR -/
def SPT_ERR_AERR : Fld := ⟨R.SPT_ERR, 0, 1⟩
/-- FCC_FER.VALID -/
def FCC_FER_VALID : Fld := ⟨R.FCC_FER, 31, 1⟩
/-- FCC_FER.ID -/
def FCC_FER_ID : Fld := ⟨R.FCC_FER, 16, 7⟩
/-- FCC_STAT.ALIVESTOP -/
def FCC_STAT_ALIVESTOP : Fld := ⟨R.FCC_STAT, 3, 1⟩
/-- FCC_STAT.FATAL -/
def FCC_STAT_FATAL : Fld := ⟨R.FCC_STAT, 2, 1⟩
/-- FCC_STAT.OVF -/
def FCC_STAT_OVF : Fld := ⟨R.FCC_STAT, 1, 1⟩
/-- FCC_ESC.T -/
def FCC_ESC_T : Fld := ⟨R.FCC_ESC, 0, 16⟩
/-- FCC_ALIVE.STOPPED -/
def FCC_ALIVE_STOPPED : Fld := ⟨R.FCC_ALIVE, 31, 1⟩
/-- FCC_ALIVE.DIV -/
def FCC_ALIVE_DIV : Fld := ⟨R.FCC_ALIVE, 0, 17⟩
/-- FCC_SUPPRLAST.ID -/
def FCC_SUPPRLAST_ID : Fld := ⟨R.FCC_SUPPRLAST, 0, 7⟩
/-- FCC_CRSTREC.VALID -/
def FCC_CRSTREC_VALID : Fld := ⟨R.FCC_CRSTREC, 31, 1⟩
/-- FCC_CRSTREC.CLASS -/
def FCC_CRSTREC_CLASS : Fld := ⟨R.FCC_CRSTREC, 28, 2⟩
/-- FCC_CRSTREC.ID -/
def FCC_CRSTREC_ID : Fld := ⟨R.FCC_CRSTREC, 16, 7⟩
/-- LCS_STATE.KDP -/
def LCS_STATE_KDP : Fld := ⟨R.LCS_STATE, 11, 1⟩
/-- LCS_STATE.KMP -/
def LCS_STATE_KMP : Fld := ⟨R.LCS_STATE, 10, 1⟩
/-- LCS_STATE.REPROV -/
def LCS_STATE_REPROV : Fld := ⟨R.LCS_STATE, 8, 2⟩
/-- LCS_STATE.ERASED -/
def LCS_STATE_ERASED : Fld := ⟨R.LCS_STATE, 3, 1⟩
/-- LCS_STATE.STATE -/
def LCS_STATE_STATE : Fld := ⟨R.LCS_STATE, 0, 3⟩
/-- LCS_TRES.TARGET -/
def LCS_TRES_TARGET : Fld := ⟨R.LCS_TRES, 8, 3⟩
/-- LCS_TRES.RESULT -/
def LCS_TRES_RESULT : Fld := ⟨R.LCS_TRES, 0, 4⟩
/-- LCS_KEYPROG.RESULT -/
def LCS_KEYPROG_RESULT : Fld := ⟨R.LCS_KEYPROG, 4, 4⟩
/-- LCS_KEYPROG.BUSY -/
def LCS_KEYPROG_BUSY : Fld := ⟨R.LCS_KEYPROG, 3, 1⟩
/-- LCS_KEYPROG.SEL -/
def LCS_KEYPROG_SEL : Fld := ⟨R.LCS_KEYPROG, 1, 1⟩
/-- LCS_CASTON.BOOTERR -/
def LCS_CASTON_BOOTERR : Fld := ⟨R.LCS_CASTON, 24, 8⟩
/-- LCS_CASTON.ERASEFAIL -/
def LCS_CASTON_ERASEFAIL : Fld := ⟨R.LCS_CASTON, 15, 1⟩
/-- LCS_CASTON.ERASENOW -/
def LCS_CASTON_ERASENOW : Fld := ⟨R.LCS_CASTON, 14, 1⟩
/-- LCS_CASTON.OTPCOMP -/
def LCS_CASTON_OTPCOMP : Fld := ⟨R.LCS_CASTON, 13, 1⟩
/-- LCS_CASTON.PLLTRY -/
def LCS_CASTON_PLLTRY : Fld := ⟨R.LCS_CASTON, 10, 2⟩
/-- LCS_CASTON.FLB1 -/
def LCS_CASTON_FLB1 : Fld := ⟨R.LCS_CASTON, 9, 1⟩
/-- LCS_CASTON.FLB0 -/
def LCS_CASTON_FLB0 : Fld := ⟨R.LCS_CASTON, 8, 1⟩
/-- LCS_CASTON.BOOT -/
def LCS_CASTON_BOOT : Fld := ⟨R.LCS_CASTON, 0, 3⟩
/-- LCS_BOOTQ.COUNT -/
def LCS_BOOTQ_COUNT : Fld := ⟨R.LCS_BOOTQ, 16, 16⟩
/-- LCS_BOOTQ.VALID -/
def LCS_BOOTQ_VALID : Fld := ⟨R.LCS_BOOTQ, 4, 1⟩
/-- LCS_BOOTQ.Q -/
def LCS_BOOTQ_Q : Fld := ⟨R.LCS_BOOTQ, 0, 4⟩

end F

end Sys2Proof.Machine
end

