-- ==== Sys2Proof/Machine/Ops.lean ====
section
/-! DEFINITION. The named operations over the register store, memory, page headers, counters, interrupts and fault
reports; everything else reads and writes these parts of the state through them. -/

namespace Sys2Proof.Machine

-- sparse stores: sorted lists that list no default value

/-- The value at key `k`, `d` where the list has no entry. -/
def sget {β : Type} (d : β) (k : Nat) : List (Nat × β) → β
  | [] => d
  | (k', v) :: l => if k' = k then v else sget d k l

/-- Put an entry in its place. -/
def sins {β : Type} (k : Nat) (v : β) : List (Nat × β) → List (Nat × β)
  | [] => [(k, v)]
  | (k', v') :: l =>
    if k' < k then (k', v') :: sins k v l else if k' = k then (k, v) :: l else (k, v) :: (k', v') :: l

/-- Put `v` at key `k`; writing the default `d` removes the entry. -/
def sput {β : Type} [DecidableEq β] (d : β) (k : Nat) (v : β) (l : List (Nat × β)) : List (Nat × β) :=
  if v = d then l.filter fun e => e.1 != k else sins k v l

/-- Replace the entries of `dst` with keys in [lo, hi) by those of `src`. -/
def srange {β : Type} (lo hi : Nat) (src dst : List (Nat × β)) : List (Nat × β) :=
  dst.filter (fun e => e.1 < lo) ++ src.filter (fun e => lo ≤ e.1 && e.1 < hi) ++ dst.filter (fun e => hi ≤ e.1)

/-- Keys strictly rising. -/
def ssorted {β : Type} : List (Nat × β) → Bool
  | [] => true
  | [_] => true
  | a :: b :: l => a.1 < b.1 && ssorted (b :: l)

-- memory (02 R29)

def flashBase : Nat := 0
def flashEnd : Nat := 0x1000000
def skeinBase : Nat := 0x10000000
def skeinEnd : Nat := 0x10C00000
def wramBase : Nat := 0x20000000
def wramEnd : Nat := 0x20080000
def elemBase : Nat := 0x21000000
def elemEnd : Nat := 0x21030000
def otpBase : Nat := 0x30000000
def otpEnd : Nat := 0x30000800
def regBase : Nat := 0x40000000
def regEnd : Nat := 0x40065000

/-- What an unlisted byte reads as: erased flash (14 R346), zeroed RAM and unprogrammed OTP (19 R472 step 6, 14 R369),
and 0x33 as the first byte of each element entry (09 R223). DESIGN CHOICE, log entry 1; DESIGN CHOICE, log entry 56.
-/
def memDefault (a : Nat) : Byte :=
  if a < flashEnd then 0xFF
  else if elemBase ≤ a && a < elemEnd && (a - elemBase) % 8 = 0 then 0x33
  else 0

/-- The canonical form of memory: addresses strictly rising, no entry equal to what its address reads as unlisted. -/
def Memory.wf (m : List Host.Cell) : Bool :=
  ssorted m && m.all (fun c => c.2 != memDefault c.1)

/-- One byte of memory as stored. -/
def State.byte (s : State) (a : Nat) : Byte := sget (memDefault a) a s.mem

def State.setByte (s : State) (a : Nat) (v : Byte) : State :=
  { s with mem := sput (memDefault a) a v s.mem }

/-- `n` bytes from `a` upward. -/
def State.bytes (s : State) (a : Nat) : Nat → List Byte
  | 0 => []
  | n + 1 => s.byte a :: s.bytes (a + 1) n

def State.setBytes (s : State) (a : Nat) : List Byte → State
  | [] => s
  | b :: l => (s.setByte a b).setBytes (a + 1) l

/-- A number from its bytes, least significant first (00 R4). -/
def leNat : List Byte → Nat
  | [] => 0
  | b :: l => b.toNat + 256 * leNat l

/-- `n` bytes of a number, least significant first. -/
def natBytes : Nat → Nat → List Byte
  | 0, _ => []
  | n + 1, v => BitVec.ofNat 8 v :: natBytes n (v / 256)

def State.word (s : State) (a : Nat) : Word := BitVec.ofNat 32 (leNat (s.bytes a 4))

def State.setWord (s : State) (a : Nat) (v : Word) : State := s.setBytes a (natBytes 4 v.toNat)

/-- Bits [lo + n - 1 : lo] of a number. -/
def bitsN (v lo n : Nat) : Nat := v / 2 ^ lo % 2 ^ n

/-- Bits of a word as a number. -/
def wbits (w : Word) (lo n : Nat) : Nat := bitsN w.toNat lo n

/-- A two's-complement number of `n` bits. -/
def sgn (n v : Nat) : Int := if v < 2 ^ (n - 1) then v else (v : Int) - 2 ^ n

/-- The `n` low bits of an integer. -/
def lowBits (n : Nat) (x : Int) : Nat := (x % (2 ^ n : Nat)).toNat

/-- 00 R6: round half away from zero of a / b, b > 0. -/
def roundDiv (a : Int) (b : Nat) : Int :=
  if 0 ≤ a then (2 * a + b) / (2 * b) else -((2 * (-a) + b) / (2 * b))

/-- 00 R6. -/
def sat (x lo hi : Int) : Int := if x < lo then lo else if hi < x then hi else x

/-- 00 R6: ceil of a / b. -/
def ceilDiv (a b : Nat) : Nat := (a + b - 1) / b

-- registers

/-- The address of copy (i, j) of a register. -/
def Reg.addr (r : Reg) (i j : Nat) : Nat := r.base + i * r.s1 + j * r.s2

/-- The reset value of copy (i, j). DEDUCED, log entry 12. -/
def Reg.resetAt (r : Reg) (i j : Nat) : Word :=
  if r.resets.isEmpty then BitVec.ofNat 32 r.reset else BitVec.ofNat 32 (r.resets.getD (if r.c2 = 1 then i else j) 0)

/-- Copy (i, j) of a register as the store holds it. -/
def State.rd (s : State) (r : Reg) (i j : Nat := 0) : Word := sget (r.resetAt i j) (r.addr i j) s.regs

def State.wr (s : State) (r : Reg) (v : Word) (i j : Nat := 0) : State :=
  { s with regs := sput (r.resetAt i j) (r.addr i j) v s.regs }

/-- The active value of an RWS register (02 R43). -/
def State.rdAct (s : State) (r : Reg) (i j : Nat := 0) : Word := sget (r.resetAt i j) (r.addr i j) s.active

/-- Write field [lo + n - 1 : lo] of a word. -/
def setBits (w : Word) (lo n v : Nat) : Word :=
  let m : Word := BitVec.ofNat 32 ((2 ^ n - 1) * 2 ^ lo)
  (w &&& ~~~m) ||| (BitVec.ofNat 32 (v % 2 ^ n * 2 ^ lo))

/-- A field of a register as the store holds it (for an RWS field: the shadow). -/
def State.fld (s : State) (f : Fld) (i j : Nat := 0) : Nat := wbits (s.rd f.reg i j) f.lo f.width

/-- The active value of an RWS field. -/
def State.act (s : State) (f : Fld) (i j : Nat := 0) : Nat := wbits (s.rdAct f.reg i j) f.lo f.width

def State.setFld (s : State) (f : Fld) (v : Nat) (i j : Nat := 0) : State :=
  s.wr f.reg (setBits (s.rd f.reg i j) f.lo f.width v) i j

/-- One bit of a field set or cleared. -/
def State.setBit (s : State) (f : Fld) (b : Bool) (i j : Nat := 0) : State := s.setFld f b.toNat i j

/-- A field of one bit as a truth value. -/
def State.flag (s : State) (f : Fld) (i j : Nat := 0) : Bool := s.fld f i j != 0

/-- The active value of a field of one bit. -/
def State.actFlag (s : State) (f : Fld) (i j : Nat := 0) : Bool := s.act f i j != 0

-- pages

namespace Pg
def sys : PageIx := 0
def lcs : PageIx := 1
def fcc : PageIx := 2
def qmg : PageIx := 3
def seq : PageIx := 4
def rnd : PageIx := 5
def skn : PageIx := 6
def hhe : PageIx := 7
def hp (p : Port) : PageIx := ⟨8 + p.val, by omega⟩
def sba : PageIx := 12
def ehm : PageIx := 13
def moc : PageIx := 14
def ax (a : AxNum) : PageIx := ⟨15 + a.val, by omega⟩
def qe (e : QeNum) : PageIx := ⟨23 + e.val, by omega⟩
def adc : PageIx := 29
def adt : PageIx := 30
def med : PageIx := 31
def csi : PageIx := 32
def vp (v : VpNum) : PageIx := ⟨33 + v.val, by omega⟩
def ic : PageIx := 35
def flc : PageIx := 36
def csl : PageIx := 37
def sec : PageIx := 38
def ua (u : UaNum) : PageIx := ⟨39 + u.val, by omega⟩
def spt : PageIx := 43
end Pg

/-- The base address of a page (00 R1), by its index of 02 R51. -/
def pageBase (i : PageIx) : Nat :=
  let n := i.val
  if n ≤ 14 then 0x40000000 + n * 0x1000
  else if n ≤ 28 then 0x40010000 + (n - 15) * 0x1000
  else if n ≤ 31 then 0x40020000 + (n - 29) * 0x1000
  else if n ≤ 35 then 0x40030000 + (n - 32) * 0x1000
  else if n = 36 then 0x40040000
  else if n ≤ 38 then 0x40050000 + (n - 37) * 0x1000
  else 0x40060000 + (n - 39) * 0x1000

/-- The page that an address lies in, none where no page is based (02 R31). -/
def pageOf (a : Nat) : Option PageIx :=
  (List.finRange 44).find? fun i => pageBase i ≤ a && a < pageBase i + 0x1000

def State.page (s : State) (i : PageIx) : PageSt := s.pages[i]

def State.modPage (s : State) (i : PageIx) (f : PageSt → PageSt) : State :=
  { s with pages := s.pages.set i (f s.pages[i]) }

/-- A block in RUN. -/
def State.running (s : State) (i : PageIx) : Bool := (s.page i).st = .run

/-- A block at work: in RUN, or finishing its drain unit (02 R36). -/
def State.working (s : State) (i : PageIx) : Bool := (s.page i).st = .run || (s.page i).st = .draining

/-- An event sets bit `b` of PG_IRQ_STAT (02 R40). -/
def State.irq (s : State) (i : PageIx) (b : Nat) : State :=
  s.modPage i fun p => { p with irqStat := p.irqStat ||| BitVec.ofNat 32 (2 ^ b) }

/-- A page requests an interrupt (02 R40). -/
def PageSt.requests (p : PageSt) : Bool := p.irqStat &&& p.irqEn != 0

-- counters and faults

/-- One event of a SAT counter of 31 bits (02 R48). -/
def satStep (w : Word) : Word :=
  if w &&& 0x7FFFFFFF = 0x7FFFFFFF then w ||| 0x80000000 else w + 1

/-- An event of a SAT counter. -/
def State.count (s : State) (r : Reg) (i j : Nat := 0) : State := s.wr r (satStep (s.rd r i j)) i j

/-- `n` events of a SAT counter. -/
def State.countN (s : State) (r : Reg) (i : Nat) : Nat → State
  | 0 => s
  | n + 1 => (s.count r i).countN r i n

/-- `n` events of a SAT counter at once. -/
def satAdd (w : Word) (n : Nat) : Word :=
  if (w &&& 0x7FFFFFFF).toNat + n > 0x7FFFFFFF then 0xFFFFFFFF else w + BitVec.ofNat 32 n

def State.countAdd (s : State) (r : Reg) (i n : Nat) : State := s.wr r (satAdd (s.rd r i) n) i

/-- An event of a WRAP counter in a register of its own. -/
def State.wrapStep (s : State) (r : Reg) (i j : Nat := 0) : State := s.wr r (s.rd r i j + 1) i j

/-- Local source `k` of a page raises its fault; FCC decides it at a FAULT_REPORT (18 R453, R455). -/
def State.raise (s : State) (pg : PageIx) (k : Nat) (ports : List Port := []) : State :=
  { s with reports := s.reports ++ [{ page := pg, k := Fin.ofNat 32 k, at_ := s.time, ports := ports }] }

-- time, in 10 ns ticks (02 R50)

def usTicks : Nat := 100
def msTicks : Nat := 100000

/-- Ticks since an instant. -/
def State.since (s : State) (t : BitVec 64) : Nat := (s.time - t).toNat

/-- The low word of the timestamp. -/
def State.timeLo (s : State) : Word := s.time.setWidth 32

/-- The name of the next free value; it advances the model's counter. DESIGN CHOICE, log entry 58. -/
def State.fresh (s : State) : Nat × State := (s.freeCtr, { s with freeCtr := s.freeCtr + 1 })

-- typed parts by instance

def State.q (s : State) (n : QNum) : Queue := s.queues[n]
def State.modQ (s : State) (n : QNum) (f : Queue → Queue) : State :=
  { s with queues := s.queues.set n (f s.queues[n]) }
def State.thr (s : State) (n : QNum) : Thread := s.seq.threads[n]
def State.modThr (s : State) (n : QNum) (f : Thread → Thread) : State :=
  { s with seq := { s.seq with threads := s.seq.threads.set n (f s.seq.threads[n]) } }
def State.band (s : State) (b : Fin 128) : Band := s.skn.bands[b]
def State.modBand (s : State) (b : Fin 128) (f : Band → Band) : State :=
  { s with skn := { s.skn with bands := s.skn.bands.set b (f s.skn.bands[b]) } }
def State.lines (s : State) (p : Port) : List Line := s.skn.lines[p]
def State.setLines (s : State) (p : Port) (l : List Line) : State :=
  { s with skn := { s.skn with lines := s.skn.lines.set p l } }
def State.steps (s : State) (p : Port) : List Step := s.rnd.steps[p]
def State.setSteps (s : State) (p : Port) (l : List Step) : State :=
  { s with rnd := { s.rnd with steps := s.rnd.steps.set p l } }

end Sys2Proof.Machine
end

