-- ==== Sys2Proof/Machine/Flash.lean ====
section
/-! DEFINITION. Embedded flash and OTP (14): demand reads, prefetch, suspend and resume, the commands of R355 and
their ends, the write buffer, protection and password. -/

namespace Sys2Proof.Machine

-- contents

/-- The free value that stands for the byte at `a`, if the manual leaves the byte undefined: the target of a
suspended operation of flash (R353), or what an interrupted one left (note after R368). -/
def State.spoiled (s : State) (a : Nat) : Option Nat :=
  match s.flc.op with
  | some o => if o.cmd ≠ 8 ∧ o.lo ≤ a ∧ a < o.hi then some o.salt else
      (s.flc.undef.find? fun u => u.lo ≤ a && a < u.hi).map (·.salt)
  | none => (s.flc.undef.find? fun u => u.lo ≤ a && a < u.hi).map (·.salt)

/-- A byte of OTP while OTP_PROGRAM runs on its word: bits move from 0 to 1 only, and only where the buffer has a 1
(R369, R371). DESIGN CHOICE, log entry 60. -/
def State.otpCell (s : State) (a : Nat) : Byte :=
  match s.flc.op with
  | some o =>
    if o.cmd = 8 ∧ o.lo ≤ a ∧ a < o.hi then
      s.byte a ||| (Config.freeByte o.salt a &&& (o.latches.getD ((a - o.lo) / 8) 0).extractLsb' (8 * (a % 8)) 8)
    else s.byte a
  | none => s.byte a

/-- A byte of flash or OTP as its cells hold it. -/
def State.cell (s : State) (a : Nat) : Byte :=
  match s.spoiled a with
  | some n => Config.freeByte n a
  | none => s.otpCell a

def State.cells (s : State) (a : Nat) : Nat → List Byte
  | 0 => []
  | n + 1 => s.cell a :: s.cells (a + 1) n

/-- 64-bit word at byte address `a`. -/
def State.cell64 (s : State) (a : Nat) : BitVec 64 := BitVec.ofNat 64 (leNat (s.cells a 8))

/-- A bank that cast-on marked failed (19 R473). -/
def State.bankFailed (s : State) (b : Nat) : Bool :=
  if b = 0 then s.flag F.LCS_CASTON_FLB0 else b == 1 && s.flag F.LCS_CASTON_FLB1

/-- Error state of the 64-bit word at byte address `a`: 0 none, 1 corrected, 2 uncorrectable (R349). -/
def State.eccAt (s : State) (a : Nat) : Nat :=
  if a < flashEnd ∧ s.bankFailed (a / 0x800000) then 2 else
  match s.spoiled a with
  | some n => (Config.freeEcc n a).val
  | none => sget 0 a s.flc.ecc

/-- R346: every stored bit of the word reads 1. -/
def State.blankWord (s : State) (a : Nat) : Bool := s.cell64 a == BitVec.allOnes 64 && s.eccAt a == 0

/-- Byte addresses of the 64-bit words of [lo, hi). -/
def wordsOf (lo hi : Nat) : List Nat := (List.range ((hi - lo) / 8)).map fun k => lo + 8 * k

/-- Every word of [lo, hi), which lies in one bank, blank: none is in a failed bank (19 R473), and listed cells are
the non-blank ones where nothing is undefined. -/
def State.blankRange (s : State) (lo hi : Nat) : Bool :=
  !s.bankFailed (lo / 0x800000) &&
  (s.mem.all fun c => c.1 < lo || hi ≤ c.1 || (s.spoiled c.1).isSome) &&
  (s.flc.ecc.all fun c => c.1 < lo || hi ≤ c.1 || (s.spoiled c.1).isSome) &&
  (s.flc.undef.all fun u => (wordsOf (max lo u.lo) (min hi u.hi)).all s.blankWord)

/-- The bytes of [lo, hi) are defined again. -/
def FlcSt.settle (f : FlcSt) (lo hi : Nat) : FlcSt :=
  { f with
    ecc := f.ecc.filter fun c => c.1 < lo || hi ≤ c.1
    undef := f.undef.flatMap fun u =>
      (if u.lo < min u.hi lo then [{ u with hi := min u.hi lo }] else []) ++
      (if max u.lo hi < u.hi then [{ u with lo := max u.lo hi }] else []) }

/-- The bytes of [lo, hi) hold values that the manual leaves undefined. DESIGN CHOICE, log entry 59. -/
def State.spoil (s : State) (lo hi salt : Nat) : State :=
  { s with flc := { s.flc.settle lo hi with undef := ⟨lo, hi, salt⟩ :: (s.flc.settle lo hi).undef } }

/-- Erase [lo, hi): every byte reads 0xFF with no error. -/
def State.eraseRange (s : State) (lo hi : Nat) : State :=
  { s with mem := srange lo hi [] s.mem, flc := s.flc.settle lo hi }

/-- Store one 64-bit word. -/
def State.set64 (s : State) (a : Nat) (v : BitVec 64) : State :=
  { s.setBytes a (natBytes 8 v.toNat) with flc := s.flc.settle a (a + 8) }

-- reading (R347 to R354)

def flashIx : FlashClass → Fin 3
  | .seq => 0
  | .rnd => 1
  | .host => 2

/-- Bank of a flash address (R345). -/
def flashBank (a : Nat) : Nat := a / 0x800000

/-- The bank runs an operation and is not suspended. -/
def State.bankBusy (s : State) (b : Nat) : Bool :=
  match s.flc.op with
  | some o => o.bank == b && o.suspSince.isNone
  | none => false

/-- An operation holds the bank, running or suspended. -/
def State.bankHeld (s : State) (b : Nat) : Bool :=
  match s.flc.op with
  | some o => o.bank == b
  | none => false

/-- EARLY_WARN event `w`, once until re-armed (R368). -/
def State.earlyWarn (s : State) (w : Fin 4) : State :=
  if s.flc.warned[w] then s
  else ({ s with flc := { s.flc with warned := s.flc.warned.set w true } }.irq Pg.flc 6).raise Pg.flc 1

def corrReg (b : Nat) : Reg := if b = 0 then R.FLC_CORR0 else R.FLC_CORR1

/-- One corrected word read in bank `b` (R349, R368). -/
def State.corrected (s : State) (b : Nat) : State :=
  let s' := s.count (corrReg b)
  let th := max 1 (s.fld F.FLC_ERRTH_TH)
  if wbits (s'.rd (corrReg b)) 0 31 ≥ th then s'.earlyWarn (if b = 0 then 0 else 1) else s'

/-- One uncorrectable word read (R349). -/
def State.uncorrectable (s : State) (a : Nat) : State :=
  (((s.count R.FLC_DED).wr R.FLC_ECCADDR (BitVec.ofNat 32 a)).irq Pg.flc 7).raise Pg.flc 0

/-- Read the line at `a` from the array: its words with errors are counted and reported (R349). -/
def State.arrayLine (s : State) (a : Nat) : State × BitVec 4 :=
  (List.range 4).foldl (fun (acc : State × BitVec 4) k =>
    match s.eccAt (a + 8 * k) with
    | 0 => acc
    | 1 => (acc.1.corrected (flashBank a), acc.2)
    | _ => (acc.1.uncorrectable (a + 8 * k), acc.2 ||| BitVec.ofNat 4 (2 ^ k))) (s, 0)

/-- What a demand read of a line brings: a status line, or data with the words that are uncorrectable. -/
inductive FlashRes
  | subst
  | data (uncor : BitVec 4)
  deriving DecidableEq, Repr

def State.setBuf (s : State) (c : Fin 3) (l : List BufLine) : State :=
  { s with flc := { s.flc with bufs := s.flc.bufs.set c l } }

/-- A demand read of the line that holds `addr` by class `cls` (R347, R348, R351, R352, R354). -/
def State.flashRead (s : State) (cls : FlashClass) (addr : Nat) : State × FlashRes :=
  let la := addr / 32 * 32
  let b := flashBank addr
  let c := flashIx cls
  if (s.page Pg.flc).st = .resetting then (s, .subst)
  else if s.bankBusy b then
    ({ s with flc := { s.flc with op := s.flc.op.map fun o => { o with spend := true } } }, .subst)
  else
    let s := { s with flc := { s.flc with
      op := s.flc.op.map (fun (o : FlcOp) => if o.bank = b then { o with lastDemand := s.time } else o)
      lastDem := s.flc.lastDem.set c (some la) } }
    match s.flc.bufs[c].find? (·.addr == la) with
    | some l => (s.setBuf c (l :: s.flc.bufs[c].filter (·.addr != la)), .data l.uncor)
    | none =>
      let (s', e) := s.arrayLine la
      (s'.setBuf c ((⟨la, e⟩ :: s'.flc.bufs[c]).take 4), .data e)

/-- The 64-bit word that holds `addr` is uncorrectable in what a read brought. -/
def FlashRes.bad (r : FlashRes) (addr : Nat) : Bool :=
  match r with
  | .subst => false
  | .data e => e.getLsbD (addr % 32 / 8)

/-- A line that a class may prefetch: the first of the three lines that follow its last demand in the bank and is not
in the buffer (R348). -/
def State.prefetchLine (s : State) (cls : FlashClass) : Option Nat :=
  match s.flc.lastDem[flashIx cls] with
  | none => none
  | some la => ([la + 32, la + 64, la + 96].filter fun a => flashBank a == flashBank la).find? fun a =>
      !(s.flc.bufs[flashIx cls].any (·.addr == a))

/-- FLASH_PREFETCH: a bank that is busy or suspended is not prefetched from, as R348 has it; R352 lets prefetch resume
in a suspended bank. DEDUCED, log entry 176. -/
def State.prefetch (s : State) (cls : FlashClass) : State :=
  let c := flashIx cls
  if (s.fld F.FLC_CFG_PFDIS).testBit c.val || (s.page Pg.flc).st = .resetting then s
  else match s.prefetchLine cls with
    | none => s
    | some a =>
      if s.bankHeld (flashBank a) then s
      else
        let (s', e) := s.arrayLine a
        match s'.flc.bufs[c] with
        | [] => s'.setBuf c [⟨a, e⟩]
        | h :: t => s'.setBuf c ((h :: ⟨a, e⟩ :: t).take 4)

/-- Prefetch and cache lines of a bank are invalidated (R348, 04 R116). -/
def State.invalidateBank (s : State) (b : Nat) : State :=
  { s with
    flc := { s.flc with bufs := s.flc.bufs.map fun l => l.filter fun x => flashBank x.addr != b }
    seq := { s.seq with btc := s.seq.btc.filter fun x => flashBank x.addr != b } }

/-- FLC_STAT as it reads (R373). -/
def State.flcStat (s : State) : Word :=
  match s.flc.op with
  | none => 0
  | some o => BitVec.ofNat 32 (o.cmd * 256 + (if o.bank = 1 then 16 else 0) + (if o.spend then 4 else 0) +
      (if o.suspSince.isSome then 2 else 0) + 1)

-- protection (R365 to R367)

/-- Region r as the fields of FLC_PROTr say. -/
structure Region where
  on : Bool
  wp : Bool
  hr : Bool
  pwd : Bool
  lock : Bool
  last : Nat
  first : Nat
  deriving DecidableEq, Repr

def State.region (s : State) (r : Fin 8) : Region :=
  let w := s.rd R.FLC_PROTr r.val
  { on := w.getLsbD 31 && wbits w 0 12 ≤ wbits w 12 12, wp := w.getLsbD 30, hr := w.getLsbD 29, pwd := w.getLsbD 28,
    lock := w.getLsbD 27, last := wbits w 12 12, first := wbits w 0 12 }

/-- Sector `n` lies under a WP that applies (R365). DEDUCED, log entry 10. -/
def State.writeProtected (s : State) (n : Nat) : Bool :=
  (List.finRange 8).any fun r =>
    let g := s.region r
    g.on && g.wp && !(g.pwd && s.flc.unlocked) && g.first ≤ n && n ≤ g.last

/-- A sector of [a, b] lies under a WP that applies. -/
def State.rangeProtected (s : State) (a b : Nat) : Bool :=
  (List.finRange 8).any fun r =>
    let g := s.region r
    g.on && g.wp && !(g.pwd && s.flc.unlocked) && g.first ≤ b && a ≤ g.last

/-- HOST reads of the sector of flash address `a` are refused (R350). -/
def State.hostReadBarred (s : State) (a : Nat) : Bool :=
  (List.finRange 8).any fun r =>
    let g := s.region r
    g.on && g.hr && g.first ≤ a / 4096 && a / 4096 ≤ g.last

/-- PROT_WRITE: a keyed write of FLC_PROTr (R366). -/
def State.protWrite (s : State) (r : Fin 8) (v : Word) : State :=
  let g := s.region r
  if g.lock || (g.pwd && !s.flc.unlocked) then s else s.wr R.FLC_PROTr (v &&& 0xF8FFFFFF) r.val

/-- PASSWORD_CHECK: a keyed write of the pair FLC_PWD (R367). -/
def State.passwordCheck (s : State) (lo hi : Word) : State :=
  if s.flc.blocked then s
  else
    let fpw := s.cell64 (otpBase + 0x28)
    if fpw ≠ 0 ∧ hi ++ lo = fpw then { s with flc := { s.flc with unlocked := true } }
    else { s with flc := { s.flc with fails := s.flc.fails + 1, blocked := s.flc.fails + 1 ≥ 3 } }.irq Pg.flc 8

-- the write buffer (R356)

/-- The code of FLC_WOWN (R373). -/
def ownerCode : Option Requester → Nat
  | some .spt => 1
  | some .csl => 2
  | some (.seq _) => 3
  | some .transom => 4
  | _ => 0

/-- WBUF_WRITE: the owner's words are taken, others discarded and counted. DEDUCED, log entry 103. -/
def State.wbufWrite (s : State) (rq : Requester) (j : Nat) (v : Word) : State :=
  if s.flc.owner = none ∨ s.flc.owner = some rq then
    { s.wr R.FLC_WBUFj v j with flc := { s.flc with owner := some rq } }
  else s.count R.FLC_WDISC

/-- WBUF_CLEAR: all-ones and no owner. -/
def State.wbufClear (s : State) : State :=
  { s with
    regs := srange (R.FLC_WBUFj.addr 0 0) (R.FLC_WBUFj.addr 128 0) [] s.regs
    flc := { s.flc with owner := none } }

/-- 64-bit word k of the write buffer. -/
def State.wbuf64 (s : State) (k : Nat) : BitVec 64 := s.rd R.FLC_WBUFj (2 * k + 1) ++ s.rd R.FLC_WBUFj (2 * k)

-- commands (R355)

/-- The fields of a command word and what they span. -/
structure FlcCmd where
  cmd : Nat
  count : Nat
  waddr : Nat
  bank : Nat
  lo : Nat
  hi : Nat
  badArg : Bool
  deriving DecidableEq, Repr

def FlcCmd.ofWord (w : Word) : FlcCmd :=
  let cmd := wbits w 28 4
  let cf := wbits w 22 6
  let count := if cf = 0 then 64 else cf
  let a := wbits w 0 21
  let bank := a / 0x100000
  let lo := 8 * a
  match cmd with
  | 1 => ⟨cmd, count, a, bank, lo, lo + 8 * count, decide (a % 64 + count > 64)⟩
  | 2 => ⟨cmd, cf, a, bank, lo, lo + 0x1000, decide (a % 512 ≠ 0 ∨ cf ≠ 0)⟩
  | 3 => ⟨cmd, cf, a, bank, bank * 0x800000, (bank + 1) * 0x800000, decide (a % 0x100000 ≠ 0 ∨ cf ≠ 0)⟩
  | 4 => ⟨cmd, cf, a, bank, lo, lo + 0x1000, decide (a % 512 ≠ 0 ∨ cf ≠ 0)⟩
  | 5 => ⟨cmd, cf, a, bank, lo, lo + 0x1000, decide (a % 512 ≠ 0 ∨ cf ≠ 0)⟩
  | 6 => ⟨cmd, cf, a, bank, lo, lo + 0x10000, decide (a % 0x2000 ≠ 0 ∨ cf ≠ 0)⟩
  | 7 => ⟨cmd, 64, a, bank, lo, lo + 512, decide (a % 64 ≠ 0 ∨ cf ≠ 0)⟩
  | 8 => ⟨cmd, count, a % 256, 2, otpBase + 8 * (a % 256), otpBase + 8 * (a % 256) + 8 * count,
      decide (a / 256 ≠ 0 ∨ a % 256 + count > 256)⟩
  | _ => ⟨cmd, cf, a, bank, lo, lo, false⟩

/-- OTP offset not writable by OTP_PROGRAM in life-cycle state `st` (R369; codes of 19 R482). -/
def otpLocked (st off : Nat) : Bool :=
  if 0x20 ≤ off && off < 0x38 then !(st ≤ 2)
  else if 0x100 ≤ off && off < 0x800 then st == 5
  else true

/-- Page that follows the highest one of the block with a non-blank word (R364). -/
def State.scanNextPage (s : State) (blk : Nat) : Nat :=
  match (List.range 128).reverse.find? fun k => !s.blankRange (blk * 0x10000 + k * 512) (blk * 0x10000 + k * 512 + 512) with
  | some k => k + 1
  | none => 0

def State.nextPageOf (s : State) (blk : Nat) : Nat :=
  match s.flc.nextPage.find? (·.1 == blk) with
  | some e => e.2
  | none => s.scanNextPage blk

/-- FLC_CFG.COMPATb: the bank is in IK5200 mode (R363). -/
def State.compat (s : State) (b : Nat) : Bool := (s.fld F.FLC_CFG_COMPAT).testBit b

/-- Why a command is refused, none if it is accepted; the reasons are tried in the order of R355's table.
DEDUCED, log entry 9. -/
def State.flcRefusal (s : State) (rq : Requester) (c : FlcCmd) : Option Nat :=
  if c.cmd = 0 ∨ c.cmd > 8 then some 9
  else if s.flc.op.isSome ∨ (c.cmd = 8 ∧ s.chip.lcs.isSome) then some 1
  else if c.badArg then some 2
  else if (c.cmd = 1 ∨ c.cmd = 2 ∨ c.cmd = 3 ∨ c.cmd = 6 ∨ c.cmd = 7) ∧
      s.rangeProtected (c.lo / 4096) ((c.hi - 1) / 4096) then some 3
  else if ((c.cmd = 1 ∨ c.cmd = 2) ∧ s.compat c.bank) ∨ ((c.cmd = 6 ∨ c.cmd = 7) ∧ ¬ s.compat c.bank) then some 4
  else if (c.cmd = 1 ∨ c.cmd = 7 ∨ c.cmd = 8) ∧ s.flc.owner ≠ some rq then some 5
  else if c.cmd = 7 ∧ c.lo % 0x10000 / 512 < s.nextPageOf (c.lo / 0x10000) then some 6
  else if c.cmd = 8 ∧ (List.range c.count).any (fun k => otpLocked (s.fld F.LCS_STATE_STATE) (8 * (c.waddr + k))) then some 7
  else if ¬ s.running Pg.flc then some 8
  else none

/-- The cycle counter of a sector steps; at all-ones it stops and raises CYC_LIFE once (R360, 02 R49). -/
def State.cycleStep (s : State) (sec : Nat) : State :=
  let n := sget 0 sec s.flc.cycles
  if n ≥ 131071 then s
  else
    let s' := { s with flc := { s.flc with cycles := sput 0 sec (n + 1) s.flc.cycles } }
    if n + 1 = 131071 then s'.raise Pg.flc 4 else s'

/-- Clocks from the start of an erase to its first pulse: a blank check but for ERASE_BANK, then the setup (R362). -/
def erasePrelude (cmd : Nat) : Nat := if cmd = 2 then 1512 else if cmd = 6 then 9192 else 1000

/-- The first pulse of a running erase has begun. -/
def FlcOp.pulsing (o : FlcOp) (now : BitVec 64) : Bool := o.pulseAt.any fun t => decide (t.toNat ≤ now.toNat)

/-- FLC_CYC of a sector (R360). -/
def State.cyclesOf (s : State) (sec : Nat) : Nat :=
  let n := sget 0 sec s.flc.cycles
  if s.flc.op.any fun o => o.pulsing s.time && decide (o.lo ≤ sec * 4096) && decide (sec * 4096 < o.hi) then min 131071 (n + 1)
  else n

/-- The cycle counts of an erase's sectors step with its first pulse (R360). -/
def State.countPulse (s : State) (o : FlcOp) : State :=
  (List.range ((o.hi - o.lo) / 4096)).foldl (fun s k => s.cycleStep (o.lo / 4096 + k)) s

/-- The first pulse of the running erase has begun: the counts that it steps are stored. DESIGN CHOICE, log entry 187. -/
def State.pulseBegun (s : State) : State :=
  match s.flc.op with
  | some o => if o.pulsing s.time then ({ s with flc := { s.flc with op := some { o with pulseAt := none } } }).countPulse o else s
  | none => s

/-- An accepted command starts (R355 to R360, R364). -/
def State.flcStart (s : State) (w : Word) (c : FlcCmd) : State :=
  let takes := c.cmd = 1 ∨ c.cmd = 7 ∨ c.cmd = 8
  let latches := if takes then (List.range c.count).map s.wbuf64 else []
  let pulses := c.cmd = 3 ∨ ((c.cmd = 2 ∨ c.cmd = 6) ∧ ¬ s.blankRange c.lo c.hi)
  let s := if takes then s.wbufClear else s
  let np := match c.cmd with
    | 7 => (c.lo / 0x10000, c.lo % 0x10000 / 512 + 1) :: s.flc.nextPage.filter (·.1 != c.lo / 0x10000)
    | 6 => (c.lo / 0x10000, 0) :: s.flc.nextPage.filter (·.1 != c.lo / 0x10000)
    | 3 => (List.range 128).map (fun k => (c.bank * 128 + k, 0)) ++ s.flc.nextPage.filter (fun e => e.1 / 128 != c.bank)
    | _ => s.flc.nextPage
  let (salt, s) := s.fresh
  let s := s.wr R.FLC_CMD (w &&& 0xFFDFFFFF)
  let s := { s with flc := { s.flc with
    nextPage := np
    op := some { cmd := c.cmd, bank := c.bank, lo := c.lo, hi := c.hi, waddr := c.waddr, count := c.count
                 latches := latches, runSince := s.time
                 pulseAt := if pulses then some (s.time + BitVec.ofNat 64 (erasePrelude c.cmd)) else none, salt := salt } } }
  if c.cmd = 4 ∨ c.cmd = 5 then s else s.invalidateBank c.bank

/-- A keyed write of FLC_CMD reaches FLC (R355). -/
def State.flcCommand (s : State) (rq : Requester) (w : Word) : State :=
  let c := FlcCmd.ofWord w
  match s.flcRefusal rq c with
  | some r => (s.setFld F.FLC_REJ_REASON r).irq Pg.flc 5
  | none => s.flcStart w c

-- ends of operations (R357 to R361, R368, R371)

/-- The words of a PROGRAM that are checked and pulsed: those whose latch is not all-ones. -/
def FlcOp.targets (o : FlcOp) : List (Nat × BitVec 64) :=
  (o.latches.zipIdx.map fun (v, k) => (o.lo + 8 * k, v)).filter fun e => e.2 != BitVec.allOnes 64

/-- Index of a word in the target. -/
def FlcOp.ix (o : FlcOp) (a : Nat) : Nat := (a - o.lo) / 8

def State.flcResult (s : State) (res pulses : Nat) : State :=
  (s.setFld F.FLC_RES_RESULT res).setFld F.FLC_RES_PULSES pulses

/-- The pulse warning of an operation kind: raised once above its level, re-armed within it (R368). -/
def State.pulseWarn (s : State) (w : Fin 4) (late : Bool) : State :=
  if late then s.earlyWarn w else { s with flc := { s.flc with warned := s.flc.warned.set w false } }

/-- End of PROGRAM and PROGRAM_PAGE (R358). `o` is the operation, already removed from the state. -/
def State.programDone (s : State) (o : FlcOp) (out : FlashOutcome) : State :=
  match o.targets.find? fun e => !s.blankWord e.1 with
  | some e => ((s.flcResult 2 0).wr R.FLC_FADDR (BitVec.ofNat 32 e.1)).pulseWarn 2 false
  | none =>
    let pm := if s.fld F.FLC_CFG_PMAX = 0 then 16 else s.fld F.FLC_CFG_PMAX
    let n := if o.targets.isEmpty then 0 else min pm (max 1 out.pulsesNeeded)
    let ok := o.targets.isEmpty || out.pulsesNeeded ≤ pm
    let bad := if ok then [] else
      match o.targets.filter fun e => out.failing.contains (o.ix e.1) with
      | [] => o.targets
      | l => l
    let s := (o.targets.filter fun e => !bad.contains e).foldl (fun s e => s.set64 e.1 e.2) s
    let s := bad.foldl (fun s e => s.spoil e.1 (e.1 + 8) o.salt) s
    let s := (s.flcResult (if ok then 1 else 3) n).pulseWarn 2 (n > s.fld F.FLC_ERRTH_PTH)
    match bad with
    | [] => s
    | e :: _ => (s.wr R.FLC_FADDR (BitVec.ofNat 32 e.1)).raise Pg.flc 2

/-- End of ERASE, ERASE_BLOCK and ERASE_BANK (R359); no word of a failed bank ever reads blank (19 R473).
DEDUCED, log entry 191. -/
def State.eraseDone (s : State) (o : FlcOp) (out : FlashOutcome) : State :=
  if o.cmd ≠ 3 ∧ s.blankRange o.lo o.hi then (s.flcResult 1 0).pulseWarn 3 false
  else
    let ok : Bool := decide (out.pulsesNeeded ≤ 8) && !s.bankFailed o.bank
    let n := if ok then max 1 out.pulsesNeeded else 8
    let bad := if ok then [] else
      if s.bankFailed o.bank then [o.lo]
      else match (out.failing.map fun k => o.lo + 8 * k).filter fun a => a < o.hi with
        | [] => [o.lo]
        | l => l
    let s := s.eraseRange o.lo o.hi
    let s := bad.foldl (fun s a => s.spoil a (a + 8) o.salt) s
    let s := (s.flcResult (if ok then 1 else 4) n).pulseWarn 3 (n > s.fld F.FLC_ERRTH_ETH)
    if ok then s
    else (s.wr R.FLC_FADDR (BitVec.ofNat 32 (bad.foldl min (o.hi)))).raise Pg.flc 3

/-- The bits of a word of OTP that a program which failed has set, none but those that it would set. DESIGN CHOICE,
log entry 60. -/
def otpPart (salt a : Nat) (new : BitVec 64) : BitVec 64 :=
  BitVec.ofNat 64 (leNat ((List.range 8).map fun k => Config.freeByte salt (a + k))) &&& new

/-- End of OTP_PROGRAM (R371): a word that does not read as it should fails, one with no bit to program cannot. -/
def State.otpDone (s : State) (o : FlcOp) (out : FlashOutcome) : State :=
  let ws := o.latches.zipIdx.map fun (v, k) => (o.lo + 8 * k, v)
  let bad := ws.filter fun e => out.failing.contains (o.ix e.1) && e.2 &&& ~~~ s.cell64 e.1 != 0
  let s := ws.foldl (fun s e =>
    s.set64 e.1 (s.cell64 e.1 ||| (if bad.contains e then otpPart o.salt e.1 e.2 else e.2))) s
  match bad with
  | [] => s.flcResult 1 0
  | e :: _ => ((s.flcResult 3 0).wr R.FLC_FADDR (BitVec.ofNat 32 e.1)).raise Pg.flc 2

/-- The counts that MARGIN reports for its sector (R361): words that reads find uncorrectable are so at a margin too,
words that reads correct need correction or are uncorrectable there, and there are 512 words. DEDUCED, log entry 177.
-/
def State.marginCounts (s : State) (o : FlcOp) (out : FlashOutcome) : Nat × Nat :=
  let ws := wordsOf o.lo o.hi
  let bad := (ws.filter fun a => s.eccAt a == 2).length
  let weak := (ws.filter fun a => s.eccAt a == 1).length
  let nb := max bad (min out.uncorrectable ws.length)
  (max (min out.corrected ws.length) (weak - (nb - bad)), nb)

/-- LCS, which waits while FLC runs an OTP_PROGRAM, starts when it ends (19 R481). -/
def State.lcsFree (s : State) (o : FlcOp) : State :=
  if o.cmd = 8 then { s with chip := { s.chip with lcs := s.chip.lcs.map fun (l : LcsOp) => { l with since := s.time } } }
  else s

/-- FLASH_OPERATION_DONE: the running operation ends (R357). -/
def State.flashDone (s : State) (out : FlashOutcome) : State :=
  match s.flc.op with
  | none => s
  | some o =>
    if o.suspSince.isSome then s
    else
      let s := { s with flc := { s.flc with op := none } }.lcsFree o
      let s := if o.pulseAt.isSome then s.countPulse o else s
      let s := match o.cmd with
        | 1 => s.programDone o out
        | 7 => s.programDone o out
        | 2 => s.eraseDone o out
        | 3 => s.eraseDone o out
        | 6 => s.eraseDone o out
        | 4 =>
          let nb := ((wordsOf o.lo o.hi).filter fun a => !s.blankWord a).length
          (s.flcResult (if nb = 0 then 1 else 5) 0).setFld F.FLC_CNT_NB nb
        | 5 =>
          let (corr, nb) := s.marginCounts o out
          ((s.flcResult 1 0).setFld F.FLC_CNT_CORR corr).setFld F.FLC_CNT_NB nb
        | _ => s.otpDone o out
      (s.invalidateBank o.bank).irq Pg.flc 4

-- suspend and resume (R352, R353)

/-- FLASH_SUSPEND: a requested suspend after 250 µs of run; OTP is never suspended (R362). -/
def State.flashSuspend (s : State) : State :=
  let s := s.pulseBegun
  match s.flc.op with
  | none => s
  | some o =>
    if o.spend && o.suspSince.isNone && o.bank != 2 && s.since o.runSince ≥ 250 * usTicks then
      { s with flc := { s.flc with
        op := some { o with spend := false, suspSince := some s.time, lastDemand := s.time } } }.count R.FLC_SUSCNT
    else s

/-- FLASH_RESUME: after RESQ of quiet, or SMAX suspended. -/
def State.flashResume (s : State) : State :=
  match s.flc.op with
  | none => s
  | some o =>
    match o.suspSince with
    | none => s
    | some t =>
      if s.since o.lastDemand ≥ max 1 (s.fld F.FLC_SUSP_RESQ) * usTicks ∨
          s.since t ≥ max 1 (s.fld F.FLC_SUSP_SMAX) * usTicks then
        { s with flc := { s.flc with op := some { o with suspSince := none, runSince := s.time } } }
      else s

end Sys2Proof.Machine
end

