-- ==== Sys2Proof/Machine/Outcome.lean ====
section
/-! DEFINITION. Commands in flight and their outcomes (03 R59 to R73, 04 R107): what a queue does when the outcome of
one of its commands becomes known. -/

namespace Sys2Proof.Machine

-- status codes (R62)

namespace St
def ok : Byte := 0
def partly : Byte := 1
def aborted : Byte := 2
def cancelled : Byte := 3
def mediaTimeout : Byte := 4
def authFail : Byte := 5
def mediaOut : Byte := 6
def verifyFail : Byte := 7
def fault : Byte := 8
def badCommand : Byte := 9
end St

/-- Halting statuses (R62). -/
def halting (st : Byte) : Bool := st == St.aborted || (St.mediaTimeout ≤ st && st ≤ St.badCommand)

-- fields of an entry (04 R87)

def Entry.opc (e : Entry) : Nat := wbits e.w0 0 8
def Entry.flags (e : Entry) : Nat := wbits e.w0 8 8
def Entry.sp (e : Entry) : Nat := wbits e.w0 16 16

-- queues

/-- QMG_Qn_CFG.EN. -/
def State.qEn (s : State) (q : QNum) : Bool := s.flag F.QMG_Qn_CFG_EN q.val

/-- Ring sizes (R53). -/
def State.qSize (s : State) (q : QNum) : Nat := 2 ^ s.fld F.QMG_Qn_CFG_LOG2SIZE q.val
def State.qCsize (s : State) (q : QNum) : Nat := 2 ^ s.fld F.QMG_Qn_CFG_LOG2CSIZE q.val

/-- The head port a queue is bound to (R54). -/
def State.qPort (s : State) (q : QNum) : Option Port :=
  if s.flag F.QMG_Qn_CFG_BOUND q.val then some (Fin.ofNat 4 (s.fld F.QMG_Qn_CFG_PORT q.val)) else none

/-- The enabled queue bound to a port. -/
def State.portQueue (s : State) (p : Port) : Option QNum :=
  (List.finRange 16).find? fun q => s.qEn q && s.qPort q == some p

/-- The queues that may have commands in flight on a port: a bind-off outlasts EN (R83). -/
def State.portQueues (s : State) (p : Port) : List QNum :=
  (List.finRange 16).filter fun q => (s.q q).mode != .off && s.qPort q == some p

/-- Completion slots in use: written and not consumed. -/
def Queue.used (x : Queue) : Nat := (x.cwr - x.crd).toNat

/-- A command of the ring (not of a list). -/
def Cmd.ring (c : Cmd) : Bool := c.parent.isNone

/-- Slots reserved by started commands whose entry is not written (R25). -/
def Queue.reserved (x : Queue) : Nat := (x.cmds.filter Cmd.ring).length

/-- Commands in flight: outcome not known (R59, R92). -/
def Queue.live (x : Queue) : Nat :=
  ((x.cmds ++ x.conts).filter fun c => c.out.isNone).length

/-- A free completion slot exists (R25). -/
def State.slotFree (s : State) (q : QNum) : Bool := (s.q q).used + (s.q q).reserved < s.qCsize q

/-- A command of queue `q` in flight, by the model's name of it. -/
def State.liveCmd (s : State) (q : QNum) (uid : Nat) : Option Cmd :=
  ((s.q q).cmds ++ (s.q q).conts).find? fun c => c.uid == uid && c.out.isNone

/-- The PRINT of a committed line is in flight, so that the line may fire (R69, R71). -/
def State.lineLive (s : State) (l : Line) : Bool := (s.liveCmd l.q l.uid).isSome

/-- RESUME_LINE of a PRINT: its first dropped line or its first line not fired, whichever comes first (R60, R61). -/
def Cmd.resumeLine (c : Cmd) : Nat := min c.gone (c.dropped.getD c.gone)

/-- Line `k` of a PRINT has fired or been dropped. -/
def Cmd.lineOut (c : Cmd) (k : Nat) : Cmd :=
  let out := k :: c.ahead
  { c with gone := ((List.range c.lines).find? fun i => c.gone ≤ i && !out.contains i).getD c.lines, ahead := out }

def setCmd (uid : Nat) (f : Cmd → Cmd) (l : List Cmd) : List Cmd :=
  l.map fun c => if c.uid = uid ∧ c.out.isNone then f c else c

def State.modCmd (s : State) (q : QNum) (uid : Nat) (f : Cmd → Cmd) : State :=
  s.modQ q fun x => { x with cmds := setCmd uid f x.cmds, conts := setCmd uid f x.conts }

/-- The commands of a call, in execution order (04 R107). -/
def Queue.kids (x : Queue) (uid : Nat) : List Cmd := (x.cmds ++ x.conts).filter fun c => c.parent == some uid

/-- The calls that a command stands in, outermost last; `n` bounds the nesting. -/
def Queue.callsOf (x : Queue) (c : Cmd) : Nat → List Nat
  | 0 => []
  | n + 1 => match c.parent with
    | none => []
    | some u => u :: (match x.cmds.find? fun k => k.uid == u with
      | some k => x.callsOf k n
      | none => [])

/-- What a call ran, at every depth, in execution order; the calls themselves are left out. -/
def Queue.ran (x : Queue) (uid : Nat) : List Cmd := x.cmds.filter fun c => !c.call && (x.callsOf c 6).contains uid

/-- TAG and RESUME_LINE that a command supplies: a PRINT's. -/
def Cmd.printEnd (c : Cmd) : Byte × Word := if c.e.opc = 0x15 then (c.tag, c.resume) else (0, 0)

/-- Status, TAG and RESUME_LINE of a call whose commands all have their outcome (04 R107): the first halting status,
else ABORTED if the list was left early, else PARTIAL, else OK; `ran`: what it ran. DEDUCED, log entry 8. -/
def callOutcome (call : Cmd) (ran : List Cmd) : Byte × Byte × Word :=
  if let some st := call.forced then (st, 0, 0)
  else match ran.find? fun c => halting (c.out.getD 0) with
  | some c => (c.out.getD 0, c.printEnd)
  | none =>
    if call.early then
      (St.aborted, match (ran.filter fun c => c.e.opc == 0x15).getLast? with
        | some c => c.printEnd
        | none => (0, 0))
    else match ran.find? fun c => c.out == some St.partly with
      | some c => (St.partly, c.printEnd)
      | none => (St.ok, 0, 0)

/-- Status of a continued call (04 R108): TAG and RESUME_LINE come from the last PRINT continued. -/
def contOutcome (kids : List Cmd) : Byte × Byte × Word :=
  let st := match kids.find? fun c => halting (c.out.getD 0) with
    | some c => c.out.getD 0
    | none => if kids.any (fun c => c.out == some St.partly) then St.partly else St.ok
  (st, match kids.getLast? with
    | some c => (c.tag, c.resume)
    | none => (0, 0))

/-- The thread leaves its list at every level (04 R107): its open calls are closed early. -/
def State.leaveList (s : State) (q : QNum) : State :=
  if (s.thr q).levels.isEmpty then s
  else (s.modThr q fun t =>
    { t with levels := [], leaving := false, fetched := none, retry := none, jumped := false }).modQ q fun x =>
      { x with cmds := x.cmds.map fun c => if c.call && !c.closed then { c with closed := true, early := true } else c }

/-- The thread leaves its list at its next command boundary: at once unless it waits for a command (04 R107). -/
def State.leaveAtBoundary (s : State) (q : QNum) : State :=
  if (s.thr q).wait = .none then s.leaveList q
  else s.modThr q fun t => { t with leaving := !t.levels.isEmpty }

/-- A halting outcome binds the queue off, and a thread inside a list will leave it (R71, R73, 04 R107). -/
def State.bindOff (s : State) (q : QNum) : State :=
  let s := if (s.q q).mode = .run then s.modQ q fun x => { x with mode := .bindoff, haltGiven := false } else s
  s.leaveAtBoundary q

/-- RND and SKN hold nothing more for a command with its outcome. -/
def State.dropStep (s : State) (uid : Nat) : State :=
  let front (p : Port) : Bool := match s.steps p with
    | x :: _ => x.uid == uid
    | [] => false
  { s with
    skn := { s.skn with waits := s.skn.waits.filter fun w => !front w.port }
    rnd := { s.rnd with steps := s.rnd.steps.map fun l => l.filter fun x => x.uid != uid } }

/-- The thread no longer waits for a command with its outcome. -/
def Wait.after (w : Wait) (uid : Nat) : Wait :=
  match w with
  | .none => .none
  | .outcome u => if u = uid then .none else w
  | .event u _ => if u = uid then .none else w
  | .commit u => if u = uid then .none else w

/-- The thread is at a command boundary: it leaves its list if it must (04 R107). -/
def State.atEntry (s : State) (q : QNum) : State :=
  if (s.thr q).leaving ∧ (s.thr q).wait = .none then s.leaveList q else s

/-- The outcome of one command becomes known, apart from what its call makes of it. -/
def State.finish1 (s : State) (q : QNum) (uid : Nat) (st tag : Byte) (resume : Word) : State :=
  let s := (s.dropStep uid).modCmd q uid fun c =>
    { c with out := some st, outTime := s.timeLo, tag := tag, resume := resume }
  (s.modThr q fun t => { t with wait := t.wait.after uid }).atEntry q

/-- A FENCE that waits completes OK once every earlier command of the queue, but for the calls that it stands in, has
its outcome (04 R112). -/
def State.fenceCheck (s : State) (q : QNum) : State :=
  let x := s.q q
  match x.cmds.find? fun c => c.e.opc == 0x50 && c.out.isNone with
  | none => s
  | some f =>
    if (x.conts.all fun c => c.out.isSome) &&
        x.cmds.all fun c => c.out.isSome || c.uid == f.uid || (x.callsOf f 6).contains c.uid then
      s.finish1 q f.uid St.ok 0 0
    else s

/-- Calls whose list is left and whose commands all have their outcome get theirs, innermost first; `n` bounds the
nesting (04 R103, R107). -/
def State.closeCalls (s : State) (q : QNum) : Nat → State
  | 0 => s
  | n + 1 =>
    let s := s.fenceCheck q
    let x := s.q q
    match (x.cmds ++ x.conts).find? fun c =>
        c.call && c.closed && c.out.isNone && (x.kids c.uid).all fun k => k.out.isSome with
    | none => s
    | some c =>
      let (st, tag, rl) := if c.cont then contOutcome (x.kids c.uid) else callOutcome c (x.ran c.uid)
      let s := s.finish1 q c.uid st tag rl
      let s := if halting st && (c.ring || c.cont) then s.bindOff q else s
      s.closeCalls q n

/-- The call at the bottom of the list that the thread runs. -/
def Thread.rootCall (t : Thread) : Option Nat := t.levels.getLast?.map (·.call)

/-- The outcome `st` of a command becomes known (R59, R70, R73, 04 R107). A halting status of a ring command or a
continuation binds the queue off; that of a command of the list under way makes the thread leave the list at once, and
that of a command of any list holds the thread until its call has its outcome. A PRINT reports its resume line.
DEDUCED, log entry 7. -/
def State.finish (s : State) (q : QNum) (uid : Nat) (st : Byte) : State :=
  match s.liveCmd q uid with
  | none => s
  | some c =>
    let rl : Word := if c.e.opc = 0x15 then BitVec.ofNat 32 c.resumeLine else c.resume
    let s := s.finish1 q uid st c.tag rl
    let s :=
      if halting st then
        if c.ring then s.bindOff q
        else
          let s := s.modCmd q c.root fun k => { k with early := true }
          if (s.thr q).rootCall = some c.root then s.leaveList q else s
      else s
    s.closeCalls q 6

/-- Every command of queue `q` that satisfies `f` and is in flight gets outcome `st`. -/
def State.finishAll (s : State) (q : QNum) (st : Byte) (f : Cmd → Bool) : State :=
  (((s.q q).cmds ++ (s.q q).conts).filter fun c => c.out.isNone && !c.call && f c).foldl (fun s c => s.finish q c.uid st) s

/-- R78: every command in flight completes ABORTED, a FENCE first, which waits for the others; a call in flight leaves
its list. -/
def State.abortAll (s : State) (q : QNum) : State :=
  (((s.leaveList q).finishAll q St.aborted fun c => c.e.opc == 0x50).finishAll q St.aborted fun _ => true).closeCalls q 6

/-- A queue whose bind-off leaves nothing in flight and nothing to write (R73, R78, R83). -/
def Queue.settled (x : Queue) : Bool := x.cmds.isEmpty && x.conts.isEmpty

/-- SEQ_Tn_BADCMD records the reason, and the command completes BAD_COMMAND (04 R88, R121). -/
def State.badCmd (s : State) (q : QNum) (uid : Nat) (reason : Nat) : State :=
  match s.liveCmd q uid with
  | none => s
  | some c =>
    let v := BitVec.ofNat 32 (c.idx.toNat * 65536 + c.e.opc * 256 + (if c.ring then 0 else 128) + reason)
    ((s.wr R.SEQ_Tn_BADCMD v q.val).irq Pg.seq 6).finish q uid St.badCommand

-- the port states of 12 R302

/-- The units bound to a port as gap, mark and paper unit. -/
def State.gapUnit (s : State) (p : Port) : Option UnitNum :=
  if s.flag F.MED_PORTp_GAPV p.val then some (Fin.ofNat 8 (s.fld F.MED_PORTp_GAPU p.val)) else none
def State.markUnit (s : State) (p : Port) : Option UnitNum :=
  if s.flag F.MED_PORTp_MARKV p.val then some (Fin.ofNat 8 (s.fld F.MED_PORTp_MARKU p.val)) else none
def State.paperUnit (s : State) (p : Port) : Option UnitNum :=
  if s.flag F.MED_PORTp_PAPV p.val then some (Fin.ofNat 8 (s.fld F.MED_PORTp_PAPU p.val)) else none

/-- PAPER: no paper-out cause of 12 R307 and R313. -/
def State.paperIn (s : State) (p : Port) : Bool :=
  (match s.paperUnit p with
    | some u => s.running Pg.med && s.med.units[u].active && !s.med.units[u].stale
    | none => true) &&
  ((s.gapUnit p).toList ++ (s.markUnit p).toList).all fun u => !(s.med.units[u].tooLong && s.fld F.MED_Uu_LIM_MAXACT u.val != 0)

/-- HEAD_CLOSED (12 R302, R313). -/
def State.headShut (s : State) (p : Port) : Bool :=
  if s.flag F.MED_PORTp_HOV p.val then
    s.running Pg.med &&
      (bitsN (s.fld F.MED_GPI_LEVEL) (s.fld F.MED_PORTp_HOIN p.val) 1 == 1) == s.flag F.MED_PORTp_HOPOL p.val
  else true

-- blocks that a command needs (R516)

/-- The verification pipelines with an enabled context bound to a port (13). -/
def State.vpOf (s : State) (p : Port) : List VpNum :=
  (List.finRange 2).filter fun v => (List.range 2).any fun x =>
    s.flag F.VPn_Cx_CFG_EN v.val x && s.fld F.VPn_Cx_CFG_PORT v.val x == p.val

/-- The feed and cutter axis of a port (10 R255). -/
def State.feedAx (s : State) (p : Port) : Option AxNum :=
  if s.flag F.MOC_PORTp_FEEDV p.val then some (Fin.ofNat 8 (s.fld F.MOC_PORTp_FEEDAX p.val)) else none
def State.cutAx (s : State) (p : Port) : Option AxNum :=
  if s.flag F.MOC_PORTp_CUTV p.val then some (Fin.ofNat 8 (s.fld F.MOC_PORTp_CUTAX p.val)) else none

/-- The axis that AXIS names for FEED or CUT (04 R98): 0 to 7, or 0xF for the bound port's. -/
def State.mediaAx (s : State) (e : Entry) (port : Option Port) : Option AxNum :=
  let n := e.sp % 16
  if n < 8 then some (Fin.ofNat 8 n)
  else match port with
    | some p => if n = 15 then (if e.opc = 0x21 then s.cutAx p else s.feedAx p) else none
    | none => none

/-- Pages of the blocks that an entry needs beside SEQ and QMG (R516); VERIFY and the commands of a list apart. -/
def State.needs (s : State) (e : Entry) (port : Option Port) : List PageIx :=
  let ax (a : Option AxNum) : List PageIx := (a.map Pg.ax).toList
  if 0x10 ≤ e.opc ∧ e.opc ≤ 0x14 then [Pg.rnd, Pg.skn]
  else if e.opc = 0x15 then [Pg.skn, Pg.hhe, Pg.sba] ++ (port.map Pg.hp).toList
  else if e.opc = 0x20 ∨ e.opc = 0x21 then ax (s.mediaAx e port) ++ [Pg.moc]
  else if e.opc = 0x22 then
    Pg.med :: (if e.flags % 2 = 1 then ax (port.bind s.feedAx) ++ [Pg.moc] else [])
  else []

/-- Pages of the blocks that an entry needs: SEQ and QMG for every one (R516). -/
def State.needsAll (s : State) (e : Entry) (port : Option Port) : List PageIx := Pg.seq :: Pg.qmg :: s.needs e port

end Sys2Proof.Machine
end

