-- ==== Sys2Proof/Machine/Skein.lean ====
section
/-! DEFINITION. The Skein allocator (05 R123 to R132): bands, the composition window, committed lines and their
release. -/

namespace Sys2Proof.Machine

-- lines and dots (R123 to R125)

/-- Address of line `l` of band `b`. -/
def skeinLine (b : Fin 128) (l : Nat) : Nat := skeinBase + b.val * 0x18000 + l * 0x600

/-- The band and line of a Skein address. -/
def skeinBandOf (a : Nat) : Fin 128 := Fin.ofNat 128 ((a - skeinBase) / 0x18000)
def skeinRowOf (a : Nat) : Nat := (a - skeinBase) % 0x18000 / 0x600

/-- A Skein byte as any requester reads it: blank lines and FREE bands read 0 (R125). -/
def State.skeinByte (s : State) (a : Nat) : Byte :=
  let b := s.band (skeinBandOf a)
  if b.st = .free ∨ ¬ b.written.getLsbD (skeinRowOf a) then 0 else s.byte a

/-- Dot `d` of line `l` of band `b`. -/
def State.dot (s : State) (b : Fin 128) (l d : Nat) : Nat :=
  wbits ((s.skeinByte (skeinLine b l + d / 4)).setWidth 32) (2 * (d % 4)) 2

/-- RND writes a blank line for the first time: the whole line becomes white (R124, R125). -/
def State.unblank (s : State) (b : Fin 128) (l : Nat) : State :=
  if (s.band b).written.getLsbD l then s
  else
    let a := skeinLine b l
    { s.modBand b (fun x => { x with written := x.written ||| (1 <<< l) }) with mem := srange a (a + 0x600) [] s.mem }

def State.setDot (s : State) (b : Fin 128) (l d code : Nat) : State :=
  let a := skeinLine b l + d / 4
  let k := 2 * (d % 4)
  s.setByte a ((s.byte a &&& ~~~(BitVec.ofNat 8 (3 * 2 ^ k))) ||| BitVec.ofNat 8 (code * 2 ^ k))

-- bands (R126, R129)

/-- The FREE reserved bands of a port, in ascending number. -/
def State.freeRes (s : State) (p : Port) : List (Fin 128) :=
  (List.finRange 128).filter fun b => b.val / 4 == p.val && (s.band b).st == .free

/-- The FREE pool bands, in ascending number. -/
def State.freePool (s : State) : List (Fin 128) :=
  (List.finRange 128).filter fun b => 16 ≤ b.val && (s.band b).st == .free

/-- The band of window slot `k` of a port. -/
def State.slotBand (s : State) (p : Port) (k : Nat) : Option (Fin 128) :=
  (List.finRange 128).find? fun b => (s.band b).st == .compose && (s.band b).port == p && (s.band b).slot.val == k

/-- Window slots that area lines [y, y + h) of a port touch and that have no band. -/
def State.newSlots (s : State) (p : Port) (y h : Nat) : List (Fin 4) :=
  if h = 0 then [] else
  (List.finRange 4).filter fun k =>
    (s.skn.o[p] + y) / 64 ≤ k.val && k.val ≤ (s.skn.o[p] + y + h - 1) / 64 && (s.slotBand p k.val).isNone

/-- Bands acquired for window slots; the lowest pool level is kept (R147). -/
def State.acquire (s : State) (p : Port) (l : List (Fin 4 × Fin 128)) : State :=
  let s := l.foldl (fun s e => s.modBand e.2 fun _ => { st := .compose, port := p, slot := e.1 }) s
  let n := s.freePool.length
  if n < s.fld F.SKN_POOL_MIN_MIN then s.setFld F.SKN_POOL_MIN_MIN n else s

/-- R129, R130: grant every new slot at once, reserved bands first, or nothing. `barred`: an aged step is before this
one, so it gets no pool band. -/
def State.tryGrant (s : State) (p : Port) (slots : List (Fin 4)) (barred : Bool) : Option State :=
  if slots.isEmpty then some s
  else
    let res := s.freeRes p
    let free := if slots.length ≤ res.length ∨ barred then res else res ++ s.freePool
    if slots.length ≤ free.length then some (s.acquire p (slots.zip free)) else none

/-- SKN_Pp_LINES: committed lines not yet fired. -/
def State.linesLeft (s : State) (p : Port) : Nat := (s.lines p).length

-- the governor between evaluations (08 R215, R216)

/-- Encoder-paced (07 R187). -/
def State.paced (s : State) (p : Port) : Bool := s.flag F.HPn_CFG_PACE p.val

/-- The governor of a port is on (08 R215). -/
def State.govEn (s : State) (p : Port) : Bool := s.actFlag F.SBA_GVp_CTL_EN p.val

def State.fmin (s : State) (p : Port) : Nat := max 1 (s.act F.SBA_GVp_RATE_FMIN p.val)

/-- A governor whose rate is FMIN enters PAUSED when no line is ready, whatever took the last one (08 R216). A governor
that is off keeps no rate, so it does not. -/
def State.govIdle (s : State) (p : Port) : State :=
  let x := s.sba.ports[p]
  if s.govEn p ∧ s.running Pg.sba ∧ s.running (Pg.hp p) ∧ ¬ s.paced p ∧ ¬ x.paused ∧ x.f = s.fmin p ∧ s.linesLeft p = 0 then
    { s with sba := { s.sba with ports := s.sba.ports.set p { x with paused := true, restart := true } } }.irq Pg.sba 8
  else s

-- what a release touches in other blocks

def State.ehmP (s : State) (p : Port) : EhmPort := s.ehm.ports[p]
def State.modEhm (s : State) (p : Port) (f : EhmPort → EhmPort) : State :=
  { s with ehm := { s.ehm with ports := s.ehm.ports.set p (f s.ehm.ports[p]) } }

/-- The availability of a port for the scan has changed: the settle wait starts again (R228, R236).
DEDUCED, log entry 35. -/
def State.ehmTouch (s : State) (p : Port) : State :=
  s.modEhm p fun x => { x with settled := false, chunk := 0, availFrom := s.time }

def State.win (s : State) (p : Port) : Option Win := s.cam.wins[p]
def State.setWin (s : State) (p : Port) (w : Option Win) : State :=
  { s with cam := { s.cam with wins := s.cam.wins.set p w } }

/-- The window of a port closes: none of its lines is captured any more (R339). -/
def State.winClose (s : State) (p : Port) : State :=
  { (s.setWin p none).setLines p ((s.lines p).map fun (l : Line) => { l with verify := none }) with
    hp := s.hp.set p { s.hp[p] with cur := (s.hp[p]).cur.map fun c => { c with line := { c.line with verify := none } } } }

/-- The captured lines of a port are discarded in every pipeline. -/
def State.capsDrop (s : State) (p : Port) : State :=
  { s with cam := { s.cam with vp := s.cam.vp.map fun (v : VpSt) =>
      { v with ctx := v.ctx.map fun (c : VpCtx) => { c with caps := c.caps.filter fun l => l.port != p } } } }

/-- SKIP_JOB or FLUSH discards an open window with its captured lines (R101). -/
def State.winDiscard (s : State) (p : Port) : State := (s.winClose p).capsDrop p

-- release (R132)

/-- One line of a band has fired, been dropped or been released. -/
def State.bandLineGone (s : State) (b : Fin 128) : State :=
  s.modBand b fun x =>
    if x.st = .committed ∧ x.fired + 1 ≥ 64 then {} else { x with fired := x.fired + 1 }

/-- The band of the line in progress, which has not fired yet. -/
def State.bandInUse (s : State) (p : Port) : Option (Fin 128) := s.hp[p].cur.map (·.line.band)

/-- All lines and bands of a port are released; its window is empty and o is 0 (R77, R78, R132). The band of a line in
progress stays until that line has fired. DESIGN CHOICE, log entry 172. -/
def State.releasePort (s : State) (p : Port) : State :=
  let kept := s.bandInUse p
  { s with skn := { s.skn with
    bands := Vector.ofFn fun b =>
      let x := s.skn.bands[b]
      if x.st == .free || x.port != p then x
      else if kept == some b then { x with st := .committed, slot := 0, fired := 63 }
      else {}
    lines := s.skn.lines.set p []
    o := s.skn.o.set p 0
    waits := s.skn.waits.filter fun w => w.port != p } }

/-- 02 R38, SRST of SKN: bands without committed lines return FREE, uncommitted lines of the others read white. -/
def Band.resetSkn (x : Band) : Band :=
  match x.st with
  | .free => x
  | .committed => x
  | .compose => if x.committed = 0 then {} else { x with written := x.written &&& BitVec.ofNat 64 (2 ^ x.committed - 1) }

-- commit (R127)

/-- The lines that a PRINT of n lines commits, with their bands. -/
def State.commitLines (s : State) (p : Port) (uid : Nat) (q : QNum) (n profile : Nat) (verify : Option Nat) : List Line :=
  (List.range n).filterMap fun k =>
    (s.slotBand p ((s.skn.o[p] + k) / 64)).map fun b =>
      { uid := uid, q := q, k := k, band := b, row := Fin.ofNat 64 ((s.skn.o[p] + k) % 64), profile := profile,
        verify := verify.map (· + k) }

/-- Window slots that the commit has passed leave the window; the others move up. -/
def Band.afterCommit (x : Band) (p : Port) (o n : Nat) : Band :=
  if x.st = .compose ∧ x.port = p then
    let first := if x.slot.val = 0 then o else 64 * x.slot.val
    let c := min (64 * x.slot.val + 64) (o + n) - first
    let x := { x with committed := x.committed + c }
    if x.slot.val < (o + n) / 64 then { x with st := .committed, slot := 0 }
    else { x with slot := Fin.ofNat 4 (x.slot.val - (o + n) / 64) }
  else x

def State.commit (s : State) (p : Port) (uid : Nat) (q : QNum) (n profile : Nat) (verify : Option Nat) : State :=
  let o := s.skn.o[p]
  let new := s.commitLines p uid q n profile verify
  let s := { s with skn := { s.skn with
    bands := s.skn.bands.map fun (x : Band) => x.afterCommit p o n
    o := s.skn.o.set p ((o + n) % 64)
    lines := s.skn.lines.set p (s.skn.lines[p] ++ new) } }
  s.modCmd q uid fun c => { c with committed := true, lines := n }

/-- A line starts, with the commit tag it runs under, or is dropped as an overrun: its PRINT follows (03 R60, 07
R184). Its band follows when it has fired (R132). -/
def State.lineGone (s : State) (p : Port) (l : Line) (tag : Option Byte) : State :=
  let s := s.setLines p ((s.lines p).filter fun x => !(x.uid == l.uid && x.k == l.k))
  let s := s.modCmd l.q l.uid fun c =>
    match tag with
    | some t => { c.lineOut l.k with tag := t }
    | none => { c.lineOut l.k with dropped := some (c.dropped.getD l.k) }
  match s.liveCmd l.q l.uid with
  | some c =>
    if c.committed ∧ c.gone ≥ c.lines then s.finish l.q l.uid (if c.dropped.isSome then St.partly else St.ok) else s
  | none => s

-- waiting steps (R130)

/-- STEP_AGED: a waiting step reaches the aging limit. -/
def State.stepAged (s : State) (p : Port) : State :=
  match s.skn.waits.find? fun w => w.port == p && !w.aged with
  | some w =>
    if s.since w.since ≥ s.fld F.SKN_AGE_AGE * usTicks then
      { s with skn := { s.skn with
        waits := s.skn.waits.map fun (x : BandWait) => if x.port == p then { x with aged := true } else x } }.irq Pg.skn 4
    else s
  | none => s

/-- The aging limit holds for a waiting step at this moment, whether or not STEP_AGED has recorded it. -/
def State.isAged (s : State) (w : BandWait) : Bool := w.aged || s.since w.since ≥ s.fld F.SKN_AGE_AGE * usTicks

/-- The front step of a port changes. -/
def State.modFront (s : State) (p : Port) (f : Step → Step) : State :=
  match s.steps p with
  | [] => s
  | x :: l => s.setSteps p (f x :: l)

/-- An aged step waits before port p's. -/
def State.barred (s : State) (p : Port) : Bool :=
  (s.skn.waits.takeWhile fun w => w.port != p).any s.isAged

/-- SKN grants the bands of the front step of a port, for area lines [y, y + h), or the step waits (R129, R130).
DESIGN CHOICE, log entry 167. -/
def State.grantFor (s : State) (p : Port) (y h : Nat) : State :=
  match s.tryGrant p (s.newSlots p y h) (s.barred p) with
  | some s' =>
    let since := (s.skn.waits.find? fun w => w.port == p).map (·.since)
    let s' := { s' with skn := { s'.skn with waits := s'.skn.waits.filter fun w => w.port != p } }
    let s' := match since with
      | some t =>
        let us := min 0xFFFF (s.since t / usTicks)
        if us > s'.fld F.SKN_Pp_WMAX_US p.val then s'.setFld F.SKN_Pp_WMAX_US us p.val else s'
      | none => s'
    let got := (List.finRange 128).filter fun b => (s.band b).st == .free && (s'.band b).st != .free
    s'.modFront p fun x => { x with granted := true, got := got }
  | none =>
    if s.skn.waits.any fun w => w.port == p then s
    else (({ s with skn := { s.skn with
      waits := s.skn.waits ++ [BandWait.mk p y h s.time false] } }).count R.SKN_Pp_WAITS p.val).irq Pg.skn 5

/-- The waiting steps are re-evaluated, oldest first (R130). -/
def State.grantWaits (s : State) : State := s.skn.waits.foldl (fun s w => s.grantFor w.port w.y w.h) s

/-- A step asks for its bands: what waits and now fits is before it (01 R24). -/
def State.grantStep (s : State) (p : Port) (y h : Nat) : State := s.grantWaits.grantFor p y h

end Sys2Proof.Machine
end

