-- ==== Sys2Proof/Machine/Queues.lean ====
section
/-! DEFINITION. The queue manager (03): doorbells and credits, enabling and configuration, completion entries, halt and
recovery. -/

namespace Sys2Proof.Machine

-- bits of PG_IRQ_STAT of the QMG page (R86): 4 CMPL, 5 HALT, 6 DBERR, 7 REFUSED

/-- QMG_REFUSED records the queue (R86). -/
def State.refuse (s : State) (q : QNum) : State :=
  (s.wr R.QMG_REFUSED (s.rd R.QMG_REFUSED ||| BitVec.ofNat 32 (2 ^ q.val))).irq Pg.qmg 7

/-- QMG_Qn_CTHR.THR, 0 treated as 1 (R86). -/
def State.qThr (s : State) (q : QNum) : Nat := max 1 (s.fld F.QMG_Qn_CTHR_THR q.val)

/-- The unread count went from `before` to what it is now: CMPL is requested when it reaches THR (R65). -/
def State.cmplCheck (s : State) (q : QNum) (before : Nat) : State :=
  if before < s.qThr q ∧ s.qThr q ≤ (s.q q).used then s.irq Pg.qmg 4 else s

-- completions out through a UART (17 R441)

/-- The UART that echoes the completions of a queue. -/
def State.echoUart (s : State) (q : QNum) : Option UaNum :=
  (List.finRange 4).find? fun u =>
    s.flag F.UAn_CFG_FEED u.val && s.flag F.UAn_CFG_CECHO u.val && s.fld F.UAn_CFG_FQ u.val == q.val

/-- Characters that a transmit or receive FIFO holds (17 R435, R436). -/
def uaDepth : Nat := 64

/-- TXTHR: the transmit level has changed and lies at or below its threshold (17 R444). -/
def State.uaTxLevel (s : State) (u : UaNum) : State :=
  if s.uas[u].tx.length ≤ s.fld F.UAn_IRQTHR_TXTHR u.val then s.irq (Pg.ua u) 5 else s

/-- Bytes of the unread completion entries, from CRD on, enter the transmit FIFO, `n` at most; CRD advances with the
last byte of an entry. -/
def State.echoBytes (s : State) (u : UaNum) (q : QNum) : Nat → State
  | 0 => s
  | n + 1 =>
    let x := s.uas[u]
    let y := s.q q
    if x.tx.length ≥ uaDepth ∨ y.crd = y.cwr then s
    else
      let b := s.cell ((s.rd R.QMG_Qn_CRING q.val).toNat + y.crd.toNat % s.qCsize q * 16 + x.echoAt)
      let last : Bool := x.echoAt == 15
      let s := { s with uas := s.uas.set u { x with tx := x.tx ++ [b], echoAt := if last then 0 else x.echoAt + 1 } }
      let s := if last then s.modQ q fun y => { y with crd := y.crd + 1 } else s
      s.echoBytes u q n

/-- Completion bytes enter the transmit FIFO while it has room. -/
def State.echoFill (s : State) (u : UaNum) (q : QNum) : State :=
  let n := s.uas[u].tx.length
  let s := s.echoBytes u q (uaDepth - n)
  if s.uas[u].tx.length = n then s else s.uaTxLevel u

-- entries

/-- Entry at index `i` of the command ring (R53, 04 R87). -/
def State.ringAddr (s : State) (q : QNum) (i : BitVec 16) : Nat :=
  (s.rd R.QMG_Qn_RING q.val).toNat + i.toNat % s.qSize q * 16

def State.entryAt (s : State) (a : Nat) : Entry := ⟨s.word a, s.word (a + 4), s.word (a + 8), s.word (a + 12)⟩

def State.ringEntry (s : State) (q : QNum) (i : BitVec 16) : Entry := s.entryAt (s.ringAddr q i)

/-- Slots that an entry takes: two for KEYED (04 R114). -/
def Entry.slots (e : Entry) : Nat := if e.opc = 0x61 then 2 else 1

/-- What a completion entry says (R61). -/
structure Cpl where
  job : BitVec 16
  idx : BitVec 16
  status : Byte
  cont : Bool := false
  auto : Bool := false
  call : Bool := false
  tag : Byte := 0
  resume : Word := 0
  time : Word
  /-- ring slots that it releases: 0 for a continuation. -/
  slots : Nat
  deriving DecidableEq, Repr

/-- FLAGS of a completion entry (R61). -/
def Cpl.flags (c : Cpl) (phase halt : Bool) : Byte :=
  BitVec.ofNat 8 (phase.toNat + 2 * c.cont.toNat + 4 * c.auto.toNat + 8 * halt.toNat + 16 * c.call.toNat)

/-- The sixteen bytes of a completion entry (R61). -/
def Cpl.bytes (c : Cpl) (phase halt : Bool) : List Byte :=
  natBytes 2 c.job.toNat ++ natBytes 2 c.idx.toNat ++ [c.status, c.flags phase halt, c.tag, 0] ++
    natBytes 4 c.resume.toNat ++ natBytes 4 c.time.toNat

/-- The entry of a command with its outcome. -/
def Cmd.cpl (c : Cmd) : Cpl :=
  { job := c.job, idx := c.idx, status := c.out.getD 0, cont := c.cont, auto := c.auto, call := c.call,
    tag := c.tag, resume := c.resume, time := c.outTime, slots := if c.cont then 0 else c.slots }

/-- The first halting entry of a bind-off carries HALT (R73). -/
def Queue.halts (x : Queue) (st : Byte) : Bool := halting st && x.mode == .bindoff && !x.haltGiven

/-- Write one completion entry: the entry first, then CWR (R58, R61, R63 to R65). -/
def State.writeEntry (s : State) (q : QNum) (c : Cpl) : State :=
  let x := s.q q
  let halt := x.halts c.status
  let b := c.bytes x.phase halt
  let a := (s.rd R.QMG_Qn_CRING q.val).toNat + x.cwr.toNat % s.qCsize q * 16
  let used := x.used
  let s := s.setBytes a b
  let s := s.modQ q fun x =>
    { x with
      cwr := x.cwr + 1
      phase := if (x.cwr + 1).toNat % s.qCsize q = 0 then !x.phase else x.phase
      head := if c.slots = 0 then x.head else c.idx + BitVec.ofNat 16 c.slots
      haltGiven := x.haltGiven || halt
      hstat := if halt then c.status else x.hstat
      hidx := if halt then c.idx else x.hidx
      hjob := if halt then c.job else x.hjob }
  let s := s.count R.QMG_Qn_DONE q.val
  let s := if halt then s.irq Pg.qmg 5 else s
  let s := s.cmplCheck q used
  match s.echoUart q with
  | none => s
  | some u => s.echoFill u q

-- recovery (R75 to R81)

/-- Lines and bands of the queue's port are released; HELD lines leave the HHE ring, whose port is IDLE then; HOLD
ends; the governor restarts; an open verification window is discarded (R77, R78, 04 R101, 06 R151, R167, 07 R193, 08
R215). -/
def State.releaseQueue (s : State) (q : QNum) : State :=
  match s.qPort q with
  | none => s
  | some p =>
    let s := (s.winDiscard p).releasePort p
    let x : HhePort := s.hhe[p]
    ({ s with
      hhe := s.hhe.set p
        { x with ring := x.ring.filter (·.fired), gap0 := 0, gap1 := 0
                 mode := if x.mode = HheMode.running ∨ x.mode = HheMode.paused then .idle else x.mode }
      hp := s.hp.set p { s.hp[p] with hold := none, heldAtStop := false }
      sba := { s.sba with ports := s.sba.ports.set p { s.sba.ports[p] with restart := true } } }.ehmTouch p).govIdle p

/-- The end of SKIP_JOB or FLUSH (R77 to R79). -/
def State.endRecov (s : State) (q : QNum) : State :=
  s.modQ q fun x =>
    { x with mode := if s.qEn q then .run else .off, recov := none, recovAuto := false, flushTo := none,
             jobOpen := false, lost := false, autoAct := none,
             cancelled := x.cancelled.filter fun e => (e.1 - x.next).toNat < (x.tail - x.next).toNat }

/-- Whether the cancellations have ended: at the flushed TAIL, or before a JOB_BEGIN (R77, R78). -/
def State.recovDone (s : State) (q : QNum) : Bool :=
  let x := s.q q
  match x.recov with
  | none => false
  | some (.flush t) => x.next == t
  | some .skip => x.next != x.tail && (s.ringEntry q x.next).opc == 0x01

def State.checkRecov (s : State) (q : QNum) : State := if s.recovDone q then s.endRecov q else s

def State.startRecov (s : State) (q : QNum) (r : Recov) (auto : Bool) : State :=
  (s.modQ q fun x =>
    { x with mode := .recovering, recov := some r, recovAuto := auto, haltSet := [], autoAct := none,
             recovJob := if x.jobOpen then x.jobNum else 0xFFFF }).checkRecov q

/-- One cancellation of a queue in RECOVERING (R77 to R79); none where the action has come to its end.
DESIGN CHOICE, log entry 131. -/
def State.cancelNext (s : State) (q : QNum) : State :=
  let x := s.q q
  match x.recov with
  | none => s
  | some r =>
    if s.recovDone q then s.endRecov q else
    let left := match r with
      | .skip => (x.tail - x.next).toNat
      | .flush t => (t - x.next).toNat
    let e := s.ringEntry q x.next
    if left = 0 ∨ ¬ s.slotFree q ∨ (r = .skip ∧ e.slots > left) then s
    else
      let span := min e.slots left
      let job := if e.opc = 0x01 then BitVec.ofNat 16 e.sp else x.recovJob
      let s := s.writeEntry q { job := job, idx := x.next, status := St.cancelled, auto := x.recovAuto,
                                time := s.timeLo, slots := span }
      let s := s.modQ q fun x =>
        { x with next := x.next + BitVec.ofNat 16 span, recovJob := if e.opc = 0x02 then 0xFFFF else job }
      if r = .skip ∧ e.opc = 0x02 then s.endRecov q else s.checkRecov q

/-- The lines of a PRINT that a port still holds. -/
def State.hasLines (s : State) (q : QNum) (uid : Nat) : Bool :=
  match s.qPort q with
  | some p => (s.lines p).any fun l => l.uid == uid
  | none => false

/-- A PRINT of the halt set with unfired lines (R76): those that a port still holds, or, of a ring entry, all of them
where it was stopped before it committed; of a list only committed lines continue (04 R108). DEDUCED, log entry 129.
-/
def State.unfired (s : State) (q : QNum) (c : Cmd) : Bool :=
  c.e.opc == 0x15 && c.out != some St.badCommand && (if c.committed then s.hasLines q c.uid else c.ring)

/-- The continuations of a halt set (R76, 04 R108): its PRINTs with unfired lines, and its calls with such PRINTs.
DEDUCED, log entry 101; DESIGN CHOICE, log entry 163. -/
def State.continuations (s : State) (q : QNum) (auto : Bool) : List Cmd :=
  let h := (s.q q).haltSet
  let again (c : Cmd) : Cmd :=
    { c with cont := true, auto := auto, out := none, closed := true, early := false, parent := c.parent.map fun _ => c.root }
  (h.filter fun c => s.unfired q c ||
    (c.call && c.ring && h.any fun k => k.parent.isSome && k.root == c.uid && s.unfired q k)).map again

/-- SKIP_JOB applied to a halted queue (R77). -/
def State.skipJob (s : State) (q : QNum) (auto : Bool) : State :=
  let s := s.releaseQueue q
  if (s.q q).hjob = 0xFFFF then
    s.modQ q fun x => { x with mode := if s.qEn q then .run else .off, haltSet := [], autoAct := none, lost := false }
  else s.startRecov q .skip auto

/-- FLUSH applied to a halted or settled queue (R78). -/
def State.flush (s : State) (q : QNum) (tail : BitVec 16) (auto : Bool) : State :=
  (s.releaseQueue q).startRecov q (.flush tail) auto

/-- The action that the job's policy chooses at HALTED, none for HOLD (R80, R81). DESIGN CHOICE, log entry 133. -/
def Queue.policyAction (x : Queue) : Option Nat :=
  let p := x.policy.toNat
  let code :=
    if x.hstat = St.aborted then p % 4
    else if x.hstat = St.mediaOut ∨ x.hstat = St.mediaTimeout then p / 4 % 4
    else if x.hstat = St.verifyFail then p / 16 % 4
    else 0
  if x.hjob = 0xFFFF ∨ code = 0 then none
  else if code = 1 ∧ (x.retryUsed ≥ p / 64 + 1 ∨ x.lost) then none
  else some code

/-- A bind-off with nothing left in flight and nothing to write ends (R73, R78, R83). -/
def State.settle (s : State) (q : QNum) : State :=
  let x := s.q q
  if x.mode ≠ .bindoff ∨ ¬ x.settled then s
  else match x.flushTo with
    | some t => s.flush q t false
    | none =>
      if x.haltGiven then s.modQ q fun x => { x with mode := .halted, autoAct := x.policyAction }
      else s.modQ q fun x => { x with mode := if s.qEn q then .run else .off, lost := false }

/-- The next entry whose turn has come is written (R63): first continuations (R76), then the ring
commands in order, then a cancellation. DESIGN CHOICE, log entry 132. -/
def State.writeNext (s : State) (q : QNum) : State :=
  let x := s.q q
  match x.conts with
    | c :: rest =>
      if c.out.isNone ∨ ¬ s.slotFree q then s
      else
        let kids := rest.takeWhile fun k => k.parent.isSome
        let s := s.writeEntry q c.cpl
        (s.modQ q fun x =>
          { x with conts := rest.dropWhile fun k => k.parent.isSome
                   haltSet := if halting (c.out.getD 0) then x.haltSet ++ (c :: kids) else x.haltSet }).settle q
    | [] =>
      match x.cmds with
      | c :: rest =>
        if c.out.isNone then s
        else
          let kids := rest.takeWhile fun k => k.parent.isSome
          let s := s.modQ q fun x =>
            { x with cmds := rest.dropWhile fun k => k.parent.isSome
                     haltSet := if halting (c.out.getD 0) then x.haltSet ++ (c :: kids) else x.haltSet }
          (s.writeEntry q c.cpl).settle q
      | [] =>
        if x.mode = .recovering then s.cancelNext q
        else if x.mode = .run then
          match x.cancelled.find? fun e => e.1 == x.next with
          | some e =>
            if ¬ s.slotFree q then s
            else
              let n := (s.ringEntry q x.next).slots
              let s := s.writeEntry q { job := if x.jobOpen then x.jobNum else 0xFFFF, idx := x.next,
                                        status := St.cancelled, time := e.2, slots := n }
              s.modQ q fun x => { x with next := x.next + BitVec.ofNat 16 n
                                         cancelled := x.cancelled.filter fun e' => e'.1 != e.1 }
          | none => s
        else s.settle q

/-- COMPLETION_WRITE, while QMG works. -/
def State.completionWrite (s : State) (q : QNum) : State := if s.working Pg.qmg then s.writeNext q else s

/-- RCMD written SKIP_JOB (R75, R77). -/
def State.rcmdSkip (s : State) (q : QNum) : State :=
  if (s.q q).mode = .halted then s.skipJob q false else s.refuse q

/-- RCMD written FLUSH (R75, R78): accepted in every state but DISABLED. DEDUCED, log entry 52. -/
def State.rcmdFlush (s : State) (q : QNum) : State :=
  let x := s.q q
  match x.mode with
  | .off => s.refuse q
  | .halted => s.flush q x.tail false
  | .recovering => s.flush q x.tail false
  | .run => (((s.modQ q fun x => { x with mode := .bindoff, haltGiven := false, flushTo := some x.tail }).abortAll q)).settle q
  | .bindoff => ((s.modQ q fun x => { x with flushTo := some x.tail }).abortAll q).settle q

-- doorbells and credits

/-- DOORBELL (R56): accepted within range, else discarded, counted and reported. -/
def State.doorbell (s : State) (q : QNum) (t : BitVec 16) : State :=
  let x := s.q q
  if (t - x.head).toNat ≤ s.qSize q ∧ (t - x.tail).toNat ≤ s.qSize q then
    (s.modQ q fun x => { x with tail := t, pres := if s.running Pg.qmg then t else x.pres }).checkRecov q
  else
    (((s.wr R.QMG_DBERR (s.rd R.QMG_DBERR ||| BitVec.ofNat 32 (2 ^ q.val))).count R.QMG_Qn_DBREJ q.val).irq
      Pg.qmg 6).raise Pg.qmg 0

/-- CRD_WRITE (R65). -/
def State.crdWrite (s : State) (q : QNum) (v : BitVec 16) : State :=
  let x := s.q q
  if (x.cwr - v).toNat > s.qCsize q then s.refuse q
  else (s.modQ q fun x => { x with crd := v }).cmplCheck q x.used

-- configuration (R53, R54, R83, R84)

/-- Bytes of the two rings of a queue. -/
def State.rings (s : State) (q : QNum) : List (Nat × Nat) :=
  [((s.rd R.QMG_Qn_RING q.val).toNat, s.qSize q * 16), ((s.rd R.QMG_Qn_CRING q.val).toNat, s.qCsize q * 16)]

/-- R53, R54: rings inside working RAM, aligned, apart from those of other enabled queues; the port not taken. -/
def State.enableOk (s : State) (q : QNum) : Bool :=
  ((s.rings q).all fun r => wramBase ≤ r.1 && r.1 + r.2 ≤ wramEnd && r.1 % r.2 == 0) &&
  (List.finRange 16).all fun o =>
    o == q || !s.qEn o ||
    (((s.qPort q).isNone || s.qPort o != s.qPort q) &&
     (s.rings q).all fun r => (s.rings o).all fun r' => r.1 + r.2 ≤ r'.1 || r'.1 + r'.2 ≤ r.1)

/-- The indices of a queue are cleared; the next PHASE is 1 (R84). -/
def Queue.clearIx (x : Queue) : Queue :=
  { x with tail := 0, pres := 0, head := 0, next := 0, cwr := 0, crd := 0, phase := true, cancelled := [] }

/-- The indices of a queue are cleared; entries of a boot list that it held are gone (19 R478). -/
def State.clearIx (s : State) (q : QNum) : State :=
  let s := match s.echoUart q with
    | some u => { s with uas := s.uas.set u { s.uas[u] with echoAt := 0 } }
    | none => s
  { s.modQ q Queue.clearIx with
    sec := { s.sec with bootQ := s.sec.bootQ.filter fun (b : QNum × Nat) => b.1 != q } }

def Queue.emptyRings (x : Queue) : Bool := x.tail == x.head && x.cwr == x.crd

/-- The part of a CFG write that is not EN: false where it is refused (R84, R86). -/
def State.cfgWrite (s : State) (q : QNum) (v : Word) : State × Bool :=
  let old := s.rd R.QMG_Qn_CFG q.val
  let x := s.q q
  if x.mode ≠ .off then (s.wr R.QMG_Qn_CFG ((old &&& ~~~0x30) ||| (v &&& 0x30)) q.val, true)
  else
    let ls := wbits v 10 4
    let lc := wbits v 14 4
    let changed := ls ≠ wbits old 10 4 ∨ lc ≠ wbits old 14 4
    if ls < 4 ∨ 12 < ls ∨ lc < 4 ∨ 12 < lc ∨ (changed ∧ ¬ x.emptyRings) then (s.refuse q, false)
    else
      let s := s.wr R.QMG_Qn_CFG ((v &&& 0x3FDF0) ||| (old &&& 1)) q.val
      (if changed then s.clearIx q else s, true)

/-- The bind-off of R83 alone holds the queue: no halting outcome, and no FLUSH. -/
def Queue.onlyDisabled (x : Queue) : Bool :=
  x.mode == .bindoff && !x.haltGiven && x.flushTo.isNone && (x.cmds ++ x.conts).all fun c => !c.out.any halting

/-- QUEUE_ENABLE: a CFG write with EN = 1. A bind-off of R83 ends with it, and the thread goes on where it stands.
DEDUCED, log entry 97. -/
def State.queueEnable (s : State) (q : QNum) (v : Word) : State :=
  let (s, ok) := s.cfgWrite q v
  if ¬ ok ∨ s.qEn q then s
  else if (s.q q).mode = .off then
    if s.enableOk q then
      ((s.setBit F.QMG_Qn_CFG_EN true q.val).modThr q fun t => { t with fresh := false }).modQ q fun x =>
        { x with mode := .run, profile := 0, pres := if s.running Pg.qmg then x.tail else x.pres }
    else s.refuse q
  else if s.enableOk q then
    (s.setBit F.QMG_Qn_CFG_EN true q.val).modQ q fun x =>
      { x with profile := 0, mode := if x.onlyDisabled then .run else x.mode, lost := x.lost && !x.onlyDisabled }
  else s.refuse q

/-- QUEUE_DISABLE: a CFG write with EN = 0 binds the queue off without aborting (R83): commands in flight run to their
outcome, and no command starts, those of a list neither. DEDUCED, log entry 97. -/
def State.queueDisable (s : State) (q : QNum) (v : Word) : State :=
  let (s, ok) := s.cfgWrite q v
  if ¬ ok ∨ ¬ s.qEn q then s
  else
    let s := s.setBit F.QMG_Qn_CFG_EN false q.val
    (if (s.q q).mode = .run then s.modQ q fun x => { x with mode := .bindoff, haltGiven := false } else s).settle q

/-- A write of RING or CRING (R84). -/
def State.ringWrite (s : State) (q : QNum) (r : Reg) (v : Word) : State :=
  let x := s.q q
  if x.mode ≠ .off ∨ s.rd r q.val = v then s
  else if ¬ x.emptyRings then s.refuse q
  else (s.wr r v q.val).clearIx q

/-- QUEUE_RECONFIGURE: register 0 CFG, 1 RING, 2 CRING. -/
def State.queueReconfigure (s : State) (q : QNum) (reg : Fin 3) (v : Word) : State :=
  match reg with
  | 0 => (s.cfgWrite q v).1
  | 1 => s.ringWrite q R.QMG_Qn_RING v
  | 2 => s.ringWrite q R.QMG_Qn_CRING v

/-- A call whose list was left early, or one of whose commands halted, has no outcome yet: nothing else starts (R71,
04 R107). -/
def State.callLeft (s : State) (q : QNum) : Bool :=
  ((s.q q).cmds ++ (s.q q).conts).any fun c => c.call && c.early && c.out.isNone

/-- The thread holds the entry at NEXT at its boundary because no completion slot is free (R85). DEDUCED, log entry
130. DEDUCED, log entry 130. -/
def State.slotWait (s : State) (q : QNum) : Bool :=
  let x := s.q q
  let t := s.thr q
  x.mode == .run && x.next != x.pres && !(x.cancelled.any fun c => c.1 == x.next) && !s.slotFree q &&
    t.trap.isNone && !t.trapDue && t.levels.isEmpty && t.wait == .none && !s.callLeft q

/-- QMG_Qn_STAT.STATE (R85): the state lower in the table governs. -/
def State.qState (s : State) (q : QNum) : Nat :=
  let x := s.q q
  match x.mode with
  | .off => 0
  | .bindoff => 4
  | .halted => 5
  | .recovering => 6
  | .run => if x.next = x.tail then 1 else if s.slotWait q then 3 else 2

end Sys2Proof.Machine
end

