-- ==== Sys2Proof/Machine/Flags.lean ====
section
/-! DEFINITION. The summary flags of the chip: which pages request an interrupt, nHIRQ, and the per-queue bits of QMG
(02 R40, R51, R52, 03 R86). The flags of one page are PageSt.irqStat (Machine/State.lean) and State.irq
(Machine/Ops.lean). -/

namespace Sys2Proof.Machine

/-- A word from truth values, bit 0 first. -/
def bitWord (l : List Bool) : Nat := l.foldr (fun b n => b.toNat + 2 * n) 0

/-- Pages that request an interrupt: SYS_IRQ_SUM0 and SUM1 (R51). -/
def State.irqSum (s : State) (lo n : Nat) : Word :=
  BitVec.ofNat 32 (bitWord ((List.range n).map fun k => match s.pages[lo + k]? with
    | some p => p.requests
    | none => false))

/-- nHIRQ is asserted (R52). -/
def State.hirq (s : State) : Bool :=
  (s.irqSum 0 32 &&& s.rd R.SYS_IRQ_PIN_EN0) != 0 || (s.irqSum 32 12 &&& s.rd R.SYS_IRQ_PIN_EN1) != 0

/-- One bit for each queue. -/
def queueWord (f : QNum → Bool) : Word := BitVec.ofNat 32 (bitWord ((List.finRange 16).map f))

/-- QMG_CMPL_PEND and QMG_HALTED (03 R86). -/
def State.cmplPend (s : State) : Word := queueWord fun q => decide (s.qThr q ≤ (s.q q).used)
def State.haltedWord (s : State) : Word := queueWord fun q => (s.q q).mode == .bindoff || (s.q q).mode == .halted

end Sys2Proof.Machine
end

