-- ==== Sys2Proof/Machine/Operands.lean ====
section
/-! DEFINITION. The operands of the job commands (04 R87 to R115): which bits an entry may set, and the checks that
need nothing but the entry, the port and memory's extent. -/

namespace Sys2Proof.Machine

/-- Bits of word 0 (FLAGS and SP) and of words 1 to 3 that opcode `op` defines (04 R87, R93 to R115); none for an
opcode that R89 does not list. DEDUCED, log entry 96. -/
def definedBits (op : Nat) (flags : Nat) : Option (Nat × Nat × Nat × Nat × Nat) :=
  -- (FLAGS, SP, word 1, word 2, word 3)
  let w := 0xFFFFFFFF
  match op with
  | 0x01 => some (0, 0xFFFF, 0xFF, 0, 0)
  | 0x02 => some (0, 0, 0, 0, 0)
  | 0x10 => some (3, 0xFFFF, w, w, w)
  | 0x11 => some (3, 0xFFFF, w, w, 0xFFFF3FFF)
  | 0x12 => some (3, 0xFFFF, if flags % 2 = 1 then w else 0, w, 0)
  | 0x13 => some (2, 0xFFFF, w, w, 0x3FFFF)
  | 0x14 => some (3, 0xFFFF, w, w, 0x3FFFF)
  | 0x15 => some (0, 0xFFFF, 0, 0, 0)
  | 0x20 => some (1, 0xF, w, 0, 0)
  | 0x21 => some (1, 0xF, 0, 0, 0)
  | 0x22 => some (3, 0xF, w, w, 0)
  | 0x30 => some (0, 0xF, 0, 0, 0)
  | 0x31 => if flags % 2 = 1 then some (1, 0, 0, 0, 0) else some (1, 0, w, 0, 0)
  | 0x40 => some (0, 0, w, 0, 0)
  | 0x41 => some (0, 0, w, 0, 0)
  | 0x42 => some (0, 0, 0, 0, 0)
  | 0x43 => some (0, 0xFFFF, w, 0, 0)
  | 0x44 => some (0, 0x80FF, w, w, w)
  | 0x50 => some (0, 0, 0, 0, 0)
  | 0x51 => some (3, 0, w, 0, 0)
  | 0x52 => some (3, 0, w, 0xFFFF, 0)
  | 0x60 => some (1, 0, w, w, w)
  | 0x61 => some (0, 7, w, w, w)
  | 0x7F => some (0xFF, 0xFFFF, w, w, w)
  | _ => none

/-- 04 R122: 1 opcode not defined, 2 reserved bit set. DEDUCED, log entry 95. -/
def Entry.malformed (e : Entry) : Option Nat :=
  match definedBits e.opc e.flags with
  | none => some 1
  | some (f, sp, w1, w2, w3) =>
    if e.flags &&& f = e.flags ∧ e.sp &&& sp = e.sp ∧ e.w1.toNat &&& w1 = e.w1.toNat ∧
        e.w2.toNat &&& w2 = e.w2.toNat ∧ e.w3.toNat &&& w3 = e.w3.toNat then none
    else some 2

-- memory extents

def inWram (a n : Nat) : Bool := wramBase ≤ a && a + n ≤ wramEnd
def inFlash (a n : Nat) : Bool := a + n ≤ flashEnd

-- composition operands (04 R95)

def Entry.x (e : Entry) : Nat := wbits e.w2 16 16
def Entry.y (e : Entry) : Nat := wbits e.w2 0 16
def Entry.merge (e : Entry) : Bool := e.flags / 2 % 2 = 1

/-- Elements of a port (07 R178). -/
def State.nEl (s : State) (p : Port) : Nat := 64 * s.fld F.HPn_CFG_NBLK p.val

/-- Lines of a port's composition area (04 R94). -/
def State.area (s : State) (p : Port) : Nat := 256 - s.skn.o[p]

/-- The checks of a composition command that the entry alone decides, in the order of 05 R519.
DEDUCED, log entry 14. -/
def State.compStatic (s : State) (p : Port) (e : Entry) : Option Nat :=
  let n := s.nEl p
  let a := s.area p
  let a1 := e.w1.toNat
  let lo3 := wbits e.w3 0 16
  let hi3 := wbits e.w3 16 16
  match e.opc with
  | 0x10 =>
    let h := e.sp
    let badOp := h = 0 ∨ h > 256 ∨ lo3 = 0 ∨ lo3 % 4 ≠ 0 ∨ e.x % 4 ≠ 0
    if e.flags % 2 = 1 then
      if a1 % 4 ≠ 0 ∨ ¬ inWram a1 (hi3 * 64) then some 9
      else if badOp ∨ hi3 = 0 then some 3
      else if e.x + lo3 > n then some 3
      else if e.y + h > a then some 0xA
      else none
    else
      if a1 % 4 ≠ 0 ∨ ¬ inWram a1 ((h - 1) * hi3 + lo3 / 4) then some 9
      else if badOp ∨ hi3 < lo3 / 4 ∨ hi3 % 4 ≠ 0 then some 3
      else if e.x + lo3 > n then some 3
      else if e.y + h > a then some 0xA
      else none
  | 0x11 =>
    let wide := e.flags % 2
    let len := e.sp * (wide + 1)
    if (wide = 1 ∧ a1 % 2 ≠ 0) ∨ ¬ (inWram a1 len ∨ inFlash a1 len) then some 9
    else if e.sp = 0 ∨ e.sp > 1024 ∨ wbits e.w3 8 2 = 3 then some 3
    else none
  | 0x12 =>
    if e.flags % 2 = 1 then
      if a1 % 4 ≠ 0 ∨ ¬ inWram a1 16 then some 9
      else if e.sp ≠ 0 then some 3
      else none
    else if e.sp > 1023 then some 3
    else none
  | 0x13 =>
    let on := wbits e.w1 0 16
    let off := wbits e.w1 16 16
    if e.sp = 0 ∨ e.sp > 256 ∨ lo3 = 0 ∨ lo3 > 6144 ∨ wbits e.w3 16 2 = 3 ∨ (off ≠ 0 ∧ on = 0) then some 3
    else if e.x + lo3 > n then some 3
    else if e.y + e.sp > a then some 0xA
    else none
  | _ =>
    if ¬ (inWram a1 e.sp ∨ inFlash a1 e.sp) then some 9
    else if e.sp = 0 ∨ e.sp > 1024 ∨ lo3 = 0 ∨ lo3 > 6144 ∨ wbits e.w3 16 2 = 3 then some 3
    else none

end Sys2Proof.Machine
end

