-- ==== Sys2Proof/Machine/Render.lean ====
section
/-! DEFINITION. The render engine (05 R133 to R145): resources, objects, the run-length code, drawing, and how a
composition step starts, waits and finishes. -/

namespace Sys2Proof.Machine

-- bits of PG_IRQ_STAT of the RND page: 4 DIRERR, 5 FLRETRY; of the SKN page: 4 AGED, 5 WAIT (R146, R147)

/-- Why a read by RND brings no data: a status line at the given line, or an uncorrectable word (R145). -/
inductive RdErr
  | subst (line : Nat)
  | uncor
  deriving DecidableEq, Repr

/-- Reading while drawing: what was drawn before an error stays drawn. -/
abbrev Rd := ExceptT RdErr (StateM State)

/-- One byte that RND reads, from working RAM or through its flash class. -/
def rdByte (a : Nat) : Rd Byte := fun s =>
  if a < flashEnd then
    match s.flashRead .rnd a with
    | (s', .subst) => (.error (.subst (a / 32 * 32)), s')
    | (s', .data e) => if (FlashRes.data e).bad a then (.error .uncor, s') else (.ok (s'.cell a), s')
  else (.ok (s.byte a), s)

def rdBytes (a : Nat) : Nat → Rd (List Byte)
  | 0 => pure []
  | n + 1 => do
    let b ← rdByte a
    let l ← rdBytes (a + 1) n
    pure (b :: l)

def rdNat (a n : Nat) : Rd Nat := do
  let l ← rdBytes a n
  pure (leNat l)

-- laying dots (R133)

/-- The higher of two dots in the order white, red, black. -/
def layDot (under top : Nat) : Nat :=
  if under = 1 ∨ top = 1 then 1 else if under = 2 ∨ top = 2 then 2 else 0

/-- Band and line of area line `y` of a port. -/
def State.areaLine (s : State) (p : Port) (y : Nat) : Option (Fin 128 × Nat) :=
  (s.slotBand p ((s.skn.o[p] + y) / 64)).map fun b => (b, (s.skn.o[p] + y) % 64)

/-- Lay one dot on area line `y`. -/
def State.lay (s : State) (p : Port) (y d code : Nat) : State :=
  match s.areaLine p y with
  | none => s
  | some (b, l) =>
    let s := s.unblank b l
    s.setDot b l d (layDot (s.dot b l d) code)

/-- The rectangle becomes white where MERGE is 0; its lines lose their blank mark (R124, R133). -/
def State.clearRect (s : State) (p : Port) (x y w h : Nat) (merge : Bool) : State :=
  (List.range h).foldl (fun s r =>
    match s.areaLine p (y + r) with
    | none => s
    | some (b, l) =>
      let s := s.unblank b l
      if merge then s else (List.range w).foldl (fun s c => s.setDot b l (x + c) 0) s) s

/-- Lay the dots of a rectangle, row by row. -/
def State.layRows (s : State) (p : Port) (x y : Nat) (rows : List (List Nat)) : State :=
  rows.zipIdx.foldl (fun s row =>
    row.1.zipIdx.foldl (fun s c => if c.1 = 0 then s else s.lay p (y + row.2) (x + c.2) c.1) s) s

def rdModify (f : State → State) : Rd Unit := fun s => (.ok (), f s)

/-- A read whose failure does not end the drawing. -/
def rdTry {α : Type} (x : Rd α) : Rd (Except RdErr α) := fun s =>
  match x s with
  | (r, s') => (.ok r, s')

-- the run-length code (R143, R144)

/-- What decoding has produced: full lines, newest first, and the dots of the current line, newest first. -/
structure Rle where
  lines : List (List Nat) := []
  cur : List Nat := []
  broken : Bool := false
  /-- the read that brought no data and ended the decoding (R145). -/
  failed : Option RdErr := none
  deriving DecidableEq, Repr

/-- Add `n` dots of one code; a line that holds `w` dots is full. None if the run passes dot `w`. -/
def Rle.run (r : Rle) (w code n : Nat) : Option Rle :=
  if r.cur.length + n > w then none
  else
    let cur := List.replicate n code ++ r.cur
    if cur.length = w then some { r with lines := cur.reverse :: r.lines, cur := [] } else some { r with cur := cur }

/-- White to the end of the current line. -/
def Rle.eol (r : Rle) (w : Nat) : Rle :=
  { r with lines := (r.cur.reverse ++ List.replicate (w - r.cur.length) 0) :: r.lines, cur := [] }

/-- The rest of the current line and every remaining line white. -/
def Rle.fill (r : Rle) (w : Nat) : Nat → Rle
  | 0 => r
  | n + 1 => (r.eol w).fill w n

/-- The four dots of a literal byte; 0b11 lays white. -/
def litDots (b : Byte) : List Nat := (List.range 4).map fun k =>
  let d := bitsN b.toNat (2 * k) 2
  if d = 3 then 0 else d

/-- Literal dots one by one. -/
def Rle.lits (r : Rle) (w : Nat) : List Nat → Option Rle
  | [] => some r
  | d :: l => match r.run w d 1 with
    | some r' => if r'.cur.isEmpty ∧ ¬ l.isEmpty then none else r'.lits w l
    | none => none

/-- One token and its operands: at `pos`, with `n` bytes behind the first. None where it reaches past `stop`. -/
def rdToken (stop pos n : Nat) : Rd (Option (List Nat)) :=
  if pos + 1 + n > stop then pure none
  else do
    let l ← rdBytes (pos + 1) n
    pure (some (l.map (·.toNat)))

/-- Decode from `pos` upward, not past `stop`, until `h` lines are full; `fuel` bounds the tokens by the bytes. A read
that fails ends it with what has been decoded (R145). DESIGN CHOICE, log entry 168. -/
def rleDecode (stop w h : Nat) : Nat → Nat → Rle → Rd Rle
  | 0, _, r => pure { r with broken := r.lines.length < h }
  | fuel + 1, pos, r => do
    let brk : Rle := { r with broken := true }
    if r.lines.length ≥ h then pure r
    else if pos ≥ stop then pure brk
    else
      match ← rdTry (rdByte pos) with
      | .error e => pure { r with failed := some e }
      | .ok c =>
        let b := c.toNat
        let n := if b < 0xC1 then 0 else if b = 0xC1 then 1 else if b = 0xC2 then 2 else if b < 0xE0 then 0 else b - 0xDF
        match ← rdTry (rdToken stop pos n) with
        | .error e => pure { r with failed := some e }
        | .ok none => pure brk
        | .ok (some l) =>
          let go (r' : Option Rle) : Rd Rle :=
            match r' with
            | some r' => rleDecode stop w h fuel (pos + 1 + n) r'
            | none => pure brk
          let v := l.getD 0 0 + 256 * l.getD 1 0
          if b < 0xC0 then go (r.run w (if b < 0x40 then 0 else if b < 0x80 then 1 else 2) (b % 0x40 + 1))
          else if b = 0xC0 then go (some (r.eol w))
          else if b = 0xC1 then
            if ¬ r.cur.isEmpty ∨ r.lines.length + v + 1 > h then pure brk
            else go (some { r with lines := List.replicate (v + 1) (r.lines.headD (List.replicate w 0)) ++ r.lines })
          else if b = 0xC2 then (if v / 0x4000 = 3 then pure brk else go (r.run w (v / 0x4000) (v % 0x4000 + 1)))
          else if b = 0xC3 then pure (r.fill w (h - r.lines.length))
          else if b < 0xE0 then pure brk
          else go (r.lits w (l.flatMap fun x => litDots (BitVec.ofNat 8 x)))

/-- What the decoding ends in: the failed read, a broken stream, or `good`. -/
def Rle.ends {α : Type} (r : Rle) (broken good : α) : Rd α :=
  match r.failed with
  | some e => throw e
  | none => pure (if r.broken then broken else good)

/-- The rows decoded, the unfinished one included (R88: what was drawn stays drawn). -/
def Rle.rows (r : Rle) : List (List Nat) :=
  r.lines.reverse ++ (if r.cur.isEmpty then [] else [r.cur.reverse])

-- resources (R134 to R139)

structure Atlas where
  data : Nat
  adv : Option Nat
  w : Nat
  h : Nat
  bpp : Nat
  first : Nat
  count : Nat
  dflt : Nat
  deriving DecidableEq, Repr

structure Logo where
  data : Nat
  w : Nat
  h : Nat
  bpp : Nat
  rle : Bool
  size : Nat
  deriving DecidableEq, Repr

def State.dirBase (s : State) : Nat := s.fld F.RND_DIR_BASE * 4096

/-- Address of object `n` of a table, none if absent (R135). DESIGN CHOICE, log entry 170. -/
def rdDirEntry (valid : Bool) (base tab n cnt : Nat) : Rd (Option Nat) := do
  if ¬ valid ∨ n ≥ cnt ∨ ¬ inFlash (base + tab + 4 * n) 4 then pure none
  else
    let off ← rdNat (base + tab + 4 * n) 4
    if off = 0 ∨ ¬ inFlash (base + off) 16 then pure none else pure (some (base + off))

/-- An atlas header (R137), none where its checks fail or the atlas leaves the flash window. -/
def rdAtlas (a : Nat) : Rd (Option Atlas) := do
  let w ← rdNat a 1
  let h ← rdNat (a + 1) 1
  let bpp ← rdNat (a + 2) 1
  let fl ← rdNat (a + 3) 1
  let first ← rdNat (a + 4) 2
  let count ← rdNat (a + 6) 2
  let dflt ← rdNat (a + 8) 2
  let z ← rdNat (a + 10) 6
  let advLen := if fl = 1 then (count + 3) / 4 * 4 else 0
  let rb := (w * bpp + 7) / 8
  if w = 0 ∨ h = 0 ∨ (bpp ≠ 1 ∧ bpp ≠ 2) ∨ fl > 1 ∨ count = 0 ∨ z ≠ 0 ∨
      ¬ inFlash a (16 + advLen + count * h * rb) then pure none
  else pure (some { data := a + 16 + advLen, adv := if fl = 1 then some (a + 16) else none, w := w, h := h, bpp := bpp,
                    first := first, count := count, dflt := if dflt < count then dflt else 0xFFFF })

/-- A logo header (R139). -/
def rdLogo (a : Nat) : Rd (Option Logo) := do
  let w ← rdNat a 2
  let h ← rdNat (a + 2) 2
  let bpp ← rdNat (a + 4) 1
  let fl ← rdNat (a + 5) 1
  let z0 ← rdNat (a + 6) 2
  let size ← rdNat (a + 8) 4
  let z1 ← rdNat (a + 12) 4
  let bytes := h * ((w * bpp + 31) / 32 * 4)
  if w = 0 ∨ w > 6144 ∨ h = 0 ∨ h > 256 ∨ (bpp ≠ 1 ∧ bpp ≠ 2) ∨ fl > 1 ∨ z0 ≠ 0 ∨ z1 ≠ 0 ∨
      (fl = 0 ∧ bytes > size) ∨ (a < flashEnd ∧ ¬ inFlash a (16 + size)) then pure none
  else pure (some { data := a + 16, w := w, h := h, bpp := bpp, rle := fl = 1, size := size })

-- objects: what a step will touch, then how it is drawn

/-- A cell of a TEXT_RUN that is drawn: its left edge and its glyph. -/
structure TextCell where
  x : Nat
  glyph : Nat
  deriving DecidableEq, Repr

/-- What a started step draws. -/
inductive Obj
  | raw
  | rle
  | text (a : Atlas) (cells : List TextCell) (part : Bool)
  | logo (l : Logo)
  | rule
  | bars (ws : List Nat)
  | print (n : Nat)
  deriving DecidableEq, Repr

/-- The cells of a text: codes mapped to glyphs and placed (R138). DEDUCED, log entry 13. -/
def rdCells (a : Atlas) (wide : Bool) (str xm track : Nat) (n : Nat) : Nat → Nat → Int → Rd (List TextCell × Bool)
  | 0, _, _ => pure ([], false)
  | k + 1, i, x => do
    let c ← if wide then rdNat (str + 2 * i) 2 else rdNat (str + i) 1
    let g := if a.first ≤ c ∧ c < a.first + a.count then c - a.first else a.dflt
    let adv ← match a.adv with
      | some t => if g = 0xFFFF then pure a.w else rdNat (t + g) 1
      | none => pure a.w
    let dx : Int := (adv * xm : Nat) + sgn 16 track
    let out := x < 0 ∨ x + (a.w * xm : Nat) > n
    let (l, part) ← rdCells a wide str xm track n k (i + 1) (x + dx)
    pure (if out then (l, true) else if g = 0xFFFF then (l, part) else (⟨x.toNat, g⟩ :: l, part))

def Entry.xm (e : Entry) : Nat := wbits e.w3 10 2 + 1
def Entry.ym (e : Entry) : Nat := wbits e.w3 12 2 + 1

/-- What the step's entry names, or the reason of its BAD_COMMAND, in the order of R519. The area is that of the step's
start, which a PRINT of another queue may have moved since the command was issued (R128).
DESIGN CHOICE, log entry 153. -/
def rdObject (p : Port) (e : Entry) : Rd (Except Nat Obj) := do
  let s ← (fun s => (.ok s, s) : Rd State)
  let area := s.area p
  let n := s.nEl p
  match e.opc with
  | 0x10 => pure (if e.y + e.sp > area then .error 0xA else .ok (if e.flags % 2 = 1 then .rle else .raw))
  | 0x13 => pure (if e.y + e.sp > area then .error 0xA else .ok .rule)
  | 0x15 => pure (.ok (.print e.sp))
  | 0x11 =>
    match ← rdDirEntry s.rnd.dirValid s.dirBase s.rnd.atlasTab (wbits e.w3 0 8) s.rnd.nAtlas with
    | none => pure (.error 3)
    | some a =>
      match ← rdAtlas a with
      | none => pure (.error 3)
      | some t =>
        if e.y + t.h * e.ym > area then pure (.error 0xA)
        else
          let (cells, part) ← rdCells t (e.flags % 2 = 1) e.w1.toNat e.xm (wbits e.w3 16 16) n e.sp 0 e.x
          pure (.ok (.text t cells part))
  | 0x12 =>
    let at_ ← if e.flags % 2 = 1 then pure (some e.w1.toNat)
      else rdDirEntry s.rnd.dirValid s.dirBase s.rnd.logoTab e.sp s.rnd.nLogo
    match at_ with
    | none => pure (.error 3)
    | some a =>
      match ← rdLogo a with
      | none => pure (.error 3)
      | some l =>
        if flashEnd ≤ a ∧ ¬ inWram a (16 + l.size) then pure (.error 9)
        else if e.y + l.h > area then pure (.error 0xA)
        else pure (.ok (.logo l))
  | _ =>
    let ws := (← rdBytes e.w1.toNat e.sp).map (·.toNat)
    let sum := ws.foldl (· + ·) 0
    let ext := wbits e.w3 0 16
    let ladder := e.flags % 2 = 1
    if ws.contains 0 then pure (.error 3)
    else if e.x + (if ladder then ext else sum) > n then pure (.error 3)
    else if e.y + (if ladder then sum else ext) > area then pure (.error 0xA)
    else pure (.ok (.bars ws))

/-- Lines of the area that an object touches. -/
def Obj.lines (o : Obj) (e : Entry) : Nat :=
  match o with
  | .raw => e.sp
  | .rle => e.sp
  | .text a cells _ => if cells.isEmpty then 0 else a.h * e.ym
  | .logo l => l.h
  | .rule => e.sp
  | .bars ws => if e.flags % 2 = 1 then ws.foldl (· + ·) 0 else wbits e.w3 0 16
  | .print n => n

/-- The first area line of a step. -/
def Obj.top (o : Obj) (e : Entry) : Nat :=
  match o with
  | .print _ => 0
  | _ => e.y

/-- What drawing a step came to: done in full, with dots left out, or a broken stream with its reason. -/
inductive Drawn
  | full
  | part
  | bad (reason : Nat)
  deriving DecidableEq, Repr

/-- Codes of `w` dots packed `bpp` bits each from the bits of a row. -/
def rowDots (bpp w : Nat) (row : Nat) (map : Nat → Nat) : List Nat :=
  (List.range w).map fun c => map (bitsN row (c * bpp) bpp)

/-- The dots of a glyph row (R138). -/
def glyphMap (bpp ink v : Nat) : Nat :=
  if bpp = 1 then (if v = 1 then ink else 0) else if v = 3 then ink else v

/-- Repeat each element. -/
def stretch {α : Type} (n : Nat) (l : List α) : List α := l.flatMap fun a => List.replicate n a

/-- Draw the cells of a text, one after another. -/
def drawCells (p : Port) (e : Entry) (a : Atlas) : List TextCell → Rd Unit
  | [] => pure ()
  | c :: l => do
    let rb := (a.w * a.bpp + 7) / 8
    let bytes ← rdBytes (a.data + c.glyph * a.h * rb) (a.h * rb)
    let ink := wbits e.w3 8 2
    let rows := (List.range a.h).map fun r =>
      stretch e.xm (rowDots a.bpp a.w (leNat ((bytes.drop (r * rb)).take rb)) (glyphMap a.bpp ink))
    rdModify fun s => s.layRows p c.x e.y (stretch e.ym rows)
    drawCells p e a l

/-- Draw the rows of a bit map one by one; `rb` bytes a row, `w` dots of which `keep` are drawn. -/
def drawMap (p : Port) (x y bpp w keep rb stride : Nat) (map : Nat → Nat) (a : Nat) : Nat → Nat → Rd Unit
  | 0, _ => pure ()
  | k + 1, r => do
    let v ← rdNat (a + r * stride) rb
    rdModify fun s => s.layRows p x (y + r) [(rowDots bpp w v map).take keep]
    drawMap p x y bpp w keep rb stride map a k (r + 1)

/-- Draw a granted step. -/
def drawObject (p : Port) (e : Entry) (n : Nat) : Obj → Rd Drawn
  | .print _ => pure .full
  | .raw => do
    let w := wbits e.w3 0 16
    rdModify fun s => s.clearRect p e.x e.y w e.sp e.merge
    drawMap p e.x e.y 2 w w (w / 4) (wbits e.w3 16 16) (fun v => if v = 3 then 0 else v) e.w1.toNat e.sp 0
    pure .full
  | .rle => do
    let w := wbits e.w3 0 16
    let len := wbits e.w3 16 16 * 64
    rdModify fun s => s.clearRect p e.x e.y w e.sp e.merge
    let r ← rleDecode (e.w1.toNat + len) w e.sp (len + 1) e.w1.toNat {}
    rdModify fun s => s.layRows p e.x e.y r.rows
    r.ends (.bad 3) .full
  | .rule => do
    let w := wbits e.w3 0 16
    let on := wbits e.w1 0 16
    let off := wbits e.w1 16 16
    let row := (List.range w).map fun i => if off = 0 ∨ i % (on + off) < on then wbits e.w3 16 2 else 0
    rdModify fun s => (s.clearRect p e.x e.y w e.sp e.merge).layRows p e.x e.y (List.replicate e.sp row)
    pure .full
  | .bars ws => do
    let ext := wbits e.w3 0 16
    let ink := wbits e.w3 16 2
    let seq := ws.zipIdx.flatMap fun m => List.replicate m.1 (if m.2 % 2 = 0 then ink else 0)
    let rows := if e.flags % 2 = 1 then seq.map (List.replicate ext) else List.replicate ext seq
    rdModify fun s =>
      (s.clearRect p e.x e.y (rows.headD []).length rows.length e.merge).layRows p e.x e.y rows
    pure .full
  | .text a cells part => do
    let lo := cells.foldl (fun m c => min m c.x) n
    let hi := cells.foldl (fun m c => max m (c.x + a.w * e.xm)) 0
    if ¬ cells.isEmpty then rdModify fun s => s.clearRect p lo e.y (hi - lo) (a.h * e.ym) e.merge
    drawCells p e a cells
    pure (if part then .part else .full)
  | .logo l => do
    let keep := min l.w (n - e.x)
    let cut : Drawn := if keep < l.w then .part else .full
    rdModify fun s => s.clearRect p e.x e.y keep l.h e.merge
    if l.rle then
      let r ← rleDecode (l.data + l.size) l.w l.h (l.size + 1) l.data {}
      rdModify fun s => s.layRows p e.x e.y (r.rows.map (·.take keep))
      r.ends (.bad 3) cut
    else
      let rb := (l.w * l.bpp + 31) / 32 * 4
      drawMap p e.x e.y l.bpp l.w keep rb rb
        (fun v => if l.bpp = 1 then v else if v = 3 then 0 else v) l.data l.h 0
      pure cut

-- steps (R129 to R131, R145)

/-- The step needs the resource directory. -/
def Entry.needsDir (e : Entry) : Bool := e.opc = 0x11 || (e.opc = 0x12 && e.flags % 2 = 0)

/-- A flash error of the front step: a status line is retried (R145); an uncorrectable word completes it FAULT. -/
def State.stepError (s : State) (p : Port) (x : Step) : RdErr → State
  | .subst la => s.modFront p fun y => { y with retry := some ⟨la, 1⟩ }
  | .uncor => (s.count R.RND_STEPS).finish x.q x.uid St.fault

/-- The step waits for the directory check. -/
def State.dirWait (s : State) (x : Step) : Bool := x.e.needsDir && s.rnd.dirChk.isSome

/-- The port whose front step is a composition step of which `f` holds. -/
def State.frontIs (s : State) (p : Port) (f : Step → Bool) : Bool :=
  match s.steps p with
  | x :: _ => x.e.opc != 0x15 && f x
  | [] => false

/-- RND may go on drawing the front step of a port: its bands are granted and it waits for nothing. -/
def State.drawable (s : State) (p : Port) : Bool :=
  s.working Pg.rnd && s.frontIs p fun x => x.granted && x.retry.isNone && !s.dirWait x

/-- RND may start the front step of a port: it waits for neither bands nor flash. -/
def State.startable (s : State) (p : Port) : Bool :=
  s.running Pg.rnd && s.running Pg.skn && !(s.skn.waits.any fun w => w.port == p) &&
    s.frontIs p fun x => !x.granted && x.retry.isNone && !s.dirWait x

/-- RND starts the front step of a port: its object is read and checked, then its bands are asked for.
DEDUCED, log entry 15. DESIGN CHOICE, log entry 171. -/
def State.startFront (s : State) (p : Port) : State :=
  match s.steps p with
  | [] => s
  | x :: _ => match rdObject p x.e s with
    | (.error err, s) => s.stepError p x err
    | (.ok (.error reason), s) => (s.count R.RND_STEPS).badCmd x.q x.uid reason
    | (.ok (.ok o), s) => s.grantStep p (o.top x.e) (o.lines x.e)

/-- A PRINT at the front of its port asks for the bands that it reaches (R127). -/
def State.startPrint (s : State) (p : Port) : State :=
  match s.steps p with
  | [] => s
  | x :: _ =>
    if x.e.opc ≠ 0x15 ∨ x.granted ∨ ¬ s.running Pg.skn ∨ s.skn.waits.any (fun w => w.port == p) then s
    else s.grantStep p 0 x.e.sp

/-- Ports in the order of RND's round robin (R131). -/
def State.rndOrder (s : State) : List Port :=
  match s.rnd.last with
  | some l => (List.finRange 4).map fun k => Fin.ofNat 4 (l.val + 1 + k.val)
  | none => List.finRange 4

/-- RND takes its next step: it keeps the one that it draws, else it serves the next port round robin, one step per
turn; steps that wait for bands or flash are passed over (R131). `fuel` bounds how many steps end or wait as they
start. -/
def State.rndTake (s : State) : Nat → State
  | 0 => s
  | fuel + 1 =>
    if s.rnd.cur.any s.drawable then s
    else match s.rndOrder.find? fun p => s.drawable p || s.startable p with
      | none => s
      | some p =>
        let s := if s.drawable p then s else s.startFront p
        let s := { s with rnd := { s.rnd with last := some p, cur := if s.drawable p then some p else s.rnd.cur } }
        s.rndTake fuel

/-- RND goes on, and a PRINT that has come to the front of its port asks for its bands. -/
def State.rndGo (s : State) : State :=
  let n := (List.finRange 4).foldl (fun n p => n + (s.steps p).length) 4
  (List.finRange 4).foldl (fun s p => s.startPrint p) (s.rndTake n)

/-- A composition step or PRINT enters RND. -/
def State.pushStep (s : State) (p : Port) (x : Step) : State := (s.setSteps p (s.steps p ++ [x])).rndGo

/-- A step has been drawn: its outcome (04 R96). -/
def State.drawnStep (s : State) (x : Step) (d : Drawn) : State :=
  let s := s.count R.RND_STEPS
  match d with
  | .full => s.finish x.q x.uid St.ok
  | .part => s.finish x.q x.uid St.partly
  | .bad r => s.badCmd x.q x.uid r

/-- DRAW_COMPLETE: the step that RND draws is finished and gets its outcome (04 R96, R519).
DESIGN CHOICE, log entry 16. -/
def State.drawComplete (s : State) (p : Port) : State :=
  let s := s.rndGo
  if s.rnd.cur ≠ some p ∨ ¬ s.drawable p then s
  else match s.steps p with
    | [] => s
    | x :: _ =>
      let n := s.nEl p
      let s := match (rdObject p x.e >>= fun (o : Except Nat Obj) => match o with
          | .ok o => drawObject p x.e n o
          | .error r => pure (Drawn.bad r)) s with
        | (.error err, s) => s.stepError p x err
        | (.ok d, s) => s.drawnStep x d
      s.rndGo

/-- BAND_WAIT_GRANT: waiting steps are re-evaluated, oldest first (R130). -/
def State.bandWaitGrant (s : State) : State := if s.running Pg.skn then s.grantWaits.rndGo else s

-- directory (R134) and flash retries (R145)

/-- The header check. DESIGN CHOICE, log entry 196. -/
def rdHeader (base : Nat) : Rd (Option (Nat × Nat × Nat × Nat)) := do
  let magic ← rdNat base 4
  let ver ← rdNat (base + 4) 2
  let na ← rdNat (base + 6) 2
  let nl ← rdNat (base + 8) 2
  let ta ← rdNat (base + 12) 4
  let tl ← rdNat (base + 16) 4
  if magic = 0x44524B49 ∧ ver = 1 ∧ na ≤ 256 ∧ nl ≤ 1024 then pure (some (na, nl, ta, tl)) else pure none

/-- Read and check the directory header (R134). DESIGN CHOICE, log entry 150; DESIGN CHOICE, log entry 151; DESIGN
CHOICE, log entry 152. -/
def State.checkDir (s : State) : State :=
  match rdHeader s.dirBase s with
  | (.error (.subst la), s) =>
    { s with rnd := { s.rnd with
      dirChk := some (match s.rnd.dirChk with
        | some r => ⟨la, if r.addr = la then r.count + 1 else 1⟩
        | none => ⟨la, 1⟩) } }
  | (.error .uncor, s) =>
    ({ s with rnd := { s.rnd with dirValid := false, nAtlas := 0, nLogo := 0, dirChk := none } }.irq Pg.rnd 4).rndGo
  | (.ok none, s) =>
    ({ s with rnd := { s.rnd with dirValid := false, nAtlas := 0, nLogo := 0, dirChk := none } }.irq Pg.rnd 4).rndGo
  | (.ok (some (na, nl, ta, tl)), s) =>
    { s with rnd := { s.rnd with dirValid := true, nAtlas := na, nLogo := nl, atlasTab := ta, logoTab := tl,
                                 dirChk := none } }.rndGo

/-- RND_DIR_CHECK: a write of RND_DIR; a block that is not in RUN checks the header when it enters RUN.
DEDUCED, log entry 17. -/
def State.rndDirWrite (s : State) (v : Word) : State :=
  let s := s.wr R.RND_DIR (v &&& 0x00FFF000)
  if s.running Pg.rnd then { s with rnd := { s.rnd with dirChk := none } }.checkDir else s

/-- 1024 consecutive status lines: the fetch-timeout source, and the step completes FAULT (R145). -/
def State.rndTimeout (s : State) (p : Port) : State := (s.raise Pg.rnd 0 [p]).irq Pg.rnd 5

/-- The directory check, if it waits for a status line: the 1024th substituted return ends it (R145).
DESIGN CHOICE, log entry 136. -/
def State.retryDir (s : State) (p : Port) : State :=
  match s.rnd.dirChk with
  | none => s
  | some r =>
    let s := (s.count R.RND_FLRETRY).checkDir
    match s.rnd.dirChk with
    | some r' =>
      if r'.addr = r.addr ∧ r'.count ≥ 1024 then
        ({ s with rnd := { s.rnd with dirValid := false, dirChk := none } }.rndTimeout p).rndGo
      else s
    | none => s

/-- RND_FLASH_RETRY: the front step's line, or the header check, is tried again after 1 µs.
DESIGN CHOICE, log entry 169. -/
def State.rndFlashRetry (s : State) (p : Port) : State :=
  match s.steps p with
  | x :: _ =>
    match x.retry with
    | some r =>
      let s := s.count R.RND_FLRETRY
      match s.flashRead .rnd r.addr with
      | (s, .subst) =>
        if r.count + 1 ≥ 1024 then (((s.count R.RND_STEPS).rndTimeout p).finish x.q x.uid St.fault).rndGo
        else s.modFront p fun y => { y with retry := some { r with count := r.count + 1 } }
      | (s, .data _) => (s.modFront p fun y => { y with retry := none }).rndGo
    | none => s.retryDir p
  | [] => s.retryDir p

end Sys2Proof.Machine
end

