-- ==== Sys2Proof/Machine/Recovery.lean ====
section
/-! DEFINITION. Continuing a halted queue (03 R75, R76, R80, R81): RESUME and the automatic recovery actions. -/

namespace Sys2Proof.Machine

/-- A PRINT that was stopped before it committed commits its lines in its continuation, as a PRINT does (R76, 05
R127); the thread waits for it. -/
def State.recommit (s : State) (q : QNum) (c : Cmd) : State :=
  if c.e.opc = 0x15 ∧ ¬ c.committed then
    match s.qPort q with
    | some p => (s.modThr q fun t => { t with wait := .commit c.uid }).pushStep p { uid := c.uid, q := q, e := c.e }
    | none => s
  else s

/-- RESUME (R76). List PRINTs continue under their ring entry. -/
def State.resume (s : State) (q : QNum) (auto : Bool) : State :=
  let cs := s.continuations q auto
  let s := s.modQ q fun x =>
    { x with mode := if s.qEn q then .run else .bindoff, haltGiven := false, haltSet := [], conts := cs,
             autoAct := none, retryUsed := if auto then x.retryUsed + 1 else x.retryUsed }
  let s := match s.qPort q with
    | some p => { s with hp := s.hp.set p { s.hp[p] with hold := none, heldAtStop := false } }.ehmTouch p
    | none => s
  (cs.foldl (fun s c => s.recommit q c) s).settle q

/-- RCMD written RESUME (R75, R76, 18 R468). -/
def State.rcmdResume (s : State) (q : QNum) : State :=
  if (s.q q).mode = .halted ∧ ¬ (s.q q).lost then s.resume q false else s.refuse q

/-- The blocks of a halt set are back in RUN (R81, R516): those of its members, and for a call of the list commands
that did not end well. DESIGN CHOICE, log entry 162. -/
def State.haltBlocksBack (s : State) (q : QNum) : Bool :=
  let port := s.qPort q
  ((s.q q).haltSet.filter fun c => c.parent.isNone || halting (c.out.getD 0)).all fun c =>
    (s.needsAll c.e port).all s.running &&
    (if c.e.opc = 0x15 then match port with
      | some p => s.flag F.HHE_Pp_CFG_EN p.val
      | none => true
     else if c.e.opc = 0x31 ∧ c.e.flags % 2 = 1 then match port with
      | some p => (s.vpOf p).all fun v => s.running (Pg.vp v)
      | none => true
     else true)

/-- AUTO_RECOVERY (R80, R81). -/
def State.autoRecovery (s : State) (q : QNum) : State :=
  let x := s.q q
  match x.autoAct with
  | none => s
  | some a =>
    let media := x.hstat == St.mediaOut || x.hstat == St.mediaTimeout
    let ready : Bool := match s.qPort q with
      | some p => s.paperIn p && s.headShut p
      | none => true
    if x.mode ≠ .halted ∨ ¬ s.haltBlocksBack q ∨ (a = 1 ∧ media ∧ ¬ ready) then s
    else match a with
      | 1 => s.resume q true
      | 2 => s.skipJob q true
      | _ => s.flush q x.tail true

end Sys2Proof.Machine
end

