-- ==== Sys2Proof/Machine/Commit.lean ====
section
/-! DEFINITION. Shadow, pending and active sets of a page (02 R42 to R44). -/

namespace Sys2Proof.Machine

/-- The pages that share a shadow set with a page: ADC and ADT (R43). -/
def setPages (pg : PageIx) : List PageIx :=
  if pg = Pg.adc ∨ pg = Pg.adt then [Pg.adc, Pg.adt] else [pg]

/-- Copy a page's block-specific registers from one store to another. -/
def copyPage (pg : PageIx) (src dst : List (Nat × Word)) : List (Nat × Word) :=
  srange (pageBase pg + 0x40) (pageBase pg + 0x1000) src dst

/-- The pending set becomes active at the block's boundary (R43): COMMIT_DONE is requested and ACT_TAG follows.
DEDUCED, log entry 90. -/
def State.activate (s : State) (pg : PageIx) : State :=
  if ¬ (s.page pg).pend then s
  else (setPages pg).foldl (fun s i =>
    ({ s with active := copyPage i s.pendSet s.active, pendSet := copyPage i [] s.pendSet }.modPage i fun x =>
      { x with pend := false, actTag := x.pendTag }).irq i 1) s

/-- COMMIT copies the shadow set and TAG into the pending set (R43, R44); `tag` is the TAG of the page written. -/
def State.makePending (s : State) (pg : PageIx) (tag : Byte) : State :=
  (setPages pg).foldl (fun s i =>
    { s with pendSet := copyPage i s.regs s.pendSet }.modPage i fun x =>
      { x with merged := x.merged || x.pend, pend := true, pendTag := tag }) s

/-- A refused commit (R42): the pending set is unchanged. -/
def State.rejectCommit (s : State) (pg : PageIx) : State :=
  (setPages pg).foldl (fun s i => s.modPage i fun x => { x with rej := true }) s

end Sys2Proof.Machine
end

