-- ==== Sys2Proof/Machine/Elements.lean ====
section
/-! DEFINITION. The element table, pulse counts, the priority list and optical votes (09 R222 to R227, R236, R237). -/

namespace Sys2Proof.Machine

/-- Address of the entry of element `e` of a port (R222). -/
def elemAddr (p : Port) (e : Nat) : Nat := elemBase + p.val * 0xC000 + e * 8

/-- Bits of byte 2 of an entry (R222). -/
def elWorn : Nat := 0
def elDead : Nat := 1
def elOpen : Nat := 2
def elShort : Nat := 3
def elMeasured : Nat := 4
def elRlock : Nat := 5
def elOlock : Nat := 6

def State.elemFlags (s : State) (p : Port) (e : Nat) : Byte := s.byte (elemAddr p e + 2)
def State.elemFlag (s : State) (p : Port) (e b : Nat) : Bool := (s.elemFlags p e).getLsbD b

/-- The resistance trim code, at most 128 (R156, R222). -/
def State.elemR (s : State) (p : Port) (e : Nat) : Nat := min 128 (s.byte (elemAddr p e)).toNat

/-- The optical trim code, −32 to 31. -/
def State.elemO (s : State) (p : Port) (e : Nat) : Int := sgn 6 ((s.byte (elemAddr p e + 1)).toNat % 64)

/-- The pulse count. -/
def State.elemCount (s : State) (p : Port) (e : Nat) : Nat := leNat (s.bytes (elemAddr p e + 3) 5)

def pcntFull : Nat := 2 ^ 40 - 1

/-- Elements 0 to N_el − 1 of a port with flag `b` set (R225). -/
def State.flagCount (s : State) (p : Port) (b : Nat) : Nat :=
  (s.mem.filter fun c =>
    elemAddr p 0 ≤ c.1 && c.1 < elemAddr p (s.nEl p) && (c.1 - elemBase) % 8 == 2 && c.2.getLsbD b).length

def State.deadCount (s : State) (p : Port) : Nat := s.flagCount p elDead

/-- PCNT of one element steps, with its LIFE fault (R227, 02 R49). -/
def State.pulse (s : State) (p : Port) (e : Nat) : State :=
  let n := s.elemCount p e
  if n = pcntFull then s
  else
    let s := s.setBytes (elemAddr p e + 3) (natBytes 5 (n + 1))
    if n + 1 = pcntFull then s.raise Pg.ehm (12 + p.val) else s

/-- PCNT_INCREMENT: every element that the line fires at least once (R227). -/
def State.pulseLine (s : State) (p : Port) (counts : List Nat) : State :=
  counts.zipIdx.foldl (fun s c => if c.1 ≥ 1 then s.pulse p c.2 else s) s

/-- An entry written through the element window or a restore copy (R225): byte 2 clears MEASURED unless it sets it,
which storing the written byte does. -/
def State.writeElem (s : State) (p : Port) (e : Nat) (bytes : List Byte) : State :=
  s.setBytes (elemAddr p e) ((bytes.take 8).zipIdx.map fun b =>
    if b.2 = 1 then b.1 &&& 0x3F else if b.2 = 2 then b.1 &&& 0x7F else b.1)

-- the priority list (R236)

def State.prioAdd (s : State) (p : Port) (e : Nat) : State :=
  s.modEhm p fun x => if x.prio.contains e ∨ x.prio.length ≥ 16 then x else { x with prio := x.prio ++ [e] }

-- optical votes (R237)

inductive Verdict
  | light | dark | matched
  deriving DecidableEq, Repr

def clearVotes (s : State) (p : Port) : State := s.modEhm p fun x => { x with votes := [] }

/-- One verdict for element `e`. -/
def State.vote (s : State) (p : Port) (e : Nat) (v : Verdict) : State :=
  if ¬ s.flag F.EHM_Pp_OPT_OAUTO p.val ∨ ¬ s.working Pg.ehm then s
  else
    let (c, old) := sget (0, 0) e (s.ehmP p).votes
    let w := sat (old + (match v with
      | .light => 1
      | .dark => -1
      | .matched => 0)) (-127) 127
    if c + 1 < 256 then s.modEhm p fun x => { x with votes := sput (0, 0) e (c + 1, w) x.votes }
    else
      let vth : Int := max 1 (s.fld F.EHM_Pp_OPT_VTH p.val)
      let o := s.elemO p e
      let held : Bool := s.elemFlag p e elOlock || s.elemFlag p e elDead
      let new := if vth ≤ w ∧ o < sgn 6 (s.fld F.EHM_Pp_OPT_OMAX p.val) ∧ ¬ held then o + 1
        else if w ≤ -vth ∧ sgn 6 (s.fld F.EHM_Pp_OPT_OMIN p.val) < o ∧ ¬ held then o - 1 else o
      let s := s.modEhm p fun x => { x with votes := sput (0, 0) e (0, 0) x.votes }
      if new = o then s
      else
        let a := elemAddr p e + 1
        (s.setByte a ((s.byte a &&& 0xC0) ||| BitVec.ofNat 8 (lowBits 6 new))).count R.EHM_Pp_OSTEP p.val

end Sys2Proof.Machine
end

