-- ==== Sys2Proof/Machine/Capture.lean ====
section
/-! DEFINITION. VERIFY windows and the lines that verification pipelines capture (04 R101, 13 R332 to R334, R338,
R339). -/

namespace Sys2Proof.Machine

def State.vp (s : State) (v : VpNum) : VpSt := s.cam.vp[v]
def State.modVp (s : State) (v : VpNum) (f : VpSt → VpSt) : State :=
  { s with cam := { s.cam with vp := s.cam.vp.set v (f s.cam.vp[v]) } }
def State.vctx (s : State) (v : VpNum) (x : Fin 2) : VpCtx := s.cam.vp[v].ctx[x]
def State.modCtx (s : State) (v : VpNum) (x : Fin 2) (f : VpCtx → VpCtx) : State :=
  s.modVp v fun p => { p with ctx := p.ctx.set x (f p.ctx[x]) }

/-- The enabled contexts bound to a port, of pipelines in RUN (R323). -/
def State.ctxOf (s : State) (p : Port) : List (VpNum × Fin 2) :=
  (List.finRange 2).flatMap fun v => ((List.finRange 2).filter fun x =>
    s.running (Pg.vp v) && s.flag F.VPn_Cx_CFG_EN v.val x.val && s.fld F.VPn_Cx_CFG_PORT v.val x.val == p.val).map
      fun x => (v, x)

/-- Element range of a context (R332). -/
def State.ctxE0 (s : State) (v : VpNum) (x : Fin 2) : Nat := s.act F.VPn_Cx_E_E0 v.val x.val
def State.ctxNE (s : State) (v : VpNum) (x : Fin 2) : Nat := s.act F.VPn_Cx_E_NE v.val x.val

/-- P of the port's feed axis, 0 without one (10 R256). -/
def State.feedPos (s : State) (p : Port) : Word :=
  match s.feedAx p with
  | some a => s.rd R.AXn_POS a.val
  | none => 0

/-- The position source of a context (R332). -/
def State.ctxPos (s : State) (v : VpNum) (x : Fin 2) : Word :=
  let p : Port := Fin.ofNat 4 (s.fld F.VPn_Cx_CFG_PORT v.val x.val)
  if s.flag F.VPn_Cx_CFG_SRC v.val x.val then s.rd R.QEn_POS_LO (s.fld F.HPn_PACE_QE p.val) else s.feedPos p

/-- Window counters that stick at 0xFFFF (R342). -/
def State.stickAdd (s : State) (f : Fld) (i : Nat) : State :=
  if s.fld f i = 0xFFFF then s else s.setFld f (s.fld f i + 1) i

/-- A line is evaluated as UNSEEN (R334). -/
def State.unseen (s : State) (v : VpNum) (x : Fin 2) : State :=
  ((s.count R.VPn_UNSEEN v.val).stickAdd F.VPn_WCNT_UNSEEN v.val).modCtx v x fun c => { c with unseen := c.unseen + 1 }

/-- A dot-out at element `e` is reported (R337); a DEAD column goes on no priority list. -/
def State.dotOut (s : State) (v : VpNum) (x : Fin 2) (p : Port) (e : Nat) (dead : Bool) : State :=
  let s := (s.wr R.VPn_DOLAST (BitVec.ofNat 32 (dead.toNat * 2 ^ 31 + p.val * 65536 + e)) v.val).irq (Pg.vp v) 6
  let s := if dead then s else s.prioAdd p e
  let c := s.vctx v x
  let s := if dead then s.modCtx v x fun c => { c with deadCols := e :: c.deadCols } else s
  if c.dotCols.contains e then s
  else (s.stickAdd F.VPn_WCNT_DOUT v.val).modCtx v x fun c => { c with dotCols := e :: c.dotCols }

-- the close (R101, R338)

/-- The line in progress belongs to the window and is not computed, so not captured either, yet (R332). -/
def State.winWaits (s : State) (p : Port) : Bool := (s.hp[p]).cur.any fun c => c.line.verify.isSome && c.data.isNone

/-- Every line of the window has started or gone, and every captured one has been evaluated. -/
def State.winDone (s : State) (p : Port) : Bool :=
  !((s.lines p).any fun l => l.verify.isSome) && !s.winWaits p &&
  (s.ctxOf p).all fun c => (s.vctx c.1 c.2).caps.all fun l => l.port != p

/-- The verdict of a window: summed over the contexts bound to the port. -/
def State.winPass (s : State) (p : Port) (w : Win) : Bool :=
  let cs := (s.ctxOf p).map fun c => s.vctx c.1 c.2
  let ver := cs.foldl (fun n c => n + c.ver) 0
  let mis := cs.foldl (fun n c => n + c.mis) 0
  let dout := cs.foldl (fun n c => n + c.dotCols.length) 0
  dout ≤ w.maxDot && mis * 10000 ≤ w.maxMis * ver

/-- A VERIFY close completes when its window is done. -/
def State.winCheck (s : State) (p : Port) : State :=
  match s.win p with
  | some w =>
    match w.closing with
    | some (q, uid) =>
      if s.winDone p then (s.setWin p none).finish q uid (if s.winPass p w then St.ok else St.verifyFail) else s
    | none => s
  | none => s

/-- VERIFY opens a window: the counts of every context bound to the port start at 0 (R338), and every DEAD column
in its range is reported (R337); captured lines that a pipeline kept of an earlier window are not of this one.
DEDUCED, log entry 33; DEDUCED, log entry 183. -/
def State.winOpen (s : State) (p : Port) (maxDot maxMis : Nat) : State :=
  (s.ctxOf p).foldl (fun s c =>
    let s := (((s.wr R.VPn_WVER 0 c.1.val).wr R.VPn_WMIS 0 c.1.val).wr R.VPn_WCNT 0 c.1.val).modCtx c.1 c.2 fun x =>
      { x with missed := [], dotCols := [], deadCols := [], ver := 0, mis := 0, unseen := 0, lossGiven := false }
    ((List.range (s.ctxNE c.1 c.2)).map (· + s.ctxE0 c.1 c.2)).foldl (fun s e =>
      if s.elemFlag p e elDead then s.dotOut c.1 c.2 p e true else s) s)
    ((s.capsDrop p).setWin p (some { maxDot := maxDot, maxMis := maxMis }))

-- capture (R332)

/-- Bytes of intent RAM that one line takes. -/
def intentBytes (ne : Nat) : Nat := 4 * ((ne + 15) / 16)

def State.intentUsed (s : State) (v : VpNum) : Nat :=
  (List.finRange 2).foldl (fun n x => (s.vctx v x).caps.foldl (fun n l => n + l.bytes) n) 0

/-- LINE_CAPTURE: the HHE first delivers line `l` of a port. -/
def State.capture (s : State) (p : Port) (l : Line) : State :=
  match l.verify with
  | none => s
  | some w =>
    (s.ctxOf p).foldl (fun s c =>
      let ctx := s.vctx c.1 c.2
      let known := (ctx.caps.any fun x => x.uid == l.uid && x.k == l.k) || ctx.missed.contains (l.uid, l.k)
      if known ∨ w % (s.act F.VPn_CLS_LSTRIDE c.1.val + 1) ≠ 0 then s
      else
        let e0 := s.ctxE0 c.1 c.2
        let ne := s.ctxNE c.1 c.2
        if s.intentUsed c.1 + intentBytes ne > 0x20000 then (s.unseen c.1 c.2).modCtx c.1 c.2 fun x => { x with missed := (l.uid, l.k) :: x.missed }
        else
          let cols := (List.range ne).map (· + e0)
          -- a line computed on demand has started already
          let start := ctx.lastStart.bind fun t => if t.1 = l.uid ∧ t.2.1 = l.k then some t.2.2 else none
          s.modCtx c.1 c.2 fun x =>
            { x with caps := x.caps ++ [{ port := p, uid := l.uid, k := l.k, e0 := e0, start := start,
                                          codes := cols.map (s.dot l.band l.row.val),
                                          dead := cols.map fun e => s.elemFlag p e elDead, bytes := intentBytes ne }] }) s

/-- At S(n) of a line the position source is recorded. -/
def State.captureStart (s : State) (p : Port) (l : Line) : State :=
  (s.ctxOf p).foldl (fun s c =>
    let pos := s.ctxPos c.1 c.2
    s.modCtx c.1 c.2 fun x =>
      { x with lastStart := some (l.uid, l.k, pos, s.time), caps := x.caps.map fun (y : CapLine) =>
          if y.uid = l.uid ∧ y.k = l.k then { y with start := some (pos, s.time) } else y }) s

/-- A captured line that never reaches its start of scan is discarded (R332). -/
def State.captureDrop (s : State) (p : Port) (gone : Line → Bool) : State :=
  let ids := ((s.lines p).filter gone).map fun l => (l.uid, l.k)
  { s with cam := { s.cam with vp := s.cam.vp.map fun (v : VpSt) =>
      { v with ctx := v.ctx.map fun (c : VpCtx) =>
          { c with caps := c.caps.filter fun l => l.port != p || l.start.isSome || !ids.contains (l.uid, l.k) } } } }

/-- LINE_EVAL_TIMEOUT: lines EVTMO ms after their S(n) are evaluated UNSEEN (R334). -/
def State.lineEvalTimeout (s : State) (v : VpNum) : State :=
  if ¬ s.working (Pg.vp v) then s
  else
    let late (l : CapLine) : Bool := match l.start with
      | some (_, t) => decide (s.since t ≥ s.fld F.VPn_TMO_EVTMO v.val * msTicks)
      | none => false
    let s' := (List.finRange 2).foldl (fun s x =>
      let n := ((s.vctx v x).caps.filter late).length
      let s := (List.range n).foldl (fun s _ => s.unseen v x) s
      s.modCtx v x fun c => { c with caps := c.caps.filter fun l => !late l }) s
    (List.finRange 4).foldl (fun s p => s.winCheck p) s'

end Sys2Proof.Machine
end

