-- ==== Sys2Proof/Machine/Timing.lean ====
section
/-! DEFINITION. Times of a port in its island clocks of 10 ns, which are the ticks of the timestamp (07 R178 to R185),
and its projected line time (06 R163, 08 R217). -/

namespace Sys2Proof.Machine

def State.hpP (s : State) (p : Port) : HpSt := s.hp[p]
def State.modHp (s : State) (p : Port) (f : HpSt → HpSt) : State := { s with hp := s.hp.set p (f s.hp[p]) }
def State.hheP (s : State) (p : Port) : HhePort := s.hhe[p]
def State.modHhe (s : State) (p : Port) (f : HhePort → HhePort) : State := { s with hhe := s.hhe.set p (f s.hhe[p]) }
def State.sbaP (s : State) (p : Port) : SbaPort := s.sba.ports[p]
def State.modSba (s : State) (p : Port) (f : SbaPort → SbaPort) : State :=
  { s with sba := { s.sba with ports := s.sba.ports.set p (f s.sba.ports[p]) } }

def State.allPorts (s : State) (f : State → Port → State) : State := (List.finRange 4).foldl f s
def State.allAxes (s : State) (f : State → AxNum → State) : State := (List.finRange 8).foldl f s
def State.allQueues (s : State) (f : State → QNum → State) : State := (List.finRange 16).foldl f s

/-- Lanes of a port (R178, R202). -/
def State.lanes (s : State) (p : Port) : Nat := 2 ^ min 4 (s.fld F.HPn_CFG_LANES p.val)

/-- T_sh (R180). -/
def State.tShift (s : State) (p : Port) : Nat := s.nEl p / s.lanes p * s.fld F.HPn_CFG_CLKDIV p.val

/-- The head position of an element, and the element at a position (R178). -/
def State.headPos (s : State) (p : Port) (i : Nat) : Nat :=
  if s.flag F.HPn_CFG_MIRROR p.val then s.nEl p - 1 - i else i

/-- The bits that lane `j` carries for slice `k`, in the order in which they are shifted (R178, R179). -/
def State.laneBits (s : State) (p : Port) (counts : List Nat) (k j : Nat) : List Bool :=
  let seg := s.nEl p / s.lanes p
  let up := (List.range seg).map fun x => j * seg + x
  let order := if s.flag F.HPn_CFG_SDIR p.val then up else up.reverse
  order.map fun x => decide (k ≤ counts.getD (s.headPos p x) 0) != s.flag F.HPn_POL_DATPOL p.val

/-- The bits of slice `k` on every lane in use; the lanes above are held low (R176). -/
def State.sliceBits (s : State) (p : Port) (counts : List Nat) (k : Nat) : List (List Bool) :=
  (List.range (s.lanes p)).map (s.laneBits p counts k)

/-- Guards of the active set. -/
def State.latw (s : State) (p : Port) : Nat := max 1 (s.act F.HPn_GUARD_LATW p.val)
def State.tls (s : State) (p : Port) : Nat := s.act F.HPn_GUARD_TLS p.val
def State.tsl (s : State) (p : Port) : Nat := s.act F.HPn_GUARD_TSL p.val
def State.tds (s : State) (p : Port) : Nat := s.act F.HPn_GUARD_TDS p.val

/-- The first blocks of strobe groups 1 to 7. -/
def sgStarts (get : Fld → Nat) : List Nat :=
  [get F.HPn_SGB0_START1, get F.HPn_SGB0_START2, get F.HPn_SGB0_START3, get F.HPn_SGB0_START4, get F.HPn_SGB1_START5,
   get F.HPn_SGB1_START6, get F.HPn_SGB1_START7]

/-- Strobe groups in use, and the phase of one (R183). -/
def State.nGrp (s : State) (p : Port) : Nat := s.act F.HPn_SGCFG_NGRP p.val
def State.grpPhase (s : State) (p : Port) (g : Nat) : Nat := bitsN (s.act F.HPn_SGCFG_PHASE p.val) (2 * g) 2

/-- The first element of strobe group `g`; the end of the head for the group after the last (R183). -/
def State.grpStart (s : State) (p : Port) (g : Nat) : Nat :=
  if g = 0 then 0
  else if s.nGrp p ≤ g then s.nEl p
  else 64 * (sgStarts fun f => s.act f p.val).getD (g - 1) 0

/-- The distinct phases of the strobe groups in use, in firing order (R183). -/
def State.phaseList (s : State) (p : Port) : List Nat :=
  (List.range 4).filter fun q => (List.range (s.nGrp p)).any fun g => s.grpPhase p g == q

def State.phases (s : State) (p : Port) : Nat := (s.phaseList p).length

/-- The strobe pulses of slice `k` of width `w` from `t` on: the phases one after another, TPH apart; with SKIPEMPTY a
group without a dot is not pulsed (R183). -/
def State.slicePulses (s : State) (p : Port) (counts : List Nat) (k w : Nat) (t : BitVec 64) : List Pulse :=
  (List.range (s.nGrp p)).filterMap fun g =>
    let mine := (counts.take (s.grpStart p (g + 1))).drop (s.grpStart p g)
    if s.actFlag F.HPn_SGCFG_SKIPEMPTY p.val ∧ ¬ mine.any (fun n => decide (k ≤ n)) then none
    else
      let on := t + BitVec.ofNat 64 ((s.phaseList p).idxOf (s.grpPhase p g) * (2 * w + s.act F.HPn_SGCFG_TPH p.val))
      some ⟨g, on, on + BitVec.ofNat 64 (2 * w)⟩

/-- Counts of a slice in which only element `e` is 1 (09 R229). -/
def oneDot (n e : Nat) : List Nat := (List.range n).map fun i => if i = e then 1 else 0

/-- The one strobe pulse of a measurement of element `e`, in the group that holds it (09 R229). -/
def State.elemPulse (s : State) (p : Port) (e pw : Nat) (t : BitVec 64) : List Pulse :=
  ((List.range (s.nGrp p)).filter fun g => decide (s.grpStart p g ≤ e) && decide (e < s.grpStart p (g + 1))).map fun g =>
    ⟨g, t, t + BitVec.ofNat 64 (2 * pw)⟩

/-- F for slice width `w` (R183). -/
def State.tFire (s : State) (p : Port) (w : Nat) : Nat :=
  let q := max 1 (s.phases p)
  q * 2 * w + (q - 1) * s.act F.HPn_SGCFG_TPH p.val

/-- The line time of R181 without deferral. -/
def State.tLine (s : State) (p : Port) (n w : Nat) : Nat :=
  if n = 0 then 0
  else
    let f := s.tFire p w
    let per := s.latw p + max (s.tls p + f + s.tsl p) (s.tShift p + s.tds p)
    s.tShift p + s.tds p + (n - 1) * per + s.latw p + s.tls p + f + s.tsl p

/-- HPn_WFIX.W, at least 10 (R202). -/
def State.wFix (s : State) (p : Port) : Nat := max 10 (s.act F.HPn_WFIX_W p.val)

/-- LINE_T in whole clocks, and in 1/256 clock (R185). -/
def State.per (s : State) (p : Port) : Nat := s.act F.HPn_LINE_T_PER p.val
def State.lineT (s : State) (p : Port) : Nat := (s.rdAct R.HPn_LINE_T p.val).toNat

/-- The period that the governor requests, 0 when none (08 R215, R220). -/
def State.govPeriod (s : State) (p : Port) : Nat :=
  if s.govEn p ∧ s.running Pg.sba ∧ ¬ s.paced p then (s.sbaP p).tGov else 0

/-- T_act in 1/256 clock: the larger of LINE_T and the governor's period (R185). -/
def State.tActFrac (s : State) (p : Port) : Nat := max (s.lineT p) (256 * s.govPeriod p)

/-- T_proj in whole clocks (06 R163, 08 R217). DEDUCED, log entry 21. -/
def State.tProj (s : State) (p : Port) : Nat :=
  if s.paced p then
    match (s.hpP p).trigTimes with
    | t :: l => if l.length ≥ 8 then (t - l.getLastD t).toNat / 8 else s.per p
    | [] => s.per p
  else s.tActFrac p / 256

/-- `d` times T_proj, with the fraction that the active line period has, in whole clocks (06 R163). DEDUCED, log entry
21. -/
def State.projSpan (s : State) (p : Port) (d : Nat) : Nat :=
  if s.paced p then d * s.tProj p else d * s.tActFrac p / 256

/-- The Shutter of a port is closed (R194); `resetting`: cause RESET. -/
def Causes.closed (c : Causes) : Bool := c.fault || c.headOpen || c.stbLong || c.sbaRst || c.host || c.reset
def State.shut (s : State) (p : Port) : Bool := (s.hpP p).causes.closed

/-- The HHE computes for a port (R192). -/
def State.computes (s : State) (p : Port) : Bool := s.running Pg.hhe && s.flag F.HHE_Pp_CFG_EN p.val

/-- HPn_STAT.STATE (R203). -/
def State.hpState (s : State) (p : Port) : Nat :=
  let h := s.hpP p
  if ¬ s.running (Pg.hp p) then 0
  else if s.shut p then 6
  else match h.cur with
    | some c => if c.data.isNone then 3 else 4
    | none =>
      if h.hold.isSome then 5
      else if (s.lines p).isEmpty then 1 else 2

end Sys2Proof.Machine
end

