-- ==== Sys2Proof/Machine/Supply.lean ====
section
/-! DEFINITION. The supply budget arbiter and the speed governor (08 R204 to R217). -/

namespace Sys2Proof.Machine

-- estimates and caps (R204, R205)

/-- R_NOM and QUANT, 0 treated as 1 (06 R174). -/
def State.rNom (s : State) (p : Port) : Nat := max 1 (s.fld F.HHE_Pp_RNOM_RNOM p.val)
def State.quant (s : State) (p : Port) : Nat := max 1 (s.fld F.HHE_Pp_RNOM_QUANT p.val)

/-- I_k in mA for a slice of `n` dots. -/
def State.estimate (s : State) (p : Port) (n : Nat) : Nat :=
  ceilDiv (n * s.fld F.HHE_Pp_VHT_VHMV p.val * (100 + s.act F.SBA_Pp_EST_MARGIN p.val)) (s.rNom p * 100) +
    100 * s.act F.SBA_Pp_EST_IOFS p.val

def State.gcap (s : State) : Nat := 100 * s.fld F.SBA_GCAP_CAP
def State.pcap (s : State) (p : Port) : Nat := 100 * s.fld F.SBA_PCAPp_CAP p.val

-- the calendar (R206, R207)

/-- A reservation still runs or lies ahead. -/
def Resv.live (r : Resv) (now : BitVec 64) : Bool := now.toNat < r.stop.toNat

/-- Current reserved at an instant. -/
def loadAt (cal : List Resv) (t : Nat) : Nat :=
  cal.foldl (fun n r => if r.start.toNat ≤ t ∧ t < r.stop.toNat then n + r.ma else n) 0

/-- The largest reserved current in [a, b): it is reached at `a` or where a reservation starts. -/
def peakIn (cal : List Resv) (a b : Nat) : Nat :=
  (a :: (cal.map fun r => r.start.toNat).filter fun t => a < t && t < b).foldl (fun m t => max m (loadAt cal t)) 0

/-- The smallest d at which the slice fits; `fuel` bounds the search. -/
def placeAt (cal : List Resv) (gcap ma ts step f : Nat) : Nat → Nat → Nat
  | 0, d => d
  | fuel + 1, d =>
    let a := ts + d * step
    if peakIn cal a (a + f) + ma ≤ gcap then d else placeAt cal gcap ma ts step f fuel (d + 1)

/-- Sub-slots that the search may need: past the end of every reservation (R208). -/
def placeFuel (cal : List Resv) (ts step : Nat) : Nat :=
  cal.foldl (fun m r => max m (r.stop.toNat - ts)) 0 / max 1 step + 1

/-- SBA_ISUM: the sum of the running reservations in 0.1 A, and its peak (R219). -/
def State.isumNow (s : State) : Nat := min 0xFFFF (ceilDiv (loadAt s.sba.calendar s.time.toNat) 100)

def State.isumPeak (s : State) : State :=
  if s.isumNow > s.fld F.SBA_ISUM_PEAK then s.setFld F.SBA_ISUM_PEAK s.isumNow else s

/-- s_p, one sub-slot of a slice of width `w` (R206, 07 R182). -/
def subSlot (w : Nat) : Nat := max 1 (ceilDiv w 4)

/-- What SBA answers to a request: the start and d, or a refusal (R206, R209). -/
def State.place (s : State) (p : Port) (dots w f : Nat) (e ta : BitVec 64) : Option (BitVec 64 × Nat × Nat) :=
  let ma := s.estimate p dots
  if ma > s.pcap p ∨ ma > s.gcap then none
  else
    let cal := s.sba.calendar.filter fun r => r.live s.time
    let ts := max e.toNat (ta.toNat + 6)
    let step := subSlot w
    let d := placeAt cal s.gcap ma ts step f (placeFuel cal ts step) 0
    some (BitVec.ofNat 64 (ts + d * step), d, ma)

/-- The reservation enters the calendar; the grant's records (R206, R219, R220). `slice` is its number. -/
def State.reserve (s : State) (p : Port) (start : BitVec 64) (d ma f slice : Nat) : State :=
  let cal := s.sba.calendar.filter fun r => r.live s.time
  let s := { s with sba := { s.sba with
    calendar := cal ++ [Resv.mk p start (start + BitVec.ofNat 64 f) ma]
    lastPort := some p } }
  let s := s.modSba p fun x => { x with lastDefer := d }
  let s := s.wr R.SBA_GRANT (BitVec.ofNat 32
    ((s.page Pg.sba).actTag.toNat * 2 ^ 24 + slice * 2 ^ 16 + p.val * 2 ^ 14 + min d 0x3FFF))
  let s := if d > 0 then s.count R.SBA_Pp_DEFER p.val else s
  let s := if min d 0xFFFF > s.fld F.SBA_Pp_DMAX_SUB p.val then s.setFld F.SBA_Pp_DMAX_SUB (min d 0xFFFF) p.val else s
  s.isumPeak

/-- The reservation of a port ends at once (R207). -/
def State.endResv (s : State) (p : Port) : State :=
  { s with sba := { s.sba with calendar := s.sba.calendar.filter fun r => r.port != p } }

/-- IEST, the estimate of the last request (R220). -/
def State.noteEstimate (s : State) (p : Port) (dots : Nat) : State :=
  s.setFld F.SBA_Pp_IEST_MA (min 0xFFFF (s.estimate p dots)) p.val

-- duty (R211)

def clampField (v lo hi : Nat) : Nat := max lo (min v hi)

def State.we (s : State) (p : Port) : Nat := clampField (s.fld F.SBA_Pp_DUTY_WE p.val) 1 64

/-- g for width `w` and the projected line time `tr`. -/
def dutyG (w tr : Nat) : Nat := min 65535 (2 * w * 65536 / max 1 tr)

def dutyStep1 (we g u n : Nat) : Nat := min 65535 (u - u / we + n * g / 256)

/-- The accumulators after a line with the given slice counts. -/
def dutySteps (we g : Nat) : List Nat → List Nat → List Nat
  | us, [] => us.map fun u => dutyStep1 we g u 0
  | [], n :: ns => dutyStep1 we g 0 n :: dutySteps we g [] ns
  | u :: us, n :: ns => dutyStep1 we g u n :: dutySteps we g us ns

/-- The limit L. -/
def State.dutyLimit (s : State) (p : Port) : Nat := clampField (s.fld F.SBA_Pp_DUTY_DE p.val) 1 100 * s.we p * 256 / 100

/-- The largest c from 0 to 16 that satisfies `f`, 0 if none. -/
def largestUpTo16 (f : Nat → Bool) : Nat := ((List.range 17).reverse.find? f).getD 0

/-- C_i of an element with accumulator `u` (R211). -/
def dutyCeil (we g lim u : Nat) : Nat := largestUpTo16 fun c => u - u / we + c * g / 256 ≤ lim

/-- min(N_q, C_i) for a line, after the lines held before it. -/
def State.dutyClip (s : State) (p : Port) (held : List (List Nat)) (nq : List Nat) : List Nat :=
  let we := s.we p
  let g := dutyG (s.hpP p).lastW (s.tProj p)
  let us := held.foldl (fun us ns => dutySteps we g us ns) (s.sbaP p).duty
  nq.zipIdx.map fun n => min n.1 (dutyCeil we g (s.dutyLimit p) (us.getD n.2 0))

/-- DUTY_STEP at S(n) of a line: `gap` is the time since the start of scan before, `tr` is T_r at S(n).
DEDUCED, log entry 157. -/
def State.dutyStep (s : State) (p : Port) (counts : List Nat) (w : Nat) (gap : Option Nat) (tr : Nat) : State :=
  let old := match gap with
    | some t => if t > s.we p * tr then [] else (s.sbaP p).duty
    | none => (s.sbaP p).duty
  let new := dutySteps (s.we p) (dutyG w tr) old counts
  s.modSba p fun x => { x with duty := new }

-- energy (R212)

def State.wh (s : State) (p : Port) : Nat := clampField (s.fld F.SBA_Pp_ENERGY_WH p.val) 1 1000

/-- Ticks of one bucket, 62.5 µs for each ms of WH. -/
def State.bucketTicks (s : State) (p : Port) : Nat := s.wh p * 6250

def State.ewin (s : State) (p : Port) : Nat := (s.sbaP p).buckets.foldl (· + ·) 0

/-- The budget B, 0 for no limit. -/
def State.budgetB (s : State) (p : Port) : Nat := s.fld F.SBA_Pp_ENERGY_PH p.val * s.wh p * 100000 / s.quant p

/-- ENERGY_BUCKET_ROLL: a new bucket starts and the oldest of 16 is dropped. -/
def State.rollBucket (s : State) (p : Port) : State :=
  if s.working Pg.sba ∧ s.since (s.sbaP p).bucketStart ≥ s.bucketTicks p then
    let s := s.modSba p fun x => { x with buckets := 0 :: x.buckets.take 15
                                          bucketStart := x.bucketStart + BitVec.ofNat 64 (s.bucketTicks p) }
    let s := s.modHp p fun h => { h with cur := h.cur.map fun c => { c with rolled := c.rolled + 1 } }
    s.wr R.SBA_Pp_EWIN (BitVec.ofNat 32 (s.ewin p)) p.val
  else s

/-- A fired line adds its energy to the bucket that holds its S(n): `rolled` buckets have started since. -/
def State.addEnergy (s : State) (p : Port) (rolled q : Nat) : State :=
  let s := s.modSba p fun x =>
    { x with buckets := (x.buckets ++ List.replicate (rolled + 1 - x.buckets.length) 0).zipIdx.map fun (b : Nat × Nat) =>
        if b.2 = rolled ∧ rolled < 16 then b.1 + q else b.1 }
  s.wr R.SBA_Pp_EWIN (BitVec.ofNat 32 (s.ewin p)) p.val

/-- C_H for a line with counts `ns` and slice energy `e`, after lines held with energy `heldE`. -/
def State.energyCeil (s : State) (p : Port) (heldE e : Nat) (ns : List Nat) : Nat :=
  if s.fld F.SBA_Pp_ENERGY_PH p.val = 0 then 16
  else largestUpTo16 fun c => s.ewin p + heldE + e * ns.foldl (fun a n => a + min n c) 0 ≤ s.budgetB p

/-- LINE_CLIPPED: a delivered line, clipped or not (R213, 06 R157). -/
def State.clipLine (s : State) (p : Port) (duty energy : Bool) : State :=
  if duty ∨ energy then
    let s := ((s.count R.HHE_Pp_CLIP p.val).raise Pg.sba p.val).irq Pg.sba 4
    let n := min 16 ((s.sbaP p).consec + 1)
    let burst := n = 16 ∧ (s.sbaP p).burstArmed
    let s := s.modSba p fun x => { x with consec := n, burstArmed := x.burstArmed && n != 16 }
    let s := s.wr R.SBA_Pp_CLIP (BitVec.ofNat 32 (energy.toNat * 512 + duty.toNat * 256 + n)) p.val
    if burst then (s.raise Pg.sba (4 + p.val)).irq Pg.sba 5 else s
  else (s.setFld F.SBA_Pp_CLIP_CONSEC 0 p.val).modSba p fun x => { x with consec := 0 }

-- the governor (R214 to R217)

/-- t_need in clocks, for a next line of `n` slices. DEDUCED, log entry 24. -/
def State.tNeed (s : State) (p : Port) (n : Nat) : Nat :=
  ceilDiv (max (s.tLine p n (s.hpP p).lastW + 100 * s.act F.SBA_GVp_LIM_DALLOW p.val) (s.fld F.HPn_LTIME_T p.val) *
    (256 + s.act F.SBA_GVp_LIM_TMARG p.val)) 256

/-- The short condition of R215 for ready lines `rl` at rate `f`. -/
def State.govShort (s : State) (p : Port) (rl f : Nat) : Bool :=
  let ramp := s.act F.SBA_GVp_RATE_RAMP p.val
  let rlm := s.act F.SBA_GVp_LEAD_RLM p.val
  let nNeed := if ramp = 0 then rlm else ceilDiv (f - s.fmin p) ramp + rlm
  let b := s.budgetB p
  rl < nNeed || s.fld F.HHE_Pp_WIDTH_LEAD p.val < s.act F.SBA_GVp_LEAD_HLMIN p.val ||
    (0 < b && s.ewin p * 100 ≥ s.act F.SBA_GVp_LIM_EHI p.val * b)

/-- The new rate of R215; `busy` is AXBUSY. -/
def State.govRate (s : State) (p : Port) (restart short busy : Bool) (f fMax : Nat) : Nat :=
  let ramp := s.act F.SBA_GVp_RATE_RAMP p.val
  if restart then min (s.fmin p) fMax
  else
    let g := if short then (if ramp = 0 then s.fmin p else max (s.fmin p) (f - ramp))
      else if ¬ busy then (if ramp = 0 then fMax else f + ramp)
      else f
    min g fMax

/-- A governor that is off requests no period and forgets its rate (R215). -/
def State.govOff (s : State) (p : Port) : State :=
  s.modSba p fun x => { x with f := 0, tGov := 0, paused := false, warn := false, restart := true }

/-- A pending set of SBA becomes active: a governor that it turns off is off from then on, and one whose rate is the new
FMIN may pause (R215, R216, R219). DEDUCED, log entry 190. -/
def State.sbaActivate (s : State) : State :=
  if (s.page Pg.sba).pend then
    (s.activate Pg.sba).allPorts fun s p => if s.govEn p then s.govIdle p else s.govOff p
  else s

/-- GOVERNOR_EVALUATE at a start of scan: `rl` ready lines, `n` slices in the next line, `busy` the feed axis's
AXBUSY (R215 to R217). -/
def State.governor (s : State) (p : Port) (rl n : Nat) (busy : Bool) : State :=
  if ¬ s.govEn p ∨ ¬ s.running Pg.sba then s.govOff p
  else if s.paced p then
    let short := s.govShort p rl (s.sbaP p).f
    let warn := short || decide (s.tNeed p n > s.tProj p)
    let s' := s.modSba p fun x => { x with warn := warn, short := short, tGov := 0 }
    if warn ∧ ¬ (s.sbaP p).warn then s'.irq Pg.sba 7 else s'
  else
    let x := s.sbaP p
    let fMax := max 1 (min (100000000 / max 1 (s.per p)) (100000000 / max 1 (s.tNeed p n)))
    let short := s.govShort p rl x.f
    let f := s.govRate p x.restart short busy x.f fMax
    let s' := s.modSba p fun x =>
      { x with f := f, fMax := fMax, short := short, tGov := ceilDiv 100000000 f, restart := false, warn := false }
    let s' := s'.wr R.SBA_GVp_F (BitVec.ofNat 32 (min fMax 0xFFFF * 65536 + min f 0xFFFF)) p.val
    let s' := if f < x.f then s'.count R.SBA_Pp_SLOW p.val else s'
    s'.govIdle p

/-- The governor withholds starts of scan (R216). -/
def State.govPaused (s : State) (p : Port) : Bool := (s.sbaP p).paused && s.govEn p && s.running Pg.sba

/-- The ready lines of a port have grown: PAUSED may end (R216). -/
def State.govGrew (s : State) (p : Port) : State :=
  s.modSba p fun x =>
    { x with grewAt := s.time, paused := x.paused && decide (s.linesLeft p < s.act F.SBA_GVp_LEAD_RESUME p.val) }

/-- GOVERNOR_RESUME_TIMEOUT: lines are ready and have not grown for RTMO µs (R216). -/
def State.govTimeout (s : State) (p : Port) : State :=
  let x := s.sbaP p
  if x.paused ∧ s.linesLeft p > 0 ∧ s.since x.grewAt ≥ s.act F.SBA_GVp_CTL_RTMO p.val * usTicks then
    s.modSba p fun x => { x with paused := false }
  else s

/-- SBA_GVp_STAT.STATE (R221). -/
def State.govState (s : State) (p : Port) : Nat :=
  let x := s.sbaP p
  if ¬ s.govEn p ∨ ¬ s.running Pg.sba ∨ ¬ s.running (Pg.hp p) then 0
  else if s.paced p then (if x.warn then 6 else 5)
  else if x.paused then 4
  else if x.short then 3
  else if x.f = x.fMax then 1 else 2

end Sys2Proof.Machine
end

