-- ==== Sys2Proof/Machine/Heat.lean ====
section
/-! DEFINITION. The Heat History Engine (06 R148 to R172). -/

namespace Sys2Proof.Machine

-- bits of PG_IRQ_STAT of the HHE page: 4 MISS, 5 PUBREJ, 6 VH, 7 CFGREJ (R173)

-- samples (R154, R158, R159)

/-- The latest settled code of a channel, if it is younger than AGE. -/
def State.sample (s : State) (p : Port) (ch : Nat) : Option Int :=
  match s.adc.lastValid.toList.getD ch none with
  | some x => if s.since x.time < max 1 (s.fld F.HHE_Pp_SRC_AGE p.val) * 10000 then some x.code else none
  | none => none

/-- vh_mv of a code (R158). -/
def State.vhOf (s : State) (p : Port) (x : Int) : Int := x * (s.fld F.HHE_Pp_VHFS_VHFS p.val : Nat) / 8388608

def State.vhNow (s : State) (p : Port) : Option Int := (s.sample p (s.fld F.HHE_Pp_SRC_VHCH p.val)).map (s.vhOf p)

def State.tlin (s : State) (j : Nat) : Int := sgn 16 (s.fld F.HHE_TLINj_T j)

/-- T_sub of a code, through the table (R154). -/
def State.tsubOf (s : State) (x : Int) : Int :=
  let u := (sat (x / 256) 0 32767).toNat
  let g := u / 2048
  s.tlin g + roundDiv ((s.tlin (g + 1) - s.tlin g) * (u % 2048 : Nat)) 2048

def State.tsubNow (s : State) (p : Port) : Option Int := (s.sample p (s.fld F.HHE_Pp_SRC_TCH p.val)).map s.tsubOf

/-- What the check of a port's samples finds (R159). -/
inductive VhCheck
  | good (vh tsub : Int)
  | stale
  | high
  | low (vh tsub : Int)
  deriving DecidableEq, Repr

/-- The check of the samples that a line uses (R159). DESIGN CHOICE, log entry 173. -/
def State.vhLook (s : State) (p : Port) : VhCheck :=
  match s.vhNow p, s.tsubNow p with
  | some vh, some t =>
    if vh > s.fld F.HHE_Pp_VHLIM_MAX p.val then .high
    else if vh < s.fld F.HHE_Pp_VHLIM_MIN p.val then .low vh t
    else .good vh t
  | _, _ => .stale

/-- A port stops, with its fault source (R159). It leaves STOPPED only through EN or a reset. -/
def State.hheStop (s : State) (p : Port) (source : Nat) : State :=
  if (s.hheP p).mode = .stopped then s
  else (((s.modHhe p fun x => { x with mode := .stopped }).ehmTouch p).raise Pg.hhe source).irq Pg.hhe 6

/-- VHSTALE and TSTALE of a check that found a sample stale, and the stop (R159). -/
def State.hheStale (s : State) (p : Port) : State :=
  ((s.setBit F.HHE_Pp_STAT_VHSTALE (s.vhNow p).isNone p.val).setBit F.HHE_Pp_STAT_TSTALE (s.tsubNow p).isNone p.val).hheStop p
    (4 + p.val)

/-- VH lies below MIN: HOLD_VH, whose fault is raised once (R159). -/
def State.vhHold (s : State) (p : Port) : State :=
  if (s.hheP p).mode = .holdVh ∨ (s.hheP p).mode = .stopped then s
  else (((s.modHhe p fun x => { x with mode := .holdVh }).ehmTouch p).raise Pg.hhe (12 + p.val)).irq Pg.hhe 6

/-- The samples that a check used (R174). -/
def State.noteVht (s : State) (p : Port) (vh t : Int) : State :=
  s.wr R.HHE_Pp_VHT (BitVec.ofNat 32 (lowBits 16 t * 65536 + lowBits 16 vh)) p.val

/-- The outcome for the port (R159). -/
def State.vhApply (s : State) (p : Port) (c : VhCheck) : State :=
  match c with
  | .good vh t => s.noteVht p vh t
  | .stale => s.hheStale p
  | .high => s.hheStop p (8 + p.val)
  | .low vh _ => (s.setFld F.HHE_Pp_VHT_VHMV (lowBits 16 vh) p.val).vhHold p

/-- The check of the VH sample that a line takes at its start of scan (R158, R159). DEDUCED, log entry 139. -/
def State.vhEdge (s : State) (p : Port) : State :=
  match s.vhNow p with
  | none => (s.setBit F.HHE_Pp_STAT_VHSTALE true p.val).hheStop p (4 + p.val)
  | some vh =>
    if vh > s.fld F.HHE_Pp_VHLIM_MAX p.val then s.hheStop p (8 + p.val)
    else
      let s := s.setFld F.HHE_Pp_VHT_VHMV (lowBits 16 vh) p.val
      if vh < s.fld F.HHE_Pp_VHLIM_MIN p.val then s.vhHold p else s

/-- A new VH sample at or above MIN ends HOLD_VH: the line that waits, else the next one, is computed on demand
(R159). A line that waits takes this sample. DEDUCED, log entry 139. DESIGN CHOICE, log entry 198. -/
def State.vhBack (s : State) (p : Port) : State :=
  match (s.hheP p).mode, s.vhNow p with
  | .holdVh, some vh =>
    if vh < s.fld F.HHE_Pp_VHLIM_MIN p.val then s
    else if vh > s.fld F.HHE_Pp_VHLIM_MAX p.val then s.hheStop p (8 + p.val)
    else
      let waits := s.hp[p].cur.any fun c => c.data.isNone
      let s := s.modHp p fun h =>
        { h with cur := h.cur.map fun c => if c.data.isNone then { c with vh := some vh } else c }
      let s := if waits then s.setFld F.HHE_Pp_VHT_VHMV (lowBits 16 vh) p.val else s
      (s.modHhe p fun x =>
        { x with mode := if (s.lines p).isEmpty then .idle else .running, demand := x.demand || !waits }).ehmTouch p
  | _, _ => s

-- projections (R163)

/-- Number of line `i` among the unstarted ones, counted from the line started last. DEDUCED, log entry 22. -/
def HhePort.lineNo (x : HhePort) (i : Nat) : Nat := i + 1 + x.gap0 + (if i = 0 then 0 else x.gap1)

/-- P of the i-th committed unstarted line. -/
def State.projOf (s : State) (p : Port) (i : Nat) : Option (BitVec 64) :=
  (s.hheP p).lastStart.map fun t => t + BitVec.ofNat 64 (s.projSpan p ((s.hheP p).lineNo i))

/-- Position of a line among the unstarted ones. -/
def State.lineIx (s : State) (p : Port) (uid k : Nat) : Option Nat :=
  (s.lines p).findIdx? fun l => l.uid == uid && l.k == k

/-- The start of scan that a history line counts from (R150). -/
def State.histStart (s : State) (p : Port) (r : RingLine) : BitVec 64 :=
  if r.fired then r.start
  else match s.lineIx p r.uid r.k with
    | some i => (s.projOf p i).getD r.start
    | none => r.start

-- the arithmetic (R149 to R157)

/-- The decay index of an elapsed time in ticks (R152). -/
def decayIx (unit dt : Nat) : Nat :=
  let v := dt / (100 * max 1 unit)
  if v < 4 then v
  else
    let ex := Nat.log2 v
    min 31 (4 * (ex - 1) + (v / 2 ^ (ex - 2) - 4))

/-- D[j] of a port. -/
def State.decay (s : State) (p : Port) (j : Nat) : Nat := wbits (s.rd R.HHE_Pp_Dw p.val (j / 4)) (8 * (j % 4)) 8

def signed8 (w : Word) (k : Nat) : Int := sgn 8 (wbits w (8 * k) 8)

def Profile.eBlack (x : Profile) : Nat := wbits x.e 0 8
def Profile.eRed (x : Profile) : Nat := wbits x.e 8 8
def Profile.eSlice (x : Profile) : Nat := wbits x.e 16 8
def Profile.valid (x : Profile) : Bool := x.ctl.getLsbD 31

/-- E_t of a dot code (R149). -/
def Profile.target (x : Profile) (code : Nat) : Nat := if code = 1 then x.eBlack else if code = 2 then x.eRed else 0

/-- e_i(m) of a history line, for N_el elements (R150). -/
def LineData.energies (d : LineData) (n : Nat) : List Nat :=
  (List.range n).map fun i => min 255 (d.counts.getD i 0 * d.eSlice)

/-- Sum of both neighbours of each element; a missing one counts 0 (R153). -/
def nbrSums (l : List Nat) : List Nat :=
  ((0 :: l).zip (l.tail ++ [0])).map fun e => e.1 + e.2

/-- H_acc of every element (R155); `hist`: the products a_k × D with their energies, the latest first; `near`: Δt_1
lies in a bin below 31. -/
def hAcc (x : Profile) (hist : List (Int × List Nat)) (near : Bool) (targets : List Nat) (dts : Int) : List Int :=
  let sub := 16 * signed8 x.n 2 * dts
  let own := hist.foldl (fun acc h => (acc.zip h.2).map fun a => a.1 + h.1 * (a.2 : Int)) (targets.map fun _ => sub)
  let withN := match near, hist with
    | true, h :: _ => (own.zip (nbrSums h.2)).map fun (a : Int × Nat) => a.1 + 256 * signed8 x.n 0 * (a.2 : Int)
    | _, _ => own
  (withN.zip (nbrSums targets)).map fun (a : Int × Nat) => a.1 + 256 * signed8 x.n 1 * (a.2 : Int)

/-- N_q of one element (R156). -/
def sliceCount (e : Nat) (target : Nat) (h : Int) (r : Nat) (o : Int) : Nat :=
  if e = 0 then 0
  else
    let x := max 0 ((target : Int) * 32768 - h)
    (sat (roundDiv (x * ((205 + r : Nat) : Int) * (200 + o)) (e * 51200 * 32768)) 0 16).toNat

/-- Counts of a line without ceilings: `prev` are its history lines, the latest first (R149 to R156). -/
def State.lineCounts (s : State) (p : Port) (x : Profile) (l : Line) (at_ : BitVec 64) (prev : List RingLine)
    (tsub : Int) : List Nat :=
  let n := s.nEl p
  let unit := s.fld F.HHE_Pp_DCFG_UNIT p.val
  let ix := (prev.take 4).map fun r => decayIx unit (at_ - s.histStart p r).toNat
  let hist := ((prev.take 4).zip ix).zipIdx.map fun h =>
    (signed8 x.a h.2 * (s.decay p h.1.2 : Int), h.1.1.data.energies n)
  let dots := (List.range n).map (s.dot l.band l.row.val)
  let targets := dots.map x.target
  let dts := sat (tsub - sgn 16 (wbits x.ctl 0 16)) (-4096) 4095
  let h := hAcc x hist (ix.headD 31 < 31) targets dts
  ((dots.zip targets).zip h).zipIdx.map fun e =>
    let code := e.1.1.1
    if code = 0 ∨ code = 3 ∨ s.elemFlag p e.2 elDead then 0
    else sliceCount x.eSlice e.1.1.2 e.1.2 (s.elemR p e.2) (s.elemO p e.2)

/-- n_k: elements that fire slice `k` (R148). -/
def LineData.dots (d : LineData) (k : Nat) : Nat := (d.counts.filter fun n => k ≤ n).length

-- width (R158)

/-- W and whether a limit changed it. -/
def State.deriveW (s : State) (p : Port) (e : Nat) (vh : Int) : Nat × Bool :=
  let wmax := max 10 (s.fld F.HHE_Pp_WLIM_WMAX p.val)
  if vh = 0 then (min 65535 wmax, true)
  else
    let w := roundDiv ((e * s.quant p * s.rNom p * 1000000 : Nat) : Int) (vh * vh * 20).toNat
    let w' := min (sat w 10 65535).toNat wmax
    (w', (w' : Int) ≠ w)

-- computing a line (R164, R165)

/-- A line with the ceilings of 08 R211 and R212; `held`: the lines held before it. -/
def State.clipData (s : State) (p : Port) (e : Nat) (nq : List Nat) (held : List LineData) : LineData :=
  let n1 := s.dutyClip p (held.map (·.counts)) nq
  let heldE := held.foldl (fun a d => a + d.eSlice * d.counts.foldl (· + ·) 0) 0
  let ch := s.energyCeil p heldE e n1
  let n2 := n1.map (min ch)
  { counts := n2, nLine := n2.foldl max 0, eSlice := e, duty := n1 != nq, energy := n2 != n1 }

/-- The ring with the record of a line put in or replaced; six records (R150). -/
def putRing (ring : List RingLine) (r : RingLine) : List RingLine :=
  if ring.any fun x => x.uid == r.uid && x.k == r.k then
    ring.map fun x => if x.uid == r.uid && x.k == r.k then r else x
  else
    let l := ring ++ [r]
    l.drop (l.length - 6)

/-- HHE_LOAD over the last 1.024 ms (R165, R173). -/
def State.hheLoad (s : State) : Nat :=
  min 0xFFFF (s.hheLog.foldl (fun n x => if s.since x.1 < 102400 then n + x.2 else n) 0 * 65536 / 409600)

def State.logCompute (s : State) (p : Port) : State :=
  let s := { s with hheLog := (s.time, (s.nEl p + 3) / 4 + 32) :: s.hheLog.filter fun x => s.since x.1 < 102400 }
  if s.hheLoad > s.fld F.HHE_LOAD_PEAK then s.setFld F.HHE_LOAD_PEAK s.hheLoad else s

/-- Compute line `l` for a start of scan `at_` and put its record in the ring. -/
def State.computeLine (s : State) (p : Port) (l : Line) (at_ : BitVec 64) (fired : Bool) (tsub : Int) : State × LineData :=
  let x := (s.hheP p).profiles.toList.getD l.profile {}
  let ring := (s.hheP p).ring
  let before := ring.takeWhile fun r => !(r.uid == l.uid && r.k == l.k)
  let nq := s.lineCounts p x l at_ before.reverse tsub
  let d := s.clipData p x.eSlice nq ((before.filter fun r => !r.fired).map (·.data))
  let again := before.length < ring.length
  let s := if again then s.count R.HHE_Pp_RECOMP p.val else s
  let s := (s.capture p l).logCompute p
  (s.modHhe p fun h => { h with ring := putRing h.ring { uid := l.uid, k := l.k, fired := fired, start := at_, data := d } }, d)

/-- A line is delivered in its final form: counters, clipping and the port's most recent N_line (R148, 08 R213).
DEDUCED, log entry 20. -/
def State.delivered (s : State) (p : Port) (d : LineData) : State :=
  (((s.wrapStep R.HHE_Pp_LINES p.val).setFld F.HHE_Pp_STAT_NLINE d.nLine p.val).clipLine p d.duty d.energy).modHp p
    fun h => { h with lastN := d.nLine }

/-- The head port gets the data of its line (R158, 07 R181): its width is set, the element histories step and the
shift of slice 1 starts now. -/
def State.startShift (s : State) (p : Port) (d : LineData) : State :=
  match (s.hpP p).cur with
  | none => s
  | some c =>
    let comp := s.flag F.HHE_Pp_CFG_VHCOMP p.val
    let (w, lim) := if comp then s.deriveW p d.eSlice (c.vh.getD 0) else (s.wFix p, false)
    let s := if comp then (s.setFld F.HHE_Pp_WIDTH_W w p.val).setFld F.HHE_Pp_VHT_VHMV (lowBits 16 (c.vh.getD 0)) p.val else s
    let s := if lim then s.setBit F.HHE_Pp_STAT_WSAT true p.val else s
    let s := (s.dutyStep p d.counts w c.gap c.tr).addEnergy p c.rolled (d.eSlice * d.counts.foldl (· + ·) 0)
    let s := s.pulseLine p d.counts
    let first : Option (List (List Bool)) := if d.nLine = 0 then none else some (s.sliceBits p d.counts 1)
    s.modHp p fun h =>
      { h with
        lastW := w
        shiftAt := first.map fun _ => s.time, shiftBits := first.getD []
        cur := some { c with
          data := some d, w := w, slice := if d.nLine = 0 then 0 else 1
          st := if d.nLine = 0 then .ending c.start else .shifting
          nextLatch := s.time + BitVec.ofNat 64 (s.tShift p + s.tds p) } }

/-- The port whose line in progress waits for data (R167). -/
def State.onDemand (s : State) (p : Port) : Option CurLine :=
  if s.computes p ∧ ((s.hheP p).mode = .running ∨ (s.hheP p).mode = .idle) then
    match (s.hpP p).cur with
    | some c => if c.data.isNone then some c else none
    | none => none
  else none

/-- The line of a port that is eligible, or stale and to be recomputed, with its deadline (R164, R168, R169). -/
def State.eligible (s : State) (p : Port) : Option (Line × BitVec 64) :=
  let h := s.hheP p
  if ¬ s.computes p ∨ h.mode ≠ .running ∨ h.demand then none
  else
    let held := (h.ring.filter fun r => !r.fired).length
    (s.lines p).zipIdx.findSome? fun l =>
      match h.ring.find? fun r => r.uid == l.1.uid && r.k == l.1.k with
      | some r => if r.stale then (s.projOf p l.2).map fun t => (l.1, t) else none
      | none =>
        match s.projOf p l.2 with
        | some t =>
          if held < 2 ∧ l.2 ≤ held ∧ t.toNat ≤ s.time.toNat + s.projSpan p 2 then some (l.1, t) else none
        | none => none

/-- The eligible line with the earliest deadline, the lowest port first (R165). -/
def State.nextLine (s : State) : Option (Port × Line × BitVec 64) :=
  (List.finRange 4).foldl (fun best p =>
    match s.eligible p, best with
    | some (l, t), some (_, _, t') => if t.toNat < t'.toNat then some (p, l, t) else best
    | some (l, t), none => some (p, l, t)
    | none, _ => best) none

/-- Lead of a computed line (R174). DESIGN CHOICE, log entry 197. -/
def State.setLead (s : State) (p : Port) (deadline : Option (BitVec 64)) : State :=
  s.setFld F.HHE_Pp_WIDTH_LEAD (match deadline with
    | some t => min 0xFFFF ((t.toNat - s.time.toNat) / 100)
    | none => 0) p.val

/-- LINE_COMPUTE: on-demand lines first, in ascending port number, then the eligible line with the earliest deadline
(R165). DESIGN CHOICE, log entry 23. -/
def State.lineCompute (s : State) : State :=
  match (List.finRange 4).find? fun p => (s.onDemand p).isSome with
  | some p =>
    match s.onDemand p with
    | none => s
    | some c => match s.tsubNow p with
      | none => (s.setBit F.HHE_Pp_STAT_TSTALE true p.val).hheStop p (4 + p.val)
      | some t =>
        let (s, d) := (s.setFld F.HHE_Pp_VHT_TSUB (lowBits 16 t) p.val).computeLine p c.line c.start true t
        (((s.setLead p none).delivered p d).startShift p d).winCheck p
  | none =>
    match s.nextLine with
    | none => s
    | some (p, l, t) =>
      let chk := s.vhLook p
      let s := s.vhApply p chk
      match chk with
      | .good _ ts => ((s.computeLine p l t false ts).1).setLead p (some t)
      | _ => s

/-- SOURCE_STALE: a line is wanted and a sample that its computation takes is too old (R159). -/
def State.sourceStale (s : State) (p : Port) : State :=
  if (s.onDemand p).isSome then
    (if (s.tsubNow p).isNone then (s.setBit F.HHE_Pp_STAT_TSTALE true p.val).hheStop p (4 + p.val) else s)
  else if (s.eligible p).isSome ∧ s.vhLook p = .stale then s.vhApply p .stale else s

/-- HHE_PAUSE: no start of scan by P(n) + RCTOL (R167). -/
def State.hhePause (s : State) (p : Port) : State :=
  let h := s.hheP p
  if ¬ s.computes p ∨ h.mode ≠ .running then s
  else match h.ring.find? fun r => !r.fired with
    | none => s
    | some r =>
      let proj := ((s.lineIx p r.uid r.k).bind (s.projOf p)).getD r.start
      if s.time.toNat ≥ proj.toNat + s.fld F.HHE_Pp_DCFG_RCTOL p.val * usTicks then
        s.modHhe p fun x => { x with mode := .paused
                                     ring := x.ring.map fun (y : RingLine) => { y with stale := y.stale || !y.fired } }
      else s

/-- |a − b| of two instants. -/
def apart (a b : BitVec 64) : Nat := max (a.toNat - b.toNat) (b.toNat - a.toNat)

/-- The HHE's part in a start of scan S(n) = now of line `l`, already the port's line in progress (R151, R158, R159,
R166 to R168): a line that is ready is delivered, any other is computed on demand. DEDUCED, log entry 18. -/
def State.hheStart (s : State) (p : Port) (l : Line) : State :=
  let s := s.vhEdge p
  let h := s.hheP p
  let tol := s.fld F.HHE_Pp_DCFG_RCTOL p.val * usTicks
  let rec? := h.ring.find? fun r => r.uid == l.uid && r.k == l.k
  let running : Bool := h.mode == .running && !h.demand
  let ready : Bool := match rec? with
    | some r => running && !r.stale && apart s.time r.start ≤ tol
    | none => false
  let miss : Bool := running && (match rec? with
    | some r => r.stale
    | none => true)
  let s := if miss then ((s.count R.HHE_Pp_MISS p.val).raise Pg.hhe p.val).irq Pg.hhe 4 else s
  let s := s.modHhe p fun x =>
    { x with
      ring := x.ring.map fun (r : RingLine) =>
        if r.uid = l.uid ∧ r.k = l.k then { r with fired := true, start := s.time, stale := !ready } else r
      lastStart := some s.time, gap0 := x.gap1, gap1 := 0, demand := false
      mode := if x.mode = .stopped ∨ x.mode = .holdVh then x.mode
        else if (s.lines p).isEmpty then .idle else .running }
  if ready then
    match rec? with
    | some r => (s.delivered p r.data).startShift p r.data
    | none => s
  else s

/-- The lines held now are projected again from S(n), with the period that the start of scan has set (R168).
DEDUCED, log entry 19. -/
def State.hheProject (s : State) (p : Port) : State :=
  let tol := s.fld F.HHE_Pp_DCFG_RCTOL p.val * usTicks
  s.modHhe p fun x =>
    { x with ring := x.ring.map fun (r : RingLine) =>
        if r.fired then r
        else match (s.lineIx p r.uid r.k).bind (s.projOf p) with
          | some t => { r with stale := r.stale || decide (apart t r.start > tol) }
          | none => r }

/-- A HELD line that leaves the ring, and the ones after it (R151, R169). -/
def State.hheDrop (s : State) (p : Port) (l : Line) : State :=
  s.modHhe p fun x =>
    let here (r : RingLine) : Bool := r.uid == l.uid && r.k == l.k && !r.fired
    if x.ring.any here then
      { x with ring := (x.ring.takeWhile fun r => !here r) ++
          ((x.ring.dropWhile fun r => !here r).drop 1).map fun (r : RingLine) => { r with stale := true } }
    else x

-- profiles (R160, R161)

/-- PROFILE_PUBLISH: a write of PRj_CTL. The staged words are the register store's. -/
def State.profilePublish (s : State) (p : Port) (j : Fin 16) (ctl : Word) : State :=
  let s := s.wr R.HHE_Pp_PRj_CTL (ctl &&& 0x8000FFFF) p.val j.val
  let x : Profile := { e := s.rd R.HHE_Pp_PRj_E p.val j.val, a := s.rd R.HHE_Pp_PRj_A p.val j.val,
                       n := s.rd R.HHE_Pp_PRj_N p.val j.val, ctl := s.rd R.HHE_Pp_PRj_CTL p.val j.val }
  if x.valid ∧ x.eSlice = 0 then
    (s.wr R.HHE_STAT (s.rd R.HHE_STAT ||| BitVec.ofNat 32 (16 * 2 ^ p.val))).irq Pg.hhe 5
  else s.modHhe p fun h => { h with profiles := h.profiles.set j x }

-- enabling and stopping a port (R170)

/-- HHE_PORT_ENABLE: EN goes 0 to 1. DESIGN CHOICE, log entry 154. -/
def State.hhePortEnable (s : State) (p : Port) : State :=
  let s := (s.setBit F.HHE_Pp_CFG_EN true p.val).modHhe p fun x =>
    { x with mode := .idle, ring := [], lastStart := none, gap0 := 0, gap1 := 0, demand := false }
  let s := (s.setBit F.HHE_Pp_STAT_VHSTALE false p.val).setBit F.HHE_Pp_STAT_TSTALE false p.val
  (s.modSba p fun x => { x with duty := [] }).ehmTouch p

/-- The PRINTs with committed lines not yet fired on a port complete `st` (R170, 02 R39, 07 R196). -/
def State.printsOut (s : State) (p : Port) (st : Byte) : State :=
  (s.portQueues p).foldl (fun s q => s.finishAll q st fun c => c.e.opc == 0x15 && c.committed) s

/-- A pending trigger is discarded (07 R191). -/
def State.dropTrig (s : State) (p : Port) : State :=
  if (s.hpP p).pendTrig then ((s.modHp p fun h => { h with pendTrig := false }).count R.HPn_STARVE p.val).irq (Pg.hp p) 7
  else s

-- measurement slots (09 R229, R232, R234, R235)

/-- EHM is measuring the port. -/
def State.measuring (s : State) (p : Port) : Bool := (s.ehmP p).slot.isSome

/-- What a line or a slot was shifting, latching and firing goes no further (R181, R194). -/
def State.padsQuiet (s : State) (p : Port) : State :=
  s.modHp p fun h => { h with latAt := none, shiftAt := none, shiftBits := [], pulses := [] }

/-- A slot is discarded at once (09 R232, R234, R235); `counter` counts it. DEDUCED, log entry 159. -/
def State.dropSlot (s : State) (p : Port) (counter : Reg) : State :=
  match (s.ehmP p).slot with
  | none => s
  | some x =>
    let s := if x.grant.isSome then s.endResv p else s
    let s := s.padsQuiet p
    let s := s.wr R.EHM_Pp_LAST (BitVec.ofNat 32 (5 * 2 ^ 29 + x.elem * 65536)) p.val
    let s := s.modEhm p fun e =>
      { e with slot := none, next := some (x.elem, x.kind, x.fromCur), chunk := 0, settled := false, availFrom := s.time }
    match (s.ehmP p).curWrite with
    | some v =>
      ((s.setFld F.EHM_Pp_CUR_CURSOR v p.val).modEhm p fun e =>
        { e with curWrite := none, next := some (x.elem, x.kind, false) }).count counter p.val
    | none => s.count counter p.val

/-- A head port enters HOLD; its PRINTs will complete `st`, its next line is computed on demand (07 R193, R196)
and a measurement slot is discarded (09 R228). DEDUCED, log entry 25. -/
def State.enterHold (s : State) (p : Port) (st : Byte) : State :=
  if (s.hpP p).hold.isSome then s
  else
    let s := ((s.modHp p fun h => { h with hold := some st }).modHhe p fun x => { x with demand := true }).dropTrig p
    let s := s.dropSlot p R.EHM_Pp_DISC
    (((s.modSba p fun x => { x with restart := true }).ehmTouch p).printsOut p st).irq (Pg.hp p) 9

/-- Paper-out stops the port between lines (R193); a port that is not in RUN is not in HOLD, and PRINTs still in
flight on it complete MEDIA_OUT all the same (03 R70). DEDUCED, log entry 26. -/
def State.paperStop (s : State) (p : Port) : State :=
  let s := s.modHp p fun h => { h with paperOut := false }
  if s.running (Pg.hp p) then s.enterHold p St.mediaOut else s.printsOut p St.mediaOut

/-- The port no longer has a line in progress: the line has fired, and its band with it (05 R132); what paper-out has
stopped is held from here on (R193). -/
def State.clearCur (s : State) (p : Port) : State :=
  let s := match s.bandInUse p with
    | some b => s.bandLineGone b
    | none => s
  let s := ((s.endResv p).padsQuiet p).modHp p fun h => { h with cur := none, lastEnd := s.time }
  let s := if (s.lines p).isEmpty then s.modSba p fun x => { x with restart := true } else s
  let s := (s.ehmTouch p).winCheck p
  if (s.hpP p).paperOut then s.paperStop p else s

/-- A line that is cut before its data came counts with the slice counts that were computed for it (R151, 09 R227). -/
def State.pulseCut (s : State) (p : Port) (c : CurLine) : State :=
  match c.data, (s.hheP p).ring.find? fun r => r.uid == c.line.uid && r.k == c.line.k with
  | none, some r => s.pulseLine p r.data.counts
  | _, _ => s

/-- The line in progress is cut short; it counts as fired (R184, R196). -/
def State.abandonLine (s : State) (p : Port) : State :=
  match (s.hpP p).cur with
  | some c => (s.pulseCut p c).clearCur p
  | none => s

/-- The HHE stops computing for a port: HELD lines and a measurement slot (09 R235) are discarded, and the head port
ends as R170 states. A line that waits for data ends at once. -/
def State.hheGone (s : State) (p : Port) : State :=
  let s := (s.modHhe p fun x => { x with ring := x.ring.filter (·.fired), demand := true }).ehmTouch p
  let s := s.dropSlot p R.EHM_Pp_DISC
  let busy := (s.hpP p).cur.isSome
  let s := if (s.hpP p).cur.any fun c => c.data.isNone then s.abandonLine p else s
  if ¬ s.working (Pg.hp p) then s
  else if busy ∨ ¬ (s.lines p).isEmpty then s.enterHold p St.aborted else s

/-- HHE_PORT_DISABLE: EN is written 0. -/
def State.hhePortDisable (s : State) (p : Port) : State :=
  if s.flag F.HHE_Pp_CFG_EN p.val then
    ((s.setBit F.HHE_Pp_CFG_EN false p.val).hheGone p).modHhe p fun x => { x with mode := .off }
  else s

/-- HHE_Pp_STAT.STATE (R174). -/
def State.hheState (s : State) (p : Port) : Nat :=
  if ¬ s.flag F.HHE_Pp_CFG_EN p.val then 0
  else match (s.hheP p).mode with
    | .off => 0
    | .idle => 1
    | .running => 2
    | .paused => 3
    | .holdVh => 4
    | .stopped => 5

end Sys2Proof.Machine
end

