-- ==== Sys2Proof/Machine/Motion.lean ====
section
/-! DEFINITION. Motion axes (10 R243 to R265): profiles, stops, commands and owners, line advances, encoder
supervision, gearing and the cutter. -/

namespace Sys2Proof.Machine

-- bits of PG_IRQ_STAT of an AX page: 4 DONE, 5 STALL, 6 YANK, 7 LAG, 8 CUTJAM, 9 ERR (R270)

def State.axS (s : State) (a : AxNum) : AxSt := s.ax[a]
def State.modAx (s : State) (a : AxNum) (f : AxSt → AxSt) : State := { s with ax := s.ax.set a (f s.ax[a]) }

/-- P (R244). -/
def State.axPos (s : State) (a : AxNum) : Word := s.rd R.AXn_POS a.val
def State.setPos (s : State) (a : AxNum) (v : Word) : State := s.wr R.AXn_POS v a.val

/-- b − a as a signed 32-bit number. -/
def sdiff (b a : Word) : Int := (b - a).toInt

-- speeds in steps/s of the active set (R246)
def State.vStart (s : State) (a : AxNum) : Nat := s.act F.AXn_VSTART_V a.val
def State.vBrk (s : State) (a : AxNum) : Nat := s.act F.AXn_VBRK_V a.val
def State.vMax (s : State) (a : AxNum) : Nat := s.act F.AXn_VMAX_V a.val
def State.vStop (s : State) (a : AxNum) : Nat := s.act F.AXn_VSTOP_V a.val
def State.searchV (s : State) (a : AxNum) : Nat := s.act F.AXn_SEARCH_SEARCHV a.val
def State.lpitch (s : State) (a : AxNum) : Nat := (s.rdAct R.AXn_LPITCH a.val).toNat

def mega : Nat := 1000000
def stepUnit : Nat := 100000000000000

/-- At standstill with nothing going on (R254). -/
def State.axIdle (s : State) (a : AxNum) : Bool :=
  let x := s.axS a
  x.act == .idle && x.stop.isNone && x.v == 0 && x.job.isNone && x.next.isNone

/-- dot lines to steps (R255). -/
def State.lineSteps (s : State) (a : AxNum) (n : Int) : Int := roundDiv (n * (s.lpitch a : Int)) 65536

/-- The home input (R265). -/
def State.atHome (s : State) (a : AxNum) : Bool :=
  (bitsN (s.fld F.MED_GPI_LEVEL) (s.fld F.AXn_HOME_IN a.val) 1 == 1) != s.flag F.AXn_HOME_POL a.val

-- starting (R247, R253)

/-- Ticks of TDIR, 0 acts as 1 (R243). -/
def State.tDir (s : State) (a : AxNum) : Nat := max 1 (s.fld F.AXn_CFG_TDIR a.val) * usTicks

/-- The axis starts from standstill: the full current at once, the first tick after max(TDIR, wake). -/
def State.axStart (s : State) (a : AxNum) (act : AxAct) (neg : Bool) : State :=
  let x := s.axS a
  let delay := if x.ired then max (s.tDir a) (s.fld F.AXn_ISTBY_TWAKE a.val * usTicks) else s.tDir a
  s.modAx a fun y =>
    { y with act := act, stop := none, nextVel := false, v := 0, acc := 0, accAt := s.time, neg := neg, decel := false, ramp := none,
             startAt := some (s.time + BitVec.ofNat 64 delay), waking := x.ired, ired := false,
             dirAt := if x.neg = neg then y.dirAt else s.time }

/-- A position move from standstill. -/
def State.axMoveTo (s : State) (a : AxNum) (target : Word) : State :=
  (s.axStart a .move (decide (sdiff target (s.axPos a) < 0))).modAx a fun y => { y with target := target }

-- stopping distance (R248)

/-- ceil(s_stop(v)). -/
def State.stopDist (s : State) (a : AxNum) (v : Nat) : Nat :=
  let b := s.vBrk a
  let st := s.vStop a
  let d1 := max 1 (s.act F.AXn_DEC1_A a.val)
  let d2 := max 1 (s.act F.AXn_DEC2_A a.val)
  if v > b then ceilDiv ((v * v - b * b) * d1 + (b * b - st * st) * d2) (2 * d1 * d2)
  else if v > st then ceilDiv (v * v - st * st) (2 * d1)
  else 0

/-- Whole steps per second of the present speed. -/
def AxSt.speed (x : AxSt) : Nat := x.v / mega

-- one tick (R247 to R251, R257)

/-- The rate of a ramp segment in the active set. Segments: 0 ACC1, 1 ACC2, 2 DEC2, 3 DEC1. -/
def State.rateNow (s : State) (a : AxNum) (seg : Nat) : Nat :=
  match seg with
  | 0 => s.act F.AXn_ACC1_A a.val
  | 1 => s.act F.AXn_ACC2_A a.val
  | 2 => s.act F.AXn_DEC2_A a.val
  | _ => s.act F.AXn_DEC1_A a.val

/-- The rate of a ramp segment: the one it began with (R249). -/
def State.segRate (s : State) (a : AxNum) (seg : Nat) : Nat :=
  match (s.axS a).ramp with
  | some (k, r) => if k = seg then r else s.rateNow a seg
  | none => s.rateNow a seg

/-- V after one tick of acceleration toward `top` steps/s, with its segment and rate. -/
def State.accel (s : State) (a : AxNum) (v top : Nat) : Nat × Nat × Nat :=
  let b := s.vBrk a * mega
  if v < b then
    let r := s.segRate a 0
    (min (min (v + r) b) (top * mega), 0, r)
  else
    let r := s.segRate a 1
    (min (v + r) (top * mega), 1, r)

/-- V after one tick of deceleration, not below `floor` steps/s. -/
def State.decelTick (s : State) (a : AxNum) (v low : Nat) : Nat × Nat × Nat :=
  let b := s.vBrk a * mega
  if v ≤ low * mega then (v, 3, s.segRate a 3)
  else if v > b then
    let r := s.segRate a 2
    (max (max (v - r) b) (low * mega), 2, r)
  else
    let r := s.segRate a 3
    (max (v - r) (low * mega), 3, r)

/-- The accumulator advanced to now (R245). -/
def AxSt.accNow (x : AxSt) (now : BitVec 64) : Nat := x.acc + x.v * (now - x.accAt).toNat

/-- Set V with its segment; the accumulator is first advanced to now. A tick that changes nothing ends the segment. -/
def State.setV (s : State) (a : AxNum) (v : Nat × Nat × Nat) : State :=
  s.modAx a fun x =>
    { x with acc := x.accNow s.time, accAt := s.time, v := v.1, ramp := if v.1 = x.v then none else some v.2
             standSince := if v.1 = 0 ∧ x.v ≠ 0 then s.time else x.standSince }

/-- V and the accumulator return to 0; the standstill begins here unless the axis stood already (R245, R253). -/
def State.axRest (s : State) (a : AxNum) : State :=
  s.modAx a fun x => { x with v := 0, acc := 0, ramp := none, standSince := if x.v = 0 then x.standSince else s.time }

/-- Signed travel since the phase or search began. -/
def State.travel (s : State) (a : AxNum) : Int := sdiff (s.axPos a) (s.axS a).phaseFrom

-- the end of a command

/-- The next waiting SEQ commands start while the axis may take them (R254), in RUN only (02 R38); `n` bounds those
that end at once. Commands that already have their outcome are passed over. A set that becomes active here gives the
pitch and the stroke (R249, R255). -/
def State.axNextN (s : State) (a : AxNum) : Nat → State
  | 0 => s
  | n + 1 =>
    let x := s.axS a
    let ready : Bool := s.running (Pg.ax a) && s.running Pg.moc && (s.axIdle a ||
      (x.act == .lineadv && x.stop.isNone && x.v == 0 && decide (x.budget < 65536) && x.job.isNone))
    match x.waiting with
    | [] => s
    | j :: rest =>
      if (s.liveCmd j.q j.uid).isNone then (s.modAx a fun y => { y with waiting := rest }).axNextN a n
      else if ¬ ready then s
      else
        let here := s.axPos a
        let s := (s.activate (Pg.ax a)).modAx a fun y =>
          { y with waiting := rest, job := some j, host := false, endSt := St.ok, phaseFrom := here }
        let go (target : Word) : State :=
          if target = here then
            ((s.modAx a fun y => { y with job := none }).finish j.q j.uid St.ok).axNextN a n
          else s.axMoveTo a target
        match j.kind with
        | .feed lines d => go (here + BitVec.ofInt 32 (if lines then s.lineSteps a d else d))
        | .goto t => go t
        | .search _ _ => s.axStart a .search false
        | .cut part =>
          if s.atHome a then
            let n := if part then s.act F.AXn_CUT_CUTP a.val else s.act F.AXn_CUT_CUTF a.val
            (s.axMoveTo a (here + BitVec.ofNat 32 n)).modAx a fun y => { y with cut := some 2 }
          else (s.axStart a .home true).modAx a fun y => { y with cut := some 1 }

def State.axNext (s : State) (a : AxNum) : State := s.axNextN a ((s.axS a).waiting.length + 1)

/-- The axis stands and its command is over: owner none, DONE requested; an axis that was in LINEADV is in it again, and
turns forward for it first (R243, R254). Motion that ends without a stop of R251 ends what STALLED says of the last stop
(R270). -/
def State.axDone (s : State) (a : AxNum) : State :=
  let x := s.axS a
  let s := (s.axRest a).modAx a fun y =>
    { y with act := if y.inAdv then .lineadv else .idle
             stop := none, accAt := s.time, startAt := none, waking := false, decel := false, nextVel := false,
             cut := none, job := none, host := false, held := false, gseg := 0
             stalled := y.stalled && (y.stop.isSome || y.act == .idle) }
  let s := if x.inAdv ∧ x.neg then
      s.modAx a fun y =>
        { y with neg := false, dirAt := s.time, startAt := some (s.time + BitVec.ofNat 64 (s.tDir a)) }
    else s
  let s := s.irq (Pg.ax a) 4
  let s := match x.job with
    | some j => s.finish j.q j.uid x.endSt
    | none => s
  s.axNext a

/-- A stop has come to standstill: a move or a speed command that came meanwhile starts, else the command is over
(R250). DEDUCED, log entry 38. -/
def State.axStopped (s : State) (a : AxNum) : State :=
  let x := s.axS a
  match x.next with
  | some t => ((s.axRest a).modAx a fun y => { y with next := none, stop := none }).axMoveTo a t
  | none => if x.nextVel then (s.axRest a).axStart a .vel x.vNeg else s.axDone a

/-- A stop begins (R251): `hard` for an emergency stop. The SEQ command of the axis will complete `st`. -/
def State.axBrake (s : State) (a : AxNum) (hard : Bool) (st : Byte) : State :=
  let x := s.axS a
  let s := s.modAx a fun y =>
    { y with stop := some (hard || y.stop == some true), next := none, nextVel := false
             stalled := y.stalled && y.stop.isSome
             acc := if y.act = .gear then 0 else y.acc, accAt := if y.act = .gear then s.time else y.accAt
             endSt := if y.endSt = St.ok then st else y.endSt, startAt := none }
  if x.v = 0 ∨ (hard ∧ s.fld F.AXn_EDEC_A a.val = 0) then s.axStopped a else s

/-- A stop that leaves LINEADV and GEAR and discards the budget (R254, R258). On an idle axis the command ends at
once. -/
def State.axHalt (s : State) (a : AxNum) (hard : Bool) (st : Byte) : State :=
  if s.axIdle a then s.irq (Pg.ax a) 4
  else (s.modAx a fun y => { y with inAdv := false, budget := 0, held := false, lagArmed := true }).axBrake a hard st

-- the source of a geared axis (R262, R263)

/-- The source position of a geared axis. -/
def State.gearSrc (s : State) (a : AxNum) : Word :=
  let n := s.fld F.AXn_GEAR_SRC a.val
  if n < 8 then s.rd R.QEn_POS_LO n else s.rd R.AXn_POS (n - 8)

def State.ratio (s : State) (a : AxNum) (h : Nat) : Int := (s.rdAct R.AXn_RATIOh a.val h).toInt

/-- Hinges already reached are crossed in order; `fuel` bounds them. -/
def State.crossHinges (s : State) (a : AxNum) : Nat → State
  | 0 => s
  | fuel + 1 =>
    let x := s.axS a
    if x.gseg ≥ s.fld F.AXn_GEAR_NSEG a.val then s
    else
      let d := sdiff (s.gearSrc a) (s.rdAct R.AXn_HINGEh a.val x.gseg)
      if (if s.flag F.AXn_GEAR_GDIR a.val then -d else d) < 0 then s
      else
        let s := s.activate (Pg.ax a)
        let h := x.gseg + 1
        let s := s.modAx a fun y =>
          { y with gseg := h, rOld := y.rEff, blendC := 0
                   rEff := if s.fld F.AXn_GEAR_BLEND a.val = 0 then s.ratio a h else y.rEff }
        s.crossHinges a fuel

/-- The position of source `n` has been set, not counted: a Hinge that it reaches by that begins its segment (R263). -/
def State.gearJump (s : State) (n : Nat) : State :=
  (List.finRange 8).foldl (fun s a =>
    if (s.axS a).act = .gear ∧ (s.axS a).stop.isNone ∧ s.fld F.AXn_GEAR_SRC a.val = n then s.crossHinges a 8 else s) s

/-- P is set to `v`, by SETPOS or at home (R244, R265). -/
def State.jumpPos (s : State) (a : AxNum) (v : Word) : State := (s.setPos a v).gearJump (8 + a.val)

-- the cutter (R265)

/-- The emergency stop of a STALL or CUTJAM: a SEQ command ends, and an axis that was in LINEADV returns to it (R251,
R254); else it is a stop like any other. -/
def State.axTrip (s : State) (a : AxNum) : State :=
  if (s.axS a).job.isSome then s.axBrake a true St.aborted else s.axHalt a true St.aborted

/-- CUTJAM: the phase has failed. -/
def State.cutJam (s : State) (a : AxNum) : State := ((s.raise (Pg.ax a) 3).irq (Pg.ax a) 8).axTrip a

/-- The next move of a CUT after standstill at the end of a phase. -/
def State.cutPhaseEnd (s : State) (a : AxNum) : State :=
  let x := s.axS a
  let s := (s.axRest a).modAx a fun y => { y with phaseFrom := s.axPos a }
  match x.cut, x.job with
  | some 1, some j =>
    let part : Bool := match j.kind with
      | .cut p => p
      | _ => false
    let n := if part then s.act F.AXn_CUT_CUTP a.val else s.act F.AXn_CUT_CUTF a.val
    (s.axMoveTo a (s.axPos a + BitVec.ofNat 32 n)).modAx a fun y => { y with cut := some 2 }
  | some 2, some _ => (s.axMoveTo a 0).modAx a fun y => { y with cut := some 3 }
  | some 3, some _ =>
    if s.atHome a then s.axDone a
    else (s.axStart a .home true).modAx a fun y => { y with cut := some 4 }
  | _, _ => s.axDone a

/-- The home input is active in a home search: stop at once, P = 0. -/
def State.homeCheck (s : State) (a : AxNum) : State :=
  let x := s.axS a
  if x.act = .home ∧ x.stop.isNone ∧ s.atHome a then (s.jumpPos a 0).cutPhaseEnd a else s

def State.homeTol (s : State) (a : AxNum) : Nat := max 1 (s.fld F.AXn_HOME_HOMETOL a.val)

/-- The stroke of a CUT has made HOMETOL steps and home is still active. -/
def State.strokeJam (s : State) (a : AxNum) : Bool :=
  (s.axS a).cut == some 2 && (s.travel a).natAbs == s.homeTol a && s.atHome a

/-- After the first tick or a step: a phase of a CUT, or HOME, that has gone too far (R265). -/
def State.cutCheck (s : State) (a : AxNum) : State :=
  let x := s.axS a
  let far := (s.travel a).natAbs
  if x.stop.isSome then s
  else match x.cut with
    | some 2 => if s.strokeJam a then s.cutJam a else s
    | some 4 => if far ≥ s.homeTol a ∧ ¬ s.atHome a then s.cutJam a else s
    | some 1 => if far ≥ s.fld F.AXn_HOME_HOMEMAX a.val ∧ ¬ s.atHome a then s.cutJam a else s
    | _ => if x.act = .home ∧ far ≥ s.fld F.AXn_HOME_HOMEMAX a.val ∧ ¬ s.atHome a then s.cutJam a else s

-- line advances (R257, R258)

/-- v_cmd in LINEADV; before a first start of scan HPn_TACT is 0 and the rate is a free value. DESIGN CHOICE, log
entry 143. DESIGN CHOICE, log entry 143. -/
def State.advSpeed (s : State) (a : AxNum) : Nat :=
  let p : Port := Fin.ofNat 4 (s.fld F.AXn_CFG_PORT a.val)
  let f :=
    if s.govEn p ∧ s.running Pg.sba then (s.sbaP p).f
    else match s.fld F.HPn_TACT_T p.val with
      | 0 => Config.freeRate p
      | t => 100000000 / t
  min (s.vMax a) (f * s.lpitch a / 65536)

/-- AXn_STAT.AXBUSY. -/
def State.axBusy (s : State) (a : AxNum) : Bool :=
  let x := s.axS a
  x.act == .lineadv && x.stop.isNone && !x.held && x.v != s.advSpeed a * mega

/-- An axis is in LINEADV for a port. -/
def State.advancing (s : State) (a : AxNum) (p : Port) : Bool :=
  (s.axS a).inAdv && s.fld F.AXn_CFG_PORT a.val == p.val && s.working (Pg.ax a)

/-- A line advance or a rate to an axis that cannot take it (R258). -/
def State.advDiscard (s : State) : State := (s.count R.MOC_ADVDISC).irq Pg.moc 4

/-- The governor's rate reaches the feed axis, which follows the latest one (R257). -/
def State.sendRate (s : State) (p : Port) : State :=
  let a : AxNum := Fin.ofNat 8 (s.fld F.HPn_PACE_AXIS p.val)
  if s.advancing a p then s else s.advDiscard

/-- LAG of an axis, once for each excursion. -/
def State.lagCheck (s : State) (a : AxNum) (late : Bool) : State :=
  if ¬ late then s.modAx a fun x => { x with lagArmed := true }
  else if (s.axS a).lagArmed then
    (((s.modAx a fun x => { x with lagArmed := false }).count R.AXn_LAGS a.val).raise (Pg.ax a) 2).irq (Pg.ax a) 7
  else s

/-- The LAG source of an axis in LINEADV. -/
def State.advLate (s : State) (a : AxNum) : State :=
  s.lagCheck a (decide ((s.axS a).budget > s.fld F.AXn_LAG_LAGMAX a.val * 65536))

/-- LINE_ADVANCE: an advance sent by port p reaches its axis. -/
def State.lineAdvance (s : State) (p : Port) : State :=
  if (s.hpP p).advDue = 0 then s
  else
    let s := s.modHp p fun h => { h with advDue := h.advDue - 1 }
    let a : AxNum := Fin.ofNat 8 (s.fld F.HPn_PACE_AXIS p.val)
    if ¬ s.advancing a p then s.advDiscard
    else
      -- LPITCH of a pending set is active from here (R249)
      let s := if (s.page (Pg.ax a)).pend then
          { s with active := sput (R.AXn_LPITCH.resetAt a.val 0) (R.AXn_LPITCH.addr a.val 0)
                     (sget (R.AXn_LPITCH.resetAt a.val 0) (R.AXn_LPITCH.addr a.val 0) s.pendSet) s.active }
        else s
      let b := (s.axS a).budget + s.lpitch a
      let restart : Bool := (s.axS a).held && decide (65536 ≤ b) && (s.axS a).act == .lineadv
      let s := s.modAx a fun x =>
        if restart then { x with budget := b, held := false, acc := 0, accAt := s.time
                                 v := min (s.vStart a) (s.advSpeed a) * mega, ramp := none }
        else { x with budget := b }
      s.advLate a

-- gearing (R262 to R264)

/-- floor(G) − P. -/
def State.gearLag (s : State) (a : AxNum) : Int := sdiff (BitVec.ofInt 32 ((s.axS a).g / 16777216)) (s.axPos a)

/-- Clocks between two steps that count as no speed: more than a second. -/
def noGap : Nat := 100000001

/-- DIR follows the side on which the gear target lies; an axis that turns has come to standstill (R243, R262).
DEDUCED, log entry 142. -/
def State.gearTurn (s : State) (a : AxNum) : State :=
  let d := s.gearLag a
  let neg := decide (d < 0)
  if d ≠ 0 ∧ neg ≠ (s.axS a).neg then
    s.modAx a fun y => { y with neg := neg, dirAt := s.time, v := 0, acc := 0, accAt := s.time, stepGap := noGap }
  else s

/-- The LAG source of a geared axis. -/
def State.gearLate (s : State) (a : AxNum) : State :=
  s.lagCheck a (decide ((s.gearLag a).natAbs > s.fld F.AXn_LAG_GLAG a.val))

/-- V of a geared axis (R245, R262): VMAX while P is not at its target; at the target the rate of its last steps, 0
below 1 step/s. DEDUCED, log entry 142. -/
def State.gearSpeed (s : State) (a : AxNum) : Nat :=
  let x := s.axS a
  if s.gearLag a ≠ 0 then s.vMax a * mega
  else match x.lastStep with
    | none => 0
    | some t =>
      let v := stepUnit / max 1 (max x.stepGap (s.since t))
      if v < mega then 0 else min (s.vMax a * mega) v

/-- A tick in GEAR; a step that the accumulator holds ready waits there for the target to move. -/
def State.gearTick (s : State) (a : AxNum) : State :=
  let v := s.gearSpeed a
  s.modAx a fun y => { y with v := v, acc := min stepUnit (y.accNow s.time), accAt := s.time }

/-- One count of the source, up or down. -/
def State.gearCount (s : State) (a : AxNum) (up : Bool) : State :=
  let x := s.axS a
  if x.act ≠ .gear ∨ x.stop.isSome then s
  else
    let n := s.fld F.AXn_GEAR_BLEND a.val
    let c := x.blendC + 1
    let r : Int :=
      if x.gseg = 0 then s.ratio a 0
      else if c ≤ n then x.rOld + ((s.ratio a x.gseg - x.rOld) * (c : Int)).tdiv (n : Int)
      else s.ratio a x.gseg
    let s := s.modAx a fun y => { y with rEff := r, blendC := min c (n + 1), g := if up then y.g + r else y.g - r }
    (((s.crossHinges a 8).gearTurn a).gearLate a)

/-- Every axis geared to source `n` sees a count. -/
def State.gearSource (s : State) (n : Nat) (up : Bool) : State :=
  (List.finRange 8).foldl (fun s a => if s.fld F.AXn_GEAR_SRC a.val = n then s.gearCount a up else s) s

-- encoder supervision (R259 to R261)

def State.encOn (s : State) (a : AxNum) : Bool := s.flag F.AXn_ENC_EN a.val && decide (s.fld F.AXn_ENC_QE a.val < 6)

/-- E. -/
def State.encPos (s : State) (a : AxNum) : Word := s.rd R.QEn_POS_LO (s.fld F.AXn_ENC_QE a.val)

def State.takeRefs (s : State) (a : AxNum) : State :=
  s.modAx a fun x => { x with pRef := s.axPos a, eRef := s.encPos a, below := none }

/-- dev = E − X. -/
def State.encDev (s : State) (a : AxNum) : Int :=
  let x := s.axS a
  let d := sdiff (s.axPos a) x.pRef
  sdiff (s.encPos a) (x.eRef + BitVec.ofInt 32 (roundDiv (d * (s.rd R.AXn_ENCR a.val).toInt) 16777216))

/-- The deviation at a tick: a YANK, or the time of a stall (R260, R261). -/
def State.encTick (s : State) (a : AxNum) : State :=
  if ¬ s.encOn a then s
  else
    let dev := s.encDev a
    let w : Int := s.fld F.AXn_ENC_STALLW a.val
    let moving : Bool := (s.axS a).v != 0
    let s := s.wr R.AXn_DEV (BitVec.ofInt 32 dev) a.val
    if dev > w ∨ (¬ moving ∧ dev < -w) then
      (((s.count R.AXn_YANKS a.val).raise (Pg.ax a) 1).irq (Pg.ax a) 6).takeRefs a
    else s.modAx a fun x => { x with below := if moving ∧ dev < -w then some (x.below.getD s.time) else none }

/-- STALL: the deviation has lasted STALLT × 100 µs. -/
def State.axStall (s : State) (a : AxNum) : State :=
  match (s.axS a).below with
  | some t =>
    if s.working (Pg.ax a) ∧ s.encOn a ∧ s.since t ≥ max 1 (s.fld F.AXn_ENC_STALLT a.val) * 10000 then
      let s := (((s.count R.AXn_STALLS a.val).raise (Pg.ax a) 0).irq (Pg.ax a) 5).takeRefs a
      (s.axTrip a).modAx a fun x => { x with stalled := true }
    else s
  | none => s

-- the profile tick (R245 to R251)

/-- Position moves. -/
def State.moveTick (s : State) (a : AxNum) : State :=
  let x := s.axS a
  let rem := (sdiff x.target (s.axPos a)).natAbs
  let decel : Bool := x.decel || decide (rem ≤ s.stopDist a x.speed + 2)
  let s := s.modAx a fun y => { y with decel := decel }
  if decel then s.setV a (s.decelTick a x.v (s.vStop a)) else s.setV a (s.accel a x.v (s.vMax a))

/-- Ramp toward a speed command, from VSTART where the axis stands (R257); from 0 where VSTART is 0. -/
def State.rampTick (s : State) (a : AxNum) (cmd : Nat) : State :=
  let x := s.axS a
  let v0 := min (s.vStart a) cmd
  if x.v = 0 ∧ v0 ≠ 0 then s.modAx a fun y => { y with v := v0 * mega, acc := 0, accAt := s.time, ramp := none }
  else if x.v < cmd * mega then s.setV a (s.accel a x.v cmd)
  else if x.v > cmd * mega then s.setV a (s.decelTick a x.v cmd)
  else s.modAx a fun y => { y with ramp := none }

/-- A tick in LINEADV; an axis that comes to stand by its rate takes a waiting SEQ command (R254, R257). -/
def State.advTick (s : State) (a : AxNum) : State :=
  let s := s.rampTick a (s.advSpeed a)
  if (s.axS a).v = 0 then s.axNext a else s

/-- A tick of a stop. -/
def State.stopTick (s : State) (a : AxNum) (hard : Bool) : State :=
  let x := s.axS a
  let low := s.vStop a * mega
  if x.v ≤ low then s.axStopped a
  else if hard then
    let e := s.fld F.AXn_EDEC_A a.val
    if e = 0 then s.axStopped a
    else s.setV a (max (x.v - e) low, 4, e)
  else s.setV a (s.decelTick a x.v (s.vStop a))

/-- The first tick of a start: V takes its start value. A home search that may make no step fails here (R265). -/
def State.firstTick (s : State) (a : AxNum) : State :=
  let x := s.axS a
  let v0 := match x.act with
    | .search => s.searchV a
    | .home => s.searchV a
    | .lineadv => min (s.vStart a) (s.advSpeed a)
    | .vel => min (s.vStart a) x.vCmd
    | _ => s.vStart a
  (s.modAx a fun y => { y with startAt := none, waking := false, v := v0 * mega, acc := 0, accAt := s.time }).cutCheck a

/-- A position move whose target is the present position. -/
def State.onTarget (s : State) (a : AxNum) : Bool := (s.axS a).act == .move && s.axPos a == (s.axS a).target

/-- A position move has reached its target (R248). -/
def State.moveEnd (s : State) (a : AxNum) : State :=
  if (s.axS a).cut.isSome then s.cutPhaseEnd a else s.axDone a

/-- PROFILE_TICK: every 1 µs of an axis in RUN or draining. -/
def State.profileTick (s : State) (a : AxNum) : State :=
  if ¬ (s.working (Pg.ax a) ∨ (s.page (Pg.ax a)).st = .resetting) ∨ s.since (s.axS a).tickAt < usTicks then s
  else
    let s := s.modAx a fun x => { x with tickAt := s.time }
    let x := s.axS a
    let s :=
      match x.stop with
      | some hard => s.stopTick a hard
      | none =>
        match x.startAt with
        | some t => if s.time.toNat < t.toNat then s else if s.onTarget a then s.moveEnd a else s.firstTick a
        | none =>
          match x.act with
          | .move => if s.onTarget a then s.moveEnd a else s.moveTick a
          | .vel =>
            if x.vNeg = x.neg then s.rampTick a x.vCmd else s.modAx a fun y => { y with stop := some false, nextVel := true, stalled := false }
          | .gear => s.gearTick a
          | .lineadv => if x.held then s else s.advTick a
          | _ => s
    s.encTick a

-- steps (R244, R245, R258, R262)

/-- A step falls due now; none does within TDIR of a change of DIR (R243). -/
def State.stepDue (s : State) (a : AxNum) : Bool :=
  let x := s.axS a
  if x.act = .gear ∧ x.stop.isNone then
    s.gearLag a != 0 && x.startAt.isNone && decide (x.accNow s.time ≥ stepUnit) &&
      (decide (s.gearLag a < 0) == x.neg) && decide (s.since x.dirAt ≥ s.tDir a)
  else x.v != 0 && decide (x.accNow s.time ≥ stepUnit) && decide (s.since x.dirAt ≥ s.tDir a)

/-- P changes by one. -/
def State.stepPos (s : State) (a : AxNum) (neg : Bool) : State :=
  let p := s.axPos a
  let s := s.setPos a (if neg then p - 1 else p + 1)
  (s.modAx a fun x => { x with lastStep := some s.time, standSince := s.time
                               stepGap := match x.lastStep with
                                 | some t => s.since t
                                 | none => noGap }).gearSource (8 + a.val) (!neg)

/-- A step of an axis, without what sensors make of it. -/
def State.axStep (s : State) (a : AxNum) : State :=
  let x := s.axS a
  if x.act = .gear ∧ x.stop.isNone then
    -- what V adds beyond the step in its clock stays (R245); a step that waited leaves nothing
    let s := s.modAx a fun y => { y with acc := min y.v (y.accNow s.time - stepUnit), accAt := s.time }
    (s.stepPos a x.neg).gearLate a
  else
    let s := s.modAx a fun y => { y with acc := y.accNow s.time - stepUnit, accAt := s.time }
    if x.act = .lineadv ∧ x.stop.isNone then
      if x.budget < 65536 then ((s.axRest a).modAx a fun y => { y with held := true }).axNext a
      else ((s.modAx a fun y => { y with budget := y.budget - 65536 }).stepPos a x.neg).advLate a
    else
      let s := s.stepPos a x.neg
      -- a stroke fails at HOMETOL steps even if that is its target (R265)
      if x.stop.isNone ∧ s.onTarget a ∧ ¬ s.strokeJam a then s.moveEnd a
      else s.cutCheck a

-- host commands (R250 to R254)

def State.axErr (s : State) (a : AxNum) (f : Fld) : State := (s.setBit f true a.val).irq (Pg.ax a) 9

/-- A command that comes before the first tick of a start, which is due at `w`, takes its place: the wake time goes
on, and DIR that changes again waits TDIR again (R243, R250, R253). -/
def State.axTurn (s : State) (a : AxNum) (act : AxAct) (neg : Bool) (w : BitVec 64) : State :=
  s.modAx a fun y =>
    if neg = y.neg then { y with act := act }
    else { y with act := act, neg := neg, dirAt := s.time
                  startAt := some (let t := s.time + BitVec.ofNat 64 (s.tDir a); if t.toNat < w.toNat then w else t) }

/-- The axis stands in VEL, at speed 0. -/
def AxSt.velStands (x : AxSt) : Bool := x.act == .vel && x.stop.isNone && x.startAt.isNone && x.v == 0

/-- A MOVE on an axis that is not idle (R250). DEDUCED, log entry 38. -/
def State.axRetarget (s : State) (a : AxNum) (target : Word) : State :=
  let x := s.axS a
  let d := sdiff target (s.axPos a)
  let ahead : Bool := (decide (d < 0) == x.neg) && d != 0 && decide (d.natAbs ≥ s.stopDist a x.speed + 2)
  if x.stop.isSome then s.modAx a fun y => { y with next := some target, nextVel := false }
  else if x.velStands then s.axMoveTo a target
  else match x.startAt with
    | some w => (s.axTurn a .move (decide (d < 0)) w).modAx a fun y => { y with target := target }
    | none =>
      if ahead then s.modAx a fun y => { y with act := .move, target := target, decel := false }
      else s.modAx a fun y => { y with stop := some false, next := some target, act := .move, stalled := false }

/-- A command in force (R254); `c` is AXn_CMD.CMD. -/
def State.axCmd (s : State) (a : AxNum) (c : Nat) : State :=
  let x := s.axS a
  let seq : Bool := x.job.isSome
  let adv : Bool := x.stop.isNone && (x.act == .lineadv || x.act == .gear)
  let idle := s.axIdle a
  if c = 3 ∨ c = 4 then s.axHalt a (c == 4) St.aborted
  else if seq ∧ (c = 1 ∨ c = 2 ∨ c = 5 ∨ c = 6 ∨ c = 7) then s.axErr a F.AXn_ERR_BUSYREJ
  else if ¬ s.running (Pg.ax a) then s.axErr a F.AXn_ERR_CMDREJ
  else match c with
  | 8 => if idle then (s.jumpPos a (s.rd R.AXn_TARGET a.val)).takeRefs a else s.axErr a F.AXn_ERR_CMDREJ
  | 1 =>
    if adv then s.axErr a F.AXn_ERR_CMDREJ
    else
      let t := s.rd R.AXn_TARGET a.val
      let s := (s.activate (Pg.ax a)).modAx a fun y => { y with host := true, endSt := St.ok }
      if idle then (if s.axPos a = t then s.axDone a else s.axMoveTo a t)
      else s.axRetarget a t
  | 2 =>
    if adv then s.axErr a F.AXn_ERR_CMDREJ
    else
      let s := s.activate (Pg.ax a)
      let v := min (s.vMax a) (s.fld F.AXn_VCMD_V a.val)
      let neg := s.flag F.AXn_VCMD_DIR a.val
      let s := s.modAx a fun y => { y with host := true, vCmd := v, vNeg := neg, endSt := St.ok }
      if idle ∨ x.velStands then s.axStart a .vel neg
      else match x.startAt with
        | some w => s.axTurn a .vel neg w
        | none => s.modAx a fun y => { y with act := .vel, next := none, nextVel := x.stop.isSome }
  | 5 =>
    if ¬ idle then s.axErr a F.AXn_ERR_CMDREJ
    else ((s.activate (Pg.ax a)).axStart a .lineadv false).modAx a fun y =>
      { y with host := true, inAdv := true, budget := 0, held := false, lagArmed := true }
  | 6 =>
    let n := s.fld F.AXn_GEAR_SRC a.val
    if ¬ idle ∨ n = 6 ∨ n = 7 ∨ n = 8 + a.val then s.axErr a F.AXn_ERR_CMDREJ
    else
      let s := (s.activate (Pg.ax a)).axStart a .gear x.neg
      let s := s.modAx a fun y =>
        { y with host := true, startAt := none, waking := false, stepGap := noGap, g := (s.axPos a).toInt * 16777216, gseg := 0, blendC := 0,
                 lagArmed := true, rEff := s.ratio a 0, rOld := s.ratio a 0 }
      s.crossHinges a 8
  | 7 =>
    if ¬ idle then s.axErr a F.AXn_ERR_CMDREJ
    else
      let s := (s.activate (Pg.ax a)).modAx a fun y => { y with host := true, endSt := St.ok, phaseFrom := s.axPos a }
      if s.atHome a then s.axDone a else s.axStart a .home true
  | _ => s.axErr a F.AXn_ERR_CMDREJ

/-- A write of AXn_CMD: with SYNC the command is held for MOC_GO. -/
def State.axCmdWrite (s : State) (a : AxNum) (c : Nat) (sync : Bool) : State :=
  if ¬ sync then s.axCmd a c
  else if 1 ≤ c ∧ c ≤ 8 then s.modAx a fun x => { x with sync := some c }
  else s.axErr a F.AXn_ERR_CMDREJ

/-- MOC_GO: the held commands of the named axes start in one tick. -/
def State.mocGo (s : State) (axes : BitVec 8) : State :=
  (List.finRange 8).foldl (fun s a =>
    if axes.getLsbD a.val then
      match (s.axS a).sync with
      | some c => (s.modAx a fun x => { x with sync := none }).axCmd a c
      | none => s
    else s) s

/-- MOC_ESTOP. -/
def State.mocEstop (s : State) (axes : BitVec 8) : State :=
  (List.finRange 8).foldl (fun s a => if axes.getLsbD a.val then s.axHalt a true St.aborted else s) s

-- SEQ commands (R254)

/-- FEED, CUT or a feeding WAIT_MEDIA reaches its axis. -/
def State.axSubmit (s : State) (a : AxNum) (j : AxJob) : State :=
  if ¬ s.running (Pg.ax a) then s.finish j.q j.uid St.aborted
  else (s.modAx a fun x => { x with waiting := x.waiting ++ [j] }).axNext a

-- current (R253)

/-- CURRENT_STANDBY: the axis has stood for TSTBY ms, and is not in LINEADV or GEAR. -/
def State.currentStandby (s : State) (a : AxNum) : State :=
  let x := s.axS a
  let t := s.fld F.AXn_ISTBY_TSTBY a.val
  if (s.axIdle a ∨ x.velStands) ∧ ¬ x.ired ∧ t ≠ 0 ∧ s.since x.standSince ≥ t * msTicks ∧ s.working (Pg.ax a) then
    s.modAx a fun y => { y with ired := true }
  else s

/-- AXn_STAT.STATE (R271). DEDUCED, log entry 100. -/
def State.axState (s : State) (a : AxNum) : Nat :=
  let x := s.axS a
  if ¬ s.running (Pg.ax a) then 0
  else match x.stop with
    | some true => 9
    | some false => if x.next.isSome then 2 else 8
    | none =>
      if x.waking ∧ x.startAt.isSome then 0xA
      else if x.cut.isSome then 6
      else match x.act with
        | .idle => 1
        | .move => 2
        | .vel => 3
        | .search => 3
        | .lineadv => 4
        | .gear => 5
        | .home => 7

-- outputs (R242, R243, R253)

/-- The levels that an axis drives, and the duty of its current reference. -/
structure AxPins where
  step : Bool
  dir : Bool
  ena : Bool
  iref : Nat
  deriving DecidableEq, Repr

/-- The outputs of an axis now, none while they are high-impedance. A line whose polarity bit is 0 is active low.
DEDUCED, log entry 125. -/
def State.axPins (s : State) (a : AxNum) : Option AxPins :=
  let x := s.axS a
  let n := a.val
  let level (active : Bool) (pol : Fld) : Bool := active == s.flag pol n
  let stepping : Bool := x.lastStep.any fun t => decide (s.since t < max 1 (s.fld F.AXn_CFG_STEPW n))
  if ¬ s.flag F.AXn_CFG_OE n then none
  else some
    { step := level stepping F.AXn_CFG_STEPPOL
      dir := level (x.neg != s.flag F.AXn_CFG_DIRINV n) F.AXn_CFG_DIRPOL
      ena := level (s.flag F.AXn_CFG_ENA n) F.AXn_CFG_ENAPOL
      iref := if x.ired then s.fld F.AXn_IREF_IHOLD n else s.fld F.AXn_IREF_IRUN n }

/-- AXn_STAT (R270). -/
def State.axStat (s : State) (a : AxNum) : Word :=
  let x := s.axS a
  let own := match x.job with
    | some j => 2 * 64 + j.q.val * 256
    | none => if x.host then 64 else 0
  BitVec.ofNat 32 (x.stalled.toNat * 2 ^ 23 + x.ired.toNat * 2 ^ 22 + (s.axBusy a).toNat * 2 ^ 21 + x.held.toNat * 2 ^ 20 +
    x.inAdv.toNat * 2 ^ 19 + (if x.act = .gear ∧ x.stop.isNone then x.gseg else 0) * 2 ^ 16 + own + s.axState a)

end Sys2Proof.Machine
end

