-- ==== Sys2Proof/Machine/Head.lean ====
section
/-! DEFINITION. Head ports (07 R181 to R200): starts of scan, slices, triggers, HOLD and the Shutter. -/

namespace Sys2Proof.Machine

-- bits of PG_IRQ_STAT of an HP page: 4 OVR, 5 REVERSE, 6 SHUT, 7 STARVE, 8 LATE, 9 HOLD, 10 CFGREJ (R202)

-- measurement slots and printing (09 R234)

/-- MEASURE_YIELD: a line is committed while EHM measures the port (09 R234). -/
def State.measureYield (s : State) (p : Port) : State :=
  match (s.ehmP p).slot with
  | none => s
  | some x =>
    if x.strobe then s.modEhm p fun e => { e with slot := some { x with yielded := true } }
    else s.dropSlot p R.EHM_Pp_YIELD

-- starts of scan (R185, R188, R191, R192)

/-- The next committed line, if its PRINT is in flight. -/
def State.nextLive (s : State) (p : Port) : Option Line :=
  match s.lines p with
  | l :: _ => if s.lineLive l then some l else none
  | [] => none

/-- Nothing but the pace holds the next start of scan. -/
def State.canStart (s : State) (p : Port) : Bool :=
  s.running (Pg.hp p) && !s.shut p && (s.hpP p).hold.isNone && (s.hpP p).cur.isNone && s.computes p &&
    (s.hheP p).mode != .holdVh && !s.measuring p && (s.nextLive p).isSome

/-- T_act, the fraction it carries and the instant it ends, from a start of scan now (R185). -/
def State.armTimer (s : State) (p : Port) : State :=
  let t := s.tActFrac p + (s.hpP p).frac
  let s := s.modHp p fun h =>
    { h with timerDone := false, tAct := s.tActFrac p / 256, frac := t % 256, dueAt := s.time + BitVec.ofNat 64 (t / 256) }
  s.setFld F.HPn_TACT_T (if s.paced p then s.tProj p else s.tActFrac p / 256) p.val

/-- GOVERNOR_EVALUATE with the rate sent to the feed axis (08 R215). DEDUCED, log entry 29. -/
def State.govern (s : State) (p : Port) : State :=
  let old := (s.sbaP p).f
  let n := match ((s.hheP p).ring.find? fun r => !r.fired) with
    | some r => r.data.nLine
    | none => (s.hpP p).lastN
  let s := s.governor p (s.linesLeft p) n (s.axBusy (Fin.ofNat 8 (s.fld F.HPn_PACE_AXIS p.val)))
  if (s.sbaP p).f ≠ old ∧ ¬ s.paced p then s.sendRate p else s

/-- The start of scan of line `l` (06 R163, 07 R184, R185, 13 R332). -/
def State.takeStart (s : State) (p : Port) (l : Line) : State :=
  let s := s.activate (Pg.hp p)
  let h := s.hpP p
  let late : Bool := !s.paced p && s.time == h.lastEnd && decide (h.dueAt.toNat < s.time.toNat)
  let s := if late then (s.count R.HPn_LATE p.val).irq (Pg.hp p) 8 else s
  let gap := (s.hheP p).lastStart.map fun t => s.since t
  let cur : CurLine := { line := l, start := s.time, tag := (s.page (Pg.hp p)).actTag, gap := gap, tr := s.tProj p, vh := s.vhNow p }
  let s := s.modHp p fun h => { h with cur := some cur, lastS := s.time, pendTrig := false }
  let s := (s.wrapStep R.HPn_LINES p.val).lineGone p l (some cur.tag)
  let s := (s.captureStart p l).hheStart p l
  let s := ((s.govern p).armTimer p).hheProject p
  let s := if ¬ s.paced p ∧ s.flag F.HPn_PACE_AXEN p.val then s.modHp p fun h => { h with advDue := h.advDue + 1 } else s
  (s.ehmTouch p).winCheck p

/-- START_OF_SCAN: the next line from the line timer, a pending trigger or its commit. -/
def State.startOfScan (s : State) (p : Port) : State :=
  let paceOk : Bool := if s.paced p then (s.hpP p).pendTrig else (s.hpP p).timerDone && !s.govPaused p
  match s.nextLive p with
  | some l => if s.canStart p ∧ paceOk then s.takeStart p l else s
  | none => s

/-- LINE_TIMER_EXPIRE (R185). -/
def State.lineTimerExpire (s : State) (p : Port) : State :=
  if s.working (Pg.hp p) ∧ ¬ s.paced p ∧ s.time.toNat ≥ (s.hpP p).dueAt.toNat then
    s.modHp p fun h => { h with timerDone := true }
  else s

-- the end of a line (R181, R184)

/-- LINE_END: LREP and LTIME are written; a pending trigger starts its line, or finds none to start (R191). -/
def State.lineEnd (s : State) (p : Port) : State :=
  match (s.hpP p).cur with
  | none => s
  | some c =>
    match c.st with
    | .ending t =>
      if s.time.toNat < t.toNat then s
      else
        let n := (c.data.map (·.nLine)).getD 0
        let s := s.wr R.HPn_LREP (BitVec.ofNat 32 (min 0xFFFF c.defer * 65536 + n * 256 + c.tag.toNat)) p.val
        let s := s.wr R.HPn_LTIME (BitVec.ofNat 32 (min 0xFFFFFF (t - c.start).toNat)) p.val
        let s := s.clearCur p
        if ¬ (s.hpP p).pendTrig then s
        else if (s.nextLive p).isNone then s.dropTrig p
        else s.startOfScan p
    | _ => s

-- slices (R181 to R183, 08 R206 to R210)

def State.modCur (s : State) (p : Port) (f : CurLine → CurLine) : State := s.modHp p fun h => { h with cur := h.cur.map f }

/-- Dots of the slice in progress. -/
def CurLine.dots (c : CurLine) : Nat := (c.data.map fun d => d.dots c.slice).getD 0

/-- SLICE_LATCH: the latch pulse puts the shifted bits into the head's latch and the grant is requested; without SBA
the line ends here (R178, R179, R181, R182, 08 R210). -/
def State.sliceLatch (s : State) (p : Port) : State :=
  match (s.hpP p).cur with
  | some c =>
    if c.st ≠ .shifting ∨ s.time.toNat < c.nextLatch.toNat ∨ ¬ s.running (Pg.hp p) then s
    else if ¬ s.running Pg.sba then (s.abandonLine p).enterHold p St.aborted
    else
      let s := s.noteEstimate p c.dots
      let counts := (c.data.map (·.counts)).getD []
      let more := decide (c.slice < (c.data.map (·.nLine)).getD 0)
      let s := s.modHp p fun h =>
        { h with
          latch := s.sliceBits p counts c.slice, latAt := some s.time
          shiftAt := if more then some (s.time + BitVec.ofNat 64 (s.latw p)) else none
          shiftBits := if more then s.sliceBits p counts (c.slice + 1) else [] }
      s.modCur p fun c =>
        { c with st := .latched s.time, nextLatch := s.time + BitVec.ofNat 64 (s.latw p + s.tShift p + s.tds p) }
  | none => s

/-- The instant at which a port's request reached SBA, of a line or of a measurement slot. -/
def State.requested (s : State) (p : Port) : Option (BitVec 64) :=
  match (s.hpP p).cur with
  | some c =>
    match c.st with
    | .latched t => some t
    | _ => none
  | none =>
    match (s.ehmP p).slot with
    | some x =>
      -- LATW and TLS before word 17 begins, and not before the pattern's latch pulse (09 R229)
      let t := x.start + BitVec.ofNat 64 (max (8854 - (s.latw p + s.tls p)) (s.tShift p + s.tds p))
      if x.grant.isNone ∧ ¬ x.lost ∧ t.toNat ≤ s.time.toNat then some t else none
    | none => none

/-- SBA answers port p next: requests in order of arrival, then by the deferral of the previous slice, in sub-slots
(01 R22), then round robin after the port granted last (08 R206). DEDUCED, log entry 182. -/
def State.grantTurn (s : State) (p : Port) : Bool :=
  let after (q : Port) : Nat := match s.sba.lastPort with
    | some l => (q.val + 3 - l.val) % 4
    | none => q.val
  match s.requested p with
  | none => false
  | some t => (List.finRange 4).all fun q => q == p || (match s.requested q with
    | none => true
    | some u =>
      decide (t.toNat < u.toNat) || (t == u &&
        (decide ((s.sbaP q).lastDefer < (s.sbaP p).lastDefer) ||
          ((s.sbaP q).lastDefer == (s.sbaP p).lastDefer && decide (after p < after q)))))

/-- EHM_Pp_MCFG.PW, the nearer limit outside 25 to 250 (09 R240). -/
def State.measPw (s : State) (p : Port) : Nat := clampField (s.fld F.EHM_Pp_MCFG_PW p.val) 25 250

/-- SBA refuses a request that can never be placed (08 R209). -/
def State.oversize (s : State) (p : Port) : State := (s.raise Pg.sba (8 + p.val)).irq Pg.sba 6

/-- SBA leaves RUN with a request unanswered: the line ends there (08 R210). -/
def State.unanswered (s : State) (p : Port) : State :=
  match (s.hpP p).cur with
  | some c => match c.st with
    | .latched _ => (s.abandonLine p).enterHold p St.aborted
    | _ => s
  | none => s

/-- SBA_GRANT for port p (08 R206, R209, 09 R229). DEDUCED, log entry 36; DEDUCED, log entry 37. -/
def State.sbaGrant (s : State) (p : Port) : State :=
  if ¬ s.running Pg.sba ∨ ¬ s.grantTurn p then s
  else match s.requested p with
  | none => s
  | some ta =>
    let s := s.sbaActivate
    let e := ta + BitVec.ofNat 64 (s.latw p + s.tls p)
    match (s.hpP p).cur with
    | some c =>
      let f := s.tFire p c.w
      let s := s.noteEstimate p c.dots
      match s.place p c.dots c.w f e ta with
      | none => (s.oversize p).modCur p fun c => { c with st := .refused }
      | some (start, d, ma) =>
        (s.reserve p start d ma f c.slice).modCur p fun c => { c with st := .granted start, defer := c.defer + d }
    | none =>
      match (s.ehmP p).slot with
      | none => s
      | some x =>
        let pw := s.measPw p
        let s := (s.noteEstimate p 1).modHp p fun h => { h with latch := s.sliceBits p (oneDot (s.nEl p) x.elem) 1 }
        match s.place p 1 pw (2 * pw) e ta with
        | none => (s.oversize p).modEhm p fun h => { h with slot := some { x with lost := true } }
        | some (start, d, ma) =>
          -- word 28 begins 28 × 5.208 µs after word 0
          if (start - x.start).toNat + 2 * pw > 14583 then s.modEhm p fun h => { h with slot := some { x with lost := true } }
          else (s.reserve p start d ma (2 * pw) 1).modEhm p fun h =>
            { h with slot := some { x with grant := some (start, start + BitVec.ofNat 64 (2 * pw)) } }

/-- STROBE_ON: the granted start has come (R183). DEDUCED, log entry 125. -/
def State.strobeOn (s : State) (p : Port) : State :=
  if s.shut p then s
  else match (s.hpP p).cur with
  | some c =>
    match c.st with
    | .granted t =>
      if s.time.toNat < t.toNat then s
      else
        let pulses := s.slicePulses p ((c.data.map (·.counts)).getD []) c.slice c.w t
        let s := s.modHp p fun h => { h with pulses := pulses }
        (s.modCur p fun c => { c with st := .firing (t + BitVec.ofNat 64 (s.tFire p c.w)) }).isumPeak
    | _ => s
  | none =>
    match (s.ehmP p).slot with
    | some x =>
      match x.grant with
      | some (a, b) =>
        if a.toNat ≤ s.time.toNat ∧ s.time.toNat < b.toNat then
          let pulses := s.elemPulse p x.elem (s.measPw p) a
          ((s.modEhm p fun h => { h with slot := some { x with strobe := true } }).modHp p fun h => { h with pulses := pulses }).isumPeak
        else s
      | none => s
    | none => s

/-- SLICE_FIRE_END: the strobes go inactive and the reservation ends (R181, 08 R207). DEDUCED, log entry 160. -/
def State.sliceFireEnd (s : State) (p : Port) : State :=
  match (s.hpP p).cur with
  | some c =>
    match c.st with
    | .firing t =>
      if s.time.toNat < t.toNat then s
      else
        let s := s.endResv p
        let n := (c.data.map (·.nLine)).getD 0
        if ¬ s.running (Pg.hp p) then s.abandonLine p
        else if ¬ s.running Pg.sba ∧ c.slice < n then (s.abandonLine p).enterHold p St.aborted
        else
          let after := t + BitVec.ofNat 64 (s.tsl p)
          s.modCur p fun c =>
            if c.slice ≥ n then { c with st := .ending after }
            else { c with st := .shifting, slice := c.slice + 1
                          nextLatch := if c.nextLatch.toNat < after.toNat then after else c.nextLatch }
    | _ => s
  | none =>
    match (s.ehmP p).slot with
    | some x =>
      match x.grant with
      | some (_, b) =>
        if ¬ x.strobe ∨ s.time.toNat < b.toNat then s
        else
          let s := (s.endResv p).modEhm p fun h => { h with slot := some { x with strobe := false } }
          if x.yielded then s.dropSlot p R.EHM_Pp_YIELD else s
      | none => s
    | none => s

-- triggers (R187 to R191)

def State.starve (s : State) (p : Port) : State := (s.count R.HPn_STARVE p.val).irq (Pg.hp p) 7

/-- A line overrun: the second unstarted line is dropped (R190). -/
def State.overrun (s : State) (p : Port) (l : Line) : State :=
  let s := ((s.count R.HPn_OVR p.val).raise (Pg.hp p) 0).irq (Pg.hp p) 4
  let s := (s.hheDrop p l).captureDrop p fun x => x.uid == l.uid && x.k == l.k
  let s := ((s.bandLineGone l.band).lineGone p l none).modHhe p fun x => { x with gap1 := x.gap1 + 1 }
  let s := s.modHp p fun h =>
    { h with overruns := (h.trigNo :: h.overruns).filter fun n => h.trigNo < n + 1024 }
  let s := if (s.hpP p).overruns.length ≥ 16 ∧ (s.hpP p).burstArmed then
      (s.raise (Pg.hp p) 1).modHp p fun h => { h with burstArmed := false }
    else s
  s.winCheck p

/-- One trigger (R190, R191); lines whose PRINT is no longer in flight are held, so a trigger neither starts nor drops
them (03 R74). DEDUCED, log entry 28. -/
def State.trigger (s : State) (p : Port) : State :=
  let s := s.modHp p fun h => { h with trigNo := h.trigNo + 1, trigTimes := (s.time :: h.trigTimes).take 9 }
  if (s.hpP p).hold.isSome ∨ s.shut p ∨ ¬ s.computes p then s.starve p
  else match s.nextLive p with
    | none => s.starve p
    | some l =>
      if ¬ (s.hpP p).pendTrig then
        (if s.canStart p then s.takeStart p l else s.modHp p fun h => { h with pendTrig := true })
      else match (s.lines p).drop 1 with
        | l :: _ => if s.lineLive l then s.overrun p l else s.starve p
        | [] => s.starve p

/-- One count of the encoder reaches the port: `pos` is its new position (R187, R188). -/
def State.hpCount (s : State) (p : Port) (pos : Word) : State :=
  if ¬ s.running (Pg.hp p) ∨ ¬ s.paced p then s
  else
    let h := s.hpP p
    let back := s.flag F.HPn_PACE_EDIR p.val
    let fwd (b a : Word) : Int := if back then sdiff a b else sdiff b a
    let d := fwd pos h.hwm
    if d > 0 then
      let s := (s.modHp p fun h => { h with hwm := pos, revArmed := true }).wr R.HPn_HWM pos p.val
      if fwd pos (h.trigAt.extractLsb' 16 32) ≥ 0 then
        let pitch : BitVec 48 := (s.rdAct R.HPn_EPITCH p.val).setWidth 48
        let s := s.modHp p fun h => { h with trigAt := if back then h.trigAt - pitch else h.trigAt + pitch }
        s.trigger p
      else s
    else if d < -(s.fld F.HPn_PACE_WB p.val : Int) then
      if h.revArmed then
        (((s.modHp p fun h => { h with revArmed := false }).count R.HPn_REVERSE p.val).raise (Pg.hp p) 2).irq (Pg.hp p) 5
      else s
    else if d = 0 then s.modHp p fun h => { h with revArmed := true }
    else s

/-- HP_ESYNC: T is set to the value written, with a fraction of 0 (R188). -/
def State.hpEsync (s : State) (p : Port) (pos : Word) : State :=
  s.modHp p fun h => { h with trigAt := pos.setWidth 48 <<< 16 }

/-- HPn_PACE.QE's position. DEDUCED, log entry 27. -/
def State.hpEnc (s : State) (p : Port) : Word := s.rd R.QEn_POS_LO (s.fld F.HPn_PACE_QE p.val)

/-- The port enters RUN (R188, R198): HWM and T from the encoder; HOLD if lines were held when it left. -/
def State.hpEnter (s : State) (p : Port) : State :=
  let pos := s.hpEnc p
  let pitch : BitVec 48 := (s.rdAct R.HPn_EPITCH p.val).setWidth 48
  let t : BitVec 48 := pos.setWidth 48 <<< 16
  let s := s.modHp p fun h =>
    { h with hwm := pos, trigAt := if s.flag F.HPn_PACE_EDIR p.val then t - pitch else t + pitch
             revArmed := true, trigTimes := [], timerDone := true, pendTrig := false
             hold := if h.heldAtStop then some St.aborted else none, heldAtStop := false }
  let s := if (s.hpP p).hold.isSome then (s.modHhe p fun x => { x with demand := true }).irq (Pg.hp p) 9 else s
  ((s.wr R.HPn_HWM pos p.val).modSba p fun x => { x with restart := true }).ehmTouch p

/-- The encoder of the port left RESETTING (R189): T keeps its distance from HWM. -/
def State.hpResync (s : State) (p : Port) (pos : Word) : State :=
  let s := s.modHp p fun h =>
    { h with trigAt := h.trigAt + ((pos - h.hwm).setWidth 48 <<< 16), hwm := pos }
  s.wr R.HPn_HWM pos p.val

/-- The port leaves RUN (R198): without a strobe its line ends at once; what is held is remembered. -/
def State.hpLeave (s : State) (p : Port) (now : Bool) : State :=
  let busy := (s.hpP p).cur.isSome
  let s := s.modHp p fun h => { h with heldAtStop := h.heldAtStop || busy || !(s.lines p).isEmpty }
  let firing : Bool := match (s.hpP p).cur with
    | some c => match c.st with
      | .firing _ => true
      | _ => false
    | none => false
  let s := if firing ∧ ¬ now then s else s.abandonLine p
  ((s.dropSlot p R.EHM_Pp_DISC).modHp p fun h => { h with pendTrig := false }).ehmTouch p

-- the Shutter (R194 to R197)

/-- The Shutter of a port gets a cause: the line in progress is abandoned, and unless the cause is HOST the held
PRINTs complete `st` and the port is in HOLD (R194, R196). -/
def State.shutClose (s : State) (p : Port) (f : Causes → Causes) (st : Option Byte) : State :=
  let was := s.shut p
  let s := s.modHp p fun h => { h with causes := f h.causes }
  let s := ((s.abandonLine p).dropTrig p).dropSlot p R.EHM_Pp_DISC
  let s := if was then s else s.irq (Pg.hp p) 6
  let s := s.ehmTouch p
  match st with
  | some x => if s.running (Pg.hp p) then s.enterHold p x else s.printsOut p x
  | none => s

/-- Causes clear; when the last one has, the Shutter opens and OVRBURST, CLIPBURST and CONSEC start anew (R190, R194,
08 R213). -/
def State.shutClear (s : State) (p : Port) (f : Causes → Causes) : State :=
  let was := s.shut p
  let s := s.modHp p fun h => { h with causes := f h.causes }
  if was ∧ ¬ s.shut p then
    let s := s.modHp p fun h => { h with burstArmed := true }
    let s := (s.modSba p fun x => { x with consec := 0, burstArmed := true }).setFld F.SBA_Pp_CLIP_CONSEC 0 p.val
    s.ehmTouch p
  else s

/-- SHUTTER_CLOSE_HOST. -/
def State.shutHost (s : State) (p : Port) : State := s.shutClose p (fun c => { c with host := true }) none

/-- SHUTTER_OPEN: HOST, STBLONG and SBARST clear. -/
def State.shutOpen (s : State) (p : Port) : State :=
  s.shutClear p fun c => { c with host := false, stbLong := false, sbaRst := false }

/-- STBLONG: a strobe output has been active for `us` microseconds, longer than STBMAX (R197); only a driven, open
port has active strobes. DESIGN CHOICE, log entry 121. -/
def State.stbLong (s : State) (p : Port) (us : Nat) : State :=
  if ¬ s.flag F.HPn_CFG_OE p.val ∨ s.shut p ∨ us ≤ max 1 (s.fld F.HPn_STBMAX_MAX p.val) then s
  else (s.shutClose p (fun c => { c with stbLong := true }) (some St.aborted)).raise (Pg.hp p) 3

/-- A head-open or head-closed event of the port (R194). -/
def State.headOpen (s : State) (p : Port) : State :=
  if s.flag F.HPn_CFG_HOPENSHUT p.val then s.shutClose p (fun c => { c with headOpen := true }) (some St.mediaOut) else s
/-- HOPEN_SHUT is 1 again, by a write or a block reset: an open head is a cause from then on (R194). -/
def State.headLook (s : State) (p : Port) : State := if s.headShut p then s else s.headOpen p
def State.headClosed (s : State) (p : Port) : State := s.shutClear p fun c => { c with headOpen := false }

/-- Paper-out reaches the port: it finishes the line in progress and starts no further one (R193). -/
def State.paperOut (s : State) (p : Port) : State :=
  if (s.hpP p).cur.isSome then s.modHp p fun h => { h with paperOut := true } else s.paperStop p

/-- HPn_SHUT (R202). -/
def State.hpShutWord (s : State) (p : Port) : Word :=
  let c := (s.hpP p).causes
  BitVec.ofNat 32 (c.sbaRst.toNat * 512 + c.stbLong.toNat * 256 + c.headOpen.toNat * 128 + c.fault.toNat * 64 +
    c.host.toNat * 32 + c.closed.toNat)

/-- HPn_STAT (R202, R203). -/
def State.hpStatWord (s : State) (p : Port) : Word :=
  let h := s.hpP p
  let (n, k) := match h.cur with
    | some c => ((c.data.map (·.nLine)).getD 0, c.slice)
    | none => (0, 0)
  BitVec.ofNat 32 (n * 512 + k * 16 + h.pendTrig.toNat * 8 + s.hpState p)

-- encoders (10 R266, R267)

def State.qeS (s : State) (e : QeNum) : QeSt := s.qe[e]
def State.modQe (s : State) (e : QeNum) (f : QeSt → QeSt) : State := { s with qe := s.qe.set e (f s.qe[e]) }

/-- The levels A and B as the decoder sees them: inverted, then exchanged (10 R266). -/
def State.qeIn (s : State) (e : QeNum) (a b : Bool) : Bool × Bool :=
  let a := a != s.flag F.QEn_CFG_INVA e.val
  let b := b != s.flag F.QEn_CFG_INVB e.val
  if s.flag F.QEn_CFG_SWAP e.val then (b, a) else (a, b)

/-- The count of one sample: +1, −1 or none; A leading B counts up, as mode 0b11's B high counting down has it.
DEDUCED, log entry 32. -/
def qeDecode (mode : Nat) (a0 b0 a b : Bool) : Int :=
  let aEdge := a0 != a
  let bEdge := b0 != b
  match mode with
  | 0 => if aEdge then (if a != b then 1 else -1) else if bEdge then (if a == b then 1 else -1) else 0
  | 1 => if aEdge then (if a != b then 1 else -1) else 0
  | 2 => if aEdge && a then (if b then -1 else 1) else 0
  | _ => if aEdge && a then (if b then -1 else 1) else 0

/-- The position changes by one and reaches axes and head ports (10 R267). -/
def State.qeStep (s : State) (e : QeNum) (up : Bool) : State :=
  let old := (s.rd R.QEn_POS_HI e.val).toNat * 4294967296 + (s.rd R.QEn_POS_LO e.val).toNat
  let new := (if up then old + 1 else old + 281474976710655) % 281474976710656
  let lo := BitVec.ofNat 32 new
  let s := (s.wr R.QEn_POS_LO lo e.val).wr R.QEn_POS_HI (BitVec.ofNat 32 (new / 4294967296)) e.val
  let s := s.gearSource e.val up
  (List.finRange 4).foldl (fun s p => if s.fld F.HPn_PACE_QE p.val = e.val then s.hpCount p lo else s) s

/-- A sample of the levels: in the quadrature modes one in which both change is an invalid transition. -/
def State.qeSample (s : State) (e : QeNum) (la lb : Bool) : State × Bool :=
  let (a, b) := s.qeIn e la lb
  let (a0, b0) := s.qeIn e (s.qeS e).a (s.qeS e).b
  let invalid : Bool := decide (s.fld F.QEn_CFG_MODE e.val < 3) && a0 != a && b0 != b
  let s := s.modQe e fun y => { y with a := la, b := lb }
  if invalid then (((s.count R.QEn_QERR e.val).raise (Pg.qe e) 0).irq (Pg.qe e) 5, true)
  else match qeDecode (s.fld F.QEn_CFG_MODE e.val) a0 b0 a b with
    | 1 => (s.qeStep e true, false)
    | -1 => (s.qeStep e false, false)
    | _ => (s, false)

/-- Levels that have been stable for `n` clocks count (R266). -/
def State.qeStable (s : State) (e : QeNum) (n : Word) : Bool :=
  s.running (Pg.qe e) && decide (s.fld F.QEn_CFG_FILT e.val + 1 ≤ n.toNat)

/-- QE_COUNT: an accepted edge, to levels stable for `n` clocks. Frozen inputs are ignored. DEDUCED, log entry 144. -/
def State.qeCount (s : State) (e : QeNum) (la lb : Bool) (n : Word) : State :=
  if ¬ s.qeStable e n then s
  else match s.qeSample e la lb with
    | (s', bad) => if bad then s else s'

/-- INVALID_TRANSITION. -/
def State.qeInvalid (s : State) (e : QeNum) (la lb : Bool) (n : Word) : State :=
  if ¬ s.qeStable e n then s
  else match s.qeSample e la lb with
    | (s', bad) => if bad then s' else s

/-- QE_INDEX: the index input has a new level; a rising edge latches the position. -/
def State.qeIndex (s : State) (e : QeNum) (level : Bool) (n : Word) : State :=
  let inv := s.flag F.QEn_CFG_INVI e.val
  if ¬ s.qeStable e n then s
  else if (s.qeS e).i != inv ∨ level = inv then s.modQe e fun y => { y with i := level }
  else
    let s := (s.modQe e fun y => { y with i := level }).wr R.QEn_IDX (s.rd R.QEn_POS_LO e.val) e.val
    (s.setFld F.QEn_IDXCNT_COUNT (s.fld F.QEn_IDXCNT_COUNT e.val + 1) e.val).irq (Pg.qe e) 4

/-- QE_RATE_WINDOW: 1.024 ms have passed. -/
def State.qeRateWindow (s : State) (e : QeNum) : State :=
  let x := s.qeS e
  if ¬ s.running (Pg.qe e) ∨ s.since x.windowAt < 102400 then s
  else
    let pos := s.rd R.QEn_POS_LO e.val
    (s.wr R.QEn_RATE (pos - x.rateBase) e.val).modQe e fun y => { y with rateBase := pos, windowAt := s.time }

-- levels of the pads (R176, R177, R180, R195)

/-- The levels of HPn_STB0 to HPn_STB7 now, none while OE is 0: a pad is active during the pulse of its group while
the Shutter is open and the port is at work. -/
def State.strobePads (s : State) (p : Port) : Option (List Bool) :=
  let on (g : Nat) : Bool := !s.shut p && s.working (Pg.hp p) &&
    (s.hpP p).pulses.any fun x => x.group == g && decide (x.on.toNat ≤ s.time.toNat) && decide (s.time.toNat < x.off.toNat)
  if ¬ s.flag F.HPn_CFG_OE p.val then none
  else some ((List.range 8).map fun g => on g == (s.fld F.HPn_POL_STBPOL p.val).testBit g)

/-- The level of HPn_LAT now, none while OE is 0: active for LATW clocks from the start of a latch pulse (R177,
R181). -/
def State.latchPad (s : State) (p : Port) : Option Bool :=
  let on : Bool := s.working (Pg.hp p) && match (s.hpP p).latAt with
    | some t => decide (t.toNat ≤ s.time.toNat) && decide (s.time.toNat < t.toNat + s.latw p)
    | none => false
  if ¬ s.flag F.HPn_CFG_OE p.val then none else some (on == s.flag F.HPn_POL_LATPOL p.val)

/-- The bit of the shift in progress and how far its period is, in clocks; none between shifts (R180). -/
def State.shiftBit (s : State) (p : Port) : Option (Nat × Nat) :=
  match (s.hpP p).shiftAt with
  | some t =>
    let n := s.time.toNat - t.toNat
    if s.working (Pg.hp p) ∧ t.toNat ≤ s.time.toNat ∧ n < s.tShift p then
      some (n / s.fld F.HPn_CFG_CLKDIV p.val, n % s.fld F.HPn_CFG_CLKDIV p.val)
    else none
  | none => none

/-- The level of HPn_CLK now, none while OE is 0: a bit's data change as its period begins, and the head samples
ceil(CLKDIV / 2) clocks later (R180, 20 R504). DEDUCED, log entry 175. -/
def State.clockPad (s : State) (p : Port) : Option Bool :=
  let on : Bool := match s.shiftBit p with
    | some (_, n) => decide (ceilDiv (s.fld F.HPn_CFG_CLKDIV p.val) 2 ≤ n)
    | none => false
  if ¬ s.flag F.HPn_CFG_OE p.val then none else some (on != s.flag F.HPn_POL_CLKPOL p.val)

/-- The levels of HPn_DAT0 to HPn_DAT15 now, none while OE is 0 (R176, R177, R179): lanes that are not in use are low;
on one in use no rule gives a level between shifts. -/
def State.dataPads (s : State) (p : Port) : Option (List (Option Bool)) :=
  if ¬ s.flag F.HPn_CFG_OE p.val then none
  else some ((List.range 16).map fun j =>
    if s.lanes p ≤ j then some false
    else match s.shiftBit p with
      | some (k, _) => some (((s.hpP p).shiftBits.getD j []).getD k false)
      | none => none)

end Sys2Proof.Machine
end

