-- ==== Sys2Proof/Machine/Media.lean ====
section
/-! DEFINITION. Media sensing (12 R300 to R313), the waits of WAIT_MEDIA (04 R99), and the step of an axis as sensors and
waits see it. -/

namespace Sys2Proof.Machine

-- bits of PG_IRQ_STAT of the MED page: 4 EDGE, 5 PAPER, 6 HEAD, 7 CALDONE, 8 CALFAIL, 9 DRIFT, 10 STALE, 11 REFCHK, 12 GPI

def State.unit (s : State) (u : UnitNum) : MedUnit := s.med.units[u]
def State.modUnit (s : State) (u : UnitNum) (f : MedUnit → MedUnit) : State :=
  { s with med := { s.med with units := s.med.units.set u (f s.med.units[u]) } }

/-- EN is 1; TYPE 0b11 acts as EN = 0 (R316). -/
def State.unitOn (s : State) (u : UnitNum) : Bool :=
  s.flag F.MED_Uu_CFG_EN u.val && s.fld F.MED_Uu_CFG_TYPE u.val != 3

/-- MOC_PORTp_FPOS of the unit's port. -/
def State.unitPos (s : State) (u : UnitNum) : Word := s.feedPos (Fin.ofNat 4 (s.fld F.MED_Uu_CFG_PORT u.val))

/-- 2^TC, the nearer limit outside 10 to 24. -/
def State.unitTc (s : State) (u : UnitNum) : Nat := 2 ^ clampField (s.fld F.MED_Uu_CFG_TC u.val) 10 24

def State.unitB0 (s : State) (u : UnitNum) : Int := sgn 16 (s.fld F.MED_Uu_BASE_B0 u.val)

-- waits of WAIT_MEDIA (04 R99, 10 R256)

def State.modWaits (s : State) (f : List MediaWait → List MediaWait) : State :=
  { s with med := { s.med with waits := f s.med.waits } }

/-- The condition of events 0x4 to 0x6. -/
def State.mediaHolds (s : State) (p : Port) (ev : Nat) : Bool :=
  match ev with
  | 4 => s.paperIn p
  | 5 => s.headShut p
  | 6 => s.paperIn p && s.headShut p
  | _ => false

/-- A job of an axis that belongs to a wait, as it runs or waits there. -/
def AxJob.stopAt (j : AxJob) : Option Int :=
  match j.kind with
  | .search _ off => off
  | _ => none

/-- The event of a wait has come at feed position `tag`. -/
def State.waitMet (s : State) (w : MediaWait) (tag : Word) : State :=
  let s := s.modWaits fun l => l.filter fun x => x.uid != w.uid
  match w.axis with
  | none => s.finish w.q w.uid St.ok
  | some a =>
    let x := s.axS a
    match x.job.filter fun j => j.uid == w.uid with
    | some j =>
      if x.act ≠ .search ∨ x.endSt ≠ St.ok ∨ x.stop.isSome then s
      else match j.stopAt with
        | none => s.axBrake a false St.ok
        | some off =>
          let t := tag + BitVec.ofInt 32 (s.lineSteps a off)
          (s.modAx a fun y => { y with job := some { j with kind := .goto t } }).axRetarget a t
    | none =>
      match x.waiting.find? fun j => j.uid == w.uid with
      | none => s
      | some j =>
        match j.stopAt with
        | none => s.finish w.q w.uid St.ok
        | some off => s.modAx a fun y =>
            { y with waiting := y.waiting.map fun (k : AxJob) =>
                if k.uid = w.uid then { k with kind := .goto (tag + BitVec.ofInt 32 (s.lineSteps a off)) } else k }

/-- Waits on event `ev` of a port. -/
def State.mediaEvent (s : State) (p : Port) (ev : Nat) (tag : Word) : State :=
  (s.med.waits.filter fun w => w.port == p && w.ev == ev).foldl (fun s w => s.waitMet w tag) s

/-- State conditions that hold now. -/
def State.mediaStates (s : State) (p : Port) : State :=
  [4, 5, 6].foldl (fun s ev => if s.mediaHolds p ev then s.mediaEvent p ev (s.feedPos p) else s) s

/-- A paper-out or head-open event of a port reaches waits and axes (04 R98, R99, 10 R251).
DEDUCED, log entry 166. -/
def State.mediaOut (s : State) (p : Port) (hard : Bool) : State :=
  let s := (List.finRange 8).foldl (fun s a =>
    match (s.axS a).job with
    | some j =>
      let cutting : Bool := match j.kind with
        | .cut _ => true
        | _ => false
      if j.port = some p ∧ ¬ cutting then s.axBrake a hard St.mediaOut else s
    | none => s) s
  let hit (w : MediaWait) : Bool := w.port == p && decide (w.ev < 4) && (match w.axis with
    | none => true
    | some a => (s.axS a).waiting.any fun j => j.uid == w.uid)
  (s.med.waits.filter hit).foldl (fun s w =>
    (s.modWaits fun l => l.filter fun x => x.uid != w.uid).finish w.q w.uid St.mediaOut) s

/-- Media order of a WAIT_MEDIA is satisfied: it completes, or waits for its event (R99). DEDUCED, log entry 51. -/
def State.waitStart (s : State) (q : QNum) (uid : Nat) (e : Entry) (p : Port) : State :=
  let ev := e.sp % 16
  let limit := e.w1.toNat
  if s.mediaHolds p ev then s.finish q uid St.ok
  else if e.flags % 2 = 1 then
    match s.feedAx p with
    | none => s.badCmd q uid 3
    | some a =>
      let off := if e.flags / 2 % 2 = 1 then some e.w2.toInt else none
      let s := s.modWaits fun l => l ++ [MediaWait.mk q uid p ev (some a) none]
      s.axSubmit a { q := q, uid := uid, port := some p, kind := .search limit off }
  else
    let due := if limit = 0 then none else some (s.time + BitVec.ofNat 64 (limit * msTicks))
    s.modWaits fun l => l ++ [MediaWait.mk q uid p ev none due]

/-- WAIT_MEDIA_TIMEOUT of a wait without FEED. -/
def State.waitTimeout (s : State) (q : QNum) : State :=
  match s.med.waits.find? fun w => w.q == q && (match w.due with
      | some t => decide (t.toNat ≤ s.time.toNat)
      | none => false) with
  | some w => (s.modWaits fun l => l.filter fun x => x.uid != w.uid).finish w.q w.uid St.mediaTimeout
  | none => s

-- calibration (R309)

/-- A calibration that found no span: the baseline accumulator starts anew, the thresholds stay (R309, R310). -/
def State.calFail (s : State) (u : UnitNum) : State :=
  let tc : Int := s.unitTc u
  ((s.modUnit u fun x => { x with bacc := x.b * tc, pitch := false }).setBit F.MED_Uu_STAT_CALFAIL true u.val).irq Pg.med 8

/-- The calibration of unit `u` has covered its distance. -/
def State.calEnd (s : State) (u : UnitNum) (lo hi : Int) : State :=
  let s := s.modUnit u fun x => { x with cal := none }
  let span := hi - lo
  if span < s.fld F.MED_Uu_CAL_MINSPAN u.val then s.calFail u
  else
    let b0 := if s.flag F.MED_Uu_CFG_INV u.val then hi else lo
    let tc : Int := s.unitTc u
    let s := s.setFld F.MED_Uu_THR_THI (lowBits 16 (lo + 5 * span / 8)) u.val
    let s := s.setFld F.MED_Uu_THR_TLO (lowBits 16 (lo + 3 * span / 8)) u.val
    let s := s.setFld F.MED_Uu_BASE_B0 (lowBits 16 b0) u.val
    (s.modUnit u fun x => { x with b := b0, bacc := b0 * tc, driftArmed := true, pitch := false }).irq Pg.med 7

/-- A calibration ends once the feed has covered CALDIST steps (R309). DEDUCED, log entry 145. -/
def State.calCheck (s : State) (u : UnitNum) : State :=
  match (s.unit u).cal with
  | none => s
  | some (start, mm) =>
    if sdiff (s.unitPos u) start < s.fld F.MED_Uu_CAL_CALDIST u.val then s
    else match mm with
      | some (lo, hi) => s.calEnd u lo hi
      | none => (s.modUnit u fun x => { x with cal := none }).calFail u

/-- A calibration of unit `u` starts, or starts again. -/
def State.calStart (s : State) (u : UnitNum) : State :=
  if s.running Pg.med ∧ s.unitOn u then
    let pos := s.unitPos u
    (s.modUnit u fun x => { x with cal := some (pos, none) }).calCheck u
  else s

/-- A unit that has stayed ACTIVE for more than MAXACT steps of feed travel (R307). -/
def State.actCheck (s : State) (u : UnitNum) : State :=
  let x := s.unit u
  let most := s.fld F.MED_Uu_LIM_MAXACT u.val
  let pos := s.unitPos u
  if x.active ∧ most ≠ 0 ∧ sdiff pos (x.lead.getD pos) > most then s.modUnit u fun x => { x with tooLong := true } else s

-- port events (R302, R307, R312)

/-- Changes of PAPER and HEAD_CLOSED of one port since they were last reported. -/
def State.portEvent (s : State) (p : Port) : State :=
  let paper := s.paperIn p
  let head := s.headShut p
  let was := (s.med.paper[p], s.med.head[p])
  let s := { s with med := { s.med with paper := s.med.paper.set p paper, head := s.med.head.set p head } }
  let s :=
    if paper = was.1 then s
    else
      let s := s.irq Pg.med 5
      if paper then
        (List.finRange 8).foldl (fun s u =>
          if s.flag F.MED_Uu_CFG_AUTOCAL u.val ∧ s.fld F.MED_Uu_CFG_TYPE u.val < 2 ∧ s.fld F.MED_Uu_CFG_PORT u.val = p.val then
            s.calStart u
          else s) s
      else (s.paperOut p).mediaOut p false
  let s :=
    if head = was.2 then s
    else
      let s := s.irq Pg.med 6
      if head then s.headClosed p else (s.headOpen p).mediaOut p true
  s.mediaStates p

def State.medPorts (s : State) : State := (List.finRange 4).foldl (fun s p => s.portEvent p) s

-- words (R303 to R310)

/-- An edge of a GAP or MARK unit, whose state is already the new one (R305, R306). DEDUCED, log entry 49. -/
def State.medEdge (s : State) (u : UnitNum) : State :=
  let x := s.unit u
  let lead := x.active
  let s := (((s.wr R.MED_Uu_EDGE x.tag u.val).count R.MED_Uu_EDGES u.val)).irq Pg.med 4
  let s := match x.lead with
    | none => s
    | some l =>
      let d := sdiff x.tag l
      if d ≤ 0 then s
      else if lead then (if x.pitch then s.setFld F.MED_Uu_LEN_PITCH (min d.toNat 0xFFFF) u.val else s)
      else s.setFld F.MED_Uu_LEN_ACTLEN (min d.toNat 0xFFFF) u.val
  let s := s.modUnit u fun y =>
    { y with lead := if lead then some x.tag else y.lead, pitch := y.pitch || lead, trailing := !lead }
  let ev := 2 * s.fld F.MED_Uu_CFG_TYPE u.val + (if lead then 0 else 1)
  (List.finRange 4).foldl (fun s p =>
    if s.gapUnit p = some u ∨ s.markUnit p = some u then s.mediaEvent p ev x.tag else s) s

/-- The baseline follows a Y of an INACTIVE unit (R310). -/
def State.medBase (s : State) (u : UnitNum) (y : Int) : State :=
  let x := s.unit u
  if x.active then s
  else
    let tc : Int := s.unitTc u
    let bacc := x.bacc + y - x.bacc / tc
    let b := bacc / tc
    let far : Bool := decide ((b - s.unitB0 u).natAbs > s.fld F.MED_Uu_LIM_DRIFTMAX u.val)
    let s := s.modUnit u fun x => { x with bacc := bacc, b := b, driftArmed := x.driftArmed && !far }
    if far ∧ x.driftArmed then (s.raise Pg.med u.val).irq Pg.med 9 else s

/-- The state that a Y votes for (R304). -/
def State.medVote (s : State) (u : UnitNum) (y : Int) : Bool :=
  let x := s.unit u
  let dofs := if s.flag F.MED_Uu_CFG_DRIFT u.val then x.b - s.unitB0 u else 0
  let hi : Bool := decide (y ≥ sat (sgn 16 (s.fld F.MED_Uu_THR_THI u.val) + dofs) (-32768) 32767)
  let lo : Bool := decide (y ≤ sat (sgn 16 (s.fld F.MED_Uu_THR_TLO u.val) + dofs) (-32768) 32767)
  if hi == lo then x.active else hi != s.flag F.MED_Uu_CFG_INV u.val

/-- One Y of a unit: vote, edge, MAXACT and calibration. DEDUCED, log entry 47. -/
def State.medLevel (s : State) (u : UnitNum) (y : Int) : State :=
  let s := (((s.calCheck u).modUnit u fun x => { x with y := y })).medBase u y
  let x := s.unit u
  let pos := s.unitPos u
  let want := s.medVote u y
  let s :=
    if want = x.active then s.modUnit u fun x => { x with votes := 0 }
    else
      let s := s.modUnit u fun x => { x with votes := x.votes + 1, tag := if x.votes = 0 then pos else x.tag }
      if (s.unit u).votes ≥ max 1 (s.fld F.MED_Uu_CFG_DEB u.val) then
        let s := s.modUnit u fun x => { x with active := want, votes := 0, tooLong := x.tooLong && want }
        if s.fld F.MED_Uu_CFG_TYPE u.val < 2 then s.medEdge u else s
      else s
  let s := s.actCheck u
  (s.modUnit u fun x => { x with cal := x.cal.map fun c => (c.1, some (match c.2 with
    | some (lo, hi) => (min lo y, max hi y)
    | none => (y, y))) }).calCheck u

/-- A settled word of the unit's channel (R303, R308). -/
def State.medUnitWord (s : State) (u : UnitNum) (code : Int) : State :=
  let k := 2 ^ s.fld F.MED_Uu_CFG_K u.val
  let s := s.modUnit u fun x =>
    let x := if x.stale then { x with stale := false, active := false, tooLong := false, votes := 0 } else x
    { x with lastWord := s.time, ys := ((code / 256) :: x.ys).take k }
  let ys := (s.unit u).ys
  if ys.length < k then s else s.medLevel u (ys.foldl (· + ·) 0 / (k : Nat))

/-- The reference check (R311). -/
def State.medRef (s : State) (code : Int) : State :=
  if ¬ s.flag F.MED_REF_EN then s
  else
    let far : Bool := decide ((code - 6553600).natAbs > s.fld F.MED_REF_TOL)
    let armed := s.med.refArmed
    let s := { s with med := { s.med with refArmed := !far } }
    if far ∧ armed then (s.raise Pg.med 16).irq Pg.med 11 else s

/-- A settled word reaches MED: units in ascending number, then port events (R312). -/
def State.medWord (s : State) (ch : Nat) (code : Int) : State :=
  if ¬ s.running Pg.med then s
  else
    let s := if ch = 38 then s.medRef code else s
    ((List.finRange 8).foldl (fun s u =>
      if s.unitOn u ∧ s.fld F.MED_Uu_CFG_CH u.val = ch then s.medUnitWord u code else s) s).medPorts

/-- UNIT_STALE (R308). DEDUCED, log entry 48. -/
def State.unitStale (s : State) (u : UnitNum) : State :=
  if s.running Pg.med ∧ s.unitOn u ∧ ¬ (s.unit u).stale ∧
      s.since (s.unit u).lastWord ≥ max 1 (s.fld F.MED_STALE_T) * msTicks then
    (((s.modUnit u fun x => { x with stale := true }).raise Pg.med (8 + u.val)).irq Pg.med 10).medPorts
  else s

/-- A write of MED_Uu_CFG: `old` is the value before (R303, R304, R306, R310). -/
def State.unitCfg (s : State) (u : UnitNum) (old : Word) : State :=
  let was : Bool := old.getLsbD 31 && wbits old 26 2 != 3
  let on := s.unitOn u
  let now := s.rd R.MED_Uu_CFG u.val
  let refilter : Bool := wbits now 0 6 != wbits old 0 6 || wbits now 17 2 != wbits old 17 2
  let tc : Int := s.unitTc u
  let s :=
    if on ∧ ¬ was then
      s.modUnit u fun x =>
        { x with ys := [], active := false, stale := false, votes := 0, tooLong := false, lead := none, pitch := false,
                 bacc := x.b * tc, lastWord := s.time }
    else if on then (if refilter then s.modUnit u fun x => { x with ys := [] } else s)
    else s.modUnit u fun x => { x with ys := [], active := false, stale := false, votes := 0, tooLong := false, cal := none }
  s.medPorts

/-- MED enters RUN (R313). -/
def State.medEnter (s : State) : State :=
  { s with med := { s.med with blank := false, units := s.med.units.map fun (x : MedUnit) =>
      { x with ys := [], active := false, stale := false, votes := 0, tooLong := false, lastWord := s.time } } }.medPorts

/-- A block reset of MED: the levels `gpi` of the inputs stay, and MED_GPI reads 0 until MED runs again; the registers
of the page, PG_IRQ_STAT too, are at their reset values (02 R36). DEDUCED, log entry 161. -/
def State.medReset (s : State) (gpi : Word) : State :=
  let s := s.wr R.MED_GPI gpi
  let s := { s with med := { s.med with units := Vector.replicate 8 {}, refArmed := true, blank := true } }.medPorts
  s.modPage Pg.med fun x => { x with irqStat := 0 }

/-- MED_CALSTART. DEDUCED, log entry 46. -/
def State.medCalstart (s : State) (units : BitVec 8) : State :=
  (List.finRange 8).foldl (fun s u => if units.getLsbD u.val then s.calStart u else s) s

/-- GPI_DEBOUNCE: an input has held a level for `us` microseconds; RAW shows it, LEVEL once it has lasted DEB × 100 µs
(R301, R265). DEDUCED, log entry 50. -/
def State.gpiDebounce (s : State) (i : Fin 16) (level : Bool) (us : Word) : State :=
  let put (s : State) (f : Fld) : State :=
    s.setFld f ((s.fld f) / 2 ^ (i.val + 1) * 2 ^ (i.val + 1) + level.toNat * 2 ^ i.val + s.fld f % 2 ^ i.val)
  let was : Bool := (s.fld F.MED_GPI_LEVEL).testBit i.val
  let s := put s F.MED_GPI_RAW
  if was = level ∨ us.toNat < 100 * max 1 (s.fld F.MED_GPIDEB_DEB) then s
  else
    let s := put s F.MED_GPI_LEVEL
    let want := if level then s.fld F.MED_GPIIRQ_RISE else s.fld F.MED_GPIIRQ_FALL
    let s := if s.running Pg.med ∧ want.testBit i.val then s.irq Pg.med 12 else s
    (List.finRange 8).foldl (fun s a => if s.fld F.AXn_HOME_IN a.val = i.val then s.homeCheck a else s) s.medPorts

/-- MED_PSTATp (R302, R316). DEDUCED, log entry 44. -/
def State.pstat (s : State) (p : Port) : Word :=
  let act (u : Option UnitNum) : Bool := match u with
    | some u => (s.unit u).active
    | none => false
  let paper := s.paperIn p
  let head := s.headShut p
  BitVec.ofNat 32 ((act (s.markUnit p)).toNat * 16 + (act (s.gapUnit p)).toNat * 8 + (paper && head).toNat * 4 +
    head.toNat * 2 + paper.toNat)

/-- MED_Uu_STAT, with CALFAIL from the store. -/
def State.medStat (s : State) (u : UnitNum) : Word :=
  let x := s.unit u
  BitVec.ofNat 32 (x.trailing.toNat * 16 + x.stale.toNat * 8 + (s.flag F.MED_Uu_STAT_CALFAIL u.val).toNat * 4 +
    x.cal.isSome.toNat * 2 + x.active.toNat)

/-- MED_Uu_LVL. DEDUCED, log entry 45. -/
def State.medLvl (s : State) (u : UnitNum) : Word :=
  let x := s.unit u
  let dofs := if s.flag F.MED_Uu_CFG_DRIFT u.val then x.b - s.unitB0 u else 0
  BitVec.ofNat 32 (lowBits 16 dofs * 65536 + lowBits 16 x.y)

-- steps

/-- Feed travel reaches the sensor units of the ports that axis `a` feeds: MAXACT and calibrations (R307, R309). -/
def State.stepSensed (s : State) (a : AxNum) : State :=
  if ¬ s.running Pg.med then s
  else ((List.finRange 8).foldl (fun s u =>
    if s.unitOn u ∧ s.feedAx (Fin.ofNat 4 (s.fld F.MED_Uu_CFG_PORT u.val)) = some a then (s.actCheck u).calCheck u else s) s).medPorts

/-- The LIMIT of a feeding WAIT_MEDIA, after a step (10 R256). -/
def State.searchLimit (s : State) (a : AxNum) : State :=
  let x := s.axS a
  match x.job with
  | some j =>
    match j.kind with
    | .search limit _ =>
      if x.act = .search ∧ x.stop.isNone ∧ s.travel a ≥ s.lineSteps a limit then s.axBrake a false St.mediaTimeout else s
    | _ => s
  | none => s

/-- STEP_EMIT: a step of an axis falls due (10 R244, R256). -/
def State.stepEmit (s : State) (a : AxNum) : State :=
  if ¬ ((s.working (Pg.ax a) ∨ (s.page (Pg.ax a)).st = .resetting) ∧ s.stepDue a) then s
  else ((s.axStep a).searchLimit a).stepSensed a

-- the LED outputs (R314)

/-- The level of MED_LEDk at clock `t` of its period of 1024 ANA clocks: inactive while MED is not in RUN (R313), none
while the islands are in reset (20 R495). -/
def State.ledLevel (s : State) (k t : Nat) : Option Bool :=
  if s.chip.phase = .up then
    some ((s.running Pg.med && decide (t % 1024 < s.fld F.MED_LEDk_DUTY k)) != s.flag F.MED_LEDk_POL k)
  else none

end Sys2Proof.Machine
end

