-- ==== Sys2Proof/Machine/Adc.lean ====
section
/-! DEFINITION. The oversampling converter (11 R273 to R295): scans, visits, words, calibration and the spare. Time on a
slice is counted in modulator clocks from AdcSt.base. -/

namespace Sys2Proof.Machine

-- bits of PG_IRQ_STAT of the ADC page: 4 FIFO_THR, 5 FIFOOVF, 6 SCAN_DONE, 7 SWAP, 8 SLICEFAIL, 9 CALDONE

def State.slice (s : State) (l : UnitNum) : Slice := s.adc.slices[l]
def State.modSlice (s : State) (l : UnitNum) (f : Slice → Slice) : State :=
  { s with adc := { s.adc with slices := s.adc.slices.set l (f s.adc.slices[l]) } }

/-- Modulator clocks since the base (R276, R293). -/
def State.mclk (s : State) : Nat := s.since s.adc.base * 192 / (if s.actFlag F.ADC_CTRL_LP then 12500 else 3125)

/-- The instant at which modulator clock `c` begins. -/
def State.mclkTime (s : State) (c : Nat) : BitVec 64 :=
  s.adc.base + BitVec.ofNat 64 (ceilDiv (c * (if s.actFlag F.ADC_CTRL_LP then 12500 else 3125)) 192)

-- entries of the scan table (R278, R298)

/-- One entry. -/
structure AdtEntry where
  fifo : Bool
  dwell : Bool
  burst : Bool
  cls : Nat
  nw : Nat
  fir : Bool
  osr : Nat
  gain : Nat
  diff : Bool
  ch : Nat
  div : Nat
  deriving DecidableEq, Repr

def AdtEntry.ofWords (w r : Word) : AdtEntry :=
  { fifo := w.getLsbD 31, dwell := w.getLsbD 30, burst := w.getLsbD 29, cls := wbits w 24 2, nw := wbits w 16 8,
    fir := w.getLsbD 15, osr := 32 * 2 ^ wbits w 12 3, gain := wbits w 8 3, diff := w.getLsbD 6, ch := wbits w 0 6,
    div := max 1 (wbits r 0 8) }

/-- An entry of the active set. -/
def State.adt (s : State) (e : Nat) : AdtEntry := .ofWords (s.rdAct R.ADT_Ee_CFG e) (s.rdAct R.ADT_Ee_RATE e)

/-- S (R277). -/
def AdtEntry.s (e : AdtEntry) : Nat := if e.fir then 5 else 3

/-- Visit time in clocks (R278). -/
def AdtEntry.len (e : AdtEntry) : Nat := (e.s + e.nw) * e.osr

-- assignment (R280)

/-- Entries assigned to one of L0 to L6, and the clocks they take. -/
structure Load where
  entries : List Nat := []
  clocks : Nat := 0
  deriving DecidableEq, Repr

/-- Put an entry on the lowest slice that takes it. -/
def placeEntry (per : Nat) (n : Nat) (e : AdtEntry) : List Load → Option (List Load)
  | [] => none
  | x :: l =>
    let fits : Bool := if e.dwell then x.entries.isEmpty else decide (x.clocks + e.len ≤ per)
    if fits then some (⟨x.entries ++ [n], x.clocks + (if e.dwell then per else e.len)⟩ :: l)
    else (placeEntry per n e l).map fun r => x :: r

/-- Assign SAFETY, then MEDIA entries; the first entry that cannot be placed is the error. -/
def assignAll (per : Nat) (es : List (Nat × AdtEntry)) : Except Nat (List Load) :=
  ((es.filter fun e => e.2.cls == 1) ++ (es.filter fun e => e.2.cls == 2)).foldl (fun r e =>
    match r with
    | .error n => .error n
    | .ok l => match placeEntry per e.1 e.2 l with
      | some l' => .ok l'
      | none => .error e.1) (.ok (List.replicate 7 {}))

-- the commit check (R299)

/-- The reason against one entry, `seen` are the channels of earlier entries. -/
def AdtEntry.reason (e : AdtEntry) (per : Nat) (seen : List Nat) (bursts : Nat) : Nat :=
  if seen.contains e.ch then 1
  else if e.nw = 0 ∧ ¬ e.dwell then 2
  else if e.diff ∧ (e.ch % 2 = 1 ∨ e.ch > 30) then 3
  else if 32 ≤ e.ch ∧ e.ch ≤ 39 ∧ (e.diff ∨ e.gain ≠ 0) then 4
  else if e.burst ∧ (e.cls ≠ 3 ∨ e.osr ≠ 32 ∨ e.nw ≠ 48 ∨ e.fir ∨ bursts ≥ 4) then 5
  else if e.dwell ∧ (e.cls = 3 ∨ e.burst) then 6
  else if e.cls ≠ 3 ∧ ¬ e.dwell ∧ e.len > per then 7
  else if e.ch > 39 then 10
  else 0

/-- The first entry with a reason. DEDUCED, log entry 62. -/
def adtReason (per : Nat) : List (Nat × AdtEntry) → List Nat → Nat → Option (Nat × Nat)
  | [], _, _ => none
  | (n, e) :: l, seen, bursts =>
    match e.reason per seen bursts with
    | 0 => adtReason per l (e.ch :: seen) (bursts + e.burst.toNat)
    | r => some (n, r)

/-- Entries of class other than OFF that `get` gives. -/
def enabledEntries (get : Nat → AdtEntry) : List (Nat × AdtEntry) :=
  ((List.range 40).map fun n => (n, get n)).filter fun e => e.2.cls != 0

/-- Entry and reason of a refusal of the shadow set, none if it passes. -/
def State.adcRefusal (s : State) : Option (Nat × Nat) :=
  let per := s.fld F.ADC_SCAN_PER
  let es := enabledEntries fun n => .ofWords (s.rd R.ADT_Ee_CFG n) (s.rd R.ADT_Ee_RATE n)
  if per < 256 then some (0x3F, 9)
  else match adtReason per es [] 0 with
    | some r => some r
    | none => match assignAll per es with
      | .error n => some (n, 8)
      | .ok _ => none

-- ends of visits (R294, R295)

/-- The element that EHM would measure next, for the record of a slot that does not come about. -/
def State.ehmAhead (s : State) (p : Port) : Nat :=
  match (s.ehmP p).next, (s.ehmP p).prio with
  | some x, _ => x.1
  | none, e :: _ => e
  | none, [] => s.fld F.EHM_Pp_CUR_CURSOR p.val

/-- EHM discards a slot that has not begun (R284, R294). DEDUCED, log entry 66. -/
def State.ehmNoSlot (s : State) (p : Port) : State :=
  (s.wr R.EHM_Pp_LAST (BitVec.ofNat 32 (5 * 2 ^ 29 + s.ehmAhead p * 65536)) p.val).count R.EHM_Pp_DISC p.val

/-- EHM's burst on a visit is cut short: a slot that has begun lacks words. -/
def State.burstLost (s : State) (v : Visit) : State :=
  match v.port with
  | none => s
  | some p =>
    if v.taken then s.modEhm p fun x => { x with slot := x.slot.map fun (m : MeasSlot) => { m with lost := m.lost || m.words.length < 32 } }
    else s.ehmNoSlot p

/-- Every visit ends and the word in progress is discarded; pending background visits are dropped. -/
def State.endVisits (s : State) : State :=
  let s := (List.finRange 8).foldl (fun s l =>
    match (s.slice l).visit with
    | some v => s.burstLost v
    | none => s) s
  let s := s.adc.pendBg.foldl (fun s b => match b.port with
    | some p => (s.count R.ADC_BREFUSE).ehmNoSlot p
    | none => s) s
  { s with adc := { s.adc with
    pendBg := [], bgLeft := []
    slices := s.adc.slices.map fun (x : Slice) => { x with visit := none, due := [], swapNext := false, swapped := x.swapped || x.visit.any (·.swap) } } }

-- handover (R290 to R292)

/-- Ticks that `n` modulator clocks take (R276, R293). -/
def State.mclkTicks (s : State) (n : Nat) : Nat := ceilDiv (n * (if s.actFlag F.ADC_CTRL_LP then 12500 else 3125)) 192

/-- S word times of entry `e` lie between the spare's being ready and `at_` (R291). -/
def State.preRun (s : State) (e : AdtEntry) (at_ : BitVec 64) : Bool :=
  s.adc.spareReady.any fun t => decide (t.toNat + s.mclkTicks (e.s * e.osr) ≤ at_.toNat)

/-- The spare exchanges its place with the physical slice of `l`, which becomes the spare. -/
def State.swap (s : State) (l : UnitNum) : State :=
  let was := (s.slice l).phys
  let s := s.modSlice l fun x => { x with phys := s.adc.spare }
  let s := { s with adc := { s.adc with
    spare := was, spareReady := none, lastHandover := s.time
    slices := s.adc.slices.map fun (x : Slice) => { x with swapNext := false } } }
  (s.wrapStep R.ADC_HANDOVERS).irq Pg.adc 7

-- starts of visits

/-- The visit of entry `e` begins on slice `l` at clock `c`; a handover that waits for it takes place (R291, R292). -/
def State.startVisit (s : State) (l : UnitNum) (e c : Nat) (port : Option Port) : State :=
  let x := s.adt e
  let ready : Bool := (s.slice l).swapNext && port.isNone && s.preRun x (s.mclkTime c)
  let s := if ready then s.swap l else s
  let v : Visit := { entry := e, s := if ready then 0 else x.s, total := if x.dwell then none else some (x.s + x.nw),
                     start := c, swap := ready || (s.slice l).swapped, port := port }
  s.modSlice l fun y => { y with visit := some v, swapped := false }

/-- The next due assigned visit of a free slice begins at clock `c` (R281). -/
def State.nextVisit (s : State) (l : UnitNum) (c : Nat) : State :=
  match (s.slice l).visit, (s.slice l).due with
  | none, e :: rest => (s.modSlice l fun y => { y with due := rest }).startVisit l e c none
  | _, _ => s

-- scans (R279 to R284)

/-- The converter may scan: it runs, has calibrated, and carries L0 to L6 (R289). -/
def State.adcReady (s : State) : Bool :=
  s.running Pg.adc && s.running Pg.adt && !s.adc.calInit && (s.slice 6).phys.isSome

def State.per' (s : State) : Nat := s.act F.ADC_SCAN_PER

/-- The scan timer, or a START, begins a scan now. -/
def State.scanDue (s : State) : Bool :=
  s.adcReady &&
    (if s.actFlag F.ADC_CTRL_MODE then s.adc.startHeld && !s.adc.scanning
     else !s.adc.scanning || decide (s.mclk ≥ s.adc.scanAt + s.per'))

/-- A committed set becomes active at the start of a scan (R280, R294). -/
def State.adcActivate (s : State) : State :=
  if ¬ (s.page Pg.adc).pend then s
  else
    let s := (s.endVisits).activate Pg.adc
    let loads : List Load := match assignAll s.per' (enabledEntries s.adt) with
      | .ok l => l
      | .error _ => []
    let total := loads.foldl (fun n x => n + x.clocks) 0
    let s := { s with adc := { s.adc with
      base := s.time, freshSet := true
      slices := Vector.ofFn fun i => { s.adc.slices[i] with assigned := (loads.getD i.val {}).entries } } }
    (s.setFld F.ADC_FIT_USED (loads.filter fun x => !x.entries.isEmpty).length).setFld F.ADC_FIT_LOAD
      (ceilDiv (total * 256) (max 1 s.per'))

/-- Background entries that fall due in scan `n` (R283). -/
def State.bgDue (s : State) (n : Nat) : State :=
  (enabledEntries s.adt).foldl (fun s e =>
    if e.2.cls ≠ 3 ∨ e.2.burst ∨ n % e.2.div ≠ 0 then s
    else if s.adc.pendBg.any fun b => b.entry == e.1 then s.count R.ADC_BGLATE
    else { s with adc := { s.adc with pendBg := s.adc.pendBg ++ [BgPend.mk e.1 s.adc.scanAt none] } }) s

/-- Entries of slice `l` due in scan `n`; a DWELL entry runs already or starts its one visit. -/
def State.assignedDue (s : State) (l : UnitNum) (n : Nat) : List Nat :=
  (s.slice l).assigned.filter fun e =>
    let x := s.adt e
    if x.dwell then (s.slice l).visit.isNone else s.actFlag F.ADC_CTRL_MODE || n % x.div == 0

/-- SCAN_START. -/
def State.scanStart (s : State) : State :=
  if ¬ s.scanDue then s
  else
    let auto : Bool := s.adc.scanning
    let at_ := s.adc.scanAt + s.per'
    let commit := (s.page Pg.adc).pend
    let s := s.adcActivate
    let c := if commit then 0 else if auto then at_ else s.mclk
    let n := if s.adc.freshSet then 0 else (s.rd R.ADC_SCANS).toNat + 1
    let s := s.wr R.ADC_SCANS (BitVec.ofNat 32 n)
    let s := { s with adc := { s.adc with scanning := true, scanAt := c, freshSet := false, startHeld := false } }
    let s := s.bgDue (n % 2 ^ 32)
    let s := { s with adc := { s.adc with
      bgLeft := if s.actFlag F.ADC_CTRL_MODE then s.adc.pendBg.map (fun (b : BgPend) => b.entry) else [] } }
    (List.finRange 8).foldl (fun s l =>
      let d := s.assignedDue l (n % 2 ^ 32)
      (s.modSlice l fun x => { x with due := d }).nextVisit l c) s

/-- SCAN_END: a software-started scan has lasted PER clocks and its background entries are done (R279). -/
def State.scanEnd (s : State) : State :=
  if s.actFlag F.ADC_CTRL_MODE ∧ s.adc.scanning ∧ s.adc.bgLeft.isEmpty ∧ s.mclk ≥ s.adc.scanAt + s.per' ∧
      s.running Pg.adc then
    { s with adc := { s.adc with scanning := false } }.irq Pg.adc 6
  else s

/-- ADC_START: a scan is started or held (R279). -/
def State.adcStart (s : State) : State :=
  if s.actFlag F.ADC_CTRL_MODE ∧ s.running Pg.adc then { s with adc := { s.adc with startHeld := true } } else s

/-- Clock of the slice's next assigned visit, none where there is no such limit (R283). -/
def State.nextAssigned (s : State) (l : UnitNum) (e : Nat) : Option Nat :=
  let a := (s.slice l).assigned
  let mode := s.actFlag F.ADC_CTRL_MODE
  if a.isEmpty ∨ (mode ∧ s.adc.bgLeft.contains e) then none
  else if mode then some (if s.adc.scanning then s.adc.scanAt + s.per' else 0)
  else
    let n := (s.rd R.ADC_SCANS).toNat  -- wraps at 2^32 as scanStart's count does
    ((List.range 255).find? fun j => a.any fun e => (n + 1 + j) % 2 ^ 32 % (s.adt e).div == 0).map fun j =>
      s.adc.scanAt + (j + 1) * s.per'

/-- Slice `l` is free and takes a visit of entry `e` from clock `c`. DEDUCED, log entry 64; DEDUCED, log entry 65. -/
def State.takesBg (s : State) (l : UnitNum) (e c : Nat) : Bool :=
  let x := s.slice l
  x.phys.isSome && x.visit.isNone && x.due.isEmpty && (match s.nextAssigned l e with
    | none => true
    | some t => decide (c + (s.adt e).len ≤ t))

/-- A pending burst waits while a burst visit of its entry or port runs: it follows that visit on its slice, and the
next slot of a port follows the last word of the slot before (R284, 09 R229). -/
def State.burstHeld (s : State) (b : BgPend) : Bool :=
  b.port.isSome && (List.finRange 8).any fun l => (s.slice l).visit.any fun v =>
    v.port.isSome && (v.entry == b.entry || v.port == b.port)

/-- BACKGROUND_VISIT_START: the oldest pending visit starts on the lowest free slice that takes it (R283). -/
def State.bgStart (s : State) : State :=
  if ¬ s.adcReady then s
  else
    let older (a b : BgPend) : Bool := decide (a.since < b.since) || (a.since == b.since && decide (a.entry < b.entry))
    let first := (s.adc.pendBg.filter fun b => !s.burstHeld b).foldl (fun (m : Option BgPend) b => match m with
      | none => some b
      | some a => if older b a then some b else some a) none
    match first with
    | none => s
    | some b =>
      let c := s.mclk
      match (List.finRange 8).find? fun l => s.takesBg l b.entry c with
      | none => s
      | some l =>
        { s with adc := { s.adc with pendBg := s.adc.pendBg.filter fun x => x != b } }.startVisit l b.entry c b.port

-- words (R275, R277, R285 to R287)

def limHi : Int := 8388607
def limLo : Int := -8388608

/-- OFS and GC of a physical slice and gain (R288); 0 and 2^22 without a calibration. -/
def State.calOf (s : State) (phys gain : Nat) : Int × Nat :=
  match s.adc.cal.find? fun c => c.1 == 8 * phys + gain with
  | some c => c.2
  | none => (0, 0x400000)

/-- The corrected code. -/
def correct (cal : Int × Nat) (raw : Int) : Int :=
  sat (roundDiv ((raw - cal.1) * (cal.2 : Nat)) 4194304) limLo limHi

/-- The metadata word (R285). -/
def metaWord (tag : Byte) (ch : Nat) (valid : Bool) (stl : Nat) (swap satf : Bool) (time : BitVec 64) : Word :=
  BitVec.ofNat 32 (tag.toNat * 2 ^ 24 + ch * 2 ^ 18 + valid.toNat * 2 ^ 17 + stl * 2 ^ 14 + swap.toNat * 2 ^ 13 +
    satf.toNat * 2 ^ 12 + time.toNat / 1024 % 4096)

/-- FIFO_THR is requested while LEVEL ≥ THR (R286). -/
def State.fifoThr (s : State) : State :=
  if s.adc.fifo.length ≥ max 1 (s.fld F.ADC_FIFO_LVL_THR) then s.irq Pg.adc 4 else s

/-- A word enters the FIFO, or is dropped (R286). -/
def State.fifoPush (s : State) (data meta_ : Word) : State :=
  if s.adc.fifo.length ≥ 256 then ((s.count R.ADC_FIFO_OVF).raise Pg.adc 2).irq Pg.adc 5
  else { s with adc := { s.adc with fifo := s.adc.fifo ++ [(data, meta_)] } }.fifoThr

/-- What a read of ADC_FIFO_LO returns and stores as metadata, and the state after it. -/
def State.fifoPop (s : State) : (Word × Word) × State :=
  match s.adc.fifo with
  | [] => ((0, 0x00FC0000), s)
  | x :: l => (x, { s with adc := { s.adc with fifo := l } })

/-- The settled word of a channel reaches the latest-result registers, the HHE and MED (R287). -/
def State.settled (s : State) (ch : Nat) (x : Int) (data meta_ : Word) : State :=
  let s := (s.wr R.ADC_LASTc_LO data ch).wr R.ADC_LASTc_HI meta_ ch
  let s := { s with adc := { s.adc with lastValid := s.adc.lastValid.setIfInBounds ch (some (AdcSample.mk x s.time)) } }
  let s := (List.finRange 4).foldl (fun s p => if s.fld F.HHE_Pp_SRC_VHCH p.val = ch then s.vhBack p else s) s
  s.medWord ch x

/-- The visit on slice `l` has ended at clock `c`: a chained burst that fits before the next assigned visit,
or the next due visit (R281, R283, R284). -/
def State.visitEnd (s : State) (l : UnitNum) (v : Visit) (c : Nat) : State :=
  let s := s.modSlice l fun x => { x with visit := none }
  let s := { s with adc := { s.adc with bgLeft := s.adc.bgLeft.filter fun e => e != v.entry } }
  let fits : Bool := match s.nextAssigned l v.entry with
    | none => true
    | some t => decide (c + 48 * (s.adt v.entry).osr ≤ t)
  match v.port, s.adc.pendBg.find? fun b => b.entry == v.entry && b.port.isSome with
  | some _, some b =>
    if fits ∧ (s.slice l).due.isEmpty then
      { s with adc := { s.adc with pendBg := s.adc.pendBg.filter fun x => x != b } }.modSlice l fun x =>
        { x with visit := some { entry := v.entry, s := 0, total := some 48, start := c, port := b.port } }
    else s.nextVisit l c
  | _, _ => s.nextVisit l c

/-- A handover of a DWELL entry takes place at the word boundary at `at_`; the next word is the first after it (R291,
R292). -/
def State.swapDwell (s : State) (l : UnitNum) (e : AdtEntry) (at_ : BitVec 64) : State :=
  if (s.slice l).swapNext ∧ s.preRun e at_ then
    (s.swap l).modSlice l fun y => { y with visit := y.visit.map fun v => { v with swap := true } }
  else s

/-- The end of the word in progress of a visit. DEDUCED, log entry 63; DEDUCED, log entry 67. -/
def State.wordEnd (s : State) (l : UnitNum) (v : Visit) (raw : Int) : State :=
  let e := s.adt v.entry
  let x := correct (s.calOf ((s.slice l).phys.getD 0) e.gain) raw
  let valid : Bool := decide (v.s ≤ v.done)
  let satf : Bool := x == limHi || x == limLo
  let data : Word := if s.flag F.ADC_FMT_ALIGN then BitVec.ofInt 32 (x * 256) else BitVec.ofInt 32 x
  let meta_ := metaWord (s.page Pg.adc).actTag e.ch valid (v.s - v.done) v.swap satf s.time
  let s := s.modSlice l fun y => { y with visit := some { v with done := v.done + 1, swap := false } }
  let s := if e.dwell ∧ v.s ≤ v.done + 1 then s.swapDwell l e (s.mclkTime (v.start + (v.done + 1) * e.osr)) else s
  let s :=
    if ¬ valid ∧ s.actFlag F.ADC_CTRL_SKIPU then s
    else
      let s := if e.fifo then s.fifoPush data meta_ else s
      if valid then
        let s := match v.port with
          | some p =>
            if v.taken then s.modEhm p fun h =>
              { h with slot := h.slot.map fun (m : MeasSlot) => { m with words := some x :: m.words } }
            else s
          | none => s
        s.settled e.ch x data meta_
      else s
  if v.total = some (v.done + 1) then s.visitEnd l v (v.start + (v.done + 1) * e.osr) else s

/-- The clock at which the word in progress on slice `l` ends, for an entry with FIFO = 1. -/
def State.fifoWordAt (s : State) (l : UnitNum) : Option Nat :=
  (s.slice l).visit.bind fun v =>
    if (s.adt v.entry).fifo then some (v.start + (v.done + 1) * (s.adt v.entry).osr) else none

/-- No other slice has a word for the FIFO that ended before the one of slice `l`, or with it on a lower slice
(R286). -/
def State.fifoTurn (s : State) (l : UnitNum) : Bool :=
  match s.fifoWordAt l with
  | none => true
  | some t => (List.finRange 8).all fun k => match s.fifoWordAt k with
    | none => true
    | some u => decide (t < u) || (t == u && decide (l ≤ k))

/-- ADC_WORD_END: the word in progress on slice `l` ends; `raw` is what the analogue chain and its filters give
(R276). DESIGN CHOICE, log entry 140. -/
def State.adcWordEnd (s : State) (l : UnitNum) (raw : BitVec 24) : State :=
  match (s.slice l).visit with
  | none => s
  | some v =>
    if s.running Pg.adc ∧ s.mclk ≥ v.start + (v.done + 1) * (s.adt v.entry).osr ∧ s.fifoTurn l then s.wordEnd l v raw.toInt else s

-- calibration (R288 to R290)

/-- Gain codes that are calibrated: ×1 and those of enabled entries. -/
def State.calGains (s : State) : List Nat :=
  (List.range 8).filter fun g => g == 0 || (enabledEntries s.adt).any fun e => e.2.gain == g

/-- The rounded mean of four settled raw codes. -/
def calMean (v : Vector (BitVec 24) 4) : Int := roundDiv (v[0].toInt + v[1].toInt + v[2].toInt + v[3].toInt) 4

/-- OFS and GC of one gain, none if the slice fails. -/
def calResult (m : CalWords) : Option (Int × Nat) :=
  let ofs := calMean m.zero
  let d := calMean m.half - ofs
  if d ≤ 0 ∨ ofs.natAbs > 65536 then none
  else
    let gc := roundDiv 17592186044416 d.toNat
    if 3984589 ≤ gc ∧ gc ≤ 4404019 then some (ofs, gc.toNat) else none

/-- Ticks of a calibration: 14 words at OSR 1024 for each gain (R288). -/
def State.calTicks (s : State) : Nat := s.mclkTicks (14 * 1024 * s.calGains.length)

/-- The results of one slice for the gains it calibrates: none while a gain is missing, `some none` for a failure. -/
def calResults (gains : List Nat) (ms : List CalWords) : Option (Option (List (Nat × (Int × Nat)))) :=
  gains.foldr (fun g acc => match acc, ms.find? fun m => m.gain.val == g with
    | some rest, some m => some (match rest, calResult m with
      | some l, some r => some ((g, r) :: l)
      | _, _ => none)
    | _, _ => none) (some (some []))

/-- A physical slice has calibrated. -/
def State.calStore (s : State) (phys : Nat) (r : List (Nat × (Int × Nat))) : State :=
  { s with adc := { s.adc with
    cal := (r.map fun (e : Nat × (Int × Nat)) => (8 * phys + e.1, e.2)) ++ s.adc.cal.filter fun c => c.1 / 8 != phys
    calAt := (phys, s.time) :: s.adc.calAt.filter fun c => c.1 != phys } }

def State.sliceFailed (s : State) (phys : Nat) : Bool := s.adc.failed.getLsbD phys

/-- The map of R289 for the slices that are healthy now: the spare first from S8 downward, then Lk in physical order.
DEDUCED, log entry 42. -/
def State.mapSlices (s : State) : State :=
  let ok := (List.range 9).filter fun p => !s.sliceFailed p
  let spare := if ok.length = 9 then some 8 else none
  let rest := ok.filter fun p => some p != spare
  { s with adc := { s.adc with
    spare := spare
    slices := Vector.ofFn fun i => { s.adc.slices[i] with phys := rest[i.val]? } } }

/-- INITIAL_CALIBRATION_DONE: `codes` are those of S0 to S8 (R289). DEDUCED, log entry 141. -/
def State.initialCal (s : State) (codes : List (List CalWords)) : State :=
  if ¬ (s.running Pg.adc ∧ s.adc.calInit) ∨ s.since s.adc.base < s.calTicks then s
  else
    let gains := s.calGains
    let s := (List.range 9).foldl (fun s p =>
      if s.sliceFailed p then s
      else match calResults gains (codes.getD p []) with
        | some (some r) => s.calStore p r
        | _ => { s with adc := { s.adc with failed := s.adc.failed ||| BitVec.ofNat 9 (2 ^ p) } }) s
    let s := s.mapSlices
    let s := { s with adc := { s.adc with
      calInit := false, base := s.time, lastHandover := s.time, spareReady := s.adc.spare.map fun _ => s.time } }
    let healthy := ((List.range 9).filter fun p => !s.sliceFailed p).length
    let s := if healthy < 8 then s.raise Pg.adc 1 else s
    s.irq Pg.adc 9

/-- SPARE_CALIBRATE: the spare, which became it at the last handover, has calibrated (R288, R290).
DEDUCED, log entry 141. -/
def State.spareCal (s : State) (codes : List CalWords) : State :=
  match s.adc.spare with
  | none => s
  | some p =>
    if ¬ s.running Pg.adc ∨ s.adc.calInit ∨ ¬ s.flag F.ADC_CAL_EN ∨ s.adc.spareReady.isSome ∨ s.since s.adc.lastHandover < s.calTicks then s
    else match calResults s.calGains codes with
      | none => s
      | some (some r) => { s.calStore p r with adc := { (s.calStore p r).adc with spareReady := some s.time } }
      | some none =>
        ({ s with adc := { s.adc with spare := none, failed := s.adc.failed ||| BitVec.ofNat 9 (2 ^ p) } }.raise
          Pg.adc 0).irq Pg.adc 8

/-- Last calibration of a physical slice, 0 for none. -/
def State.calTime (s : State) (phys : Option Nat) : Nat :=
  match phys with
  | none => 2 ^ 64
  | some p => match s.adc.calAt.find? fun c => c.1 == p with
    | some c => c.2.toNat
    | none => 0

/-- Slice `l` is carried by the physical slice whose calibration is the oldest. -/
def State.oldestCal (s : State) (l : UnitNum) : Bool :=
  let t := s.calTime (s.slice l).phys
  (List.finRange 8).all fun k =>
    let u := s.calTime (s.slice k).phys
    decide (t < u) || (t == u && decide (l ≤ k))

/-- SPARE_HANDOVER: the spare is to take over slice `l`, whose calibration is the oldest: at once if the slice is
idle, else at a visit's start or a word boundary (R290, R291). DESIGN CHOICE, log entry 41. -/
def State.spareHandover (s : State) (l : UnitNum) : State :=
  let x := s.slice l
  let waited : Bool := decide (s.since s.adc.lastHandover ≥ max 1 (s.fld F.ADC_CAL_INT) * msTicks)
  if s.adc.spareReady.isNone ∨ ¬ s.running Pg.adc ∨ s.adc.calInit ∨ ¬ s.flag F.ADC_CAL_EN ∨ x.phys.isNone ∨
      ¬ s.oldestCal l ∨ ¬ waited then s
  else if x.visit.isNone ∧ x.due.isEmpty then (s.swap l).modSlice l fun y => { y with swapped := true }
  else { s with adc := { s.adc with
    slices := Vector.ofFn fun k => { s.adc.slices[k] with swapNext := k == l } } }

-- entering and leaving RUN (R289, R295)

def State.adcEnter (s : State) : State :=
  let cal := s.flag F.ADC_CAL_EN
  { s with adc := { s.adc with
    base := s.time, scanAt := 0, scanning := false, startHeld := false, calInit := cal, spareReady := none
    cal := if cal then s.adc.cal else [] } }

/-- Drain or reset: visits end, and no further scan begins. -/
def State.adcStop (s : State) : State :=
  let s := s.endVisits
  { s with adc := { s.adc with scanning := false, startHeld := false, calInit := false } }

/-- ADC_STAT and ADC_SLMAP (R297). -/
def State.adcStat (s : State) : Word :=
  BitVec.ofNat 32 (s.adc.failed.toNat * 65536 + s.adc.spare.getD 15 * 4096 + s.adc.calInit.toNat * 512 +
    s.adc.scanning.toNat * 256)
def State.slmap (s : State) : Word :=
  BitVec.ofNat 32 ((List.finRange 8).foldl (fun n l => n + (s.slice l).phys.getD 15 * 16 ^ l.val) 0)

end Sys2Proof.Machine
end

