-- ==== Sys2Proof/Machine/Health.lean ====
section
/-! DEFINITION. Element health (09 R226 to R237): the resistance scan and the restore copy. -/

namespace Sys2Proof.Machine

-- bits of PG_IRQ_STAT of the EHM page: 4 WORN, 5 DEAD, 6 PASS, 7 SENSEFAIL, 8 RESTORED

-- when the scan may run (R228)

/-- The conditions of R228 other than the settle wait. -/
def State.scanAvail (s : State) (p : Port) : Bool :=
  s.running Pg.ehm && s.flag F.EHM_Pp_SCAN_EN p.val && s.running (Pg.hp p) && s.hpState p == 1 && s.hheState p == 1 &&
    s.running Pg.hhe && s.running Pg.sba

/-- R228 holds and the port's scan has not stopped. -/
def State.scanMay (s : State) (p : Port) : Bool := s.scanAvail p && (s.ehmP p).settled && !(s.ehmP p).stopped

/-- SETTLE_EXPIRE: SETTLE ms of availability have passed (R236). -/
def State.settleExpire (s : State) (p : Port) : State :=
  let t := s.fld F.EHM_Pp_SCAN_SETTLE p.val * msTicks
  if s.scanAvail p ∧ ¬ (s.ehmP p).settled ∧ s.since (s.ehmP p).availFrom ≥ t ∧ s.since (s.hpP p).lastEnd ≥ t then
    s.modEhm p fun x => { x with settled := true, chunk := 0 }
  else s

-- the order of measurement (R236)

/-- CURSOR goes on from element `e`; at N_el it returns to 0 and PASS increments. -/
def State.cursorPast (s : State) (p : Port) (e : Nat) : State :=
  if e + 1 < s.nEl p then s.setFld F.EHM_Pp_CUR_CURSOR (e + 1) p.val
  else ((s.setFld F.EHM_Pp_CUR_CURSOR 0 p.val).setFld F.EHM_Pp_CUR_PASS (s.fld F.EHM_Pp_CUR_PASS p.val + 1) p.val).irq Pg.ehm 6

/-- The cursor moves past elements marked DEAD; none where all are. -/
def State.cursorElem (s : State) (p : Port) : Nat → State × Option Nat
  | 0 => (s, none)
  | n + 1 =>
    let e := s.fld F.EHM_Pp_CUR_CURSOR p.val
    if e < s.nEl p ∧ ¬ s.elemFlag p e elDead then (s, some e) else (s.cursorPast p e).cursorElem p n

/-- The element of the next slot, its kind and whether the cursor chose it: a slot that comes next, the priority list,
then the cursor. An element that is DEAD by now gets no slot, but as a reference (R232). -/
def State.pickElem (s : State) (p : Port) : State × Option (Nat × SlotKind × Bool) :=
  let first : Option (Nat × SlotKind × Bool) := (s.ehmP p).next.filter fun x =>
    (match x.2.1 with
      | .reference _ => true
      | _ => decide (x.1 < s.nEl p) && !s.elemFlag p x.1 elDead)
  let s := s.modEhm p fun h => { h with next := none }
  match first with
  | some x => (s, some x)
  | none =>
    match (s.ehmP p).prio.dropWhile fun e => s.elemFlag p e elDead || s.nEl p ≤ e with
    | e :: l => (s.modEhm p fun h => { h with prio := l }, some (e, .plain, false))
    | [] =>
      let s := s.modEhm p fun h => { h with prio := [] }
      if (List.range (s.nEl p)).all fun e => s.elemFlag p e elDead then (s, none)
      else match s.cursorElem p (s.nEl p + 1) with
        | (s, some e) => (s, some (e, .plain, true))
        | (s, none) => (s, none)

-- slots (R229, R284)

/-- The burst visit that runs for a port and that EHM has not taken: its slice, visit and clocks to word 0. -/
def State.burstOf (s : State) (p : Port) : Option (UnitNum × Visit) :=
  (List.finRange 8).findSome? fun l => match (s.slice l).visit with
    | some v => if v.port = some p ∧ ¬ v.taken ∧ v.done ≤ v.s then some (l, v) else none
    | none => none

/-- A burst request or visit of the port is under way. -/
def State.burstPending (s : State) (p : Port) : Bool :=
  (s.burstOf p).isSome || s.adc.pendBg.any fun b => b.port == some p

/-- BURST_REQUEST: EHM asks for the next slot; the converter pends or refuses it (R284). -/
def State.burstRequest (s : State) (p : Port) : State :=
  if ¬ s.scanMay p ∨ s.measuring p ∨ s.burstPending p then s
  else
    let ch := s.fld F.EHM_Pp_MCFG_SCH p.val
    match (enabledEntries s.adt).find? fun e => e.2.burst && e.2.ch == ch with
    | some e =>
      if ¬ s.adc.scanning ∨ s.actFlag F.ADC_CTRL_LP then (s.count R.ADC_BREFUSE).ehmNoSlot p
      else { s with adc := { s.adc with pendBg := s.adc.pendBg ++ [BgPend.mk e.1 s.mclk (some p)] } }
    | none => (s.count R.ADC_BREFUSE).ehmNoSlot p

/-- MEASURE_SLOT_START: the port's burst visit has begun and the scan may run. -/
def State.measureStart (s : State) (p : Port) : State :=
  if ¬ s.scanMay p ∨ s.measuring p then s
  else match s.burstOf p with
    | none => s
    | some (l, v) =>
      match s.pickElem p with
      | (s, none) => s
      | (s, some (e, kind, cur)) =>
        let t := s.mclkTime (v.start + v.s * (s.adt v.entry).osr)
        let s := s.modSlice l fun x => { x with visit := some { v with taken := true } }
        let s := s.modHp p fun h =>
          { h with shiftAt := some t, shiftBits := s.sliceBits p (oneDot (s.nEl p) e) 1
                   latAt := some (t + BitVec.ofNat 64 (s.tShift p + s.tds p)) }
        s.modEhm p fun h => { h with slot := some { elem := e, kind := kind, start := t, fromCur := cur } }

-- results (R230 to R233)

/-- A slot's result. -/
structure Measured where
  q : Int
  rtrim : Nat
  cls : ElemClass
  deriving DecidableEq, Repr

/-- Class of q (R231). -/
def classOf (q : Int) : ElemClass :=
  if q ≤ 179 then .short
  else if q ≤ 204 then .worn
  else if q ≤ 294 then .ok
  else if q ≤ 333 then .worn
  else if q ≤ 1022 then .dead
  else .openCircuit

/-- s of R230 from the 32 windowed words, oldest first. -/
def windowSum (xs : List Int) : Int := ((xs.drop 16).take 16).foldl (· + ·) 0 - (xs.take 16).foldl (· + ·) 0

/-- R230 for difference `d` and head supply `vh` in mV. -/
def State.measured (s : State) (p : Port) (d vh : Int) : Measured :=
  if d ≤ 0 then ⟨1023, 128, .openCircuit⟩
  else
    let rsns := max 1 (s.fld F.EHM_Pp_SENSE_RSNS p.val)
    let vsfs := max 1 (s.fld F.EHM_Pp_SENSE_VSFS p.val)
    let rm16 := roundDiv (1536 * vh * (s.measPw p : Nat) * (rsns : Nat) * 8388608) (25000 * d.toNat * vsfs) -
      16 * (s.fld F.EHM_Pp_MCFG_RSER p.val : Nat)
    let q := roundDiv (16 * rm16) (s.rNom p)
    { q := min q 1023, rtrim := (sat (q - 205) 0 128).toNat, cls := classOf q }

/-- RES code of a class (R241). -/
def ElemClass.res : ElemClass → Nat
  | .ok => 0
  | .worn => 1
  | .dead => 2
  | .openCircuit => 3
  | .short => 4

/-- Flags that a class sets beside MEASURED (R233), as bits of byte 2. -/
def ElemClass.flags : ElemClass → Byte
  | .ok => 0
  | .worn => 1
  | .dead => 2
  | .openCircuit => 6
  | .short => 10

def State.ehmLast (s : State) (p : Port) (res e : Nat) (q : Int) : State :=
  s.wr R.EHM_Pp_LAST (BitVec.ofNat 32 (res * 2 ^ 29 + e * 65536 + (sat q 0 1023).toNat)) p.val

/-- A result is applied to an element in one update (R233). -/
def State.applyResult (s : State) (p : Port) (e : Nat) (m : Measured) : State :=
  let old := s.elemFlags p e
  let new := old ||| m.cls.flags ||| 0x10
  let trims : Bool := (m.cls == .ok || m.cls == .worn) && !old.getLsbD elRlock && s.flag F.EHM_Pp_SCAN_AUTOR p.val
  let s := if trims then s.setByte (elemAddr p e) (BitVec.ofNat 8 m.rtrim) else s
  let s := s.setByte (elemAddr p e + 2) new
  let s := if new.getLsbD elWorn ∧ ¬ old.getLsbD elWorn then (s.raise Pg.ehm p.val).irq Pg.ehm 4 else s
  if new.getLsbD elDead ∧ ¬ old.getLsbD elDead then (s.raise Pg.ehm (4 + p.val)).irq Pg.ehm 5 else s

/-- The reference check fails: the port's scan stops (R232). -/
def State.senseFail (s : State) (p : Port) : State :=
  ((s.modEhm p fun h => { h with stopped := true }).raise Pg.ehm (8 + p.val)).irq Pg.ehm 7

/-- The element is done: the cursor moves on if it chose it. -/
def State.elemDone (s : State) (p : Port) (e : Nat) (cur : Bool) : State := if cur then s.cursorPast p e else s

/-- What a complete slot of element `x.elem` leads to (R232, R233). DEDUCED, log entry 54. -/
def State.slotResult (s : State) (p : Port) (x : MeasSlot) (m : Measured) : State :=
  let e := x.elem
  match x.kind with
  | .plain =>
    if m.cls.flags &&& ~~~ s.elemFlags p e ≠ 0 then
      (s.ehmLast p 6 e m.q).modEhm p fun h => { h with next := some (e, .confirm m.cls, x.fromCur) }
    else ((s.ehmLast p m.cls.res e m.q).applyResult p e m).elemDone p e x.fromCur
  | .confirm c =>
    if m.cls ≠ c then ((s.ehmLast p 5 e m.q).count R.EHM_Pp_DISC p.val).elemDone p e x.fromCur
    else
      let s := s.ehmLast p m.cls.res e m.q
      if c = .openCircuit then
        let r := s.fld F.EHM_Pp_REF_ELEM p.val
        if r ≥ s.nEl p then ((s.ehmLast p 5 r 0).senseFail p).elemDone p e x.fromCur
        else s.modEhm p fun h => { h with next := some (r, .reference e, x.fromCur) }
      else (s.applyResult p e m).elemDone p e x.fromCur
  | .reference o =>
    let s := s.ehmLast p m.cls.res e m.q
    let good : Bool := (m.cls == .ok || m.cls == .worn) && !s.elemFlag p e elDead
    if good then (s.applyResult p o ⟨1023, 128, .openCircuit⟩).elemDone p o x.fromCur
    else (s.senseFail p).elemDone p o x.fromCur

/-- MEASURE_SLOT_END: the 32 windowed words are there, or can no longer come. DEDUCED, log entry 53. -/
def State.measureEnd (s : State) (p : Port) : State :=
  match (s.ehmP p).slot with
  | none => s
  | some x =>
    if (x.words.length < 32 ∧ ¬ x.lost) ∨ ¬ s.working Pg.ehm then s
    else
      let write := (s.ehmP p).curWrite
      let n := (s.ehmP p).chunk + 1
      let c := s.fld F.EHM_Pp_SCAN_CHUNK p.val
      let full : Bool := decide (n ≥ (if c = 0 then 256 else c))
      let s := s.modEhm p fun h =>
        { h with slot := none, curWrite := none, chunk := if full then 0 else n, settled := h.settled && !full
                 availFrom := if full then s.time else h.availFrom }
      let words := (x.words.reverse.take 32).filterMap id
      let vh := (s.adc.lastValid.toList.getD (s.fld F.HHE_Pp_SRC_VHCH p.val) none).map fun (a : AdcSample) => s.vhOf p a.code
      let s := match x.lost || words.length != 32, vh with
        | false, some vh =>
          (s.count R.EHM_Pp_MEAS p.val).slotResult p x (s.measured p (windowSum words) vh)
        | _, _ =>
          ((s.ehmLast p 5 x.elem 0).count R.EHM_Pp_DISC p.val).modEhm p fun h =>
            { h with next := some (x.elem, x.kind, x.fromCur) }
      match write with
      | none => s
      | some v => (s.setFld F.EHM_Pp_CUR_CURSOR v p.val).modEhm p fun h =>
          { h with next := h.next.map fun n => (n.1, n.2.1, false) }

/-- A write of EHM_Pp_CUR.CURSOR: during a slot it applies after it (R240). -/
def State.cursorWrite (s : State) (p : Port) (v : Nat) : State :=
  if s.measuring p then s.modEhm p fun h => { h with curWrite := some v }
  else (s.setFld F.EHM_Pp_CUR_CURSOR v p.val).modEhm p fun h => { h with next := h.next.map fun n => (n.1, n.2.1, false) }

/-- A write of EHM_Pp_SCAN: EN 0 then 1 leaves STOPPED (R232); EN 0, or a SETTLE that has not passed, discards a slot
(R228). -/
def State.scanWrite (s : State) (p : Port) (old : Bool) : State :=
  let new := s.flag F.EHM_Pp_SCAN_EN p.val
  if new ∧ ¬ old then (s.modEhm p fun h => { h with stopped := false }).ehmTouch p
  else if old ∧ ¬ new then (s.dropSlot p R.EHM_Pp_DISC).ehmTouch p
  -- a longer SETTLE has not passed yet
  else if (s.ehmP p).settled ∧ s.since (s.hpP p).lastEnd < s.fld F.EHM_Pp_SCAN_SETTLE p.val * msTicks then
    (s.dropSlot p R.EHM_Pp_DISC).ehmTouch p
  else s

/-- OPT_AUTO_ENABLE: a keyed write of EHM_Pp_OPT (R237). -/
def State.optWrite (s : State) (p : Port) (v : Word) : State :=
  let was := s.flag F.EHM_Pp_OPT_OAUTO p.val
  let s := s.wr R.EHM_Pp_OPT (v &&& 0xBF3F007F) p.val
  if v.getLsbD 31 ∧ ¬ was then clearVotes s p else s

/-- EHM_Pp_STAT (R240, R241). -/
def State.ehmStat (s : State) (p : Port) : Word :=
  let h := s.ehmP p
  let confirming (k : SlotKind) : Bool := match k with
    | .plain => false
    | _ => true
  let st :=
    if ¬ s.running Pg.ehm ∨ ¬ s.flag F.EHM_Pp_SCAN_EN p.val then 0
    else if h.stopped then 5
    else match h.slot with
      | some x => if confirming x.kind then 4 else 3
      | none =>
        if ¬ s.scanAvail p then 1
        else if ¬ h.settled then 2
        else match h.next with
          | some x => if confirming x.2.1 then 4 else 3
          | none => 3
  BitVec.ofNat 32 (h.prio.length * 16 + st)

/-- EHM_Pp_CNT (R225). -/
def State.ehmCnt (s : State) (p : Port) : Word :=
  BitVec.ofNat 32 (s.flagCount p elDead * 65536 + s.flagCount p elWorn)

-- the restore copy (R226)

def State.rstEnd (s : State) (result : Nat) : State :=
  { (s.setFld F.EHM_RSTSTAT_RESULT result) with ehm := { s.ehm with restore := none } }.irq Pg.ehm 8

/-- RESTORE_COPY_START: a keyed write of EHM_RSTCTL. DEDUCED, log entry 55. -/
def State.rstStart (s : State) (v : Word) : State :=
  let s := s.wr R.EHM_RSTCTL (v &&& 0x1FFFDFFF)
  let count := wbits v 16 13
  let first := wbits v 0 13
  let src := s.fld F.EHM_RSTSRC_ADDR * 8
  if ¬ v.getLsbD 31 ∨ ¬ s.running Pg.ehm then s
  else if s.ehm.restore.isSome then s.setFld F.EHM_RSTSTAT_RESULT 2
  else if count = 0 ∨ first + count > 6144 then s.setFld F.EHM_RSTSTAT_RESULT 3
  else if ¬ (inFlash src (8 * count) ∨ inWram src (8 * count)) then s.setFld F.EHM_RSTSTAT_RESULT 4
  else
    { s.setFld F.EHM_RSTSTAT_DONE 0 with ehm := { s.ehm with
      restore := some { src := src, port := Fin.ofNat 4 (wbits v 14 2), first := first, count := count } } }

/-- One entry of the copy is written. -/
def State.rstEntry (s : State) (r : Restore) (bytes : List Byte) : State :=
  let s := s.writeElem r.port (r.first + r.done) bytes
  { s.setFld F.EHM_RSTSTAT_DONE (r.done + 1) with ehm := { s.ehm with restore := some { r with done := r.done + 1, retry := none } } }

/-- The copy goes on until it ends or a line comes back substituted; `n` bounds the entries left. -/
def State.rstRun (s : State) : Nat → State
  | 0 => s.rstEnd 1
  | n + 1 =>
    match s.ehm.restore with
    | none => s
    | some r =>
      let a := r.src + 8 * r.done
      if inWram r.src 8 then (s.rstEntry r (s.bytes a 8)).rstRun n
      else
        match s.flashRead .seq a with
        | (s, .subst) => { s with ehm := { s.ehm with restore := some { r with retry := some ⟨a, 1⟩ } } }
        | (s, .data e) => if (FlashRes.data e).bad a then s.rstEnd 5 else (s.rstEntry r (s.cells a 8)).rstRun n

/-- RESTORE_COPY_END: the copy runs on to its end, unless a line must be retried first. -/
def State.rstCopy (s : State) : State :=
  match s.ehm.restore with
  | some r => if r.retry.isSome ∨ ¬ s.working Pg.ehm then s else s.rstRun (r.count - r.done)
  | none => s

/-- RESTORE_FLASH_RETRY: a substituted line is read again; 1024 returns in a row end the copy. -/
def State.rstRetry (s : State) : State :=
  match s.ehm.restore with
  | none => s
  | some r =>
    match r.retry with
    | none => s
    | some t =>
      match s.flashRead .seq t.addr with
      | (s, .subst) =>
        if t.count + 1 ≥ 1024 then s.rstEnd 5
        else { s with ehm := { s.ehm with restore := some { r with retry := some ⟨t.addr, t.count + 1⟩ } } }
      | (s, .data _) => { s with ehm := { s.ehm with restore := some { r with retry := none } } }

-- leaving RUN (R38, R226, R235, R239)

/-- Nothing that a drain of EHM waits for. -/
def State.ehmQuiet (s : State) : Bool :=
  s.ehm.restore.isNone && (List.finRange 4).all fun p => (s.ehmP p).slot.isNone

/-- A block reset of EHM: slots are discarded and a copy ends RESET, which EHM_RSTSTAT keeps (R226); selections return
to 0. -/
def State.ehmReset (s : State) : State :=
  let s := (List.finRange 4).foldl (fun s p => s.dropSlot p R.EHM_Pp_DISC) s
  let s := if s.ehm.restore.isSome then s.rstEnd 6 else s.wr R.EHM_RSTSTAT 0
  let pairLo (x : Requester × Snap) : Bool := match x.2 with
    | .lo a _ => a == R.EHM_EW_LO.base
    | .hi _ _ => false
  { s with ehm := { ports := Vector.replicate 4 {}, sel := [], restore := none }
           bus := { s.bus with snaps := s.bus.snaps.filter fun x => !pairLo x } }

end Sys2Proof.Machine
end

