-- ==== Sys2Proof/Machine/Camera.lean ====
section
/-! DEFINITION. Verification cameras (13 R317 to R339): the CSI-2 receiver, the image pipelines with classification and
verdicts, and the I²C controllers. -/

namespace Sys2Proof.Machine

-- bits of PG_IRQ_STAT: CSI 4 ECCERR, 5 FMTERR, 6 SOTERR; VP 4 FRAME, 5 DROP, 6 DOTOUT, 7 SNAP, 8 CFGREJ, 9 FRAMELOSS;
-- IC 4 DONE0, 5 DONE1, 6 BUSERR

def State.modVc (s : State) (v : Fin 4) (f : CsiVc → CsiVc) : State :=
  { s with cam := { s.cam with vc := s.cam.vc.set v (f s.cam.vc[v]) } }

/-- Fields of a CSI_VCv_CFG word. -/
def cfgMerge (w : Word) : Bool := w.getLsbD 30
def cfgDt (w : Word) : Nat := wbits w 24 6
def cfgWidth (w : Word) : Nat := wbits w 12 12
def cfgHeight (w : Word) : Nat := wbits w 0 12

/-- EN = 1 may be set on a channel with these values (R320). -/
def cfgOk (w : Word) : Bool :=
  16 ≤ cfgWidth w && cfgWidth w ≤ 2048 && cfgWidth w % 4 == 0 && 1 ≤ cfgHeight w && cfgHeight w ≤ 1024 &&
    0x2A ≤ cfgDt w && cfgDt w ≤ 0x2C

-- frames of a pipeline (R321, R322)

/-- Lines of a context are pending again: no row is assigned. -/
def State.unassign (s : State) (v : VpNum) (x : Fin 2) : State :=
  s.modCtx v x fun c => { c with caps := c.caps.map fun (l : CapLine) => { l with row := none } }

/-- A frame is dropped whole: 1 ROUND, 2 RATE, 3 DAMAGED, 4 DRAIN. -/
def State.dropRecord (s : State) (v : VpNum) (x : Fin 2) (reason : Nat) : State :=
  ((s.count R.VPn_DROP v.val).wr R.VPn_DROPR (BitVec.ofNat 32 (x.val * 256 + reason)) v.val).irq (Pg.vp v) 5

/-- The frame of a pipeline is dropped, with its reason (R322). DEDUCED, log entry 69. -/
def State.dropFrame (s : State) (v : VpNum) (reason : Nat) : State :=
  match (s.vp v).frame with
  | none => s
  | some f => ((s.modVp v fun y => { y with frame := none }).unassign v f.ctx).dropRecord v f.ctx reason

def State.rounds (s : State) (v : VpNum) : Bool := s.flag F.VPn_BIND_ROUND v.val

/-- The turn passes (R321). -/
def State.passTurn (s : State) (v : VpNum) : State :=
  if s.rounds v then s.modVp v fun y => { y with turn := y.turn + 1, turnSince := s.time } else s

/-- The accepted frame on channel `vc` has ended, whether processed or dropped. -/
def State.acceptedEnd (s : State) (v : VpNum) (vc : Fin 4) : State :=
  if (s.vp v).accepted = some vc then (s.modVp v fun y => { y with accepted := none }).passTurn v else s

/-- Row of a captured line in a frame, from T (R333). -/
def State.rowOf (s : State) (v : VpNum) (x : Fin 2) (t : Int) : Int :=
  let rp := (s.rdAct R.VPn_Cx_RP v.val x.val).toInt
  let n := (t - (s.rdAct R.VPn_Cx_OFFS v.val x.val).toInt) * 65536
  if rp > 0 then roundDiv n rp.toNat else if rp < 0 then roundDiv (-n) (-rp).toNat else 0

/-- A line has passed the camera unseen (R334): twice 2^16 times both sides of the comparison. -/
def State.passed (s : State) (v : VpNum) (x : Fin 2) (t : Int) : Bool :=
  let rp := (s.rdAct R.VPn_Cx_RP v.val x.val).toInt
  let off := (s.rdAct R.VPn_Cx_OFFS v.val x.val).toInt
  let c0 : Int := s.act F.VPn_Cx_ROW_CROW0 v.val x.val
  let c1 : Int := s.act F.VPn_Cx_ROW_CROW1 v.val x.val
  decide ((t - off) * 131072 - 2 * max (c0 * rp) (c1 * rp) > rp.natAbs)

/-- At an accepted FS the started lines of the context get their rows, or have passed unseen (R333, R334). -/
def State.register (s : State) (v : VpNum) (x : Fin 2) : State :=
  let lag := sgn 16 (s.act F.VPn_Cx_LAG_LAG v.val x.val)
  let pcap := s.ctxPos v x - BitVec.ofInt 32 lag
  let tOf (l : CapLine) : Option Int := l.start.map fun e => sdiff pcap e.1
  let gone (l : CapLine) : Bool := match tOf l with
    | some t => s.passed v x t
    | none => false
  let row (l : CapLine) : Option Nat := match tOf l with
    | some t =>
      let r := s.rowOf v x t
      if (s.act F.VPn_Cx_ROW_CROW0 v.val x.val : Int) ≤ r ∧ r ≤ s.act F.VPn_Cx_ROW_CROW1 v.val x.val then some r.toNat else none
    | none => none
  let n := ((s.vctx v x).caps.filter gone).length
  let s' := (List.range n).foldl (fun s _ => s.unseen v x) s
  let s' := s'.modCtx v x fun c => { c with caps := (c.caps.filter fun l => !gone l).map fun (l : CapLine) => { l with row := row l } }
  (List.finRange 4).foldl (fun s p => s.winCheck p) s'

/-- A pipeline sees an FS on channel `vc` (R321, R328). DEDUCED, log entry 70. -/
def State.vpStart (s : State) (v : VpNum) (vc : Fin 4) (fnum : BitVec 16) : State :=
  if ¬ s.running (Pg.vp v) then s
  else
    let on (x : Fin 2) : Bool := s.flag F.VPn_Cx_CFG_EN v.val x.val && s.fld F.VPn_Cx_CFG_VC v.val x.val == vc.val
    let x : Fin 2 := if s.rounds v then (s.vp v).turn else 0
    if on x ∧ (s.vp v).frame.isNone ∧ (s.vp v).accepted.isNone then
      let s := s.activate (Pg.vp v)
      let ic := s.fld F.VPn_Cx_CFG_ICSEL v.val x.val
      let f : VpFrame := {
        ctx := x, vc := vc, fnum := fnum, tag := (s.page (Pg.vp v)).actTag
        itag := BitVec.ofNat 8 (s.fld F.ICk_STAT_LTAG ic), cfg := s.cam.vc[vc].cfg, backTime := s.time, snap := (s.vp v).armed }
      (s.modVp v fun y => { y with frame := some f, armed := false, accepted := some vc }).register v x
    else if s.rounds v ∧ on (x + 1) ∧ ¬ on x then s.dropRecord v (x + 1) 1
    else s

-- the receiver (R317 to R320)

/-- Every open frame is damaged. -/
def State.damageOpen (s : State) : State :=
  { s with cam := { s.cam with vc := s.cam.vc.map fun (x : CsiVc) => { x with damaged := x.damaged || x.isOpen } } }

/-- A packet or an error of a high-speed transmission that goes on, or is over with it: the state of the lanes that
CSI_STAT shows (R341). DEDUCED, log entry 43. -/
def State.lanesAt (s : State) (last : Bool) : State :=
  if s.running Pg.csi then { s with cam := { s.cam with lanes := some (!last) } } else s

/-- The rest of the high-speed transmission in progress is discarded, or no longer (R318). -/
def State.skipRest (s : State) (on : Bool) : State := { s with cam := { s.cam with skip := on } }

/-- The header of a packet: true if it may be used (R318). `first`: the packet opens a high-speed transmission; one
that does not is lost where the rest of its transmission is discarded. DEDUCED, log entry 158. -/
def State.csiHeader (s : State) (e : HeaderEcc) (first : Bool) : State × Bool :=
  if s.cam.skip ∧ ¬ first then (s, false)
  else
    let s := s.skipRest false
    match e with
    | .good => (s, true)
    | .corrected => (s.count R.CSI_ECCCOR, true)
    | .uncorrectable => ((((s.damageOpen.skipRest true).count R.CSI_ECCERR).raise Pg.csi 0).irq Pg.csi 4, false)

/-- Packets of a channel are accepted: a write of its EN applies from the next FS (R317, R320). -/
def State.vcOn (s : State) (vc : Fin 4) : Bool := s.cam.vc[vc].isOpen || s.flag F.CSI_VCv_CFG_EN vc.val

/-- A frame on a channel ends, damaged or not. -/
def State.csiClose (s : State) (vc : Fin 4) (bad : Bool) : State :=
  let x := s.cam.vc[vc]
  let odd : Bool := cfgMerge x.cfg && x.rows.length % 2 == 1
  let bad := bad || x.damaged || odd || x.rows.isEmpty
  let s := s.modVc vc fun y => { y with isOpen := false, damaged := false, rows := [] }
  let s := s.setFld F.CSI_VCv_FRM_COUNT (s.fld F.CSI_VCv_FRM_COUNT vc.val + 1) vc.val
  let s := if bad then (s.count R.CSI_FMTERR).irq Pg.csi 5 else s
  (List.finRange 2).foldl (fun s v =>
    let s := match (s.vp v).frame with
      | some f =>
        if f.vc = vc ∧ f.rows.isNone then
          if bad then s.dropFrame v 3
          else s.modVp v fun y => { y with frame := some { f with rows := some x.rows.reverse, endTime := s.time } }
        else s
      | none => s
    s.acceptedEnd v vc) s

/-- CSI_FRAME_START. DEDUCED, log entry 34. -/
def State.csiStart (s : State) (vc : Fin 4) (fnum : BitVec 16) (ecc : HeaderEcc) (first : Bool) : State :=
  if ¬ s.running Pg.csi then s
  else match s.csiHeader ecc first with
  | (s, false) => s
  | (s, true) =>
    let s := if s.cam.vc[vc].isOpen then s.csiClose vc true else s
    if ¬ s.flag F.CSI_VCv_CFG_EN vc.val then s.count R.CSI_DROPPKT
    else
      let cfg := s.rd R.CSI_VCv_CFG vc.val
      let s := s.modVc vc fun _ => { isOpen := true, cfg := cfg }
      let s := s.setFld F.CSI_VCv_FRM_FNUM fnum.toNat vc.val
      (List.finRange 2).foldl (fun s v => s.vpStart v vc fnum) s

def State.icS (s : State) (k : Fin 2) : IcSt := s.cam.ic[k]
def State.modIc (s : State) (k : Fin 2) (f : IcSt → IcSt) : State :=
  { s with cam := { s.cam with ic := s.cam.ic.set k (f s.cam.ic[k]) } }

/-- The bytes of a transaction: the address with write and WLEN bytes of ICk_TX0 to ICk_TX3, then, for a read, the
address with read (R330); none reaches the bus while ENA is 0, which leaves SCL and SDA released (R344, 20 R495).
DEDUCED, log entry 184. -/
def State.i2cSends (s : State) (k : Fin 2) (cmd : Word) : List Byte :=
  let adr := wbits cmd 0 7
  let tx := (List.range (wbits cmd 10 5)).map fun j => BitVec.ofNat 8 (wbits (s.rd R.ICk_TXi k.val (j / 4)) (8 * (j % 4)) 8)
  if s.flag F.ICk_CFG_ENA k.val then
    BitVec.ofNat 8 (2 * adr) :: tx ++ (if wbits cmd 15 5 = 0 then [] else [BitVec.ofNat 8 (2 * adr + 1)])
  else []

/-- A transaction that waits for the FE of channel `vc` starts (R330). -/
def State.i2cGo (s : State) (k : Fin 2) (vc : Fin 4) : State :=
  let x := s.icS k
  if s.running Pg.ic ∧ x.pend ∧ wbits x.cmd 20 2 = vc.val then
    s.modIc k fun y => { y with pend := false, busy := true, sends := s.i2cSends k x.cmd }
  else s

/-- CSI_FRAME_END: the frame closes, and I²C transactions that wait for it start (R330). DEDUCED, log entry 73. -/
def State.csiEnd (s : State) (vc : Fin 4) (ecc : HeaderEcc) (first : Bool) : State :=
  if ¬ s.running Pg.csi then s
  else match s.csiHeader ecc first with
  | (s, false) => s
  | (s, true) =>
    if ¬ s.vcOn vc then s.count R.CSI_DROPPKT
    else if ¬ s.cam.vc[vc].isOpen then s
    else
      let s := s.csiClose vc false
      (List.finRange 2).foldl (fun s k => s.i2cGo k vc) s

/-- Input pixels a pipeline has taken and not yet processed: 200 Mpixel/s are 2 a tick (R322). -/
def VpFrame.backlogNow (f : VpFrame) (now : BitVec 64) : Nat := f.backlog - 2 * (now - f.backTime).toNat

/-- A row packet reaches the pipeline that has accepted the frame. -/
def State.vpRow (s : State) (v : VpNum) (vc : Fin 4) (n : Nat) : State :=
  match (s.vp v).frame with
  | none => s
  | some f =>
    if (f.vc ≠ vc) ∨ f.rows.isSome then s
    else
      let b := f.backlogNow s.time + n
      if b > 4 * n * (if cfgMerge f.cfg then 2 else 1) then s.dropFrame v 2
      else s.modVp v fun y => { y with frame := some { f with backlog := b, backTime := s.time } }

/-- CSI_LONG_PACKET, and packets that are ignored or discarded (R317, R320). DEDUCED, log entry 68. -/
def State.csiPacket (s : State) (vc : Fin 4) (dt : BitVec 6) (pixels : List Nat) (ecc : HeaderEcc) (first : Bool) : State :=
  if ¬ s.running Pg.csi then s
  else match s.csiHeader ecc first with
  | (s, false) => s
  | (s, true) =>
    let d := dt.toNat
    let x := s.cam.vc[vc]
    if ¬ s.vcOn vc then s.count R.CSI_DROPPKT
    else if (2 ≤ d ∧ d ≤ 3) ∨ (8 ≤ d ∧ d ≤ 15) ∨ d = 0x12 then s
    else if ¬ (0x2A ≤ d ∧ d ≤ 0x2C) then s.count R.CSI_DROPPKT
    else if ¬ x.isOpen then s
    else
      let most := cfgHeight x.cfg * (if cfgMerge x.cfg then 2 else 1)
      let bad : Bool := d != cfgDt x.cfg || pixels.length != cfgWidth x.cfg || decide (most ≤ x.rows.length)
      if bad then s.modVc vc fun y => { y with damaged := true }
      else
        let s := s.modVc vc fun y => { y with rows := pixels :: y.rows }
        (List.finRange 2).foldl (fun s v => s.vpRow v vc pixels.length) s

/-- CSI_SOT_ERROR (R318). -/
def State.csiSot (s : State) : State :=
  if ¬ s.running Pg.csi then s else (((s.damageOpen.skipRest true).count R.CSI_SOTERR).raise Pg.csi 1).irq Pg.csi 6

/-- CSI leaves RUN: every open frame is damaged and ends (R339). -/
def State.csiStop (s : State) : State :=
  (List.finRange 4).foldl (fun s v => if s.cam.vc[v].isOpen then s.csiClose v true else s) s

-- the pipeline (R324)

/-- An RGB triple. -/
structure Rgb where
  r : Nat
  g : Nat
  b : Nat
  deriving DecidableEq, Repr

/-- Input code of a pixel for a data type. -/
def inputCode (dt px : Nat) : Nat := if dt = 0x2A then px * 16 else if dt = 0x2B then px * 4 else px

/-- Stage 1 of a row: merged values with their clipped marks. -/
def State.mergeRows (s : State) (v : VpNum) (f : VpFrame) : List (List Nat) → List (List (Nat × Bool))
  | [] => []
  | a :: l =>
    let code := inputCode (cfgDt f.cfg)
    if cfgMerge f.cfg then
      match l with
      | [] => []
      | b :: l =>
        let ratio := max 1 (s.act F.VPn_MERGE_RATIO v.val)
        ((a.zip b).map fun (p : Nat × Nat) =>
          (if code p.1 < s.act F.VPn_MERGE_KNEE v.val then 4096 * code p.1 / ratio else 16 * code p.2,
           code p.1 == 4095 && code p.2 == 4095)) :: s.mergeRows v f l
    else (a.map fun p => (16 * code p, code p == 4095)) :: s.mergeRows v f l

/-- LIN[j] and TONE[j]. -/
def State.lin (s : State) (v : VpNum) (j : Nat) : Nat := wbits (s.rdAct R.VPn_LINw v.val (j / 2)) (16 * (j % 2)) 16
def State.tone (s : State) (v : VpNum) (j : Nat) : Nat := wbits (s.rdAct R.VPn_TONEw v.val (j / 4)) (8 * (j % 4)) 8

/-- A curve of 17 points over 16 bits. -/
def curve (t : Nat → Nat) (m : Nat) : Nat :=
  let g := m / 4096
  ((t g : Int) + roundDiv (((t (g + 1) : Int) - t g) * (m % 4096 : Nat)) 4096).toNat

/-- BL_c. -/
def State.blackLevel (s : State) (v : VpNum) (c : Nat) : Nat :=
  wbits (s.rdAct (if c < 2 then R.VPn_BLK0 else R.VPn_BLK1) v.val) (16 * (c % 2)) 16

/-- Stages 2 and 3. -/
def State.stage3 (s : State) (v : VpNum) (x y m : Nat) : Nat :=
  curve (s.lin v) m - s.blackLevel v (2 * (y % 2) + x % 2)

/-- Colour of place (x, y): 0 red, 1 green, 2 blue; `cfa` is VPn_PIPE.CFA. DEDUCED, log entry 40. -/
def cfaAt (cfa x y : Nat) : Nat :=
  let k := 2 * (y % 2) + x % 2
  match cfa with
  | 0 => [0, 1, 1, 2].getD k 1
  | 1 => [1, 0, 2, 1].getD k 1
  | 2 => [1, 2, 0, 1].getD k 1
  | _ => [2, 1, 1, 0].getD k 1

/-- A plane of stage 3 values: row by row. -/
abbrev Plane := List (List Nat)

def Plane.at' (b : Plane) (x y : Nat) : Nat := (b.getD y []).getD x 0

/-- Positions of the 3 × 3 neighbourhood, edges replicated. DEDUCED, log entry 72. -/
def around (w h x y : Nat) : List (Nat × Nat) :=
  [y - 1, y, min (y + 1) (h - 1)].flatMap fun b => [x - 1, x, min (x + 1) (w - 1)].map fun a => (a, b)

/-- Rounded mean; `open_` for no value at all. -/
def meanOr (open_ : Nat) (l : List Nat) : Nat :=
  if l.isEmpty then open_ else (roundDiv ((l.foldl (· + ·) 0 : Nat) : Int) l.length).toNat

/-- Stage 4. A colour that the neighbourhood does not hold is the free value `open_`. -/
def demosaic (cfa : Nat) (b : Plane) (w h open_ x y : Nat) : Rgb :=
  if cfa = 4 then ⟨b.at' x y, b.at' x y, b.at' x y⟩
  else
    let c (k : Nat) : Nat :=
      if cfaAt cfa x y = k then b.at' x y
      else meanOr open_ (((around w h x y).filter fun p => cfaAt cfa p.1 p.2 == k).map fun p => b.at' p.1 p.2)
    ⟨c 0, c 1, c 2⟩

/-- Stage 5. -/
def State.whiteBalance (s : State) (v : VpNum) (a : Rgb) : Rgb :=
  let g (c k : Nat) : Nat := min 65535 (roundDiv ((c * k : Nat) : Int) 4096).toNat
  ⟨g a.r (s.act F.VPn_WB0_GR v.val), g a.g (s.act F.VPn_WB0_GG v.val), g a.b (s.act F.VPn_WB1_GB v.val)⟩

/-- M_ij, signed Q4.12. -/
def State.ccm (s : State) (v : VpNum) (k : Nat) : Int :=
  sgn 16 (wbits (s.rdAct ([R.VPn_CCM0, R.VPn_CCM1, R.VPn_CCM2, R.VPn_CCM3, R.VPn_CCM4].getD (k / 2) R.VPn_CCM0) v.val)
    (16 * (k % 2)) 16)

/-- Stage 6. -/
def State.colour (s : State) (v : VpNum) (a : Rgb) : Rgb :=
  let o (i : Nat) : Nat :=
    (sat (roundDiv (s.ccm v (3 * i) * (a.r : Int) + s.ccm v (3 * i + 1) * (a.g : Int) + s.ccm v (3 * i + 2) * (a.b : Int))
      4096) 0 65535).toNat
  ⟨o 0, o 1, o 2⟩

/-- What a frame looks like to the three outputs: stages 6 and 7 of a pixel, with its clipped mark. -/
structure Image where
  w : Nat
  h : Nat
  stage6 : List (List Rgb)
  clipped : List (List Bool)
  deriving DecidableEq, Repr

def State.image (s : State) (v : VpNum) (f : VpFrame) (open_ : Nat) : Image :=
  let m := s.mergeRows v f (f.rows.getD [])
  let b : Plane := m.zipIdx.map fun row => row.1.zipIdx.map fun p => s.stage3 v p.2 row.2 p.1.1
  let w := cfgWidth f.cfg
  let cfa := s.act F.VPn_PIPE_CFA v.val
  { w := w, h := m.length
    stage6 := b.zipIdx.map fun row => row.1.zipIdx.map fun p =>
      s.colour v (s.whiteBalance v (demosaic cfa b w m.length open_ p.2 row.2))
    clipped := m.map fun row => row.map fun p => p.2 }

def Image.at6 (i : Image) (x y : Nat) : Rgb := (i.stage6.getD y []).getD x ⟨0, 0, 0⟩

/-- Stage 7 of a pixel. -/
def State.at7 (s : State) (v : VpNum) (i : Image) (x y : Nat) : Rgb :=
  let a := i.at6 x y
  ⟨curve (s.tone v) a.r, curve (s.tone v) a.g, curve (s.tone v) a.b⟩

-- statistics and snapshot (R325 to R327)

/-- Coordinates of the statistics crop that the frame has. DESIGN CHOICE, log entry 39. -/
def State.statPixels (s : State) (v : VpNum) (i : Image) : List (Nat × Nat) :=
  let st := 2 ^ s.act F.VPn_SCROP1_SSTEP v.val
  let ax (lo hi n : Nat) : List Nat := (List.range n).filter fun k => lo ≤ k && k ≤ hi && (k - lo) % st == 0
  (ax (s.act F.VPn_SCROP0_SY0 v.val) (s.act F.VPn_SCROP1_SY1 v.val) i.h).flatMap fun y =>
    (ax (s.act F.VPn_SCROP0_SX0 v.val) (s.act F.VPn_SCROP1_SX1 v.val) i.w).map fun x => (x, y)

def State.statSet (s : State) (v : VpNum) (f : VpFrame) (i : Image) (open_ : Nat) : StatSet :=
  let px := s.statPixels v i
  let mean (g : Rgb → Nat) : Nat :=
    if px.isEmpty then open_ else (px.foldl (fun n p => n + g (i.at6 p.1 p.2)) 0) / px.length
  let clip := (px.filter fun p => (i.clipped.getD p.2 []).getD p.1 false).length
  let bins := px.map fun p => (s.at7 v i p.1 p.2).g / 16
  { sfrm := BitVec.ofNat 32 (f.tag.toNat * 2 ^ 24 + f.itag.toNat * 65536 + f.fnum.toNat)
    sinfo := BitVec.ofNat 32 (f.ctx.val * 2 ^ 31 + clip)
    stime := f.endTime.setWidth 32
    mean0 := BitVec.ofNat 32 (mean (·.g) * 65536 + mean (·.r))
    mean1 := BitVec.ofNat 32 (mean (·.b))
    hist := (List.range 16).map fun k => (bins.filter fun b => b == k).length }

/-- A statistics set is displayed. -/
def State.showStats (s : State) (v : VpNum) (t : StatSet) : State :=
  let s := ((s.wr R.VPn_SFRM t.sfrm v.val).wr R.VPn_SINFO t.sinfo v.val).wr R.VPn_STIME t.stime v.val
  let s := (s.wr R.VPn_SMEAN0 t.mean0 v.val).wr R.VPn_SMEAN1 t.mean1 v.val
  (t.hist.zipIdx.foldl (fun s e => s.wr R.VPn_SHISTj (BitVec.ofNat 32 e.1) v.val e.2) s).irq (Pg.vp v) 4

/-- STATS_HOLD_RELEASE: HOLD has returned to 0. -/
def State.statsRelease (s : State) (v : VpNum) : State :=
  let s := s.setBit F.VPn_STATCTL_HOLD false v.val
  match (s.vp v).waiting with
  | some t => (s.modVp v fun y => { y with waiting := none }).showStats v t
  | none => s

/-- Bytes of the snapshot crop; a pixel that the frame lacks is the free value. -/
def State.snapBytes (s : State) (v : VpNum) (i : Image) (open_ : Nat) : List Byte :=
  let d := 2 ^ s.act F.VPn_SNAP1_PDEC v.val
  (List.range (ceilDiv (s.act F.VPn_SNAP1_PH v.val) d)).flatMap fun b =>
    (List.range (ceilDiv (s.act F.VPn_SNAP1_PW v.val) d)).map fun a =>
      let x := s.act F.VPn_SNAP0_PX0 v.val + a * d
      let y := s.act F.VPn_SNAP0_PY0 v.val + b * d
      BitVec.ofNat 8 (if x < i.w ∧ y < i.h then (s.at7 v i x y).g else open_)

def State.takeSnap (s : State) (v : VpNum) (i : Image) (open_ : Nat) : State :=
  let b := s.snapBytes v i open_
  ((s.modVp v fun y => { y with snapRam := b ++ y.snapRam.drop b.length }).setBit F.VPn_SNAPCTL_DONE true v.val).irq
    (Pg.vp v) 7

/-- SNAP_ARM. -/
def State.snapArm (s : State) (v : VpNum) : State := s.modVp v fun y => { y with armed := true }

/-- SNAPDATA as it reads. -/
def State.snapWord (s : State) (v : VpNum) : Word :=
  let a := s.fld F.VPn_SNAPADDR_ADDR v.val
  BitVec.ofNat 32 (leNat ((List.range 4).map fun k => (s.vp v).snapRam.getD ((a + k) % 32768) 0))

/-- The address after a read of SNAPDATA. -/
def State.snapNext (s : State) (v : VpNum) : State :=
  s.setFld F.VPn_SNAPADDR_ADDR (s.fld F.VPn_SNAPADDR_ADDR v.val + 4) v.val

-- classification (R335 to R338)

inductive DotClass
  | black | red | blank
  deriving DecidableEq, Repr

/-- x_c of column `k` of the range (R333), from X0 and XPITCH. -/
def columnX (x0 : Nat) (xp : Int) (k : Nat) : Int := roundDiv ((x0 * 4096 : Nat) + (k : Int) * xp) 65536

/-- The kernel at a pixel: R and G of stage 7 (R325). Rows beyond the frame are free values. -/
def State.kernel (s : State) (v : VpNum) (i : Image) (open_ x y : Nat) : Nat × Nat :=
  if y ≥ i.h then (open_ % 256, open_ / 256 % 256)
  else if s.actFlag F.VPn_PIPE_KS3 v.val then
    let l := (around i.w i.h x y).map fun p => s.at7 v i p.1 p.2
    (meanOr 0 (l.map (·.r)), meanOr 0 (l.map (·.g)))
  else ((s.at7 v i x y).r, (s.at7 v i x y).g)

def State.classify (s : State) (v : VpNum) (r g : Nat) : DotClass :=
  if g ≥ s.act F.VPn_CLS_TG v.val then .blank
  else if r ≥ s.act F.VPn_CLS_TRB v.val ∧ s.act F.VPn_PIPE_CFA v.val ≠ 4 then .red
  else .black

/-- The class is not the intended one (R335). -/
def State.wrong (s : State) (v : VpNum) (code : Nat) (c : DotClass) : Bool :=
  match code, c with
  | 1, .black => false
  | 2, .red => false
  | 2, .black => s.act F.VPn_PIPE_CFA v.val != 4
  | 0, .blank => false
  | 3, .blank => false
  | _, _ => true

/-- The verdict on a dot intended black or red (R336). -/
def State.verdict (s : State) (v : VpNum) (code : Nat) (c : DotClass) (r g : Nat) : Verdict :=
  match code, c with
  | 1, .black => if g > s.act F.VPn_DENS_BHI v.val then .light else if g < s.act F.VPn_DENS_BLO v.val then .dark else .matched
  | 1, _ => .light
  | _, .red => if g > s.act F.VPn_DENS_RHI v.val then .light else if r < s.act F.VPn_DENS_RLO v.val then .dark else .matched
  | _, .black => .dark
  | _, .blank => .light

/-- One classified dot of element `e` (R335 to R338). -/
def State.judgeDot (s : State) (v : VpNum) (x : Fin 2) (p : Port) (e code r g : Nat) : State :=
  let c := s.classify v r g
  let mis := s.wrong v code c
  let s := s.count R.VPn_WVER v.val
  let s := if mis then s.count R.VPn_WMIS v.val else s
  let s := s.modCtx v x fun y => { y with ver := y.ver + 1, mis := y.mis + mis.toNat }
  if code ≠ 1 ∧ code ≠ 2 then s
  else
    let s := s.vote p e (s.verdict v code c r g)
    let n := if c = .blank then sget 0 e (s.vctx v x).blanks + 1 else 0
    let s := s.modCtx v x fun y =>
      { y with blanks := sput 0 e n y.blanks, reported := if n = 0 then y.reported.filter (· != e) else y.reported }
    if max 1 (s.act F.VPn_CLS_DOCNT v.val) ≤ n ∧ ¬ (s.vctx v x).reported.contains e then
      (s.dotOut v x p e false).modCtx v x fun y => { y with reported := e :: y.reported }
    else s

/-- A seen line is evaluated: the elements it was captured for that the context covers (R333, R335). DEDUCED, log
entry 146. DEDUCED, log entry 146. -/
def State.judgeLine (s : State) (v : VpNum) (x : Fin 2) (i : Image) (open_ row : Nat) (l : CapLine) : State :=
  let e0 := s.ctxE0 v x
  let x0 := s.act F.VPn_Cx_X0_X0 v.val x.val
  let xp := (s.rdAct R.VPn_Cx_XP v.val x.val).toInt
  ((l.codes.zip l.dead).zipIdx).foldl (fun s d =>
    let e := l.e0 + d.2
    if e < e0 ∨ e0 + s.ctxNE v x ≤ e then s
    else if d.1.2 then
      if (s.vctx v x).deadCols.contains e then s else s.dotOut v x l.port e true
    else
      let k := s.kernel v i open_ (columnX x0 xp (e - e0)).toNat row
      s.judgeDot v x l.port e d.1.1 k.1 k.2) s

/-- FRAME_RESULTS_FINAL (R322, R326, R327, R334). -/
def State.frameFinal (s : State) (v : VpNum) : State :=
  match (s.vp v).frame with
  | none => s
  | some f =>
    if f.rows.isNone ∨ ¬ s.working (Pg.vp v) then s
    else
      let (n, s) := s.fresh
      let open_ := (Config.freeWord n).toNat % 65536
      let i := s.image v f open_
      let t := s.statSet v f i open_
      let s := s.modVp v fun y => { y with frame := none }
      let s := if s.flag F.VPn_STATCTL_HOLD v.val then s.modVp v fun y => { y with waiting := some t } else s.showStats v t
      let s := if f.snap then s.takeSnap v i open_ else s
      let seen := (s.vctx v f.ctx).caps.filterMap fun (l : CapLine) => l.row.map fun r => (r, l)
      let s := seen.foldl (fun s l => s.judgeLine v f.ctx i open_ l.1 l.2) s
      let s := (s.wrapStep R.VPn_FRAMES v.val).modCtx v f.ctx fun c =>
        { c with caps := c.caps.filter fun l => l.row.isNone, lastFrame := s.time, lossGiven := false }
      (List.finRange 4).foldl (fun s p => s.winCheck p) s

/-- ROUND_TURN_TIMEOUT (R321). -/
def State.turnTimeout (s : State) (v : VpNum) : State :=
  if s.running (Pg.vp v) ∧ s.rounds v ∧ (s.vp v).accepted.isNone ∧
      s.since (s.vp v).turnSince ≥ s.fld F.VPn_BIND_RTMO v.val * msTicks then s.passTurn v
  else s

/-- The port of a context. -/
def State.ctxPort (s : State) (v : VpNum) (x : Fin 2) : Port := Fin.ofNat 4 (s.fld F.VPn_Cx_CFG_PORT v.val x.val)

/-- A context has had no frame processed for FLTMO ms while a window is open on its port (R338). -/
def State.frameLost (s : State) (v : VpNum) (x : Fin 2) : Bool :=
  s.running (Pg.vp v) && s.flag F.VPn_Cx_CFG_EN v.val x.val && (s.win (s.ctxPort v x)).isSome && !(s.vctx v x).lossGiven &&
    decide (s.since (s.vctx v x).lastFrame ≥ s.fld F.VPn_TMO_FLTMO v.val * msTicks)

/-- FRAMELOSS (R338): one report, for the port of every context that it comes from (18 R460). -/
def State.frameLoss (s : State) (v : VpNum) (x : Fin 2) : State :=
  if s.frameLost v x then
    let from_ := x :: (if s.rounds v && s.frameLost v (x + 1) then [x + 1] else [])
    let s' := from_.foldl (fun s x => s.modCtx v x fun c => { c with lossGiven := true }) s
    (s'.raise (Pg.vp v) 0 (from_.map fun x => s.ctxPort v x).eraseDups).irq (Pg.vp v) 9
  else s

-- entering and leaving RUN, commits (R321, R323, R334, R339)

def State.vpEnter (s : State) (v : VpNum) : State :=
  s.modVp v fun y => { y with turn := 0, turnSince := s.time, accepted := none
                              ctx := y.ctx.map fun (c : VpCtx) => { c with lastFrame := s.time, lossGiven := false } }

/-- A VP page leaves RUN: its frame and captured lines are discarded, and the windows of its ports close (R339); lines
that the other pipeline has captured stay there. DEDUCED, log entry 183. -/
def State.vpLeave (s : State) (v : VpNum) : State :=
  let s := (s.dropFrame v 4).modVp v fun y =>
    { y with accepted := none, armed := false, ctx := y.ctx.map fun (c : VpCtx) => { c with caps := [], blanks := [], reported := [] } }
  (List.finRange 2).foldl (fun s x =>
    if ¬ s.flag F.VPn_Cx_CFG_EN v.val x.val then s
    else
      let p : Port := Fin.ofNat 4 (s.fld F.VPn_Cx_CFG_PORT v.val x.val)
      match s.win p with
      | none => s
      | some w =>
        let s := s.winClose p
        match w.closing with
        | some (q, uid) => s.finish q uid St.aborted
        | none => s) s

/-- Element range of an enabled context with its port, from the shadow set of pipeline `v`, else from the active
set. -/
def State.ctxRange (s : State) (v : VpNum) (c : VpNum × Fin 2) : Option (Nat × Nat × Nat) :=
  if ¬ s.flag F.VPn_Cx_CFG_EN c.1.val c.2.val then none
  else
    let get (f : Fld) : Nat := if c.1 = v then s.fld f c.1.val c.2.val else s.act f c.1.val c.2.val
    some (s.fld F.VPn_Cx_CFG_PORT c.1.val c.2.val, get F.VPn_Cx_E_E0, get F.VPn_Cx_E_E0 + get F.VPn_Cx_E_NE)

/-- The shadow set of an enabled context passes R334. DEDUCED, log entry 71. -/
def State.ctxOk (s : State) (v : VpNum) (x : Fin 2) : Bool :=
  let xp := (s.rd R.VPn_Cx_XP v.val x.val).toInt
  let e0 := s.fld F.VPn_Cx_E_E0 v.val x.val
  let ne := s.fld F.VPn_Cx_E_NE v.val x.val
  let vc := s.fld F.VPn_Cx_CFG_VC v.val x.val
  let ks : Int := if s.flag F.VPn_PIPE_KS3 v.val then 1 else 0
  let inside (c : Int) : Bool := decide (0 ≤ c - ks) && decide (c + ks < s.fld F.CSI_VCv_CFG_WIDTH vc)
  let x0 := s.fld F.VPn_Cx_X0_X0 v.val x.val
  xp != 0 && (s.rd R.VPn_Cx_RP v.val x.val) != 0 && ne != 0 && e0 + ne ≤ 6144 &&
    s.fld F.VPn_Cx_ROW_CROW0 v.val x.val ≤ s.fld F.VPn_Cx_ROW_CROW1 v.val x.val &&
    s.fld F.VPn_Cx_ROW_CROW1 v.val x.val < s.fld F.CSI_VCv_CFG_HEIGHT vc &&
    inside (columnX x0 xp 0) && inside (columnX x0 xp (ne - 1))

/-- The shadow set of a VP page may be committed (R323, R325, R334, R342). -/
def State.vpCommitOk (s : State) (v : VpNum) : Bool :=
  let d := 2 ^ s.fld F.VPn_SNAP1_PDEC v.val
  let all : List (VpNum × Fin 2) := [(0, 0), (0, 1), (1, 0), (1, 1)]
  s.fld F.VPn_PIPE_CFA v.val ≤ 4 && 256 ≤ s.fld F.VPn_MERGE_RATIO v.val &&
    ceilDiv (s.fld F.VPn_SNAP1_PW v.val) d * ceilDiv (s.fld F.VPn_SNAP1_PH v.val) d ≤ 32768 &&
    (List.finRange 2).all (fun x => !s.flag F.VPn_Cx_CFG_EN v.val x.val || s.ctxOk v x) &&
    all.all fun a => all.all fun b => a == b || (match s.ctxRange v a, s.ctxRange v b with
      | some (p, lo, hi), some (q, lo', hi') => p != q || hi ≤ lo' || hi' ≤ lo
      | _, _ => true)

/-- VPn_STAT (R342). -/
def State.vpStat (s : State) (v : VpNum) : Word :=
  let y := s.vp v
  let held := (List.finRange 2).foldl (fun n x => n + (s.vctx v x).caps.length) 0
  let wopen := (List.finRange 2).any fun x =>
    s.flag F.VPn_Cx_CFG_EN v.val x.val && (s.win (Fin.ofNat 4 (s.fld F.VPn_Cx_CFG_PORT v.val x.val))).isSome
  BitVec.ofNat 32 (held * 65536 + y.turn.val * 8 + y.frame.isSome.toNat * 4 + wopen.toNat * 2)

-- I²C (R329 to R331)

/-- I2C_TRANSACTION: a write of ICk_CMD, discarded with REJ while a transaction runs or waits, for lengths above 16,
and outside RUN (R330, R344). DEDUCED, log entry 185. -/
def State.i2cStart (s : State) (k : Fin 2) (cmd : Word) : State :=
  if (s.icS k).busy ∨ (s.icS k).pend ∨ wbits cmd 15 5 > 16 ∨ wbits cmd 10 5 > 16 ∨ ¬ s.running Pg.ic then
    s.setBit F.ICk_STAT_REJ true k.val
  else s.modIc k fun _ =>
    { cmd := cmd, pend := cmd.getLsbD 22, busy := !cmd.getLsbD 22, sends := if cmd.getLsbD 22 then [] else s.i2cSends k cmd }

/-- The end of a transaction with a result. DEDUCED, log entry 74. -/
def State.i2cDone (s : State) (k : Fin 2) (result : Nat) : State :=
  let cmd := (s.icS k).cmd
  let s := (s.modIc k fun x => { x with busy := false }).setFld F.ICk_STAT_RESULT result k.val
  let s := if cmd.getLsbD 23 then s.setFld F.ICk_STAT_LTAG (wbits cmd 24 8) k.val else s
  let s := s.setFld F.ICk_LFRM_FRAME (s.fld F.CSI_VCv_FRM_COUNT (wbits cmd 20 2)) k.val
  s.irq Pg.ic (4 + k.val)

def State.busErr (s : State) (k : Fin 2) (stuck : Bool) : State :=
  let s := s.i2cDone k 5
  if stuck then (s.raise Pg.ic k.val).irq Pg.ic 6 else s

/-- Read bytes into ICk_RX0 to ICk_RX3 (R330). -/
def State.i2cRx (s : State) (k : Fin 2) (rx : List Byte) : State :=
  rx.zipIdx.foldl (fun s b =>
    s.wr R.ICk_RXi (setBits (s.rd R.ICk_RXi k.val (b.2 / 4)) (8 * (b.2 % 4)) 8 b.1.toNat) k.val (b.2 / 4)) s

/-- ICx leaves RUN: a transaction that waits is discarded, and one that runs ends after its byte with a STOP, without a
result (02 R38). DESIGN CHOICE, log entry 186. -/
def State.icLeave (s : State) : State :=
  (List.finRange 2).foldl (fun s k => s.modIc k fun x => { x with pend := false }) s

/-- I2C_TRANSACTION_END with what the bus did. -/
def State.i2cEnd (s : State) (k : Fin 2) (o : I2cOutcome) (rx : List Byte) : State :=
  if ¬ (s.icS k).busy ∨ ¬ s.running Pg.ic then s
  else match o with
  | .ok => if rx.length = wbits (s.icS k).cmd 15 5 then (s.i2cRx k rx).i2cDone k 1 else s
  | .nackAddr => (s.i2cDone k 2).count R.ICk_NACKS k.val
  | .nackData => (s.i2cDone k 3).count R.ICk_NACKS k.val
  | .busErr stuck => s.busErr k stuck

/-- I2C_STRETCH_TIMEOUT: SCL has been stretched for `us` microseconds, beyond STMO (R329, R331). -/
def State.i2cTimeout (s : State) (k : Fin 2) (us : Word) (sdaLow stuck : Bool) : State :=
  if ¬ (s.icS k).busy ∨ ¬ s.running Pg.ic ∨ us.toNat ≤ 1000 * max 1 (s.fld F.ICk_CFG_STMO k.val) then s
  else if sdaLow then s.busErr k stuck else s.i2cDone k 4

/-- ICk_STAT: PEND and BUSY beside what the store holds. -/
def State.icStat (s : State) (k : Fin 2) : Word :=
  let x := s.icS k
  s.rd R.ICk_STAT k.val ||| BitVec.ofNat 32 (x.pend.toNat * 16 + x.busy.toNat * 8)

/-- CSI_STAT (R341). -/
def State.csiStat (s : State) : Word :=
  let lanes : Nat := match s.cam.lanes with
    | none => 0
    | some hs => if hs then 2 else 1
  BitVec.ofNat 32 ((List.finRange 4).foldl (fun n v => n + s.cam.vc[v].isOpen.toNat * 2 ^ (2 + v.val)) lanes)

end Sys2Proof.Machine
end

