-- ==== Sys2Proof/Machine/Cmac.lean ====
section
/-! DEFINITION. AES-128 and AES-CMAC, which the sessions of chapter 16 use (16 R407, R408, R410). Bytes are natural
numbers below 256; a block is a list of sixteen, in the order in which the bytes are sent. -/

namespace Sys2Proof.Machine

/-- The substitution table of AES, 32 entries in each number, entry 0 in the lowest byte of the first. -/
def aesSboxWords : List Nat :=
   [0xc072a49cafa2d4adf04759fa7dc982ca76abd7fe2b670130c56f6bf27b777c63,
    0x75b227ebe28012079a059618c323c7041531d871f1e5a534ccf73f362693fdb7,
    0xcf584c4a39becb6a5bb1fc20ed00d153842fe329b3d63b52a05a6e1b1a2c8309,
    0xd2f3ff1021dab6bcf5389d928f40a351a89f3c507f02f94585334d43fbaaefd0,
    0xdb0b5ede14b8ee4688902a22dc4f816073195d643d7ea7c41744975fec130ccd,
    0x8ae7a65eaf4566ca94ed58d6d37c8e779e4959162acd3c25c2406490a3a32e0,
    0x9e1dc186b95735610ef6034866b53e708a8bbd4b1f74dde8c6b4a61c2e2578ba,
    0x16bb54b00f2d99416842e6bf0d89a18cdf2855cee9871e9b948ed9691198f8e1]

def aesSbox (b : Nat) : Nat := bitsN (aesSboxWords.getD (b / 32) 0) (8 * (b % 32)) 8

/-- Multiplication by x in the field of AES. -/
def aesX (b : Nat) : Nat := if b < 128 then 2 * b else (2 * b - 256) ^^^ 0x1B

def xorBytes (a b : List Nat) : List Nat := a.zipWith (· ^^^ ·) b

/-- One column through MixColumns. -/
def mixColumn : List Nat → List Nat
  | [a, b, c, d] =>
    [aesX a ^^^ aesX b ^^^ b ^^^ c ^^^ d, a ^^^ aesX b ^^^ aesX c ^^^ c ^^^ d,
     a ^^^ b ^^^ aesX c ^^^ aesX d ^^^ d, aesX a ^^^ a ^^^ b ^^^ c ^^^ aesX d]
  | l => l

/-- ShiftRows of a block held column by column. -/
def shiftRows (s : List Nat) : List Nat := (List.range 16).map fun i => s.getD ((i + 4 * (i % 4)) % 16) 0

def mixColumns (s : List Nat) : List Nat :=
  mixColumn (s.take 4) ++ mixColumn ((s.drop 4).take 4) ++ mixColumn ((s.drop 8).take 4) ++ mixColumn (s.drop 12)

/-- The next round key, with the round constant. -/
def nextKey (k : List Nat) (rc : Nat) : List Nat :=
  let t := [aesSbox (k.getD 13 0) ^^^ rc, aesSbox (k.getD 14 0), aesSbox (k.getD 15 0), aesSbox (k.getD 12 0)]
  let a := xorBytes (k.take 4) t
  let b := xorBytes ((k.drop 4).take 4) a
  let c := xorBytes ((k.drop 8).take 4) b
  a ++ b ++ c ++ xorBytes (k.drop 12) c

/-- Rounds with the constants listed; the last one mixes no columns. -/
def aesRounds (k s : List Nat) : List Nat → List Nat
  | [] => s
  | [rc] => xorBytes (shiftRows (s.map aesSbox)) (nextKey k rc)
  | rc :: rcs =>
    let k' := nextKey k rc
    aesRounds k' (xorBytes (mixColumns (shiftRows (s.map aesSbox))) k') rcs

/-- AES-128 of one block. -/
def aes (key block : List Nat) : List Nat :=
  aesRounds key (xorBytes block key) [1, 2, 4, 8, 16, 32, 64, 128, 0x1B, 0x36]

/-- A block as a number, first byte most significant. -/
def beNat (l : List Nat) : Nat := l.foldl (fun n b => 256 * n + b) 0

def beBytes : Nat → Nat → List Nat
  | 0, _ => []
  | n + 1, v => beBytes n (v / 256) ++ [v % 256]

/-- Doubling of a CMAC subkey. -/
def cmacDouble (l : List Nat) : List Nat :=
  let v := beNat l
  beBytes 16 ((2 * v % 2 ^ 128) ^^^ (if v < 2 ^ 127 then 0 else 0x87))

/-- The chain over the blocks of a message; `n` bounds their number. -/
def cmacChain (key k1 k2 : List Nat) (x m : List Nat) : Nat → List Nat
  | 0 => x
  | n + 1 =>
    if m.length > 16 then cmacChain key k1 k2 (aes key (xorBytes x (m.take 16))) (m.drop 16) n
    else
      let last := if m.length = 16 then xorBytes m k1
        else xorBytes (m ++ 0x80 :: List.replicate (15 - m.length) 0) k2
      aes key (xorBytes x last)

/-- AES-CMAC of a message under a key of sixteen bytes. -/
def cmacNat (key m : List Nat) : List Nat :=
  let k1 := cmacDouble (aes key (List.replicate 16 0))
  cmacChain key k1 (cmacDouble k1) (List.replicate 16 0) m (m.length / 16 + 1)

/-- AES-CMAC over bytes (16 R410). PRESUMED, log entry 126. -/
def cmac (key m : List Byte) : List Byte :=
  (cmacNat (key.map BitVec.toNat) (m.map BitVec.toNat)).map fun n => BitVec.ofNat 8 n

end Sys2Proof.Machine
end

