-- ==== Sys2Proof/Machine/Sessions.lean ====
section
/-! DEFINITION. Sessions (16): session slots, OPEN and PROVE, the keyed check, closing, and the mailboxes. -/

namespace Sys2Proof.Machine

-- keys (R404, 19 R484)

/-- KD or KM as SEC reads it; in SCRAPPED both read 0. -/
def State.otpKey (s : State) (maker : Bool) : List Byte :=
  if s.fld F.LCS_STATE_STATE = 5 then List.replicate 16 0
  else s.cells (otpBase + if maker then 0x90 else 0x80) 16

def State.keyPresent (s : State) (maker : Bool) : Bool := (s.otpKey maker).any (· != 0)

-- slots (R405, R406)

def State.sess (s : State) (i : SlotNum) : SecSlot := s.sec.slots[i]
def State.modSess (s : State) (i : SlotNum) (f : SecSlot → SecSlot) : State :=
  { s with sec := { s.sec with slots := s.sec.slots.set i (f s.sec.slots[i]) } }

/-- The slot becomes FREE and its key is gone. -/
def State.closeSess (s : State) (i : SlotNum) : State := s.modSess i fun _ => {}

/-- "SKEY", "HPRF" and "DPRF". -/
def skeyBytes : List Byte := [0x53, 0x4B, 0x45, 0x59]
def hprfBytes : List Byte := [0x48, 0x50, 0x52, 0x46]
def dprfBytes : List Byte := [0x44, 0x50, 0x52, 0x46]

/-- The session key (R407); for the boot session KSEL is 2 and the nonces are zeros (R422). -/
def sessionKey (k : List Byte) (i : SlotNum) (ksel : Byte) (nh nd : List Byte) : List Byte :=
  cmac k ([0x01] ++ skeyBytes ++ [BitVec.ofNat 8 i.val, ksel] ++ nh ++ nd)

/-- STATUS of SEC_RSP and of the mailboxes (R425). -/
inductive SecStatus
  | ok | full | noKey | badState | authFail | badArg | access | busy
  deriving DecidableEq, Repr

def SecStatus.code : SecStatus → Nat
  | .ok => 0
  | .full => 1
  | .noKey => 2
  | .badState => 3
  | .authFail => 4
  | .badArg => 5
  | .access => 6
  | .busy => 7

/-- The lowest FREE slot of SS0 to SS6, else SS7 (R407). -/
def State.freeSlot (s : State) : Option SlotNum := (List.finRange 8).find? fun i => (s.sess i).st == .free

/-- OPEN (R407, R423): the slot, or the refusal. -/
def State.secOpen (s : State) (owner : SlotOwner) (maker : Bool) (nh nd : List Byte) : State × SecStatus × SlotNum :=
  if ¬ s.running Pg.sec then (s, .busy, 0)
  else match s.freeSlot with
    | none => (s.count R.SEC_OPENREF, .full, 0)
    | some i =>
      if ¬ s.keyPresent maker then (s.count R.SEC_OPENREF, .noKey, 0)
      else
        let ks := sessionKey (s.otpKey maker) i (if maker then 1 else 0) nh nd
        (s.modSess i fun _ => { st := .pending, owner := owner, maker := maker, ks := ks, nh := nh, nd := nd,
                                since := s.time }, .ok, i)

/-- Who sends a keyed command; a KEYED pair of SEQ may be one of the entries of the boot list (R413, R422). -/
inductive KeyedBy
  | spt | csl | seq (boot : Bool) | transom
  deriving DecidableEq, Repr

/-- SEC_LASTFAIL.REQ. -/
def KeyedBy.code : KeyedBy → Nat
  | .spt => 0
  | .csl => 1
  | .seq _ => 2
  | .transom => 3

/-- Reasons of SEC_LASTFAIL (R427). -/
inductive SecReason
  | noSess | owner | counter | check | maker | drain | proof
  deriving DecidableEq, Repr

def SecReason.code : SecReason → Nat
  | .noSess => 1
  | .owner => 2
  | .counter => 3
  | .check => 4
  | .maker => 5
  | .drain => 6
  | .proof => 7

/-- Reasons that count toward closure (R411). -/
def SecReason.counts : SecReason → Bool
  | .counter => true
  | .check => true
  | _ => false

/-- A failure is recorded (R418): LASTFAIL always, the counter, the interrupt and the report unless it is DRAIN; one
that counts toward closure adds to the failure run, and the eighth closes the slot. -/
def State.secFail (s : State) (by_ : KeyedBy) (i : SlotNum) (r : SecReason) : State :=
  let s := s.wr R.SEC_LASTFAIL (BitVec.ofNat 32 (r.code * 2 ^ 24 + i.val * 2 ^ 16 + by_.code))
  let s := if r = .drain then s else ((s.count R.SEC_AUTHFAIL).irq Pg.sec 4).raise Pg.sec 0
  if ¬ r.counts then s
  else
    let s := (s.count R.SEC_SSs_FAIL i.val).modSess i fun x => { x with run := x.run + 1 }
    if (s.sess i).run ≥ 8 then ((s.closeSess i).irq Pg.sec 5).raise Pg.sec 1 else s

/-- PROVE (R408, R423): PD where it is OK. -/
def State.secProve (s : State) (by_ : KeyedBy) (owner : SlotOwner) (i : SlotNum) (ph : List Byte) :
    State × SecStatus × List Byte :=
  let x := s.sess i
  let zero := List.replicate 8 (0 : Byte)
  if ¬ s.running Pg.sec then (s, .busy, zero)
  else if x.st ≠ .pending ∨ x.owner ≠ owner then (s, .badState, zero)
  else
    let n := BitVec.ofNat 8 i.val
    if ph = (cmac x.ks (hprfBytes ++ [n] ++ x.nd ++ x.nh)).take 8 then
      ((s.modSess i fun x => { x with st := .opened, last := 0, run := 0, since := s.time }).irq Pg.sec 6, .ok,
        (cmac x.ks (dprfBytes ++ [n] ++ x.nh ++ x.nd)).take 8)
    else ((s.closeSess i).secFail by_ i .proof, .authFail, zero)

-- the keyed check (R410 to R413)

/-- The requester of a keyed command that may stand in `SecSt.checks`; a KEYED of SEQ is checked as it issues. -/
def KeyedBy.rq : KeyedBy → Option Requester
  | .spt => some .spt
  | .csl => some .csl
  | .transom => some .transom
  | .seq _ => none

/-- SEC checks a command of `by_`: it is in RUN, or drains and this is the check in progress (R423; 02 R38). -/
def State.mayCheck (s : State) (by_ : KeyedBy) : Bool :=
  s.running Pg.sec || ((s.page Pg.sec).st == .draining && by_.rq.isSome && s.sec.checks.head?.map (·.1) == by_.rq)

/-- The order of commands that reach SEC in one clock (R413). -/
def secRank (rq : Requester) : Nat :=
  match rq with
  | .spt => 0
  | .csl => 1
  | .transom => 3
  | _ => 2

/-- A waiting check goes before that of a command of `rq` which reaches SEC now (R413). DEDUCED, log entry 188. -/
def State.checkAhead (s : State) (rq : Requester) (e : Requester × BitVec 64) : Bool :=
  e.2 != s.time || decide (secRank e.1 ≤ secRank rq)

/-- A keyed command of `rq` reaches SEC, and its check waits for its turn. -/
def State.checkBegins (s : State) (rq : Requester) : State :=
  if s.running Pg.sec then
    let l := s.sec.checks
    { s with sec := { s.sec with checks := l.takeWhile (s.checkAhead rq) ++ (rq, s.time) :: l.dropWhile (s.checkAhead rq) } }
  else s

/-- A command of `rq` that reaches SEC now is checked at once, or fails at once outside RUN (R413, R423). -/
def State.secFree (s : State) (rq : Requester) : Bool := !s.running Pg.sec || s.sec.checks.all fun e => !s.checkAhead rq e

/-- The waiting check of `rq` is the next one; a command that SEC has not taken, outside RUN, waits for none. -/
def State.secTurn (s : State) (rq : Requester) : Bool :=
  s.sec.checks.all (fun e => e.1 != rq) || s.sec.checks.head?.map (·.1) == some rq

/-- The check of the command of `rq` has ended. -/
def State.checkEnds (s : State) (rq : Requester) : State :=
  { s with sec := { s.sec with checks := s.sec.checks.filter fun e => e.1 != rq } }

/-- SEC leaves RUN: only the check in progress goes on (R423). -/
def State.secFinish (s : State) : State := { s with sec := { s.sec with checks := s.sec.checks.take 1 } }

/-- The requester may use the slot (R413, R422). -/
def SecSlot.mayUse (x : SecSlot) : KeyedBy → Bool
  | .seq b => x.st == .opened || b
  | .csl => x.st == .opened && x.owner == .csl
  | .spt => x.st == .opened && x.owner == .spt
  | .transom => x.st == .opened && x.owner == .transom

/-- The check T′ of a keyed command with command bytes `b` (R410). -/
def SecSlot.tag (x : SecSlot) (i : SlotNum) (ctr : Word) (b : List Byte) : List Byte :=
  (cmac x.ks ([BitVec.ofNat 8 i.val] ++ natBytes 4 ctr.toNat ++ b)).take 8

/-- The first test that fails (R411); `makerOnly`: the target accepts only sessions of kind MAKER. -/
def State.keyedReason (s : State) (by_ : KeyedBy) (i : SlotNum) (ctr : Word) (t b : List Byte) (makerOnly : Bool) :
    Option SecReason :=
  let x := s.sess i
  if ¬ s.mayCheck by_ then some .drain
  else if x.st ≠ .opened ∧ x.st ≠ .boot then some .noSess
  else if ¬ x.mayUse by_ then some .owner
  else if ctr.toNat ≤ x.last.toNat then some .counter
  else if t ≠ x.tag i ctr b then some .check
  else if makerOnly ∧ ¬ x.maker then some .maker
  else none

/-- KEYED_CHECK: true where the command is accepted (R411, R412, R418). DEDUCED, log entry 75. -/
def State.keyedCheck (s : State) (by_ : KeyedBy) (i : SlotNum) (ctr : Word) (t b : List Byte) (makerOnly : Bool) :
    State × Bool :=
  match s.keyedReason by_ i ctr t b makerOnly with
  | none => ((s.modSess i fun x => { x with last := ctr, run := 0, since := s.time }).count R.SEC_SSs_OK i.val, true)
  | some r =>
    let s := if r = .maker then s.modSess i fun x => { x with last := ctr } else s
    (s.secFail by_ i r, false)

/-- Command bytes of CLOSE and TOUCH (R419). -/
def opBytes (op : Byte) : List Byte := op :: List.replicate 15 0

/-- CLOSE (R419). -/
def State.secClose (s : State) (by_ : KeyedBy) (i : SlotNum) (ctr : Word) (t : List Byte) : State × SecStatus :=
  let (s, ok) := s.keyedCheck by_ i ctr t (opBytes 3) false
  if ok then (s.closeSess i, .ok) else (s, .authFail)

/-- TOUCH (R419). -/
def State.secTouch (s : State) (by_ : KeyedBy) (i : SlotNum) (ctr : Word) (t : List Byte) : State × SecStatus :=
  let (s, ok) := s.keyedCheck by_ i ctr t (opBytes 4) false
  (s, if ok then .ok else .authFail)

-- timers and the boot session (R409, R420, R422)

/-- OPEN_TIMEOUT: while SEC is in RUN, for its slots keep their state otherwise (R423). DEDUCED, log entry 180. -/
def State.openTimeout (s : State) (i : SlotNum) : State :=
  if s.running Pg.sec ∧ (s.sess i).st = .pending ∧ s.since (s.sess i).since ≥ max 1 (s.fld F.SEC_TMO_OPENT) * msTicks then
    s.closeSess i
  else s

/-- The slot of a keyed request of the link, KREG_WR, CLOSE or TOUCH (15 R389, R424). -/
def Request.slot (r : Request) : SlotNum := Fin.ofNat 8 (r.payload.getD (if r.typ = 0x12 then 0 else 1) 0).toNat

/-- BOOTEND. -/
def State.bootEnd (s : State) : State := if (s.sess 7).st = .boot then s.closeSess 7 else s

/-- SS7 enters BOOT at cast-on (R422). DEDUCED, log entry 87. -/
def State.bootSession (s : State) : State :=
  let z := List.replicate 16 (0 : Byte)
  s.modSess 7 fun _ => { st := .boot, owner := .device, ks := sessionKey (s.otpKey false) 7 2 z z, since := s.time }

-- block reset (R423)

/-- Every slot closes; the mailboxes are cleared with the page's registers. -/
def State.secReset (s : State) : State := 
  { s with sec := { s.sec with slots := Vector.replicate 8 {}, checks := [] } }

-- registers as they read (R427)

def SlotSt.code : SlotSt → Nat
  | .free => 0
  | .pending => 1
  | .opened => 2
  | .boot => 3

def SlotOwner.code : SlotOwner → Nat
  | .csl => 0
  | .spt => 1
  | .transom => 2
  | .device => 3

def State.sessStat (s : State) (i : SlotNum) : Word :=
  let x := s.sess i
  BitVec.ofNat 32 (x.run * 256 + x.maker.toNat * 64 + x.owner.code * 16 + x.st.code)

-- mailboxes (R428)

/-- The requester of a mailbox. -/
def mailboxBy (m : Fin 2) : KeyedBy := if m = 0 then .spt else .transom
def mailboxOwner (m : Fin 2) : SlotOwner := if m = 0 then .spt else .transom
def mailboxRq (m : Fin 2) : Requester := if m = 0 then .spt else .transom

/-- The mailbox runs operation `op`. -/
def State.mailboxRuns (s : State) (m : Fin 2) (op : Nat) : Bool :=
  s.flag F.SEC_MBm_CTL_BUSY m.val && s.fld F.SEC_MBm_CTL_OP m.val == op

/-- The operation ends: STATUS, BUSY and MBmDONE. -/
def State.mailboxEnd (s : State) (m : Fin 2) (st : SecStatus) : State :=
  (((s.setFld F.SEC_MBm_CTL_STATUS st.code m.val).setBit F.SEC_MBm_CTL_BUSY false m.val).irq Pg.sec (8 + m.val)).checkEnds
    (mailboxRq m)

/-- A write of GO: an operation starts, or an unknown OP ends at once. DEDUCED, log entry 86. -/
def State.mailboxGo (s : State) (m : Fin 2) : State :=
  let op := s.fld F.SEC_MBm_CTL_OP m.val
  if 1 ≤ op ∧ op ≤ 5 then
    let s := s.setBit F.SEC_MBm_CTL_BUSY true m.val
    if 3 ≤ op then s.checkBegins (mailboxRq m) else s
  else s.mailboxEnd m .badArg

/-- Bytes of DATA0 to DATA3, and of TAG. -/
def State.mailboxData (s : State) (m : Fin 2) : List Byte :=
  (List.range 4).flatMap fun i => natBytes 4 (s.rd R.SEC_MBm_DATAi m.val i).toNat
def State.mailboxTag (s : State) (m : Fin 2) : List Byte :=
  natBytes 4 (s.rd R.SEC_MBm_TAG_LO m.val).toNat ++ natBytes 4 (s.rd R.SEC_MBm_TAG_HI m.val).toNat
def State.mailboxSlot (s : State) (m : Fin 2) : SlotNum := Fin.ofNat 8 (s.fld F.SEC_MBm_CTL_SESS m.val)
def State.mailboxCtr (s : State) (m : Fin 2) : Word := s.rd R.SEC_MBm_CTR m.val

/-- A keyed command naming slot `i` is being checked (R420). -/
def State.checkOn (s : State) (i : SlotNum) : Bool :=
  s.sec.checks.any fun e => match e.1 with
    | .spt => s.mailboxSlot 0 == i
    | .transom => s.mailboxSlot 1 == i
    | _ => s.csl.exec.any fun x => x.keyed && x.req.slot == i

/-- SESSION_IDLE_CLOSE: not before the end of a check that is running when the timer expires (R420). -/
def State.idleClose (s : State) (i : SlotNum) : State :=
  let x := s.sess i
  let idle := s.fld F.SEC_TMO_IDLE
  if s.running Pg.sec ∧ (x.st = .opened ∨ x.st = .boot) ∧ idle ≠ 0 ∧ s.since x.since ≥ idle * 1000 * msTicks ∧ ¬ s.checkOn i then
    (s.closeSess i).irq Pg.sec 7
  else s

/-- Word `i` of a byte list. -/
def wordOf (l : List Byte) (i : Nat) : Word := BitVec.ofNat 32 (leNat ((l.drop (4 * i)).take 4))

/-- OPEN through a mailbox, with the nonce drawn by the device. -/
def State.mailboxOpen (s : State) (m : Fin 2) (nd : List Byte) : State :=
  if ¬ s.mailboxRuns m 1 then s
  else
    let (s, st, i) := s.secOpen (mailboxOwner m) (s.flag F.SEC_MBm_CTL_KSEL m.val) (s.mailboxData m) nd
    let s :=
      if st = .ok then
        (List.range 4).foldl (fun (s : State) k => s.wr R.SEC_MBm_DATAi (wordOf nd k) m.val k)
          (s.setFld F.SEC_MBm_CTL_SESS i.val m.val)
      else s
    s.mailboxEnd m st

/-- PROVE through a mailbox. -/
def State.mailboxProve (s : State) (m : Fin 2) : State :=
  if ¬ s.mailboxRuns m 2 then s
  else
    let (s, st, pd) := s.secProve (mailboxBy m) (mailboxOwner m) (s.mailboxSlot m) (s.mailboxTag m)
    let s :=
      if st = .ok then
        (s.wr R.SEC_MBm_TAG_LO (wordOf pd 0) m.val).wr R.SEC_MBm_TAG_HI (wordOf pd 1) m.val
      else s
    s.mailboxEnd m st

/-- CLOSE and TOUCH through a mailbox, in their turn (R413). -/
def State.mailboxClose (s : State) (m : Fin 2) : State :=
  if ¬ s.mailboxRuns m 3 ∨ ¬ s.secTurn (mailboxRq m) then s
  else
    let (s, st) := s.secClose (mailboxBy m) (s.mailboxSlot m) (s.mailboxCtr m) (s.mailboxTag m)
    s.mailboxEnd m st

def State.mailboxTouch (s : State) (m : Fin 2) : State :=
  if ¬ s.mailboxRuns m 4 ∨ ¬ s.secTurn (mailboxRq m) then s
  else
    let (s, st) := s.secTouch (mailboxBy m) (s.mailboxSlot m) (s.mailboxCtr m) (s.mailboxTag m)
    s.mailboxEnd m st

/-- SEC_SSs_LAST is CTR of the slot; a maker session of the Transom is OPEN (19 R487, R491). -/
def State.transomMaker (s : State) : Bool :=
  (List.finRange 8).any fun i => (s.sess i).st == .opened && (s.sess i).maker && (s.sess i).owner == .transom

end Sys2Proof.Machine
end

