-- ==== Sys2Proof/Machine/Link.lean ====
section
/-! DEFINITION. The Castos link (15) apart from what its frames do: checks of a received frame, duplicates, the reply
slot, the transmitter guard, the line and the host watch. -/

namespace Sys2Proof.Machine

def State.modCsl (s : State) (f : CslSt → CslSt) : State := { s with csl := f s.csl }

-- check sums (R380); bits of a byte are taken least significant first

/-- One bit of a reflected check sum with polynomial `poly` (reflected). -/
def crcBit (poly c : Nat) : Nat := if c % 2 = 1 then (c / 2) ^^^ poly else c / 2

def crcByte (poly c b : Nat) : Nat := (List.range 8).foldl (fun c _ => crcBit poly c) (c ^^^ b)

/-- CRC-16: 0x1021, initial 0xFFFF, reflected. -/
def crc16 (l : List Byte) : Nat := l.foldl (fun c b => crcByte 0x8408 c b.toNat) 0xFFFF

/-- CRC-32 of IEEE 802.3. -/
def crc32 (l : List Byte) : Nat := l.foldl (fun c b => crcByte 0xEDB88320 c b.toNat) 0xFFFFFFFF ^^^ 0xFFFFFFFF

-- frame types (R389)

/-- TYPE codes of the requests. -/
def requestTypes : List Nat := [0x01, 0x10, 0x11, 0x12, 0x20, 0x21, 0x22, 0x30, 0x31, 0x40]

/-- Types that may be broadcast (R384). -/
def broadcastTypes : List Nat := [0x11, 0x21, 0x30]

/-- Types without PCRC. -/
def bulkTypes : List Nat := [0x30, 0x84]

/-- STATUS of ACK and of the data replies (R390). -/
inductive Ack
  | ok | access | kwDisc | authFail | badFrame | pcrc | unknown | pending | qFull | qRefused | badArg | busy
  deriving DecidableEq, Repr

def Ack.code : Ack → Nat
  | .ok => 0
  | .access => 1
  | .kwDisc => 2
  | .authFail => 3
  | .badFrame => 4
  | .pcrc => 5
  | .unknown => 6
  | .pending => 7
  | .qFull => 8
  | .qRefused => 9
  | .badArg => 10
  | .busy => 11

/-- An ACK frame (R390). -/
def State.ack (s : State) (st : Ack) (index credit : Nat := 0) : Reply :=
  { typ := 0x80, payload := [BitVec.ofNat 8 st.code, BitVec.ofNat 8 index] ++ natBytes 2 credit ++ natBytes 4 s.timeLo.toNat }

/-- A data reply: REG_DATA 0x82, MEM_DATA 0x83, BULK_DATA 0x84. -/
def dataReply (typ : Byte) (bad : Option Nat) (data : List Byte) : Reply :=
  { typ := typ
    payload := [BitVec.ofNat 8 (if bad.isSome then Ack.access.code else 0), BitVec.ofNat 8 (bad.getD 0), 0, 0] ++ data }

-- receiving

/-- CSL_ADDR.ADDR. -/
def State.linkAddr (s : State) : Nat := s.fld F.CSL_ADDR_ADDR

/-- A bit time in ticks of 10 ns (R376); codes 5 to 7 act as 4. -/
def State.bitTicks (s : State) : Nat := 4 * 2 ^ min 4 (s.fld F.CSL_RATE_RATE)

/-- The frame time T_FR (R376). -/
def State.frameTicks (s : State) : Nat := 120 * s.bitTicks

/-- Bits of a frame from its first preamble bit on, by its TYPE and its payload bytes (R379). -/
def frameBits (typ : Nat) (len : Nat) : Nat := 8 * (len + if bulkTypes.contains typ then 11 else 15)

/-- The guard limit (R376). -/
def State.guardTicks (s : State) : Nat := 2385 * s.bitTicks + usTicks

/-- CSL_DE is active (R385). -/
def State.transmitting (s : State) : Bool := decide (s.time.toNat < s.csl.txEnd.toNat)

/-- CSL is in RUN, or a drain or a block reset lets it finish a frame with its execution and reply (R400). -/
def State.cslAtWork (s : State) : Bool := s.working Pg.csl || (s.page Pg.csl).st == .resetting

/-- A frame of `bits` bits that ends now began 1 µs or more after the end of the frame before it (R378), at the
shortest length that R377 lets its sender give it. DEDUCED, log entry 178. -/
def State.gapHeld (s : State) (bits : Nat) : Bool :=
  match s.csl.lineEnd with
  | none => true
  | some e => decide (100 * (e.toNat + usTicks) + 99 * bits * s.bitTicks ≤ 100 * s.time.toNat)

/-- CSL receives a frame of `bits` bits that ends now: the gap before it was kept (R378), the line is not dead (R398),
and CSL is in RUN, or the frame is the one that was being received when a drain or a block reset began (R400).
DEDUCED, log entry 147. -/
def State.linkHears (s : State) (bits : Nat) : Bool :=
  s.gapHeld bits && s.csl.line != 4 &&
  (s.running Pg.csl || match s.csl.finish with
    | some t => s.cslAtWork && decide (s.time.toNat ≤ t.toNat + bits * s.bitTicks)
    | none => false)

/-- CSL leaves RUN: the frame that it is receiving may still end (R400). -/
def State.cslFinish (s : State) : State := s.modCsl fun c => { c with finish := c.finish.or (some s.time) }

/-- A frame has ended on the line (R378). -/
def State.frameIn (s : State) : State := s.modCsl fun c => { c with rx := false, lineEnd := some s.time }

/-- Where a frame goes, by its ADDR byte (R381, R382, R384). -/
inductive FrameFor
  | other | conflict | unicast | broadcast
  deriving DecidableEq, Repr

def State.frameFor (s : State) (adr : Byte) : FrameFor :=
  let a := adr.toNat % 64
  if a = s.linkAddr ∧ adr.getLsbD 6 then .conflict
  else if a = 63 then .broadcast
  else if a ≠ s.linkAddr then .other
  else .unicast

/-- A frame addressed to the device or broadcast has passed its header CRC (R399). -/
def State.heard (s : State) : State := s.modCsl fun c => { c with lastFrame := s.time, lost := false }

/-- ADDRCONF (R381). -/
def State.addrConf (s : State) : State := ((s.count R.CSL_ADDRCONF).irq Pg.csl 7).raise Pg.csl 2

/-- An answer to a request with ADDR byte `adr` waits for the reply slot, 2 µs after the request (R385). -/
def State.answerNow (s : State) (adr : Byte) (r : Option Reply) : State :=
  s.modCsl fun c => { c with slot := some { due := s.time + 2 * usTicks, reply := r, seq := adr.getLsbD 7 } }

/-- The request was executed: it and its reply are stored, and the reply waits for its slot (R383, R385). -/
def State.answerStored (s : State) (r : Request) (p : Reply) : State :=
  (s.modCsl fun c => { c with stored := some r, reply := some p, exec := none }).answerNow r.adr (some p)

/-- What to do with a request that has passed its checks (R381, R383, R384, R388). -/
inductive Take
  | ignore | dup | busy | overrun | run (broadcast : Bool)
  deriving DecidableEq, Repr

/-- What the device makes of a good frame (R381 to R388). DEDUCED, log entry 115. -/
def State.take (s : State) (r : Request) : Take :=
  match s.frameFor r.adr with
  | .other => .ignore
  | .conflict => .ignore
  | .broadcast =>
    if ¬ broadcastTypes.contains r.typ.toNat then .ignore
    else if s.csl.exec.isSome then .overrun
    else .run true
  | .unicast =>
    if r.typ.toNat ≠ 1 ∧ s.csl.stored = some r ∧ s.csl.reply.isSome then .dup
    else if s.csl.exec.isSome then .busy
    else .run false

/-- A good request of the rows POLL to SEC_TOUCH: `f` executes it and may answer. A broadcast is never answered.
DEDUCED, log entry 80. -/
def State.request (s : State) (r : Request) (f : State → Bool → State) : State :=
  let hears := s.linkHears (frameBits r.typ.toNat r.payload.length)
  let s := s.frameIn
  if ¬ hears then s
  else match s.frameFor r.adr with
    | .other => s
    | .conflict => s.addrConf
    | _ =>
      let s := s.heard
      match s.take r with
      | .dup => (s.count R.CSL_DUP).answerNow r.adr s.csl.reply
      | .busy => s.answerNow r.adr (some (s.ack .busy))
      | .overrun => s.count R.CSL_OVRN
      | .run b => f s b
      | .ignore => s

/-- A request with a bad argument is answered, stored and not executed (R389). -/
def State.badArg (s : State) (r : Request) (broadcast : Bool) : State :=
  if broadcast then s else s.answerStored r (s.ack .badArg)

-- bad frames (R381)

/-- BAD_FRAME: the bytes from ADDR on, as received; `preamble` is false where PRE or SD is missing; `damaged` as R378
says. A frame that passes every check is no bad frame. DESIGN CHOICE, log entry 31. `goesOn`: no frame has ended yet,
these are the first bytes of one that is being received. DESIGN CHOICE, log entry 78. -/
def State.badFrame (s : State) (preamble : Bool) (l : List Byte) (damaged goesOn : Bool) : State :=
  let hears := s.linkHears (8 * (l.length + if preamble then 5 else 0))
  if goesOn then (if hears then s.modCsl fun c => { c with rx := true } else s)
  else
  let s := s.frameIn
  if ¬ hears ∨ ¬ preamble ∨ l.length < 6 then s
  else if leNat ((l.drop 4).take 2) ≠ crc16 (l.take 4) then (s.count R.CSL_HCRC).irq Pg.csl 8
  else
    let adr := l.getD 0 0
    let typ := (l.getD 1 0).toNat
    let len := leNat ((l.drop 2).take 2)
    let bulk := bulkTypes.contains typ
    match s.frameFor adr with
    | .other => s
    | .conflict => s.addrConf
    | who =>
      let s := s.heard
      let answer (s : State) (st : Ack) : State := if who = .unicast then s.answerNow adr (some (s.ack st)) else s
      if len > 256 ∨ damaged ∨ l.length ≠ 6 + len + (if bulk then 0 else 4) then answer (s.count R.CSL_BADFRM) .badFrame
      else if ¬ bulk ∧ leNat (l.drop (6 + len)) ≠ crc32 (l.take (6 + len)) then
        answer ((s.count R.CSL_PCRC).irq Pg.csl 8) .pcrc
      else if ¬ requestTypes.contains typ ∨ (who = .broadcast ∧ ¬ broadcastTypes.contains typ) then answer s .unknown
      else s

-- the reply slot (R385, R386, R388, R396)

/-- A frame of the device on the line (R379): ADDR holds its address, DIR = 1 and the SEQ of the request. DEDUCED, log
entry 179. DEDUCED, log entry 179. -/
def State.frameOf (s : State) (seq : Bool) (r : Reply) : List Byte :=
  let head := [BitVec.ofNat 8 (s.linkAddr + 64 + seq.toNat * 128), r.typ] ++ natBytes 2 r.payload.length
  let body := head ++ natBytes 2 (crc16 head) ++ r.payload
  [0x55, 0x55, 0x55, 0x55, 0xB3] ++ body ++ (if bulkTypes.contains r.typ.toNat then [] else natBytes 4 (crc32 body))

/-- Bits of a reply that are driven, up to the one at which the read-back differed (R396). -/
def Reply.driven (r : Reply) (mismatch : Option Nat) : Nat :=
  let bits := frameBits r.typ.toNat r.payload.length
  match mismatch with
  | some b => min (b + 1) bits
  | none => bits

/-- TDE in ticks of 10 ns. -/
def State.tde (s : State) : Nat := min 100 (s.fld F.CSL_TIMING_TDE)

/-- How long CSL_DE is active for a reply (R379, R385, R396). -/
def State.txTicks (s : State) (r : Reply) (mismatch : Option Nat) : Nat :=
  s.tde + s.bitTicks * (r.driven mismatch + if mismatch.isSome then 0 else max 1 (s.fld F.CSL_TIMING_TDIS))

/-- The reply goes out on the line. -/
def State.transmit (s : State) (seq : Bool) (r : Reply) (mismatch : Option Nat) : State :=
  let start := s.time + BitVec.ofNat 64 s.tde
  let n := r.driven mismatch
  s.modCsl fun c =>
    { c with
      txEnd := s.time + BitVec.ofNat 64 (s.txTicks r mismatch), txStart := start, rx := false
      wire := (s.frameOf seq r).take ((n + 7) / 8), lineEnd := some (start + BitVec.ofNat 64 (n * s.bitTicks)) }

/-- Half-bit levels of a byte on the line, least significant bit first (R377). -/
def halfBits (b : Byte) : List Bool :=
  (List.range 8).flatMap fun k => if b.getLsbD k then [false, true] else [true, false]

/-- Levels of CSL_TXD, CSL_DE and CSL_nRE, none while a ball is high-impedance (R374, R385; 20 R495). -/
structure CslPins where
  txd : Option Bool
  de : Option Bool
  nre : Option Bool
  deriving DecidableEq, Repr

/-- The idle level of CSL_TXD is high (R374). -/
def State.cslPins (s : State) : CslPins :=
  let up := s.chip.phase == .up
  let level := (s.csl.wire.flatMap halfBits).getD ((s.time.toNat - s.csl.txStart.toNat) / (s.bitTicks / 2)) true
  { txd := if up && s.transmitting then some (s.time.toNat < s.csl.txStart.toNat || level)
           else if up && s.running Pg.csl then some true else none
    de := if up then some s.transmitting else none
    nre := if up && (s.running Pg.csl || s.transmitting) then some false else none }

/-- REPLY_SLOT: the slot of the last request begins. `lineLeftIdle`: the line left idle before it, and a frame is
being received (R386); `mismatch`: the bit at which the read-back differed. DEDUCED, log entry 77. -/
def State.replySlot (s : State) (lineLeftIdle : Bool) (mismatch : Option Nat) : State :=
  match s.csl.slot with
  | none => s
  | some x =>
    if s.time.toNat < x.due.toNat then s
    else
      let s := s.modCsl fun c => { c with slot := none }
      let r := x.reply.getD (s.ack .pending)
      let s :=
        if x.reply.isNone then s.modCsl fun (c : CslSt) =>
          { c with reply := some r, stored := (c.exec.map fun e => e.req).or c.stored,
                   exec := c.exec.map fun (e : LinkExec) => { e with pending := true } }
        else s
      if lineLeftIdle then s.modCsl fun c => { c with rx := s.running Pg.csl }
      else if ¬ s.cslAtWork ∨ s.csl.txoff ∨ s.linkAddr = 63 then s
      else
        let s := s.transmit x.seq r mismatch
        if mismatch.isSome then (s.count R.CSL_COLL).irq Pg.csl 10
        else
          let s := s.modCsl fun c => { c with sent := some r }
          if r.typ = 0x81 then s.modCsl fun c => { c with fresh := false, lostSince := false } else s

-- guard, line, host (R397 to R401)

/-- TXGUARD: CSL_DE has been active for `ticks` of 10 ns, counted on the AON reference (R397). -/
def State.txGuard (s : State) (ticks : Nat) : State :=
  if s.csl.txoff || decide (ticks < s.guardTicks) then s
  else ((s.modCsl fun c => { c with txoff := true, txEnd := s.time }).irq Pg.csl 9).raise Pg.csl 1

/-- LINE_BREAK: CSL_RXD has been low for `ticks` of 10 ns while the device does not transmit: T_FR at least. -/
def State.linkBreak (s : State) (ticks : Nat) : State :=
  if s.running Pg.csl && s.csl.line == 0 && !s.transmitting && decide (s.frameTicks ≤ ticks) then
    ((s.modCsl fun c => { c with line := 3, rx := false }).count R.CSL_BREAKS).irq Pg.csl 4
  else s

/-- LINE_DEAD: low for DEADT frame times. -/
def State.linkDead (s : State) (ticks : Nat) : State :=
  if s.running Pg.csl && s.csl.line == 3 && decide (max 1 (s.fld F.CSL_TIMING_DEADT) * s.frameTicks ≤ ticks) then
    (s.modCsl fun c => { c with line := 4 }).raise Pg.csl 0
  else s

/-- LINE_RESTORED: the line has been high for `ticks` of 10 ns: T_FR at least. DEDUCED, log entry 79. -/
def State.linkRestored (s : State) (ticks : Nat) : State :=
  if s.running Pg.csl && s.csl.line != 0 && decide (s.frameTicks ≤ ticks) then
    (s.modCsl fun c => { c with line := 0 }).irq Pg.csl 5
  else s

/-- HOSTLOST: no frame for HTMO ms (R399). -/
def State.hostLost (s : State) : State :=
  let t := s.fld F.CSL_HTMO_HTMO
  if s.running Pg.csl && t != 0 && !s.csl.lost && decide (s.since s.csl.lastFrame ≥ t * msTicks) then
    ((s.modCsl fun c => { c with lost := true, lostSince := true }).irq Pg.csl 6).raise Pg.csl 3
  else s

/-- CSL_RATE_CHANGE: a waiting RATE takes effect: at the next idle line, or once the reply has ended (R401). -/
def State.rateChange (s : State) : State :=
  match s.csl.rate with
  | none => s
  | some (v, viaLink) =>
    if (if viaLink then s.csl.slot.isSome else s.csl.line != 0 || s.csl.rx) || s.transmitting then s
    else (s.setFld F.CSL_RATE_RATE v.toNat).modCsl fun c => { c with rate := none }

/-- A write of CSL_RATE reaches the block. -/
def State.rateWrite (s : State) (v : Nat) (viaLink : Bool) : State :=
  s.modCsl fun c => { c with rate := some (BitVec.ofNat 3 v, viaLink) }

/-- CSL_ADDR_WRITE: a write through the link is discarded (R382). -/
def State.addrWrite (s : State) (rq : Requester) (v : Word) : State :=
  if rq = .csl then s else s.setFld F.CSL_ADDR_ADDR (wbits v 0 6)

/-- Block reset (R400): after the page's registers are back at their reset values. -/
def State.cslReset (s : State) : State :=
  let st := s.csl.straps
  ({ s with csl := { straps := st, lastFrame := s.time, sent := s.csl.sent, wire := s.csl.wire, lineEnd := s.csl.lineEnd } }).setFld F.CSL_ADDR_ADDR st.toNat

/-- CSL_STAT as it reads (R403). DESIGN CHOICE, log entry 78. -/
def State.cslStat (s : State) : Word :=
  let c := s.csl
  BitVec.ofNat 32 (c.fresh.toNat * 512 + c.stored.isSome.toNat * 256 +
    (match c.stored with
      | some r => (r.adr.getLsbD 7).toNat * 128
      | none => 0) +
    c.txoff.toNat * 64 + c.lost.toNat * 32 + (if s.transmitting then 2 else if c.line = 0 ∧ c.rx then 1 else c.line))

/-- A SEC_RSP payload: OP, STATUS, slot, 0, and what follows (16 R424). -/
def secRsp (op : Byte) (st : SecStatus) (i : SlotNum) (l : List Byte) : Reply :=
  { typ := 0x85, payload := [op, BitVec.ofNat 8 st.code, BitVec.ofNat 8 i.val, 0] ++ l }

/-- SEC is reset: every slot closes, and a check that the reset cuts short has failed with DRAIN (16 R423). -/
def State.secCut (s : State) : State :=
  let s := match s.csl.exec with
    | some x =>
      if x.keyed ∧ x.done.isNone then
        let r := if x.req.typ = 0x12 then s.ack .authFail else secRsp (x.req.payload.getD 0 0) .authFail x.req.slot []
        (s.secFail .csl x.req.slot .drain).modCsl fun c => { c with exec := some { x with done := some r } }
      else s
    | none => s
  s.secReset

/-- STATUS payload, given the two interrupt summaries (R391). -/
def State.statusReply (s : State) (sum0 sum1 halted cmpl : Word) (credits : List Nat) : Reply :=
  { typ := 0x81
    payload := natBytes 4 s.timeLo.toNat ++ natBytes 4 sum0.toNat ++ natBytes 2 (wbits sum1 0 12) ++
      natBytes 2 halted.toNat ++ natBytes 2 cmpl.toNat ++
      [BitVec.ofNat 8 (s.csl.fresh.toNat + 2 * s.csl.lostSince.toNat), 0] ++ credits.flatMap fun n => natBytes 2 n }

end Sys2Proof.Machine
end

