-- ==== Sys2Proof/Machine/Serial.lean ====
section
/-! DEFINITION. The UARTs (17 R429 to R444): receiving, sending, flow control, breaks, and feeding a queue. -/

namespace Sys2Proof.Machine

def State.ua (s : State) (u : UaNum) : UaSt := s.uas[u]
def State.modUa (s : State) (u : UaNum) (f : UaSt → UaSt) : State := { s with uas := s.uas.set u (f s.uas[u]) }

-- formats (R430, R431)

def State.uaData (s : State) (u : UaNum) : Nat := if s.flag F.UAn_CFG_SEVEN u.val then 7 else 8
def State.uaParity (s : State) (u : UaNum) : Bool :=
  let p := s.fld F.UAn_CFG_PAR u.val
  1 ≤ p && p ≤ 4

/-- N: bits from the start bit to the first stop bit. -/
def State.uaN (s : State) (u : UaNum) : Nat := 2 + s.uaData u + (s.uaParity u).toNat

def State.uaOs (s : State) (u : UaNum) : Nat := if s.flag F.UAn_CFG_OS3 u.val then 3 else 8

/-- At least `n` character times of N bits have passed in `ticks` (R431: bit time OS × (DIV + FRAC / 256) / 48
MHz). -/
def State.uaChars (s : State) (u : UaNum) (n ticks : Nat) : Bool :=
  n * s.uaN u * s.uaOs u * (256 * max 1 (s.fld F.UAn_BAUD_DIV u.val) + s.fld F.UAn_BAUD_FRAC u.val) * 100 ≤ ticks * 12288

/-- Ticks of 10 ns of `n` bits, rounded up (R431). -/
def State.uaBitTicks (s : State) (u : UaNum) (n : Nat) : Nat :=
  (n * s.uaOs u * (256 * max 1 (s.fld F.UAn_BAUD_DIV u.val) + s.fld F.UAn_BAUD_FRAC u.val) * 100 + 12287) / 12288

/-- A character as the transmitter drives it: start, data bits least significant first, parity, stop (R430). -/
def State.uaFrame (s : State) (u : UaNum) (c : Byte) : List Bool :=
  let d := (List.range (s.uaData u)).map c.getLsbD
  let ones := d.foldl xor false
  let par : List Bool := match s.fld F.UAn_CFG_PAR u.val with
    | 1 => [ones]
    | 2 => [!ones]
    | 3 => [true]
    | 4 => [false]
    | _ => []
  false :: d ++ par ++ List.replicate (1 + (s.flag F.UAn_CFG_STOP2 u.val).toNat) true

/-- A character is in transmission. -/
def State.uaTxBusy (s : State) (u : UaNum) : Bool := decide (s.time.toNat < (s.ua u).txEnd.toNat)

-- flow control (R439)

def State.uaHw (s : State) (u : UaNum) : Bool := s.fld F.UAn_CFG_FLOW u.val % 2 = 1
def State.uaInband (s : State) (u : UaNum) : Bool := s.fld F.UAn_CFG_FLOW u.val / 2 = 1

/-- RTS and the generated bytes follow the receive level. DEDUCED, log entry 81; DEDUCED, log entry 82. -/
def State.uaLevel (s : State) (u : UaNum) : State :=
  let n := (s.ua u).rx.length
  let hi := decide (n ≥ s.fld F.UAn_RXTHR_RXHI u.val)
  let lo := decide (n ≤ s.fld F.UAn_RXTHR_RXLO u.val)
  let s := s.modUa u fun x => { x with stop := s.uaHw u && (hi || (x.stop && !lo)) }
  if ¬ s.uaInband u then s
  else s.modUa u fun x =>
    if hi && !x.xoff then { x with gen := x.gen ++ [true], xoff := true }
    else if lo && x.xoff then { x with gen := x.gen ++ [false], xoff := false }
    else x

/-- The receive level has changed: RXTHR at or above its threshold (R444), and flow control. -/
def State.uaRxLevel (s : State) (u : UaNum) : State :=
  (if (s.ua u).rx.length ≥ max 1 (s.fld F.UAn_IRQTHR_RXTHR u.val) then s.irq (Pg.ua u) 4 else s).uaLevel u

/-- A received character enters the receive FIFO or is dropped (R435). -/
def State.uaPush (s : State) (u : UaNum) (c : BitVec 9) : State :=
  if (s.ua u).rx.length ≥ uaDepth then (s.count R.UAn_RXDROP u.val).irq (Pg.ua u) 6
  else (s.modUa u fun x => { x with rx := x.rx ++ [c] }).uaRxLevel u

-- receiving (R432 to R435, R439)

/-- The value of a bit from its samples: the majority of three, or the one. -/
def bitOf (l : List Bool) : Bool := decide (2 * (l.filter (· == true)).length > l.length)

/-- The samples of `n` bits of a character: three of each at 8×, one at 3× (R432). -/
def State.uaSamples (s : State) (u : UaNum) (n : Nat) (samples : List (List Bool)) : Bool :=
  samples.length == n && samples.all fun l => l.length == (if s.flag F.UAn_CFG_OS3 u.val then 1 else 3)

/-- The samples of a whole character. -/
def State.uaSampled (s : State) (u : UaNum) (samples : List (List Bool)) : Bool := s.uaSamples u (s.uaN u) samples

/-- The receiver takes a character: in RUN, or the one in progress when a drain or a block reset began (R38, R442);
none while the line is LOW or DEAD (R437). -/
def State.uaHears (s : State) (u : UaNum) : Bool :=
  (s.ua u).line == 0 && (s.running (Pg.ua u) || (s.ua u).rxing)

/-- A start can be detected: the latest sample of the line was high, or it has risen since (R432, R433). -/
def State.uaArmed (s : State) (u : UaNum) (rose : Bool) : Bool := (s.ua u).rxing || !(s.ua u).low || rose

/-- The data bits of a character, first received least significant. -/
def bitsNat : List Bool → Nat
  | [] => 0
  | b :: l => b.toNat + 2 * bitsNat l

/-- UART_CHAR_RECEIVED: samples of the start bit, the data bits, the parity bit if any and the first stop bit; `low`:
the line has stayed low for N bit times, so that a character of zeros is part of a break (R437); `rose`: a sample
since the last stop bit was high. Fewer bits than N: the character is being received. DEDUCED, log entry 83. -/
def State.uaReceive (s : State) (u : UaNum) (samples : List (List Bool)) (low rose : Bool) : State :=
  let bits := samples.map bitOf
  if ¬ s.uaHears u ∨ ¬ s.uaArmed u rose ∨ bits.headD true then s
  else if samples.length < s.uaN u ∧ s.uaSamples u samples.length samples then
    s.modUa u fun x => { x with rxing := true }
  else if ¬ s.uaSampled u samples then s
  else
    let d := bitsNat ((bits.drop 1).take (s.uaData u))
    let ferr := !(bits.getLastD true)
    let s := s.modUa u fun x => { x with lastChar := s.time, rxing := false, low := ferr }
    if low && ferr && d == 0 then s else
    let s := if ferr then s.count R.UAn_FERRS u.val else s
    let xoff := s.uaInband u && !ferr && d == s.fld F.UAn_XCH_XOFF u.val
    let xon := s.uaInband u && !ferr && d == s.fld F.UAn_XCH_XON u.val
    let s := if xoff || xon then s.modUa u fun x => { x with txPause := xoff } else s
    if (xoff || xon) && s.flag F.UAn_CFG_XSTRIP u.val then s
    else s.uaPush u (BitVec.ofNat 9 (d + ferr.toNat * 256))

/-- A read of UAn_DATA (R435, R440). -/
def State.uaRead (s : State) (u : UaNum) : State × Word :=
  if s.flag F.UAn_CFG_FEED u.val then (s, 0x80000000)
  else match (s.ua u).rx with
    | [] => (s, 0x80000000)
    | c :: l => ((s.modUa u fun x => { x with rx := l }).uaRxLevel u, c.setWidth 32)

-- sending (R436, R438, R441)

/-- Completions of the fed queue leave through this UART. -/
def State.uaEchoes (s : State) (u : UaNum) : Bool := s.flag F.UAn_CFG_FEED u.val && s.flag F.UAn_CFG_CECHO u.val

/-- A write of UAn_DATA. -/
def State.uaWrite (s : State) (u : UaNum) (v : Word) : State :=
  if s.uaEchoes u ∨ (s.ua u).tx.length ≥ uaDepth then s.count R.UAn_TXDROP u.val
  else (s.modUa u fun x => { x with tx := x.tx ++ [v.setWidth 8] }).uaTxLevel u

/-- The queue a UART feeds. -/
def State.uaQueue (s : State) (u : UaNum) : QNum := Fin.ofNat 16 (s.fld F.UAn_CFG_FQ u.val)

/-- A collision on the single wire: the character is recorded and the transmitter waits (R438). -/
def State.uaCollision (s : State) (u : UaNum) (c : Byte) : State :=
  (((s.setFld F.UAn_COLLCH_CH c.toNat u.val).count R.UAn_COLLS u.val).setBit F.UAn_ERR_COLL true u.val).irq (Pg.ua u) 9

/-- The bits of a character that are driven: all, or on the single wire those up to the first whose level `ball`, as
read at its sample point, differs (R438). -/
def State.uaDriven (s : State) (u : UaNum) (c : Byte) (ball : List Bool) : List Bool :=
  let f := s.uaFrame u c
  match (f.zip ball).findIdx? (fun x => x.1 != x.2) with
  | some j => if s.flag F.UAn_CFG_HALF u.val then f.take (j + 1) else f
  | none => f

/-- The character collides. -/
def State.uaCut (s : State) (u : UaNum) (c : Byte) (ball : List Bool) : Bool :=
  s.flag F.UAn_CFG_HALF u.val && ((s.uaFrame u c).zip ball).any fun x => x.1 != x.2

/-- A character is sent, to its end or to the end of the colliding bit. -/
def State.uaSent (s : State) (u : UaNum) (c : Byte) (ball : List Bool) : State :=
  let cut := s.uaCut u c ball
  let bits := s.uaDriven u c ball
  let s := s.modUa u fun x => { x with txEnd := s.time + BitVec.ofNat 64 (s.uaBitTicks u bits.length), wire := bits }
  if cut then s.uaCollision u c
  else
    let n := c.toNat % 2 ^ s.uaData u
    let s := s.modUa u fun x => { x with sent := some (BitVec.ofNat 8 n) }
    if s.flag F.UAn_CFG_HALF u.val && s.flag F.UAn_CFG_ECHO u.val then s.uaPush u (BitVec.ofNat 9 n) else s

/-- UART_TX_CHAR: a character boundary; `cts`: the level of UAn_CTS, which reads "send" where it is high, or low with
CTSPOL (R429); `ball`: the levels that the single wire has at the sample points of the bits, those not given agreeing
with what is driven. A generated byte goes first and does not wait for a received XON. DEDUCED, log entry 85. -/
def State.uaTransmit (s : State) (u : UaNum) (cts : Bool) (ball : List Bool) : State :=
  let send : Bool := cts != s.flag F.UAn_CFG_CTSPOL u.val
  let s := s.modUa u fun x => { x with cts := send }
  if ¬ s.running (Pg.ua u) ∨ s.flag F.UAn_ERR_COLL u.val ∨ (s.uaHw u && !send) ∨ s.uaTxBusy u then s
  else match (if s.uaInband u then (s.ua u).gen else []) with
    | b :: l =>
      let c : Byte := BitVec.ofNat 8 (if b then s.fld F.UAn_XCH_XOFF u.val else s.fld F.UAn_XCH_XON u.val)
      let s := if s.uaCut u c ball then s else s.modUa u fun x => { x with gen := l, xoffSent := b }
      s.uaSent u c ball
    | [] =>
      if s.uaInband u && (s.ua u).txPause then s
      else match (s.ua u).tx with
        | [] => s
        | c :: l =>
          let s := ((s.modUa u fun x => { x with tx := l }).uaSent u c ball).uaTxLevel u
          if s.uaEchoes u then s.echoFill u (s.uaQueue u) else s

/-- UART_COLL_CLEAR. -/
def State.uaCollClear (s : State) (u : UaNum) : State := s.setBit F.UAn_ERR_COLL false u.val

-- the line (R437)

/-- UART_BREAK: RXD has been low for `ticks` of 10 ns: N bit times at least. -/
def State.uaBreak (s : State) (u : UaNum) (ticks : Nat) : State :=
  if s.running (Pg.ua u) && (s.ua u).line == 0 && s.uaChars u 1 ticks then
    ((s.modUa u fun x => { x with line := 2, low := true, rxing := false }).count R.UAn_BREAKS u.val).irq (Pg.ua u) 7
  else s

/-- UART_LINE_DEAD: low for LDT character times. -/
def State.uaDead (s : State) (u : UaNum) (ticks : Nat) : State :=
  if s.running (Pg.ua u) && (s.ua u).line == 2 && s.uaChars u (max 1 (s.fld F.UAn_LDT_LDT u.val)) ticks then
    (s.modUa u fun x => { x with line := 3 }).raise (Pg.ua u) 0
  else s

/-- UART_LINE_RESTORED: RXD has been high for `ticks`: N bit times at least. -/
def State.uaRestored (s : State) (u : UaNum) (ticks : Nat) : State :=
  if s.running (Pg.ua u) && (s.ua u).line != 0 && s.uaChars u 1 ticks then
    (s.modUa u fun x => { x with line := 0, low := false }).irq (Pg.ua u) 8
  else s

-- feeding a queue (R440, R442)

/-- QMG_Qn_CREDIT: free command slots (03 R57). -/
def State.credit (s : State) (q : QNum) : Nat := s.qSize q - ((s.q q).tail - (s.q q).head).toNat

/-- UART_FEED_ENQUEUE: a complete entry goes to the ring slot at TAIL. DEDUCED, log entry 84. -/
def State.feedEnqueue (s : State) (u : UaNum) : State :=
  let q := s.uaQueue u
  if s.running (Pg.ua u) && s.flag F.UAn_CFG_FEED u.val && decide ((s.ua u).rx.length ≥ 16) &&
      decide ((s.q q).mode ≠ .off) && decide (s.credit q ≥ 1) then
    let l := ((s.ua u).rx.take 16).map fun c => c.setWidth 8
    let s := s.setBytes (s.ringAddr q (s.q q).tail) l
    ((s.modUa u fun x => { x with rx := x.rx.drop 16 }).uaRxLevel u).doorbell q ((s.q q).tail + 1)
  else s

/-- The partial entry at the end of the receive FIFO is discarded. -/
def State.feedDiscard (s : State) (u : UaNum) : State :=
  let n := (s.ua u).rx.length
  if s.flag F.UAn_CFG_FEED u.val && n % 16 != 0 then
    ((s.modUa u fun x => { x with rx := x.rx.take (n - n % 16) }).count R.UAn_FEEDDISC u.val).uaRxLevel u
  else s

/-- FEED_GAP_DISCARD: no character for FGAP character times. -/
def State.feedGap (s : State) (u : UaNum) : State :=
  if s.running (Pg.ua u) && s.uaChars u (max 1 (s.fld F.UAn_LDT_FGAP u.val)) (s.since (s.ua u).lastChar) then s.feedDiscard u
  else s

-- the page (R439, R440, R442, R444)

/-- EN = 1 is refused. -/
def State.uaEnRej (s : State) (u : UaNum) : Bool :=
  decide (s.fld F.UAn_RXTHR_RXLO u.val ≥ s.fld F.UAn_RXTHR_RXHI u.val) || (s.flag F.UAn_CFG_FEED u.val && s.uaInband u)

/-- Entering RUN. -/
def State.uaEnter (s : State) (u : UaNum) : State := s.uaLevel u

/-- UAn_CFG is written while the page is not in RUN: a queue that is fed anew hands over its oldest unread entry from
its first byte (R441). -/
def State.uaCfg (s : State) (u : UaNum) (old : Word) : State :=
  if (old ^^^ s.rd R.UAn_CFG u.val) &&& 0x3F0000 = 0 then s
  else
    let s := s.modUa u fun x => { x with echoAt := 0 }
    if s.uaEchoes u then s.echoFill u (s.uaQueue u) else s

/-- The end of a drain. -/
def State.uaLeave (s : State) (u : UaNum) : State := s.feedDiscard u

/-- A block reset empties both FIFOs; CTS reads 0 until it is sampled again. -/
def State.uaReset (s : State) (u : UaNum) : State := s.modUa u fun x => { sent := x.sent }

/-- UAn_LVL and UAn_STAT as they read. -/
def State.uaLvl (s : State) (u : UaNum) : Word := BitVec.ofNat 32 ((s.ua u).rx.length * 65536 + (s.ua u).tx.length)

def State.uaStat (s : State) (u : UaNum) : Word :=
  let x := s.ua u
  BitVec.ofNat 32 (x.xoffSent.toNat * 128 + x.txPause.toNat * 64 + x.cts.toNat * 32 +
    (s.running (Pg.ua u) && !x.stop).toNat * 16 + (s.uaTxBusy u).toNat * 8 +
    (if x.line = 0 ∧ x.rxing then 1 else x.line))

/-- Levels that a UART drives between characters, none while a ball is high-impedance (R429, R438): UAn_TXD idles high
in RUN, and in HALF the ball is driven only while it transmits; UAn_RTS is high for "send", low with RTSPOL. -/
structure UaPins where
  txd : Option Bool
  rts : Option Bool
  /-- TXD is open-drain. -/
  od : Bool
  deriving DecidableEq, Repr

def State.uaPins (s : State) (u : UaNum) : UaPins :=
  let half := s.flag F.UAn_CFG_HALF u.val
  if s.running (Pg.ua u) then
    { txd := if half then none else some true
      rts := some ((!(s.ua u).stop) != s.flag F.UAn_CFG_RTSPOL u.val)
      od := half && s.flag F.UAn_CFG_OD u.val }
  else { txd := none, rts := none, od := false }

end Sys2Proof.Machine
end

