-- ==== Sys2Proof/Machine/FaultCore.lean ====
section
/-! DEFINITION. Fault identifiers, report groups, pending bits and reset shadows (18 R453 to R467). -/

namespace Sys2Proof.Machine

/-- QE0 to QE5. -/
def qePages : List PageIx := (List.finRange 6).map Pg.qe

/-- The local sources that identifier `id` gathers, lowest page and source first; none for 120 to 127 (R456). -/
def sourcesOf (id : Nat) : List (PageIx × Nat) :=
  if id ≤ 1 then [(Pg.fcc, id)]
  else if id = 2 then [(Pg.sys, 1)]
  else if id = 3 then [(Pg.sys, 0)]
  else if id = 4 then [(Pg.qmg, 0)]
  else if id = 5 then [(Pg.seq, 0)]
  else if id = 6 then [(Pg.rnd, 0)]
  else if id ≤ 22 then [(Pg.hhe, id - 7)]
  else if id ≤ 38 then [(Pg.hp (Fin.ofNat 4 ((id - 23) / 4)), (id - 23) % 4)]
  else if id ≤ 50 then [(Pg.sba, id - 39)]
  else if id ≤ 66 then [(Pg.ehm, id - 51)]
  else if id ≤ 90 then [(Pg.ax (Fin.ofNat 8 ((id - 67) / 3)), if (id - 67) % 3 = 2 then 3 else (id - 67) % 3)]
  else if id = 91 then (List.finRange 8).map fun a => (Pg.ax a, 2)
  else if id = 92 then (List.finRange 6).map fun e => (Pg.qe e, 0)
  else if id ≤ 95 then [(Pg.adc, id - 93)]
  else if id = 96 then (List.range 8).map fun u => (Pg.med, u)
  else if id = 97 then (List.range 8).map fun u => (Pg.med, 8 + u)
  else if id = 98 then [(Pg.med, 16)]
  else if id ≤ 100 then [(Pg.csi, id - 99)]
  else if id ≤ 102 then [(Pg.vp (Fin.ofNat 2 (id - 101)), 0)]
  else if id ≤ 104 then [(Pg.ic, id - 103)]
  else if id ≤ 109 then [(Pg.flc, id - 105)]
  else if id ≤ 113 then [(Pg.csl, id - 110)]
  else if id ≤ 115 then [(Pg.sec, id - 114)]
  else if id ≤ 119 then [(Pg.ua (Fin.ofNat 4 (id - 116)), 0)]
  else []

/-- The identifier of local source `k` of a page. -/
def faultId (pg : PageIx) (k : Nat) : Option Nat := (List.range 120).find? fun id => (sourcesOf id).contains (pg, k)

/-- CLASS of an identifier: 1 C, 2 U, 3 F, 0 reserved (R456, R471). -/
def faultClass (id : Nat) : Nat := wbits (R.FCC_RCFGi.resetAt id 0) 8 2

/-- The identifier is head-related. -/
def faultHead (id : Nat) : Bool := (R.FCC_RCFGi.resetAt id 0).getLsbD 10

/-- The dependency set: resets of these pages make the source report (R456). -/
def dependsOn (id : Nat) : List PageIx :=
  if id = 5 ∨ id = 6 then [Pg.flc]
  else if 11 ≤ id ∧ id ≤ 14 then [Pg.adc]
  else if 23 ≤ id ∧ id ≤ 38 then
    if (id - 23) % 4 ≤ 1 then [Pg.hhe] else if (id - 23) % 4 = 2 then qePages else []
  else if 51 ≤ id ∧ id ≤ 62 then [Pg.adc]
  else if 67 ≤ id ∧ id ≤ 90 then if (id - 67) % 3 ≤ 1 then qePages else [Pg.med]
  else if id = 91 then qePages
  else if 96 ≤ id ∧ id ≤ 98 then [Pg.adc]
  else if id = 101 ∨ id = 102 then [Pg.csi, Pg.ic]
  else []

/-- The port of a source of HHE, HPn, SBA or EHM. -/
def sourcePort (pg : PageIx) (k : Nat) : Option Port :=
  if pg = Pg.hhe ∨ pg = Pg.sba ∨ pg = Pg.ehm then some (Fin.ofNat 4 k)
  else (List.finRange 4).find? fun p => Pg.hp p = pg

/-- Head-related identifiers of a port. -/
def headIds (p : Port) : List Nat := [11 + p.val, 15 + p.val, 24 + 4 * p.val, 26 + 4 * p.val, 43 + p.val, 47 + p.val]

-- pending bits (R462)

def State.modFcc (s : State) (f : FccSt → FccSt) : State := { s with fcc := f s.fcc }

/-- A REAL or INJ bit of a local source. -/
def State.sourcePend (s : State) (x : PageIx × Nat) : Bool := (s.fcc.real[x.1] ||| s.fcc.inj[x.1]).getLsbD x.2
def State.sourceInj (s : State) (x : PageIx × Nat) : Bool := (s.fcc.inj[x.1]).getLsbD x.2

/-- The pending state of an identifier (R456). -/
def State.idPend (s : State) (id : Nat) : Bool := (sourcesOf id).any s.sourcePend

/-- PG_FLT_STAT (02 R41). -/
def State.fltStat (s : State) (pg : PageIx) : Word := s.fcc.real[pg] ||| s.fcc.inj[pg]

/-- Bits FCC_PENDj or FCC_INJj, given the test of one identifier. -/
def idBits (j : Nat) (f : Nat → Bool) : Word :=
  BitVec.ofNat 32 ((List.range 32).foldl (fun n b => n + if f (32 * j + b) then 2 ^ b else 0) 0)

/-- Both bits of every local source of an identifier clear. -/
def State.clearPend (s : State) (id : Nat) : State :=
  (sourcesOf id).foldl (fun s x => s.modFcc fun f =>
    { f with real := f.real.set x.1 (f.real[x.1] &&& ~~~(BitVec.ofNat 32 (2 ^ x.2))),
             inj := f.inj.set x.1 (f.inj[x.1] &&& ~~~(BitVec.ofNat 32 (2 ^ x.2))) }) s

-- reset shadows (R465)

/-- 16 µs. -/
def shadowTicks : Nat := 1600


/-- The block has left RESETTING: the shadow ends 16 µs from now. -/
def State.leaveShadow (s : State) (pg : PageIx) : State :=
  s.modFcc fun f => { f with shadow := f.shadow.set pg (some (some (s.time + BitVec.ofNat 64 shadowTicks))) }

/-- The shadow of a page is open. -/
def State.shadowed (s : State) (pg : PageIx) : Bool :=
  match s.fcc.shadow[pg] with
  | none => false
  | some none => true
  | some (some t) => decide (s.time.toNat < t.toNat)

/-- A block reset opens the shadow of the page; one that is open stays so. -/
def State.openShadow (s : State) (pg : PageIx) : State :=
  s.modFcc fun f =>
    { f with shadow := f.shadow.set pg (some none),
             shadowAt := if s.shadowed pg then f.shadowAt else f.shadowAt.set pg s.time }

/-- The shadows that have opened since `s0` hold the reports that come after `t`: they come of a BRST reaction to a
report of `t`, and every report of one clock gets its reaction whatever the order (R455). -/
def State.shadowsAfter (s s0 : State) (t : BitVec 64) : State :=
  s.modFcc fun f =>
    { f with shadowAt := Vector.ofFn fun pg => if s.shadowed pg ∧ ¬ s0.shadowed pg then t + 1 else f.shadowAt[pg] }

/-- SHADOW_END: 16 µs after the block left RESETTING. -/
def State.shadowEnd (s : State) (pg : PageIx) : State :=
  match s.fcc.shadow[pg] with
  | some (some t) => if t.toNat ≤ s.time.toNat then s.modFcc fun f => { f with shadow := f.shadow.set pg none } else s
  | _ => s

/-- A report that came at `t` found the page's shadow open. -/
def State.shadowedAt (s : State) (t : BitVec 64) (pg : PageIx) : Bool :=
  match s.fcc.shadow[pg] with
  | none => false
  | some e => decide (s.fcc.shadowAt[pg].toNat ≤ t.toNat) && e.all fun stop => decide (t.toNat < stop.toNat)

/-- A report that is held: not of class F, and it came while a shadow of its page or of its dependency set was
open. -/
def State.held (s : State) (r : Report) (id : Nat) : Bool :=
  faultClass id != 3 && (r.page :: dependsOn id).any (s.shadowedAt r.at_)

-- injection and broken paths

/-- An injected report of a local source. -/
def State.inject (s : State) (x : PageIx × Nat) : State :=
  { s with reports := s.reports ++ [Report.mk x.1 (Fin.ofNat 32 x.2) true s.time [] none none] }

/-- PG_FLT_FORCE (02 R41, R463): each bit of a local source injects one report. -/
def State.pgForce (s : State) (pg : PageIx) (bits : Word) : State :=
  (List.range 32).foldl (fun s k => if bits.getLsbD k && (faultId pg k).isSome then s.inject (pg, k) else s) s

/-- FAULT_INJECT: FCC_FORCEj; each identifier is injected at its lowest source (R463). -/
def State.faultInject (s : State) (j : Fin 4) (bits : Word) : State :=
  if s.chip.sysStopped then s else (List.range 32).foldl (fun s b =>
    if bits.getLsbD b then
      match sourcesOf (32 * j.val + b) with
      | x :: _ => s.inject x
      | [] => s
    else s) s

/-- PATHBRK: a pair of the page's group has read 0b00 or 0b11 for `clocks` collector clocks: more than 2 (R454).
DEDUCED, log entry 93. -/
def State.pathbrk (s : State) (pg : PageIx) (k : Fin 32) (clocks : Nat) : State :=
  if s.chip.sysStopped ∨ (s.fcc.broken[pg]).isSome ∨ (faultId pg k.val).isNone ∨ clocks ≤ 2 then s
  else
    { s with
      fcc := { s.fcc with broken := s.fcc.broken.set pg (some s.time) },
      reports := s.reports ++ [Report.mk Pg.fcc 0 false s.time [] none (some (pg, k))] }

/-- FER_CLEAR (R462). -/
def State.ferClear (s : State) (id : Word) : State :=
  if ¬ s.chip.sysStopped ∧ s.flag F.FCC_FER_VALID ∧ s.fld F.FCC_FER_ID = wbits id 0 7 then
    (((s.wr R.FCC_FER 0).wr R.FCC_FER_TIME_LO 0).wr R.FCC_FER_TIME_HI 0).setBit F.FCC_STAT_OVF false
  else s

/-- PEND_CLEAR: ones written to FCC_PENDj; the FAULT cause of a port clears once nothing head-related of it is pending
and nothing fatal has happened (R461). A stopped FCC clears none (R457). -/
def State.pendClear (s : State) (j : Fin 4) (bits : Word) : State :=
  if s.chip.sysStopped then s else
  let s := (List.range 32).foldl (fun s b => if bits.getLsbD b then s.clearPend (32 * j.val + b) else s) s
  if s.flag F.FCC_STAT_FATAL then s
  else (List.finRange 4).foldl (fun s p =>
    if (s.hpP p).causes.fault && !(headIds p).any s.idPend then s.shutClear p fun c => { c with fault := false } else s) s

-- ALIVE (R464)

/-- ALIVE stops until chip reset. -/
def State.stopAlive (s : State) : State :=
  ((s.modFcc fun f => { f with alive := false, stopped := true }).setBit F.FCC_ALIVE_STOPPED true).setBit
    F.FCC_STAT_ALIVESTOP true

/-- ALIVE_EDGE: the half period has passed; a new DIV applies from here. -/
def State.aliveEdge (s : State) : State :=
  if s.fcc.stopped ∨ s.since s.fcc.edgeAt < s.fcc.half then s
  else s.modFcc fun f =>
    { f with alive := !f.alive, edgeAt := f.edgeAt + BitVec.ofNat 64 f.half,
             half := 4 * clampField (s.fld F.FCC_ALIVE_DIV) 1250 125000 }

end Sys2Proof.Machine
end

