-- ==== Sys2Proof/Machine/Header.lean ====
section
/-! DEFINITION. The states of a block: enabling, draining, block reset (02 R36 to R39), and commits (02 R42 to R44). -/

namespace Sys2Proof.Machine

/-- The block of a page. -/
inductive Blk
  | fixed | qmg | seq | rnd | skn | hhe | hp (p : Port) | sba | ehm | moc | ax (a : AxNum) | qe (e : QeNum)
  | adc | adt | med | csi | vp (v : VpNum) | ic | flc | csl | sec | ua (u : UaNum) | spt
  deriving DecidableEq, Repr

def blk (pg : PageIx) : Blk :=
  let n := pg.val
  if n ≤ 2 then .fixed
  else if n = 3 then .qmg
  else if n = 4 then .seq
  else if n = 5 then .rnd
  else if n = 6 then .skn
  else if n = 7 then .hhe
  else if n ≤ 11 then .hp (Fin.ofNat 4 (n - 8))
  else if n = 12 then .sba
  else if n = 13 then .ehm
  else if n = 14 then .moc
  else if n ≤ 22 then .ax (Fin.ofNat 8 (n - 15))
  else if n ≤ 28 then .qe (Fin.ofNat 6 (n - 23))
  else if n = 29 then .adc
  else if n = 30 then .adt
  else if n = 31 then .med
  else if n = 32 then .csi
  else if n ≤ 34 then .vp (Fin.ofNat 2 (n - 33))
  else if n = 35 then .ic
  else if n = 36 then .flc
  else if n = 37 then .csl
  else if n = 38 then .sec
  else if n ≤ 42 then .ua (Fin.ofNat 4 (n - 39))
  else .spt

-- checks of a set (07 R199, R200; 10 R246)

/-- 07 R200 for a set given by its fields and by LINE_T and EPITCH as words. -/
def hpSetOk (get : Fld → Nat) (lineT epitch nblk : Nat) : Bool :=
  let n := get F.HPn_SGCFG_NGRP
  let starts := (sgStarts get).take (n - 1)
  0x208D55 ≤ lineT && 0x10000 ≤ epitch && 1 ≤ n && n ≤ 8 &&
    starts.all (fun x => 0 < x && x < nblk) && (starts.zip (starts.drop 1)).all fun x => x.1 < x.2

/-- The shadow set of port `p` may be committed. -/
def State.hpShadowOk (s : State) (p : Port) : Bool :=
  hpSetOk (fun f => s.fld f p.val) (s.rd R.HPn_LINE_T p.val).toNat (s.rd R.HPn_EPITCH p.val).toNat
    (s.fld F.HPn_CFG_NBLK p.val)

/-- EN = 1 of port `p` is accepted: HPn_CFG is in range, PACE names an encoder, and the active set passes (R199). -/
def State.hpEnOk (s : State) (p : Port) : Bool :=
  let nblk := s.fld F.HPn_CFG_NBLK p.val
  s.fld F.HPn_PACE_QE p.val ≤ 5 && s.fld F.HPn_CFG_LANES p.val ≤ 4 && 2 ≤ s.fld F.HPn_CFG_CLKDIV p.val && 1 ≤ nblk && nblk ≤ 96 &&
    hpSetOk (fun f => s.act f p.val) (s.rdAct R.HPn_LINE_T p.val).toNat (s.rdAct R.HPn_EPITCH p.val).toNat nblk

/-- V_LIM (10 R243). -/
def State.vLim (s : State) (a : AxNum) : Nat := min 2000000 (100000000 / (2 * max 1 (s.fld F.AXn_CFG_STEPW a.val)))

/-- 10 R246 for the shadow set. -/
def State.axShadowOk (s : State) (a : AxNum) : Bool :=
  let n := a.val
  let rate (x : Nat) : Bool := 1 ≤ x && x ≤ 16777215
  let vs := s.fld F.AXn_VSTART_V n
  let vb := s.fld F.AXn_VBRK_V n
  let vm := s.fld F.AXn_VMAX_V n
  let vp := s.fld F.AXn_VSTOP_V n
  vs ≤ vb && vb ≤ vm && vm ≤ s.vLim a && vp ≤ vb &&
    rate (s.fld F.AXn_ACC1_A n) && rate (s.fld F.AXn_ACC2_A n) && rate (s.fld F.AXn_DEC1_A n) &&
    rate (s.fld F.AXn_DEC2_A n) && s.fld F.AXn_SEARCH_SEARCHV n ≤ vp && s.rd R.AXn_LPITCH n != 0

/-- Pages with RWS registers (02 R43). -/
def hasSet (pg : PageIx) : Bool :=
  match blk pg with
  | .hp _ | .vp _ | .ax _ | .adc | .adt | .sba => true
  | _ => false

/-- Why the block itself refuses its shadow set: `some s` is the state with its record of the refusal. -/
def State.commitRefused (s : State) (pg : PageIx) : Option State :=
  match blk pg with
  | .hp p => if s.hpShadowOk p then none else some s
  | .vp v => if s.vpCommitOk v then none else some s
  | .ax a => if s.axShadowOk a then none else some s
  | .adc | .adt =>
    match s.adcRefusal with
    | none => none
    | some (e, r) => some ((s.setFld F.ADT_REJ_ENTRY e).setFld F.ADT_REJ_REASON r)
  | _ => none

/-- A block in OFF or DISABLED takes a commit at once (R44). -/
def State.idleBlock (s : State) (pg : PageIx) : Bool := (s.page pg).st = .off || (s.page pg).st = .disabled

/-- The pending set of a page becomes active. -/
def State.takeSet (s : State) (pg : PageIx) : State :=
  if pg = Pg.adc ∨ pg = Pg.adt then s.adcActivate else if pg = Pg.sba then s.sbaActivate else s.activate pg

/-- PG_COMMIT written with COMMIT = 1 (R42 to R44). -/
def State.pgCommit (s : State) (pg : PageIx) : State :=
  if ¬ hasSet pg then s
  else match s.commitRefused pg with
    | some s => s.rejectCommit pg
    | none =>
      let s := s.makePending pg (s.page pg).tag
      if s.idleBlock (if pg = Pg.adt then Pg.adc else pg) then s.takeSet pg else s

/-- The boundary of R43 has no event of its own: SBA takes its set at any moment before its next grant. The line
start of a port, the frame start of a pipeline, the start of a move and the start of a scan take the set
themselves. -/
def atBoundary (pg : PageIx) : Bool := blk pg == .sba

-- leaving RUN (R38, R39)

/-- Commands in flight that need the block complete ABORTED. -/
def State.abortNeeding (s : State) (pg : PageIx) : State :=
  s.allQueues fun s q => s.finishAll q St.aborted fun c => (s.needsAll c.e (s.qPort q)).contains pg

/-- Ring entries among the `n` slots from index `i` on that need the block; `second`: this is the second slot of a
KEYED. -/
def State.entriesNeeding (s : State) (q : QNum) (pg : PageIx) (i : BitVec 16) (second : Bool) : Nat → List (BitVec 16)
  | 0 => []
  | n + 1 =>
    if second then s.entriesNeeding q pg (i + 1) false n
    else
      let e := s.ringEntry q i
      let rest := s.entriesNeeding q pg (i + 1) (e.slots == 2) n
      if (s.needsAll e (s.qPort q)).contains pg then i :: rest else rest

/-- Queued commands that need the block and that no thread has issued are cancelled. Those that QMG has recorded and
not presented wait on (R38). -/
def State.cancelNeeding (s : State) (pg : PageIx) : State :=
  s.allQueues fun s q =>
    if ¬ s.qEn q then s
    else s.modQ q fun x =>
      let upTo := if pg = Pg.qmg then x.pres else x.tail
      { x with cancelled := x.cancelled ++
          ((s.entriesNeeding q pg x.next false (upTo - x.next).toNat).filter fun i =>
            !(x.cancelled.any fun e => e.1 == i)).map fun (i : BitVec 16) => (i, s.timeLo) }

/-- A block has left RUN: its commands complete or are cancelled (R39, R516). Every command needs SEQ and QMG; entries
that SEQ has not started stay queued (R38). -/
def State.leftRun (s : State) (pg : PageIx) : State :=
  if pg = Pg.seq then s.allQueues fun s q => s.abortAll q
  else if pg = Pg.qmg then (s.allQueues fun s q => s.abortAll q).cancelNeeding pg
  else (s.abortNeeding pg).cancelNeeding pg

/-- Composition steps that RND or SKN holds, apart from the one drawn for a port that `keep` spares. -/
def State.abortSteps (s : State) (keep : Port → Bool) : State :=
  s.allPorts fun s p =>
    ((s.steps p).zipIdx.filterMap fun x =>
      if x.1.e.opc = 0x15 ∨ (keep p ∧ x.2 = 0 ∧ x.1.granted) then none else some x.1).foldl (fun s x => s.finish x.q x.uid St.aborted) s

/-- The unit that a drain or a block reset waits for is not over yet (R38). -/
def State.unitBusy (s : State) (pg : PageIx) : Bool :=
  match blk pg with
  | .rnd => s.rnd.cur.any fun p => s.frontIs p fun x => x.granted
  | .hp p => match (s.hpP p).cur with
    | some c => match c.st with
      | .firing _ => true
      | _ => false
    | none => false
  | .sba => (List.finRange 4).any fun p => match (s.hpP p).cur with
    | some c => match c.st with
      | .firing _ => true
      | .granted _ => true
      | _ => false
    | none => false
  | .ehm => !s.ehmQuiet
  | .moc => (List.finRange 8).any fun a => !s.axIdle a
  | .ax a => !s.axIdle a
  | .flc => s.flc.op.isSome
  | .csl => s.csl.exec.isSome || s.csl.slot.isSome || s.transmitting || s.csl.rx
  | .sec => !s.sec.checks.isEmpty
  | .ua u => s.uaTxBusy u || (s.ua u).rxing
  | _ => false

/-- What stops at once when EN is written 0. DEDUCED, log entry 91. -/
def State.drainStart (s : State) (pg : PageIx) : State :=
  match blk pg with
  | .rnd => s.abortSteps fun p => s.rnd.cur == some p
  | .hp p => s.hpLeave p false
  | .hhe => s.allPorts fun s p => s.dropSlot p R.EHM_Pp_DISC
  | .sba => s.allPorts fun s p => (s.unanswered p).dropSlot p R.EHM_Pp_DISC
  | .med => s.medPorts
  | .csi => s.csiStop
  | .vp v => s.vpLeave v
  | .ic => s.icLeave
  | .moc => s.allAxes fun s a => if s.axIdle a then s else s.axHalt a true St.aborted
  | .ax a => if s.axIdle a then s else s.axHalt a true St.aborted
  | .csl => s.cslFinish
  | .sec => s.secFinish
  | _ => s

/-- BLOCK_DRAIN: EN written 0. -/
def State.blockDrain (s : State) (pg : PageIx) : State :=
  if blk pg = .fixed ∨ blk pg = .adt then s
  else match (s.page pg).st with
    | .run => ((s.modPage pg fun x => { x with st := .draining, en := false }).drainStart pg)
    | .resetting => s
    | _ => s.modPage pg fun x => { x with en := false }

/-- The end of a drain, in the block itself. DEDUCED, log entry 199. -/
def State.drainEnd (s : State) (pg : PageIx) : State :=
  match blk pg with
  | .hhe => s.allPorts fun s p => if s.flag F.HHE_Pp_CFG_EN p.val then s.hheGone p else s
  | .sba => s.allPorts fun s p => s.ehmTouch p
  | .ehm => s.allPorts fun s p => s.ehmTouch p
  | .adc => s.adcStop
  | .med => s.medPorts
  | .ic => (List.finRange 2).foldl (fun s k => s.modIc k fun _ => { cmd := (s.cam.ic[k]).cmd }) s
  | .ua u => s.uaLeave u
  | .csl => s.modCsl fun c => { c with finish := none }
  | _ => s

-- entering RUN

/-- EN = 1 is refused: the state with the block's record of it. -/
def State.enableRefused (s : State) (pg : PageIx) : Option State :=
  match blk pg with
  | .hp p => if (s.activate pg).hpEnOk p then none else some ((s.setBit F.HPn_ERR_ENREJ true p.val).irq pg 10)
  | .csi => if s.fld F.CSI_CFG_LANES = 1 ∨ s.fld F.CSI_CFG_LANES = 2 then none else some s
  | .ua u => if s.uaEnRej u then some (s.setBit F.UAn_ERR_ENREJ true u.val) else none
  | _ => none

/-- What a block does when it enters RUN. -/
def State.enterHook (s : State) (pg : PageIx) : State :=
  match blk pg with
  | .qmg => s.allQueues fun s q => s.modQ q fun x => { x with pres := x.tail }
  | .rnd => { s with rnd := { s.rnd with dirChk := none } }.checkDir.rndGo
  | .skn => s.bandWaitGrant
  | .hhe => s.allPorts fun s p => s.ehmTouch p
  | .hp p => s.hpEnter p
  | .sba => s.allPorts fun s p =>
    (s.modSba p fun x => { x with restart := true, bucketStart := s.time }).ehmTouch p
  | .ehm => s.allPorts fun s p => s.ehmTouch p
  | .qe e => s.modQe e fun x => { x with rateBase := s.rd R.QEn_POS_LO e.val, windowAt := s.time }
  | .adc => s.adcEnter
  | .med => s.medEnter
  | .vp v => s.vpEnter v
  | .csl => s.modCsl fun c => { c with lastFrame := s.time, lost := false, finish := none, rx := false }
  | .ua u => s.uaEnter u
  | _ => s

/-- The block enters RUN; a pending set applies on entry (R36). -/
def State.toRun (s : State) (pg : PageIx) : State :=
  let s := s.modPage pg fun x => { x with st := .run, en := true }
  let s := if (s.page pg).pend then s.takeSet pg else s
  s.enterHook pg

/-- EN = 1 on a block in OFF or DISABLED. -/
def State.tryRun (s : State) (pg : PageIx) : State :=
  match s.enableRefused pg with
  | some s => s
  | none => s.toRun pg

/-- BLOCK_ENABLE: EN written 1. -/
def State.blockEnable (s : State) (pg : PageIx) : State :=
  match (s.page pg).st with
  | .off => s.tryRun pg
  | .disabled => s.tryRun pg
  | .draining => s.modPage pg fun x => { x with en := true }
  | _ => s

/-- DRAIN_COMPLETE: the drain unit is over (R36). -/
def State.drainComplete (s : State) (pg : PageIx) : State :=
  if (s.page pg).st ≠ .draining ∨ s.unitBusy pg then s
  else
    let s := (s.drainEnd pg).leftRun pg
    let en := (s.page pg).en
    let s := (s.modPage pg fun x => { x with st := .disabled, en := false, drainAck := true }).irq pg 0
    if en then s.tryRun pg else s

-- block reset (R38, R44, 18 R467 to R469)

/-- SEQ is reset: threads stop at once, and what is in flight completes ABORTED (18 R468). -/
def State.seqReset (s : State) : State :=
  let s := s.allQueues fun s q =>
    let s := if (s.q q).live = 0 then s else s.abortAll q
    s.modQ q fun x =>
      if x.mode = .bindoff ∨ x.mode = .halted then
        { x with lost := true, autoAct := if x.autoAct = some 1 then none else x.autoAct }
      else x
  { s with seq := SeqSt.reset }

/-- Completions whose turn has come are written, `n` at most. -/
def State.writeOut (s : State) (q : QNum) : Nat → State
  | 0 => s
  | n + 1 =>
    if (s.q q).cmds.isEmpty ∧ (s.q q).conts.isEmpty then s else (s.writeNext q).writeOut q n

/-- QMG is reset (18 R469): the completions of the SEQ reset are written, every queue is DISABLED with its indices at
0, and the lines of every port are released. The registers of the page go with it. -/
def State.qmgReset (s : State) : State :=
  let s := s.seqReset
  let s := s.allQueues fun s q => s.writeOut q (2 * ((s.q q).cmds.length + (s.q q).conts.length) + 2)
  let s := s.allQueues fun s q => s.releaseQueue q
  let s := s.allPorts fun s p => (s.releasePort p).govIdle p
  s.allQueues fun s q => (s.clearIx q).modQ q fun _ => {}

/-- What a block reset does to the block at once. The commands that need it have not completed yet. -/
def State.resetStart (s : State) (pg : PageIx) : State :=
  match blk pg with
  | .rnd =>
    s.allPorts fun s p => match s.steps p with
      | x :: _ => if x.granted && x.e.opc != 0x15 then x.got.foldl (fun s b => s.modBand b fun _ => {}) s else s
      | [] => s
  | .skn =>
    let s := s.abortSteps fun _ => false
    { s with skn := { s.skn with bands := s.skn.bands.map fun (b : Band) => b.resetSkn, waits := [] } }
  | .hhe => s.allPorts fun s p => if s.flag F.HHE_Pp_CFG_EN p.val then s.hheGone p else s
  | .hp p => (s.hpLeave p true).shutClose p (fun c => { c with reset := true }) none
  | .sba =>
    let s := s.allPorts fun s p => s.shutClose p (fun c => { c with sbaRst := true }) (some St.aborted)
    { s with sba := { ports := Vector.replicate 4 {} } }
  | .ehm => s.ehmReset
  | .moc => s.allAxes fun s a => if s.axIdle a then s else s.axHalt a true St.aborted
  | .ax a => if s.axIdle a then s else s.axHalt a true St.aborted
  | .adc => s.adcStop
  | .med => s.medPorts
  | .csi => s.csiStop
  | .ic => s.icLeave
  | .sec => s.secCut
  | _ => s

/-- A page goes to RESETTING and its reset shadow opens (R36, 18 R465). -/
def State.toResetting (s : State) (pg : PageIx) : State :=
  (setPages pg).foldl (fun s i => (s.modPage i fun x => { x with st := .resetting }).openShadow i) s

/-- BLOCK_SRST and the BRST reaction. A reset of QMG resets SEQ first (18 R469). -/
def State.blockSrst (s : State) (pg : PageIx) : State :=
  let pg := if pg = Pg.adt then Pg.adc else pg
  if blk pg = .fixed ∨ (s.page pg).st = .resetting then s
  else match blk pg with
    | .qmg => (s.qmgReset.toResetting Pg.seq).toResetting Pg.qmg
    | .seq => s.seqReset.toResetting pg
    | .csl => ((if s.running pg then s.cslFinish else s).toResetting pg).leftRun pg
    | .vp v => ((if s.running pg then s.vpLeave v else s).toResetting pg).leftRun pg
    | _ => ((s.toResetting pg).resetStart pg).leftRun pg

/-- Bytes of OTP as cast-on and FLC read them. -/
def State.otpNat (s : State) (off n : Nat) : Nat := leNat (s.cells (otpBase + off) n)

/-- FLC_CFG.COMPAT and FLC_PROT0 from the OTP row (14 R366, R370). -/
def State.loadFlc (s : State) : State :=
  (s.setFld F.FLC_CFG_COMPAT (bitsN (s.otpNat 0x20 4) 1 2)).wr R.FLC_PROTr
    (BitVec.ofNat 32 (s.otpNat 0x30 4) &&& BitVec.ofNat 32 R.FLC_PROTr.kw) 0

/-- FLC after a block reset: locked regions and a blocked password stay until chip reset (14 R366, R367).
DEDUCED, log entry 88. -/
def State.flcReset (s : State) (old : State) : State :=
  let s := { s with flc := { s.flc with
    op := none, owner := none, bufs := Vector.replicate 3 [], lastDem := Vector.replicate 3 none, unlocked := false
    warned := Vector.replicate 4 false } }.loadFlc
  (List.finRange 8).foldl (fun s r =>
    if old.flag F.FLC_PROTr_LOCK r.val then s.wr R.FLC_PROTr (old.rd R.FLC_PROTr r.val) r.val else s) s

/-- The registers of a page and its sets return to their reset values. -/
def State.resetRegs (s : State) (pg : PageIx) : State :=
  { s with
    regs := copyPage pg [] s.regs, active := copyPage pg [] s.active, pendSet := copyPage pg [] s.pendSet
    pages := s.pages.set pg { st := .off, en := pageEnReset pg.val } }

/-- What the block holds beside its registers returns to its reset value. `old` is the state before the registers were
reset. -/
def State.resetParts (s : State) (pg : PageIx) (old : State) : State :=
  match blk pg with
  | .rnd => { s with rnd := { s.rnd with dirValid := false, nAtlas := 0, nLogo := 0, atlasTab := 0, logoTab := 0, dirChk := none } }
  | .hhe => { s with hhe := Vector.replicate 4 HhePort.reset, hheLog := [] }.allPorts fun s p => s.ehmTouch p
  | .hp p =>
    let s := s.modHp p fun h => { causes := h.causes, hold := h.hold, heldAtStop := h.heldAtStop }
    (s.shutClear p fun c => { c with host := false, stbLong := false, sbaRst := false, reset := false }).headLook p
  | .ehm =>
    let s := if old.fld F.EHM_RSTSTAT_RESULT = 6 then s.wr R.EHM_RSTSTAT (old.rd R.EHM_RSTSTAT) else s
    s.allPorts fun s p => s.ehmTouch p
  | .moc => s
  | .ax a => { s with ax := s.ax.set a {} }.gearJump (8 + a.val)
  | .qe e =>
    let s := { s with qe := s.qe.set e { a := (old.qe[e]).a, b := (old.qe[e]).b, i := (old.qe[e]).i } }
    let s := s.allPorts fun s p =>
      if s.paced p ∧ s.fld F.HPn_PACE_QE p.val = e.val then s.hpResync p 0 else s
    (s.gearJump e.val).allAxes fun s a => if s.encOn a ∧ s.fld F.AXn_ENC_QE a.val = e.val then s.takeRefs a else s
  | .adc => { s with adc := AdcSt.reset }
  | .med => s.medReset (old.rd R.MED_GPI)
  | .ic => { s with cam := { s.cam with ic := Vector.replicate 2 {} } }
  | .csi => { s with cam := { s.cam with vc := Vector.replicate 4 {}, skip := false, lanes := none } }
  | .vp v => s.modVp v fun _ => { ctx := Vector.replicate 2 {} }
  | .flc => s.flcReset old
  | .csl => s.cslReset
  | .ua u => s.uaReset u
  | .sec => s.secReset
  | .spt => { s with spt := { out := s.spt.out, quad := s.spt.quad, clocks := s.spt.clocks } }
  | _ => s

/-- RESET_COMPLETE: the block leaves RESETTING; one with EN = 1 after reset runs at once (R36, 18 R467). -/
def State.resetComplete (s : State) (pg : PageIx) : State :=
  if (s.page pg).st ≠ .resetting ∨ pg = Pg.adt ∨ s.unitBusy pg then s
  else
    let old := s
    let s := (setPages pg).foldl (fun s i => s.resetRegs i) s
    let s := (s.resetParts pg old)
    let s := (setPages pg).foldl (fun s i => s.leaveShadow i) s
    (setPages pg).foldl (fun s i => if pageEnReset i.val then s.toRun i else s) s

end Sys2Proof.Machine
end

