-- ==== Sys2Proof/Machine/Faults.lean ====
section
/-! DEFINITION. What FCC does with a report: holding, pending bits, the first-error latch and the reactions
(18 R455, R458 to R466). -/

namespace Sys2Proof.Machine

-- the next report (R455)

/-- F before U before C. -/
def classRank (id : Nat) : Nat := 3 - faultClass id

/-- The identifier of a report; every report comes from a source of the table. -/
def Report.id (r : Report) : Nat := (faultId r.page r.k.val).getD 127

/-- Report `a` is decided before `b`: earlier, or at the same time F before U before C and the lower identifier.
DEDUCED, log entry 92. -/
def Report.before (a b : Report) : Bool :=
  a.at_.toNat < b.at_.toNat ||
    (a.at_ == b.at_ && (classRank a.id < classRank b.id || (classRank a.id == classRank b.id && a.id < b.id)))

def firstReport : List Report → Option Report
  | [] => none
  | r :: l => match firstReport l with
    | none => some r
    | some x => if x.before r then some x else some r

/-- A real and an injected report of one source at the same time are decided together (R463). -/
def Report.twin (a b : Report) : Bool := a.page == b.page && a.k == b.k && a.at_ == b.at_ && a.inj != b.inj

-- TRAP (R460, 04 R119, R120)

/-- TRAP applied to a queue. -/
def State.trapQueue (s : State) (q : QNum) : State :=
  let s := s.count R.SEQ_Tn_TRAPCNT q.val
  if ¬ s.flag F.SEQ_Tn_TRAP_EN q.val ∨ ¬ s.running Pg.seq then (s.count R.SEQ_Tn_MISSED q.val).irq Pg.seq 5
  else if (s.thr q).trap.isSome ∨ (s.thr q).trapDue then s.modThr q fun t => { t with trapPend := true }
  else s.modThr q fun t => { t with trapDue := true }

/-- The lowest port that names the axis as its feed or cutter axis. -/
def State.axPort (s : State) (a : AxNum) : Option Port :=
  (List.finRange 4).find? fun p => s.feedAx p == some a || s.cutAx p == some a

/-- Affected queues that the source itself names. -/
def State.trapOwn (s : State) (r : Report) : List QNum :=
  let ofPorts (l : List Port) : List QNum := l.filterMap s.portQueue
  match blk r.page with
  | .hhe | .sba | .ehm | .hp _ => ofPorts (sourcePort r.page r.k.val).toList
  | .vp _ => ofPorts r.ports
  | .rnd => ofPorts r.ports
  | .med => if r.k.val < 16 then ofPorts [Fin.ofNat 4 (s.fld F.MED_Uu_CFG_PORT (r.k.val % 8))] else []
  | .seq => r.queue.toList
  | .ax a => match (s.axS a).job with
    | some j => [j.q]
    | none => ofPorts (s.axPort a).toList
  | _ => []

/-- The TRAP reaction to a report. -/
def State.trapReaction (s : State) (r : Report) : State :=
  let own := s.trapOwn r
  let l := if own.isEmpty then (List.finRange 16).filter fun q => (s.rd R.FCC_TRAPQ).getLsbD q.val else own
  let l := (l.filter fun q => s.qEn q).eraseDups
  if l.isEmpty then (s.count R.FCC_TRAPLOST).irq Pg.fcc 8 else l.foldl (fun s q => s.trapQueue q) s

-- the other reactions

/-- ESCALATED for a page (R466). -/
def State.escalate (s : State) (pg : PageIx) : State :=
  { s with reports := s.reports ++ [Report.mk Pg.fcc 1 false s.time [] none (some (pg, 1))] }.irq Pg.fcc 7

/-- FCC_ESC.T in ticks, 0 acting as 1. -/
def State.escTicks (s : State) : Nat := max 1 (s.fld F.FCC_ESC_T) * 100 * usTicks

/-- The latest BRST reaction carried out on the page is less than FCC_ESC.T old. -/
def State.brstSoon (s : State) (pg : PageIx) : Bool :=
  match s.fcc.lastBrst[pg] with
  | some t => decide (s.since t < s.escTicks)
  | none => false

/-- BRST for a report that came at `t`: a block reset, unless the last one of the same block is less than FCC_ESC.T
old (R466). -/
def State.brstReaction (s : State) (pg : PageIx) (t : BitVec 64) : State :=
  if s.brstSoon pg then s.escalate pg
  else ((s.modFcc fun f => { f with lastBrst := f.lastBrst.set pg (some s.time) }).blockSrst pg).shadowsAfter s t

/-- What an F-class report does whatever its configuration (R459). -/
def State.fatal (s : State) : State :=
  (s.setBit F.FCC_STAT_FATAL true).allPorts fun s p => s.shutClose p (fun c => { c with fault := true }) (some St.aborted)

/-- CRST: the record is written; the chip reset comes 1 µs later (R458, R470). -/
def State.crstRecord (s : State) (id : Nat) : State :=
  ((((s.modFcc fun f => { f with crst := some (f.crst.getD s.time) }).setBit F.FCC_CRSTREC_VALID true).setFld F.FCC_CRSTREC_CLASS
    (faultClass id)).setFld F.FCC_CRSTREC_ID id)

/-- The reactions to a report that is not held (R458 to R460). -/
def State.react (s : State) (r : Report) (id : Nat) : State :=
  let cfg := s.rd R.FCC_RCFGi id
  let s := if cfg.getLsbD 0 then (s.irq r.page 2).irq Pg.fcc 4 else s
  let s := if faultClass id = 3 then s.fatal else s
  let s := if faultHead id && faultClass id == 2 then
      match sourcePort r.page r.k.val with
      | some p => s.shutClose p (fun c => { c with fault := true }) (some St.aborted)
      | none => s
    else s
  let s := if cfg.getLsbD 4 then s.stopAlive else s
  let s := if cfg.getLsbD 1 then s.trapReaction r else s
  let s := if cfg.getLsbD 2 then s.brstReaction r.page r.at_ else s
  if cfg.getLsbD 3 then s.crstRecord id else s

/-- The report enters the first-error latch, or finds it full (R462). -/
def State.latchReport (s : State) (r : Report) (id : Nat) (inj : Bool) : State :=
  if s.flag F.FCC_FER_VALID then (s.setBit F.FCC_STAT_OVF true).irq Pg.fcc 5
  else
    let (pg, k) := r.named.getD (r.page, r.k)
    let s := s.wr R.FCC_FER (BitVec.ofNat 32
      (2 ^ 31 + inj.toNat * 2 ^ 30 + faultClass id * 2 ^ 28 + id * 2 ^ 16 + pg.val * 2 ^ 8 + k.val))
    (s.wr R.FCC_FER_TIME_LO s.timeLo).wr R.FCC_FER_TIME_HI ((s.time >>> 32).setWidth 32)

/-- REAL and INJ bits of the source (R462, R463). -/
def State.markPend (s : State) (r : Report) (real inj : Bool) : State :=
  let b : Word := BitVec.ofNat 32 (2 ^ r.k.val)
  s.modFcc fun f =>
    { f with real := if real then f.real.set r.page (f.real[r.page] ||| b) else f.real,
             inj := if inj then f.inj.set r.page (f.inj[r.page] ||| b) else f.inj }

/-- The decision on one report; `twin`: the other of a real and an injected report came with it. A group whose path
broke before the report counts as normal (R454). -/
def State.decideReport (s : State) (r : Report) (twin : Bool) : State :=
  let id := r.id
  if (s.fcc.broken[r.page]).any fun t => decide (t.toNat < r.at_.toNat) then s
  else if s.held r id then
    ((s.count R.FCC_SUPPR).setFld F.FCC_SUPPRLAST_ID id).irq Pg.fcc 6
  else
    let s := s.count R.FCC_REPORTS
    let s := s.markPend r (!r.inj || twin) (r.inj || twin)
    (s.latchReport r id (r.inj && !twin)).react r id

/-- FAULT_REPORT: FCC decides the report that comes first (R455), the real one of two that come together (R463);
without the SYS clock it stands still (R457). -/
def State.faultReport (s : State) : State :=
  match firstReport s.reports with
  | none => s
  | some r =>
    let rest := s.reports.erase r
    if s.chip.sysStopped then s
    else match rest.find? r.twin with
    | some x => { s with reports := rest.erase x }.decideReport (if r.inj then x else r) true
    | none => { s with reports := rest }.decideReport r false

/-- The clock of an island is lost: its ready bit falls until the next chip reset (02 R51). A SYS clock that has
`stopped`, not one off frequency, stops FCC (R457). DESIGN CHOICE, log entry 127. -/
def State.clockLost (s : State) (isl : Fin 11) (stopped : Bool) : State :=
  { s with chip := { s.chip with noClk := s.chip.noClk ||| BitVec.ofNat 11 (2 ^ isl.val),
                                 sysStopped := s.chip.sysStopped || (stopped && isl == 0) } }

/-- CLKLOSS (R457): for `ticks` of 10 ns, 1 µs at least, the island's clock has stopped or been off frequency. The
source is raised. -/
def State.clkloss (s : State) (isl : Fin 11) (ticks : Nat) (stopped : Bool) : State :=
  if ticks < usTicks then s else (s.clockLost isl stopped).raise Pg.sys 1

/-- SYSCLK_LOSS_ALIVE_STOP (R457): for `ticks` of 10 ns, 2 µs at least, there has been no SYS clock. -/
def State.sysclkLoss (s : State) (ticks : Nat) : State :=
  if ticks < 2 * usTicks then s else (s.clockLost 0 true).stopAlive

end Sys2Proof.Machine
end

