-- ==== Sys2Proof/Machine/Pads.lean ====
section
/-! DEFINITION. The balls of the signals (20 R493 to R495): what the device drives on each, and the cells of the
boundary register (20 R496). -/

namespace Sys2Proof.Machine

/-- The signals that have a ball, but for the analog inputs, the crystal, the CSI pairs and the inputs of the TAP. -/
inductive Signal
  | hpDat (p : Port) (k : Fin 16) | hpClk (p : Port) | hpLat (p : Port) | hpStb (p : Port) (k : Fin 8)
  | axStep (a : AxNum) | axDir (a : AxNum) | axEna (a : AxNum) | axIref (a : AxNum)
  | qeIn (e : QeNum) (k : Fin 3)
  | uaTxd (u : UaNum) | uaRxd (u : UaNum) | uaRts (u : UaNum) | uaCts (u : UaNum)
  | medLed (k : Fin 8) | medGpi (k : Fin 16)
  | cslTxd | cslRxd | cslDe | cslNre | cslAdr (k : Fin 6)
  | sptNcs | sptSck | sptIo (k : Fin 4)
  | icScl (k : Fin 2) | icSda (k : Fin 2)
  | nHirq | alive | nReset | tdo
  deriving DecidableEq, Repr

/-- Inputs (R495: SI). -/
def Signal.isInput : Signal → Bool
  | .qeIn _ _ | .uaRxd _ | .uaCts _ | .medGpi _ | .cslRxd | .cslAdr _ | .sptNcs | .sptSck | .nReset => true
  | _ => false

/-- Open-drain balls (R495: OD). -/
def Signal.isOd : Signal → Bool
  | .icScl _ | .icSda _ | .nHirq => true
  | _ => false

-- what is driven (R495)

/-- What the device does at a ball. -/
inductive Drive
  /-- it is an input. -/
  | input
  /-- high-impedance, no pull but the one of R495. -/
  | highZ
  /-- open-drain, released. -/
  | released
  /-- open-drain pulled low, or low through the internal pull of ALIVE. -/
  | pulledLow
  /-- driven; no level where no rule gives one or State keeps none. -/
  | driven (level : Option Bool)
  deriving DecidableEq, Repr

def drivenOr : Option Bool → Drive
  | some b => .driven (some b)
  | none => .highZ

/-- In reset: power-up, chip reset and cast-on up to step 8. -/
def Signal.inReset (x : Signal) : Drive :=
  if x.isInput then .input else if x.isOd then .released else if x = .alive then .pulledLow else .highZ

/-- After cast-on; the level within a period of a modulated LED or current reference is not kept. A UART
character, an I2C transaction and an SPI transaction are one event here, and the ball stands at its level
between them. DEDUCED, log entry 125. -/
def State.driveUp (s : State) : Signal → Drive
  | .hpDat p k => match s.dataPads p with
    | some l => .driven (l.getD k.val none)
    | none => .highZ
  | .hpClk p => drivenOr (s.clockPad p)
  | .hpLat p => drivenOr (s.latchPad p)
  | .hpStb p k => drivenOr ((s.strobePads p).map fun l => l.getD k.val false)
  | .axStep a => drivenOr ((s.axPins a).map (·.step))
  | .axDir a => drivenOr ((s.axPins a).map (·.dir))
  | .axEna a => drivenOr ((s.axPins a).map (·.ena))
  | .axIref a => if (s.axPins a).isSome then .driven none else .highZ
  | .uaTxd u => drivenOr (s.uaPins u).txd
  | .uaRts u => drivenOr (s.uaPins u).rts
  | .medLed k => match s.ledLevel k.val 0 with
    | some b => .driven (if s.ledLevel k.val 1023 = some b then some b else none)
    | none => .highZ
  | .cslTxd => drivenOr s.cslPins.txd
  | .cslDe => drivenOr s.cslPins.de
  | .cslNre => drivenOr s.cslPins.nre
  | .icScl _ | .icSda _ => .released
  | .nHirq => if s.hirq then .pulledLow else .released
  | .alive => .driven (some s.fcc.alive)
  | .sptIo _ | .tdo => .highZ
  | .qeIn _ _ | .uaRxd _ | .uaCts _ | .medGpi _ | .cslRxd | .cslAdr _ | .sptNcs | .sptSck | .nReset => .input

-- the boundary register (R496)

/-- The covered balls in the order of R493. -/
def boundaryOrder : List Signal :=
  let port (p : Port) : List Signal :=
    (List.finRange 16).map (.hpDat p) ++ [.hpClk p, .hpLat p] ++ (List.finRange 8).map (.hpStb p)
  let ua (u : UaNum) : List Signal := [.uaTxd u, .uaRxd u, .uaRts u, .uaCts u]
  let qe (e : QeNum) : List Signal := (List.finRange 3).map (.qeIn e)
  let ax (a : AxNum) : List Signal := [.axStep a, .axDir a, .axEna a, .axIref a]
  (List.finRange 4).flatMap port ++
  [.icScl 0, .icSda 0, .icScl 1, .icSda 1, .sptNcs, .sptSck, .sptIo 0, .sptIo 1, .sptIo 2, .sptIo 3, .nHirq, .alive,
    .nReset, .cslTxd, .cslRxd, .cslDe, .cslNre, .cslAdr 0, .cslAdr 1, .cslAdr 2] ++
  ((List.finRange 16).drop 2).map .medGpi ++ [.cslAdr 3, .cslAdr 4, .cslAdr 5] ++
  ua 2 ++ ua 3 ++ (List.finRange 8).map .medLed ++ [.medGpi 0, .medGpi 1] ++
  qe 2 ++ qe 3 ++ qe 4 ++ qe 5 ++ ua 0 ++ ua 1 ++
  ax 5 ++ ax 6 ++ ax 7 ++ qe 0 ++ qe 1 ++ ax 0 ++ ax 1 ++ ax 2 ++ ax 3 ++ ax 4

/-- Each covered ball with its INPUT cell; OUTPUT and CONTROL of a ball that has them follow it. -/
def boundaryCells (n : Nat) : List Signal → List (Signal × Nat)
  | [] => []
  | x :: l => (x, n) :: boundaryCells (n + if x.isInput then 1 else 3) l

/-- The INPUT cell of a covered ball. -/
def Signal.cell (x : Signal) : Option Nat := ((boundaryCells 0 boundaryOrder).find? (·.1 == x)).map (·.2)

/-- What the boundary register drives at a ball whose INPUT cell is `c`: OUTPUT while CONTROL is 1, and nothing
otherwise; an open-drain ball is only ever pulled low. -/
def State.scanned (s : State) (x : Signal) (c : Nat) : Drive :=
  let out := s.chip.boundary.getLsbD (c + 1)
  let ctl := s.chip.boundary.getLsbD (c + 2)
  if x.isInput then .input
  else if x.isOd then (if ctl && !out then .pulledLow else .released)
  else if ctl then .driven (some out) else .highZ

/-- What the device does at a ball now. CLAMP drives what EXTEST drives. PRESUMED, log entry 124. -/
def State.drive (s : State) (x : Signal) : Drive :=
  let normal : Drive := if s.chip.phase = .up then s.driveUp x else x.inReset
  match s.chip.tap, x.cell with
  | .extest, some c => s.scanned x c
  | .clamp, some c => s.scanned x c
  | .highz, some _ => if x.isInput then .input else if x.isOd then .released else .highZ
  | _, _ => normal

/-- The level at a ball: the one the device drives, or `board`, the one that the board gives it. -/
def Drive.level (d : Drive) (board : Bool) : Bool :=
  match d with
  | .driven (some b) => b
  | .pulledLow => false
  | _ => board

/-- The boundary register with the ball levels in its INPUT cells; `board`: the levels that the board gives the
covered balls, in the order of R493. -/
def State.captured (s : State) (board : BitVec 217) : BitVec 547 :=
  (boundaryCells 0 boundaryOrder).zipIdx.foldl (fun (r : BitVec 547) x =>
    let b := (s.drive x.1.1).level (board.getLsbD x.2)
    (r &&& ~~~((1 : BitVec 547) <<< x.1.2)) ||| ((BitVec.ofNat 547 b.toNat) <<< x.1.2)) s.chip.boundary

/-- The boundary register with every CONTROL cell 0. -/
def controlsOff (r : BitVec 547) : BitVec 547 :=
  (boundaryCells 0 boundaryOrder).foldl (fun (r : BitVec 547) x =>
    if x.1.isInput then r else r &&& ~~~((1 : BitVec 547) <<< (x.2 + 2))) r

end Sys2Proof.Machine
end

