-- ==== Sys2Proof/Machine/LifeCycle.lean ====
section
/-! DEFINITION. Chip resets, cast-on, the boot job list, the life-cycle record, keys, and the TAP (19). -/

namespace Sys2Proof.Machine

/-- Ticks that one OTP word takes, 51 µs. -/
def otpTicks : Nat := 5100

/-- OR bits into an OTP word. -/
def State.orWord (s : State) (a : Nat) (v : BitVec 64) : State := s.set64 a (s.cell64 a ||| v)

-- the life-cycle record (R479, R480)

/-- Step `i`: its four bits. -/
def State.lifeStep (s : State) (i : Nat) : Nat := bitsN (s.cell (otpBase + 0x10 + i / 2)).toNat (4 * (i % 2)) 4

/-- OTP word and bits of step `i`. -/
def stepWord (i : Nat) : Nat × BitVec 64 := (otpBase + 0x10 + 8 * (i / 16), BitVec.ofNat 64 (15 * 16 ^ (i % 16)))

/-- Steps that are set. -/
def State.lifeSteps (s : State) : List Nat := (List.range 32).filter fun i => s.lifeStep i != 0

/-- What the set steps decode to. -/
structure Life where
  /-- STATE, as LCS_STATE codes it. -/
  state : Nat
  erased : Bool
  returns : Nat
  reprov : Nat
  /-- the step after the highest one set. -/
  next : Nat
  deriving DecidableEq, Repr

/-- R480. -/
def lifeOf (set : List Nat) : Life :=
  let returns := (set.filter fun i => i < 17 && i % 4 == 3).length
  let reprov := (set.filter fun i => i == 5 || i == 9 || i == 13).length
  let low := set.filter fun i => i < 17
  let next : Nat := low.foldl (fun m i => max m (i + 1)) 0
  let state : Nat :=
    if set.any fun i => 17 ≤ i then 5
    else if next = 0 then 0
    else if next = 1 then 1
    else match (next - 1) % 4 with
      | 1 => 2
      | 2 => 3
      | _ => 4
  { state := state, erased := state == 4 && (next - 1) % 4 == 0, returns := returns, reprov := reprov, next := next }

/-- LCS_STATE for a decode; the keys' presence is added once STATE stands. -/
def State.writeLife (s : State) (l : Life) (decFail : Bool) : State :=
  let s := s.wr R.LCS_STATE (BitVec.ofNat 32
    (decFail.toNat * 4096 + l.reprov * 256 + l.returns * 16 + l.erased.toNat * 8 + l.state))
  (s.setBit F.LCS_STATE_KDP (s.keyPresent false)).setBit F.LCS_STATE_KMP (s.keyPresent true)

-- what a chip reset cuts short (R474, 14 note after R368)

/-- OTP words under programming since `since`: each takes 51 µs, and the one in progress is finished, or with `power`
cut short, where any of its new bits may have been set. DESIGN CHOICE, log entry 60. -/
def State.otpCut (s : State) (since : BitVec 64) (power : Bool) (ws : List (Nat × BitVec 64)) : State :=
  let n := s.since since / otpTicks
  let s := (ws.take (if power then n else n + 1)).foldl (fun s w => s.orWord w.1 w.2) s
  match power, ws.drop n with
  | true, w :: _ =>
    let (a, s) := s.fresh
    let (b, s) := s.fresh
    s.orWord w.1 (w.2 &&& (Config.freeWord a ++ Config.freeWord b))
  | _, _ => s

/-- Running operations at a chip reset. -/
def State.cutOps (s : State) (power : Bool) : State :=
  let s := s.pulseBegun
  let s := match s.flc.op with
    | none =>
      match s.chip.lcs with
      | none => s
      | some l => s.otpCut l.since power l.words
    | some o =>
      let s := { s with flc := { s.flc with op := none } }
      if o.cmd = 8 then s.otpCut o.runSince power (o.latches.zipIdx.map fun (v, k) => (o.lo + 8 * k, v))
      else
        let s := match s.chip.lcs with
          | none => s
          | some l => s.otpCut l.since power l.words
        if o.cmd = 1 ∨ o.cmd = 7 then o.targets.foldl (fun s (e : Nat × BitVec 64) => s.spoil e.1 (e.1 + 8) o.salt) s
        else if o.cmd = 2 ∨ o.cmd = 3 ∨ o.cmd = 6 then s.spoil o.lo o.hi o.salt
        else s
  { s with chip := { s.chip with lcs := none } }

-- the boot job list (R476 to R478)

/-- A boot header. -/
structure BootHdr where
  queue : Nat
  prio : Nat
  lsize : Nat
  lcsize : Nat
  count : Nat
  list : Nat
  ring : Nat
  cring : Nat
  deriving DecidableEq, Repr

/-- A field of the header or a word of the list, as flash holds it. -/
def State.flashNat (s : State) (a n : Nat) : Nat := leNat (s.cells a n)

/-- An uncorrectable word in flash bytes [a, b). -/
def State.uncorIn (s : State) (a b : Nat) : Bool := (wordsOf (a / 8 * 8) ((b + 7) / 8 * 8)).any fun w => s.eccAt w == 2

/-- The bank of a flash address was marked failed. -/
def State.inFailedBank (s : State) (a b : Nat) : Bool := s.bankFailed (flashBank a) || s.bankFailed (flashBank (b - 1))

/-- Fields outside their range, or bytes marked 0 that are not (BOOTERR 0x02). `alt`: the ALT field is looked at. -/
def State.bootFields (s : State) (h : Nat) (alt : Bool) : Bool :=
  let ls := s.flashNat (h + 8) 1
  let lc := s.flashNat (h + 9) 1
  let n := s.flashNat (h + 10) 2
  s.flashNat (h + 6) 1 < 16 && s.flashNat (h + 7) 1 < 4 && 4 ≤ ls && ls ≤ 12 && 4 ≤ lc && lc ≤ 12 && 1 ≤ n &&
    n ≤ 2 ^ ls && s.flashNat (h + 12) 4 % 16 == 0 && s.flashNat (h + 28) 4 == 0 &&
    (!alt || (s.flashNat (h + 24) 4 % 32 == 0 && s.flashNat (h + 24) 4 + 32 ≤ flashEnd))

def State.bootHdr (s : State) (h : Nat) : BootHdr :=
  { queue := s.flashNat (h + 6) 1, prio := s.flashNat (h + 7) 1, lsize := s.flashNat (h + 8) 1,
    lcsize := s.flashNat (h + 9) 1, count := s.flashNat (h + 10) 2, list := h + s.flashNat (h + 12) 4,
    ring := s.flashNat (h + 16) 4, cring := s.flashNat (h + 20) 4 }

/-- The rings break 03 R53: no other queue is enabled yet. -/
def BootHdr.ringsBad (b : BootHdr) : Bool :=
  let r := 16 * 2 ^ b.lsize
  let c := 16 * 2 ^ b.lcsize
  !(wramBase ≤ b.ring && b.ring + r ≤ wramEnd && b.ring % r == 0 && wramBase ≤ b.cring && b.cring + c ≤ wramEnd &&
    b.cring % c == 0)

/-- BOOTERR of the header at `h`, none if it is accepted (R477). -/
def State.bootRefusal (s : State) (h : Nat) (alt : Bool) : Option Nat :=
  let b := s.bootHdr h
  let stop := b.list + 16 * b.count
  if s.inFailedBank h (h + 32) then some 6
  else if s.uncorIn h (h + 32) then some 5
  else if s.flashNat h 4 ≠ 0x544F4F42 ∨ s.flashNat (h + 4) 2 ≠ 1 then some 1
  else if ¬ s.bootFields h alt then some 2
  else if b.ringsBad then some 3
  else if flashEnd < stop then some 4
  else if s.inFailedBank b.list stop then some 6
  else if s.uncorIn b.list stop then some 5
  else none

/-- The entries are copied and the boot queue is enabled. -/
def State.bootQueue (s : State) (b : BootHdr) : State :=
  let q : QNum := Fin.ofNat 16 b.queue
  let s := s.setBytes b.ring (s.cells b.list (16 * b.count))
  let s := (s.wr R.QMG_Qn_RING (BitVec.ofNat 32 b.ring) q.val).wr R.QMG_Qn_CRING (BitVec.ofNat 32 b.cring) q.val
  let s := s.queueEnable q (BitVec.ofNat 32 (b.lcsize * 16384 + b.lsize * 1024 + b.prio * 16 + 1))
  let s := s.doorbell q (BitVec.ofNat 16 b.count)
  let s := { s with sec := { s.sec with bootQ := some (q, b.count) } }
  ((s.setFld F.LCS_BOOTQ_COUNT b.count).setBit F.LCS_BOOTQ_VALID true).setFld F.LCS_BOOTQ_Q q.val

/-- ALT of a refused header that could be read: an aligned flash address other than 0. -/
def State.bootAlt (s : State) (h : Nat) : Option Nat :=
  let a := s.flashNat (h + 24) 4
  if s.inFailedBank h (h + 32) ∨ s.eccAt (h + 24) = 2 ∨ a = 0 ∨ a % 32 ≠ 0 ∨ flashEnd < a + 32 then none else some a

/-- Step 7 with BOOTEN = 1. -/
def State.bootStep (s : State) : State :=
  let h := bitsN (s.otpNat 0x20 4) 12 12 * 4096
  match s.bootRefusal h true with
  | none => (s.bootQueue (s.bootHdr h)).setFld F.LCS_CASTON_BOOT 1
  | some e =>
    match s.bootAlt h with
    | none => (s.setFld F.LCS_CASTON_BOOTERR e).setFld F.LCS_CASTON_BOOT 3
    | some a =>
      match s.bootRefusal a false with
      | none => ((s.bootQueue (s.bootHdr a)).setFld F.LCS_CASTON_BOOTERR e).setFld F.LCS_CASTON_BOOT 2
      | some e' => (s.setFld F.LCS_CASTON_BOOTERR e').setFld F.LCS_CASTON_BOOT 3

/-- BOOTCFG.BOOTEN. -/
def State.bootEn (s : State) : Bool := s.otpNat 0x20 1 % 2 = 1

-- cast-on (R472, R473)

/-- Everything but flash, OTP and what lies in the AON island beside the reset is at its reset value. -/
def State.coldStart (s : State) : State :=
  { State.reset with
    pending := s.pending, freeCtr := s.freeCtr
    mem := s.mem.filter fun c => c.1 < flashEnd || otpBase ≤ c.1
    flc := { FlcSt.reset with cycles := s.flc.cycles, ecc := s.flc.ecc, undef := s.flc.undef }
    chip := { tap := s.chip.tap, boundary := s.chip.boundary, captured := s.chip.captured, tdata := s.chip.tdata, bankA := s.chip.bankA, bankB := s.chip.bankB } }

/-- Step 3b, OTP: partly programmed steps, and in SCRAPPED key bits, are completed. -/
def State.completeOtp (s : State) : State :=
  let part := (List.range 32).filter fun i => s.lifeStep i != 0 && s.lifeStep i != 15
  let s' := part.foldl (fun s i => s.orWord (stepWord i).1 (stepWord i).2) s
  let keys := [otpBase + 0x80, otpBase + 0x88, otpBase + 0x90, otpBase + 0x98]
  let open_ := if (lifeOf s.lifeSteps).state = 5 then keys.filter fun a => s.cell64 a != BitVec.allOnes 64 else []
  let s' := open_.foldl (fun s a => s.orWord a (BitVec.allOnes 64)) s'
  if part.isEmpty ∧ open_.isEmpty then s else s'.setBit F.LCS_CASTON_OTPCOMP true

/-- Step 3b: the row is read and decoded, and the straps are sampled. -/
def State.castOnOtp (s : State) (w : CastOnWorld) : State :=
  let s := if w.otpDiffers then s.writeLife { lifeOf [31] with next := 32 } true
    else
      let s := s.completeOtp
      s.writeLife (lifeOf s.lifeSteps) false
  { s.setFld F.CSL_ADDR_ADDR w.straps.toNat with csl := { s.csl with straps := w.straps } }

/-- The erasure of a returned unit (R485). -/
def State.returnErase (s : State) (w : CastOnWorld) : State :=
  if s.fld F.LCS_STATE_STATE ≠ 4 ∨ s.flag F.LCS_STATE_ERASED then s
  else
    let s := (s.setBit F.LCS_CASTON_ERASENOW true).eraseRange flashBase flashEnd
    let s := (List.range 4096).foldl (fun s k => s.cycleStep k) s
    let ok (b n : Nat) : Bool := decide (n ≤ 8) && !s.bankFailed b
    -- ERASE_BANK of one bank that takes `n` pulses: its warning and its failure (14 R359, R368)
    let erase (s : State) (b n : Nat) : State :=
      let s := s.pulseWarn 3 (min 8 n > s.fld F.FLC_ERRTH_ETH)
      if ok b n then s
      else
        let (k, s) := s.fresh
        (s.spoil (b * 0x800000) ((b + 1) * 0x800000) k).raise Pg.flc 3
    let s := erase (erase s 0 w.erasePulses0) 1 w.erasePulses1
    if ok 0 w.erasePulses0 ∧ ok 1 w.erasePulses1 then
      let i := (lifeOf s.lifeSteps).next
      (s.orWord (stepWord i).1 (stepWord i).2).setBit F.LCS_STATE_ERASED true
    else s.setBit F.LCS_CASTON_ERASEFAIL true

/-- Steps 5 to 8. -/
def State.castOnUp (s : State) (w : CastOnWorld) : State :=
  let s := { s with time := w.ticks, fcc := { s.fcc with edgeAt := w.ticks } }
  let s := (s.setBit F.LCS_CASTON_FLB0 w.bank0Failed).setBit F.LCS_CASTON_FLB1 w.bank1Failed
  let s := s.loadFlc.returnErase w
  let st := s.fld F.LCS_STATE_STATE
  let s := if s.bootEn ∧ s.keyPresent false then s.bootSession else s
  let s := if st = 4 ∨ st = 5 then s.setFld F.LCS_CASTON_BOOT 4 else if s.bootEn then s.bootStep else s
  s.wr R.LCS_CASTON_T s.timeLo

/-- The causes that arrive together (02 R52): the one named, those of the world, and requests of the chip's own that
wait for their reset. DEDUCED, log entry 128. -/
def State.resetCauses (s : State) (cause : Nat) (w : CastOnWorld) : BitVec 5 :=
  BitVec.ofNat 5 (2 ^ cause) ||| w.also |||
    (if cause = 0 then 0 else (if s.chip.swrst then 8 else 0) ||| (if s.fcc.crst.isSome then 4 else 0))

/-- The bit of the cause that SYS_RST_CAUSE lists highest (02 R52). -/
def highest (c : BitVec 5) : Nat :=
  if c.getLsbD 4 then 16 else if c.getLsbD 3 then 8 else if c.getLsbD 2 then 4 else if c.getLsbD 1 then 2 else 1

/-- Cast-on from the state at the reset; `cause` is the bit of SYS_RST_CAUSE. Three failures to lock leave AON holding
everything in reset; without clean crystal cycles AON waits in step 3a (19 R473, 20 R515). DEDUCED, log entry 89. -/
def State.castOn (s : State) (cause : Nat) (w : CastOnWorld) : State :=
  let rec_ := s.rd R.FCC_CRSTREC
  let causes := s.resetCauses cause w
  let s := s.coldStart.wr R.SYS_RST_CAUSE (BitVec.ofNat 32 (highest causes))
  let s := if causes.getLsbD 2 then s.wr R.FCC_CRSTREC rec_ else s
  if w.noCrystal ∧ (cause = 0 ∨ cause = 1) then
    { s with chip := { s.chip with phase := .noCrystal }, fcc := { s.fcc with alive := false } }
  else
    let s := (s.castOnOtp w).setFld F.LCS_CASTON_PLLTRY (min 2 w.pllTries)
    if 3 ≤ w.pllTries then
      { s with chip := { s.chip with phase := .failed }, fcc := { s.fcc with alive := false } }
    else s.castOnUp w

/-- A chip reset from a running chip: what runs is cut short first. -/
def State.chipReset (s : State) (cause : Nat) (w : CastOnWorld) : State := (s.cutOps false).castOn cause w

/-- A supply is below its rising threshold (20 R498). DEDUCED, log entry 181. -/
def supplyLow (w : CastOnWorld) : Bool :=
  w.vcore < 720 || w.vioA < 1600 || w.vioB < 1600 || w.vana < 1620 || w.vflash < 2250

/-- The dip starts a power-on reset: a supply fell below its falling threshold for 1 µs or longer (20 R498). -/
def dipResets (d : SupplyDip) : Bool :=
  (d.vcore < 700 || d.vioA < 1550 || d.vioB < 1550 || d.vana < 1580 || d.vflash < 2200) && (1000 ≤ d.ns || d.taken)

/-- POWER_ON_RESET: while a supply is low nothing runs (R473); when it releases, the TAP returns to Test-Logic-Reset,
each I/O bank takes the mode of its supply (20 R497), and cast-on runs. DESIGN CHOICE, log entry 155. -/
def State.powerOn (s : State) (w : CastOnWorld) (dip : Option SupplyDip) : State :=
  if dip.any fun d => !dipResets d then s
  else
    let s := s.cutOps true
    let t := if supplyLow w then { s.coldStart with chip := { phase := .noSupply }, fcc := { FccSt.reset with alive := false } }
      else s.castOn 0 w
    { t with chip := { t.chip with tap := .idcode, boundary := 0, captured := 0, tdata := 0, tres := 0, tuntil := 0,
                                   bankA := decide (2500 < w.vioA), bankB := decide (2500 < w.vioB) } }

/-- An instruction that holds the islands in reset is current. -/
def TapInstr.holds (i : TapInstr) : Bool := i == .extest || i == .clamp || i == .highz

/-- NRESET: low for 10 µs or more resets the chip; for less than 1 µs it is ignored (20 R510). While boundary scan
holds the islands nothing more happens. -/
def State.nReset (s : State) (lowNs : Nat) (taken : Bool) (w : CastOnWorld) : State :=
  if lowNs ≥ 10000 ∨ (lowNs ≥ 1000 ∧ taken) then
    if s.chip.phase = .held ∨ s.chip.phase = .noSupply then s else s.chipReset 1 w
  else s

-- boundary scan (R488, R489)

/-- The instruction of a code of the 5-bit instruction register (R488). -/
def tapInstr (code : BitVec 5) : TapInstr :=
  match code.toNat with
  | 0x00 => .extest
  | 0x01 => .samplePreload
  | 0x02 => .idcode
  | 0x03 => .clamp
  | 0x04 => .highz
  | 0x10 => .transom
  | _ => .bypass

/-- What Capture-IR takes (R488). -/
def tapIrCapture : BitVec 5 := 0b00001

/-- Length of the data register that an instruction selects (R486, R488; 20 R496). -/
def TapInstr.length : TapInstr → Nat
  | .extest | .samplePreload => 547
  | .idcode => 32
  | .transom => 66
  | .clamp | .highz | .bypass => 1

/-- The TAP runs: AON holds it in the power-on reset only (R488). -/
def State.whenTap (s : State) (f : State → State) : State := if s.chip.phase = .noSupply then s else f s

/-- EXTEST, CLAMP or HIGHZ becomes current (R489). -/
def State.bscanHold (s : State) (i : TapInstr) : State :=
  s.whenTap fun s =>
  if s.chip.phase = .held then { s with chip := { s.chip with tap := i } }
  else
    let s := (s.cutOps false).coldStart
    { s with chip := { s.chip with phase := .held, tap := i }, fcc := { s.fcc with alive := false } }

/-- A scan of the boundary register: Capture-DR takes the ball levels, Update-DR brings `bits` (20 R496). -/
def State.boundaryScan (s : State) (bits : BitVec 547) (board : BitVec 217) : State :=
  { s with chip := { s.chip with captured := s.captured board, boundary := bits } }

/-- EXTEST. -/
def State.bscanExtest (s : State) (bits : BitVec 547) (board : BitVec 217) : State :=
  s.whenTap fun s => (s.bscanHold .extest).boundaryScan bits board

/-- The 32-bit register of IDCODE (R488). -/
def tapIdcode : Word := 0x174405D3

/-- An access of the Transom is running (R486). -/
def State.transomBusy (s : State) : Bool := decide (s.time.toNat < s.chip.tuntil.toNat)

/-- What Capture-DR of the Transom register takes (R486). -/
def State.transomCapture (s : State) : BitVec 66 :=
  if s.transomBusy then (1 : BitVec 2) ++ (0 : Word) ++ s.chip.tprev
  else (if s.chip.phase = .up then s.chip.tres else 1) ++ (0 : Word) ++ s.chip.tdata

/-- Another instruction becomes current. PRESUMED, log entry 124. -/
def State.bscanSelect (s : State) (i : TapInstr) : State :=
  s.whenTap fun s => { s with chip := { s.chip with tap := i } }

/-- IDCODE; by way of Test-Logic-Reset every CONTROL cell is cleared (20 R496). -/
def State.bscanIdcode (s : State) (tlr : Bool) : State :=
  let s := s.bscanSelect .idcode
  if tlr then { s with chip := { s.chip with boundary := controlsOff s.chip.boundary } } else s

/-- BYPASS by any code that selects it (R488). -/
def State.bscanBypass (s : State) (code : BitVec 5) : State := if tapInstr code = .bypass then s.bscanSelect .bypass else s

/-- SAMPLE/PRELOAD. -/
def State.bscanPreload (s : State) (bits : BitVec 547) (board : BitVec 217) : State :=
  s.whenTap fun s => (s.bscanSelect .samplePreload).boundaryScan bits board

/-- BSCAN_RESET_RELEASE: the instruction that held the islands is no longer current. -/
def State.bscanRelease (s : State) (w : CastOnWorld) : State :=
  if s.chip.phase = .held ∧ ¬ s.chip.tap.holds then s.castOn 1 { w with noCrystal := false } else s

-- transitions (R482 to R484)

/-- A refused transition. -/
def State.transRefused (s : State) (target code : Nat) : State :=
  ((s.setFld F.LCS_TRES_TARGET target).setFld F.LCS_TRES_RESULT code).irq Pg.lcs 5

/-- Why a transition is refused: 1 BUSY, 2 ORDER, 3 NOKEY, 4 LIMIT, 5 CONFIRM. `own`: it came through LCS_OWNTRANS. -/
def State.transCheck (s : State) (own : Bool) (confirm : Byte) (target : Nat) : Option Nat :=
  let st := s.fld F.LCS_STATE_STATE
  let ok : Bool :=
    match target with
    | 1 => !own && st == 0
    | 2 => !own && (st == 1 || (st == 4 && s.flag F.LCS_STATE_ERASED))
    | 3 => st == 2
    | 4 => !own && st == 3
    | 5 => if own then st == 3 else st != 5
    | _ => false
  if s.chip.lcs.isSome then some 1
  else if confirm ≠ 0x5A then some 5
  else if ¬ ok then some 2
  else if target = 1 ∧ ¬ s.flag F.LCS_STATE_KMP then some 3
  else if target = 2 ∧ st = 1 ∧ ¬ s.flag F.LCS_STATE_KDP then some 3
  else if target = 2 ∧ st = 4 ∧ 3 ≤ s.fld F.LCS_STATE_REPROV then some 4
  else none

/-- OTP words of a transition: the next step, or step 31 and both keys. -/
def State.transWords (s : State) (target : Nat) : List (Nat × BitVec 64) :=
  if target = 5 then
    stepWord 31 :: [0x80, 0x88, 0x90, 0x98].map fun (o : Nat) => (otpBase + o, BitVec.allOnes 64)
  else [stepWord (lifeOf s.lifeSteps).next]

/-- A keyed write of LCS_TRANS or LCS_OWNTRANS. DESIGN CHOICE, log entry 174. -/
def State.transition (s : State) (own : Bool) (confirm : Byte) (target : Nat) : State :=
  match s.transCheck own confirm target with
  | some c => s.transRefused target c
  | none => { s with chip := { s.chip with lcs := some (LcsOp.mk (s.transWords target) s.time true target) } }

-- keys (R481)

/-- The key in LCS_KEYDATA0 to LCS_KEYDATA3, as two OTP words. -/
def State.keyWord (s : State) (k : Nat) : BitVec 64 := s.rd R.LCS_KEYDATAi (2 * k + 1) ++ s.rd R.LCS_KEYDATAi (2 * k)

/-- KEY_PROGRAM: a write of LCS_KEYPROG with GO; `sel` chooses KM. DESIGN CHOICE, log entry 148. -/
def State.keyProgram (s : State) (rq : Requester) (sel : Bool) : State :=
  let s := s.setBit F.LCS_KEYPROG_SEL sel
  let a := otpBase + if sel then 0x90 else 0x80
  let refuse (c : Nat) : State := s.setFld F.LCS_KEYPROG_RESULT c
  if s.chip.lcs.isSome then s
  else if rq ≠ .transom then refuse 6
  else if s.fld F.LCS_STATE_STATE ≠ 0 then refuse 2
  else if s.cell64 a ≠ 0 ∨ s.cell64 (a + 8) ≠ 0 then refuse 3
  else if s.keyWord 0 = 0 ∧ s.keyWord 1 = 0 then refuse 4
  else
    { s.setBit F.LCS_KEYPROG_BUSY true with
      chip := { s.chip with lcs := some (LcsOp.mk [(a, s.keyWord 0), (a + 8, s.keyWord 1)] s.time false 0) } }

/-- The end of key programming. -/
def State.keyDone (s : State) (l : LcsOp) (good : Bool) : State :=
  let s := if good then l.words.foldl (fun s w => s.orWord w.1 w.2) s
    else l.words.foldl (fun s w =>
      let (a, s) := s.fresh
      let (b, s) := s.fresh
      s.orWord w.1 (w.2 &&& (Config.freeWord a ++ Config.freeWord b))) s
  let s := (s.setBit F.LCS_KEYPROG_BUSY false).setFld F.LCS_KEYPROG_RESULT (if good then 1 else 5)
  let s := (List.range 4).foldl (fun s i => s.wr R.LCS_KEYDATAi 0 i) s
  let s := (s.setBit F.LCS_STATE_KDP (s.keyPresent false)).setBit F.LCS_STATE_KMP (s.keyPresent true)
  s.irq Pg.lcs 4

/-- LCS_PROGRAMMING_END: the words have been programmed and read back, and 1 µs after a good transition the chip reset
comes (R481, R483). -/
def State.lcsEnd (s : State) (good : Bool) (w : CastOnWorld) : State :=
  match s.chip.lcs with
  | none => s
  | some l =>
    let flcBusy : Bool := match s.flc.op with
      | some o => o.cmd == 8
      | none => false
    let ready := otpTicks * l.words.length + if l.trans && good then usTicks else 0
    if flcBusy = true ∨ s.since l.since < ready then s
    else
      let s := { s with chip := { s.chip with lcs := none } }
      if ¬ l.trans then s.keyDone l good
      else if good then (l.words.foldl (fun s w => s.orWord w.1 w.2) s).chipReset 3 w
      else s.transRefused l.target 6

-- registers as they read (R491)

/-- Full access through the Transom, or only LCS and SEC (R487). -/
def State.transomOpen (s : State) : Bool :=
  let st := s.fld F.LCS_STATE_STATE
  st ≤ 1 || (st == 2 && s.transomMaker) || (st == 4 && s.flag F.LCS_STATE_ERASED)
def State.transomRestricted (s : State) : Bool := s.fld F.LCS_STATE_STATE == 2 && !s.transomMaker

/-- LCS_DBG. -/
def State.lcsDbg (s : State) : Word :=
  BitVec.ofNat 32 (s.transomMaker.toNat * 4 + s.transomRestricted.toNat * 2 + s.transomOpen.toNat)

end Sys2Proof.Machine
end

