-- ==== Sys2Proof/Machine/SeqCore.lean ====
section
/-! DEFINITION. The sequencer's threads (04): where a thread stands, when it is ready, which thread takes the issue
slot, and the SEQ_Tn registers that show it. -/

namespace Sys2Proof.Machine

/-- Where the next entry of a thread stands (R89). -/
inductive Place
  | ring | list | trap
  deriving DecidableEq, Repr

/-- Where the next entry of the thread of queue `q` stands. -/
def State.spot (s : State) (q : QNum) : Place :=
  if (s.thr q).trap.isSome then .trap else if (s.thr q).levels.isEmpty then .ring else .list

/-- Address of the next list entry, of the trap list while it runs. -/
def State.listPc (s : State) (q : QNum) : Nat :=
  match (s.thr q).trap with
  | some r => r.pc
  | none => (s.thr q).pc

/-- An entry that lies outside the flash window and working RAM (R102). -/
def offMemory (a : Nat) : Bool := !(inWram a 16 || inFlash a 16)

/-- The next entry of a list or trap list, once it is there: working RAM is read when it issues, a flash entry has
been fetched. -/
def State.listEntry (s : State) (q : QNum) : Option Entry :=
  let a := s.listPc q
  if inWram a 16 then some (s.entryAt a)
  else match (s.thr q).fetched with
    | some (b, e) => if a = b ∧ inFlash a 16 then some e else none
    | none => none

/-- The entry at NEXT, if it lies before the TAIL presented to the thread and no block has cancelled it. -/
def State.ringNext (s : State) (q : QNum) : Option Entry :=
  let x := s.q q
  if x.next = x.pres ∨ x.cancelled.any (fun c => c.1 == x.next) then none else some (s.ringEntry q x.next)

/-- The next entry of a thread. -/
def State.nextEntry (s : State) (q : QNum) : Option Entry :=
  match s.spot q with
  | .ring => s.ringNext q
  | _ => s.listEntry q

/-- Commands that wait for media order: FEED, CUT, WAIT_MEDIA and the media selectors of IF_STATE (R89, R91). -/
def Entry.mediaOrdered (e : Entry) : Bool :=
  (0x20 ≤ e.opc && e.opc ≤ 0x22) || (e.opc == 0x44 && 1 ≤ e.sp % 256 && e.sp % 256 ≤ 4)

/-- No line committed by a PRINT of the queue is left to fire, and none is in progress (R91, 03 R67).
DEDUCED, log entry 134. -/
def State.linesDone (s : State) (q : QNum) : Bool :=
  (List.finRange 4).all fun p => ((s.lines p).all fun l => l.q != q) && (s.hpP p).cur.all fun c => c.line.q != q

/-- An entry that is there, or one that lies outside the memories and completes BAD_COMMAND (R102). -/
def State.entryThere (s : State) (q : QNum) : Bool :=
  match s.nextEntry q with
  | some e => !e.mediaOrdered || s.linesDone q
  | none => s.spot q != .ring && offMemory (s.listPc q)

/-- TAIL covers both slots of a KEYED (R114). -/
def State.pairThere (s : State) (q : QNum) : Bool :=
  match s.ringNext q with
  | some e => e.slots ≤ ((s.q q).pres - (s.q q).next).toNat
  | none => true

/-- The thread is ready to issue (R90, R91, R119). DEDUCED, log entry 135. -/
def State.seqReady (s : State) (q : QNum) : Bool :=
  let t := s.thr q
  s.running Pg.seq &&
  match s.spot q with
  | .trap => s.entryThere q
  | .list => t.trapDue || ((s.q q).mode == .run && t.wait == .none && (s.q q).live < 8 && !s.callLeft q &&
      s.slotFree q && s.entryThere q)
  | .ring => t.trapDue || ((s.q q).mode == .run && t.wait == .none && (s.q q).live < 8 && !s.callLeft q &&
      s.slotFree q && s.pairThere q && s.entryThere q)

/-- The priority at which a thread issues (03 R55, R119). -/
def State.seqPrio (s : State) (q : QNum) : Fin 4 :=
  if (s.thr q).trapDue || (s.thr q).trap.isSome then 3 else Fin.ofNat 4 (s.fld F.QMG_Qn_CFG_PRIO q.val)

/-- Threads that may take this issue slot: those passed over 8 times if there are any, of the highest priority among
them (03 R55). -/
def State.seqPool (s : State) : List QNum :=
  let ready := (List.finRange 16).filter s.seqReady
  let late := ready.filter fun q => 8 ≤ (s.thr q).passed
  let pool := if late.isEmpty then ready else late
  pool.filter fun q => pool.all fun o => (s.seqPrio o).val ≤ (s.seqPrio q).val

/-- Distance of a thread after the one that issued last at its priority. DESIGN CHOICE, log entry 164. -/
def State.seqTurn (s : State) (q : QNum) : Nat :=
  match s.seq.lastAt[s.seqPrio q] with
  | some l => (q.val + 15 - l.val) % 16
  | none => q.val

/-- The thread that takes the issue slot (03 R55). -/
def State.seqPick (s : State) : Option QNum :=
  let pool := s.seqPool
  pool.find? fun q => pool.all fun o => s.seqTurn q ≤ s.seqTurn o

/-- Thread `q` takes the issue slot; ready threads of lower priority are passed over. -/
def State.tookSlot (s : State) (q : QNum) : State :=
  let below := (List.finRange 16).filter fun o => s.seqReady o && decide ((s.seqPrio o).val < (s.seqPrio q).val)
  let pr := s.seqPrio q
  let s := below.foldl (fun s o => s.modThr o fun t => { t with passed := t.passed + 1 }) s
  let s := s.modThr q fun t => { t with passed := 0 }
  { s with seq := { s.seq with lastAt := s.seq.lastAt.set pr (some q) } }

/-- A well-formed entry with opcode `op` that the thread may issue now. DEDUCED, log entry 94. -/
def State.issuing (s : State) (q : QNum) (op : Nat) : Option Entry :=
  if s.seqPick = some q ∧ ¬ (s.thr q).trapDue then
    match s.nextEntry q with
    | some e => if e.opc = op ∧ e.malformed = none then some e else none
    | none => none
  else none

-- registers that show a thread (R121, R122)

/-- SEQ_Tn_STAT.STATE. DESIGN CHOICE, log entry 98; DEDUCED, log entry 138. -/
def State.thrState (s : State) (q : QNum) : Nat :=
  let t := s.thr q
  let x := s.q q
  let media : Bool := match s.nextEntry q with
    | some e => e.mediaOrdered && !s.linesDone q
    | none => false
  let entry : Nat := if media then 4 else if s.entryThere q then 1 else 0
  if t.fresh ∧ x.mode = .off then 0
  else if t.trap.isSome then (if t.retry.isSome then 7 else entry)
  else if x.mode ≠ .run then 0xA
  else match t.wait with
    | .outcome _ => 5
    | .event _ _ => 6
    | .commit _ => 8
    | .none =>
      if t.retry.isSome then 7
      else if s.callLeft q then 5
      else if s.slotWait q ∨ (s.spot q = .list ∧ ¬ s.slotFree q ∧ s.entryThere q) then 2
      else if 8 ≤ x.live then 3
      else if t.levels.isEmpty ∧ ¬ s.pairThere q then 9
      else entry

/-- SEQ_Tn_STAT. -/
def State.thrStat (s : State) (q : QNum) : Word :=
  let t := s.thr q
  BitVec.ofNat 32 (t.timedOut.toNat * 512 + (!t.levels.isEmpty).toNat * 256 + t.trap.isSome.toNat * 128 +
    t.levels.length * 16 + s.thrState q)

/-- SEQ_Tn_PC. -/
def State.thrPc (s : State) (q : QNum) : Word :=
  if (s.thr q).fresh ∧ (s.q q).mode = .off then 0
  else BitVec.ofNat 32 (if s.spot q = .ring then s.ringAddr q (s.q q).next else s.listPc q)

/-- The loop counter of the current level (R104). -/
def Thread.loopCtr (t : Thread) : LoopCtr :=
  match t.trap with
  | some r => r.loop
  | none => match t.levels with
    | l :: _ => l.loop
    | [] => {}

/-- SEQ_Tn_LOOP. -/
def State.thrLoop (s : State) (q : QNum) : Word :=
  let l := (s.thr q).loopCtr
  BitVec.ofNat 32 (l.active.toNat * 65536 + l.remain)

/-- SEQ_Tn_TRAPSTAT. -/
def State.thrTrapStat (s : State) (q : QNum) : Word :=
  let t := s.thr q
  BitVec.ofNat 32 (t.trapResult.toNat * 256 + t.trapPend.toNat * 2 + t.trap.isSome.toNat)

-- events (R109 to R111)

/-- The condition of a WAIT_EVENT holds. DEDUCED, log entry 102. -/
def Entry.eventMet (e : Entry) (ev : Word) : Bool :=
  if e.flags % 2 = 1 then ev &&& e.w1 == e.w1 else ev &&& e.w1 != 0

/-- A satisfied WAIT_EVENT completes; CONSUME clears the bits of its MASK. -/
def State.eventTaken (s : State) (q : QNum) (uid : Nat) (e : Entry) : State :=
  let s := s.modThr q fun t => { t with timedOut := false }
  let s := if e.flags / 2 % 2 = 1 then { s with seq := { s.seq with event := s.seq.event &&& ~~~e.w1 } } else s
  s.finish q uid St.ok

/-- Waiting threads are evaluated, highest queue priority first and then lowest queue number (R111). -/
def State.eventEval (s : State) : State :=
  if ¬ s.working Pg.seq then s
  else
    let order := [3, 2, 1, 0].flatMap fun p => (List.finRange 16).filter fun q => s.fld F.QMG_Qn_CFG_PRIO q.val == p
    order.foldl (fun s q =>
      match (s.thr q).wait with
      | .event uid _ =>
        match s.liveCmd q uid with
        | some c => if c.e.eventMet s.seq.event then s.eventTaken q uid c.e else s
        | none => s
      | _ => s) s

def State.setEvent (s : State) (v : Word) : State := { s with seq := { s.seq with event := v } }

/-- SEQ_EVENT_SET and SEQ_EVENT_CLR. -/
def State.eventSet (s : State) (bits : Word) : State := (s.setEvent (s.seq.event ||| bits)).eventEval
def State.eventClr (s : State) (bits : Word) : State := (s.setEvent (s.seq.event &&& ~~~bits)).eventEval

/-- SIGNAL PULSE: the bits that were 0 are set for the evaluation only. -/
def State.eventPulse (s : State) (bits : Word) : State :=
  let up := bits &&& ~~~s.seq.event
  let s := (s.setEvent (s.seq.event ||| bits)).eventEval
  s.setEvent (s.seq.event &&& ~~~up)

/-- BTC_INVALIDATE (R116). -/
def State.btcEmpty (s : State) : State := { s with seq := { s.seq with btc := [] } }

end Sys2Proof.Machine
end

