-- ==== Sys2Proof/Machine/RegRead.lean ====
section
/-! DEFINITION. Reading the register pages (02 R32 to R51): the common header, the registers that show a block's typed
state, and what a read removes. Every other register reads as the register store holds it. -/

namespace Sys2Proof.Machine

-- finding a register

/-- Two registers of the table are the same one. -/
def Reg.is (r x : Reg) : Bool := r.base == x.base

/-- Copy (i, j) of `r` that lies at an address. -/
def Reg.at? (r : Reg) (a : Nat) : Option (Nat × Nat) :=
  let d := a - r.base
  let i := if r.s1 = 0 then 0 else d / r.s1
  let e := d - i * r.s1
  let j := if r.s2 = 0 then 0 else e / r.s2
  if r.base ≤ a ∧ i < r.c1 ∧ j < r.c2 ∧ e = j * r.s2 then some (i, j) else none

/-- The register of a list at an address, with its copy. -/
def findReg (l : List Reg) (a : Nat) : Option (Reg × Nat × Nat) :=
  l.findSome? fun r => (r.at? a).map fun c => (r, c)

/-- The block-specific registers of a page. -/
def pageRegs (pg : PageIx) : List Reg :=
  match blk pg with
  | .fixed => if pg = Pg.sys then regsSYS else if pg = Pg.lcs then regsLCS else regsFCC
  | .qmg => regsQMG | .seq => regsSEQ | .rnd => regsRND | .skn => regsSKN | .hhe => regsHHE | .hp _ => regsHP
  | .sba => regsSBA | .ehm => regsEHM | .moc => regsMOC | .ax _ => regsAX | .qe _ => regsQE | .adc => regsADC
  | .adt => regsADT | .med => regsMED | .csi => regsCSI | .vp _ => regsVP | .ic => regsIC | .flc => regsFLC
  | .csl => regsCSL | .sec => regsSEC | .ua _ => regsUA | .spt => regsSPT

-- the header (R33 to R42)

/-- PG_ID.TYPE and INST. -/
def pageType (pg : PageIx) : Nat × Nat :=
  match blk pg with
  | .fixed => (pg.val + 1, 0)
  | .qmg => (4, 0) | .seq => (5, 0) | .rnd => (6, 0) | .skn => (7, 0) | .hhe => (8, 0) | .hp p => (9, p.val)
  | .sba => (0xA, 0) | .ehm => (0xB, 0) | .moc => (0xC, 0) | .ax a => (0xD, a.val) | .qe e => (0xE, e.val)
  | .adc => (0xF, 0) | .adt => (0x10, 0) | .med => (0x11, 0) | .csi => (0x12, 0) | .vp v => (0x13, v.val)
  | .ic => (0x14, 0) | .flc => (0x15, 0) | .csl => (0x16, 0) | .sec => (0x17, 0) | .ua u => (0x18, u.val)
  | .spt => (0x19, 0)

/-- PG_STAT.STATE (R35). -/
def BlockSt.code : BlockSt → Nat
  | .off => 0
  | .run => 1
  | .draining => 2
  | .disabled => 3
  | .resetting => 4

/-- PG_COMMIT (R42). -/
def PageSt.commitWord (p : PageSt) : Word :=
  BitVec.ofNat 32 (p.actTag.toNat * 2 ^ 24 + p.rej.toNat * 2 ^ 18 + p.merged.toNat * 2 ^ 17 + p.pend.toNat * 2 ^ 16 +
    p.tag.toNat * 256)

/-- A header register by its offset. -/
def State.headerWord (s : State) (pg : PageIx) (off : Nat) : Word :=
  let p := s.page pg
  match off with
  | 0x00 => BitVec.ofNat 32 ((pageType pg).1 * 2 ^ 24 + (pageType pg).2 * 2 ^ 16 + 0xB000)
  | 0x04 => BitVec.ofNat 32 (p.drainAck.toNat * 4 + (p.st == .resetting).toNat * 2 + p.en.toNat)
  | 0x08 => BitVec.ofNat 32 ((s.fltStat pg != 0).toNat * 16 + p.st.code)
  | 0x0C => p.irqStat
  | 0x10 => p.irqEn
  | 0x18 => s.fltStat pg
  | 0x1C => p.commitWord
  | _ => 0

-- derived words

/-- SKN_BANDb (05 R147). -/
def Band.word (x : Band) : Word :=
  match x.st with
  | .free => 0
  | .compose => BitVec.ofNat 32 (x.fired % 64 * 65536 + (x.committed == 64).toNat * 32768 + x.committed * 256 +
      x.port.val * 16 + x.slot.val * 4 + 1)
  | .committed => BitVec.ofNat 32 (x.fired % 64 * 65536 + (x.committed == 64).toNat * 32768 + x.committed * 256 +
      x.port.val * 16 + 2)

/-- Bands of a port, in COMPOSE only or in all (05 R147). -/
def State.bandsHeld (s : State) (p : Port) (compose : Bool) : Nat :=
  ((List.finRange 128).filter fun b =>
    (s.band b).port == p && (if compose then (s.band b).st == .compose else (s.band b).st != .free)).length

def portBits (f : Port → Bool) : Nat := bitWord ((List.finRange 4).map f)

/-- RND_STAT (05 R146). -/
def State.rndStat (s : State) : Word :=
  let wflash (p : Port) : Bool := match s.steps p with
    | x :: _ => x.retry.isSome
    | [] => false
  BitVec.ofNat 32 (s.rnd.dirChk.isSome.toNat * 4096 + portBits wflash * 256 +
    portBits (fun p => s.skn.waits.any fun w => w.port == p) * 16 + s.rnd.dirValid.toNat)

/-- SKN_FREE and SKN_WAIT (05 R147). -/
def State.sknFree (s : State) : Word :=
  BitVec.ofNat 32 ((s.freeRes 3).length * 2 ^ 20 + (s.freeRes 2).length * 2 ^ 16 + (s.freeRes 1).length * 2 ^ 12 +
    (s.freeRes 0).length * 2 ^ 8 + s.freePool.length)
def State.sknWait (s : State) : Word :=
  BitVec.ofNat 32 (((s.skn.waits.head?.map fun w => w.port.val).getD 0) * 4096 +
    portBits (fun p => s.skn.waits.any fun w => w.port == p && w.aged) * 16 +
    portBits (fun p => s.skn.waits.any fun w => w.port == p))

/-- The entry of the element window that a requester has selected (09 R239). -/
def State.ewSel (s : State) (rq : Requester) : Word :=
  ((s.ehm.sel.find? fun (x : Requester × Word) => x.1 == rq).map (·.2)).getD 0

/-- Half `h` of the selected entry; an ELEM above 6143 reads as 0. -/
def State.ewWord (s : State) (rq : Requester) (h : Nat) : Word :=
  let v := s.ewSel rq
  if wbits v 0 13 > 6143 then 0 else s.word (elemAddr (Fin.ofNat 4 (wbits v 16 2)) (wbits v 0 13) + 4 * h)

/-- FLC_PWDSTAT (14 R373). -/
def State.pwdStat (s : State) : Word :=
  BitVec.ofNat 32 (s.flc.blocked.toNat * 8 + s.flc.fails % 4 * 2 + s.flc.unlocked.toNat)

-- the registers of each page that are not read from the store

def State.sysWord (s : State) (r : Reg) : Word :=
  let up := s.chip.phase == .up
  let rdy := (~~~s.chip.noClk).toNat
  if r.is R.SYS_CLK_STAT then (if up then BitVec.ofNat 32 (rdy % 256 * 4 + 3) else 0)
  else if r.is R.SYS_CLK_STAT2 then (if up then BitVec.ofNat 32 (rdy / 256) else 0)
  else if r.is R.SYS_TIME_LO then s.timeLo
  else if r.is R.SYS_TIME_HI then (s.time >>> 32).setWidth 32
  else if r.is R.SYS_IRQ_SUM0 then s.irqSum 0 32
  else if r.is R.SYS_IRQ_SUM1 then s.irqSum 32 12
  else if r.is R.SYS_SWRST then 0
  else s.rd r

/-- Registers of QMG that show its queues (03 R86). -/
def State.qmgWord (s : State) (r : Reg) (i : Nat) : Word :=
  let q : QNum := Fin.ofNat 16 i
  let x := s.q q
  if r.is R.QMG_CMPL_PEND then s.cmplPend
  else if r.is R.QMG_HALTED then s.haltedWord
  else if r.is R.QMG_Qn_DB then x.tail.setWidth 32
  else if r.is R.QMG_Qn_HEAD then x.next ++ x.head
  else if r.is R.QMG_Qn_CREDIT then BitVec.ofNat 32 (s.credit q)
  else if r.is R.QMG_Qn_CWR then BitVec.ofNat 32 (x.phase.toNat * 65536 + x.cwr.toNat)
  else if r.is R.QMG_Qn_CRD then x.crd.setWidth 32
  else if r.is R.QMG_Qn_STAT then BitVec.ofNat 32 (x.hidx.toNat * 65536 + x.hstat.toNat * 256 + s.qState q)
  else if r.is R.QMG_Qn_RCMD then 0
  else if r.is R.QMG_Qn_JOB then BitVec.ofNat 32 (x.retryUsed * 2 ^ 17 + x.jobOpen.toNat * 65536 + x.jobNum.toNat)
  else if r.is R.QMG_Qn_INFL then BitVec.ofNat 32 x.live
  else s.rd r i

def State.seqWord (s : State) (r : Reg) (i : Nat) : Word :=
  let q : QNum := Fin.ofNat 16 i
  if r.is R.SEQ_EVENT ∨ r.is R.SEQ_EVENT_SET ∨ r.is R.SEQ_EVENT_CLR then s.seq.event
  else if r.is R.SEQ_Tn_STAT then s.thrStat q
  else if r.is R.SEQ_Tn_PC then s.thrPc q
  else if r.is R.SEQ_Tn_LOOP then s.thrLoop q
  else if r.is R.SEQ_Tn_TRAPSTAT then s.thrTrapStat q
  else s.rd r i

def State.rndWord (s : State) (r : Reg) (i : Nat) : Word :=
  let p : Port := Fin.ofNat 4 i
  if r.is R.RND_STAT then s.rndStat
  else if r.is R.RND_DIRINFO then BitVec.ofNat 32 (s.rnd.nLogo * 65536 + s.rnd.nAtlas)
  else if r.is R.RND_Pp_AREA then BitVec.ofNat 32 (s.area p * 65536 + s.skn.o[p])
  else s.rd r i

def State.sknWord (s : State) (r : Reg) (i : Nat) : Word :=
  let p : Port := Fin.ofNat 4 i
  if r.is R.SKN_FREE then s.sknFree
  else if r.is R.SKN_WAIT then s.sknWait
  else if r.is R.SKN_Pp_HELD then BitVec.ofNat 32 (s.bandsHeld p false * 65536 + s.bandsHeld p true)
  else if r.is R.SKN_Pp_LINES then BitVec.ofNat 32 (s.linesLeft p)
  else if r.is R.SKN_BANDb then (s.band (Fin.ofNat 128 i)).word
  else s.rd r i

def State.hheWord (s : State) (r : Reg) (i j : Nat) : Word :=
  let p : Port := Fin.ofNat 4 i
  if r.is R.HHE_LOAD then s.rd r ||| BitVec.ofNat 32 s.hheLoad
  else if r.is R.HHE_Pp_STAT then
    s.rd r i ||| BitVec.ofNat 32 (((s.hheP p).ring.filter fun x => !x.fired).length * 16 + s.hheState p)
  else s.rd r i j

def State.hpWord (s : State) (r : Reg) (p : Port) : Word :=
  if r.is R.HPn_ESYNC then 0
  else if r.is R.HPn_SHUT then s.hpShutWord p
  else if r.is R.HPn_STAT then s.hpStatWord p
  else if r.is R.HPn_NEXTTRIG then ((s.hpP p).trigAt >>> 16).setWidth 32
  else s.rd r p.val

def State.sbaWord (s : State) (r : Reg) (i : Nat) : Word :=
  let p : Port := Fin.ofNat 4 i
  if r.is R.SBA_ISUM then s.rd r ||| BitVec.ofNat 32 s.isumNow
  else if r.is R.SBA_GVp_STAT then BitVec.ofNat 32 (s.govPeriod p % 2 ^ 24 * 256 + s.govState p)
  else if r.is R.SBA_Pp_EWIN then BitVec.ofNat 32 (s.ewin p)
  else s.rd r i

def State.ehmWord (s : State) (rq : Requester) (r : Reg) (i : Nat) : Word :=
  let p : Port := Fin.ofNat 4 i
  if r.is R.EHM_EWSEL then s.ewSel rq
  else if r.is R.EHM_EW_LO then s.ewWord rq 0
  else if r.is R.EHM_EW_HI then s.ewWord rq 1
  else if r.is R.EHM_RSTSTAT then s.rd r ||| BitVec.ofNat 32 (s.ehm.restore.isSome.toNat * 8192)
  else if r.is R.EHM_Pp_STAT then s.ehmStat p
  else if r.is R.EHM_Pp_CNT then s.ehmCnt p
  else if r.is R.EHM_Pp_PRIO then 0
  else s.rd r i

def State.mocWord (s : State) (r : Reg) (i : Nat) : Word :=
  if r.is R.MOC_BUSY then
    BitVec.ofNat 32 (bitWord ((List.finRange 8).map s.axBusy) * 256 +
      bitWord ((List.finRange 8).map fun a => (s.axS a).v != 0))
  else if r.is R.MOC_PORTp_FPOS then s.feedPos (Fin.ofNat 4 i)
  else s.rd r i

def State.axWord (s : State) (r : Reg) (a : AxNum) (j : Nat) : Word :=
  let x := s.axS a
  if r.is R.AXn_CMD then 0
  else if r.is R.AXn_VEL then BitVec.ofNat 32 ((x.neg && x.v != 0).toNat * 2 ^ 31 + x.speed)
  else if r.is R.AXn_BUDGET then BitVec.ofNat 32 x.budget
  else if r.is R.AXn_STAT then s.axStat a
  else s.rd r a.val j

def State.adcWord (s : State) (r : Reg) (i : Nat) : Word :=
  let sel := s.calOf (s.fld F.ADC_CALSEL_SLICE) (s.fld F.ADC_CALSEL_GAIN)
  if r.is R.ADC_STAT then s.adcStat
  else if r.is R.ADC_SLMAP then s.slmap
  else if r.is R.ADC_FIFO_LO then ((s.adc.fifo.head?.map (·.1)).getD 0)
  else if r.is R.ADC_FIFO_HI then ((s.adc.fifo.head?.map (·.2)).getD 0x00FC0000)
  else if r.is R.ADC_FIFO_LVL then s.rd r ||| BitVec.ofNat 32 s.adc.fifo.length
  else if r.is R.ADC_CALOFS then BitVec.ofInt 32 sel.1
  else if r.is R.ADC_CALGC then BitVec.ofNat 32 sel.2
  else s.rd r i

def State.medRegWord (s : State) (r : Reg) (i : Nat) : Word :=
  let u : UnitNum := Fin.ofNat 8 i
  if (r.is R.MED_GPI ∨ r.is R.MED_PSTATp) ∧ s.med.blank then 0
  else if r.is R.MED_PSTATp then s.pstat (Fin.ofNat 4 i)
  else if r.is R.MED_Uu_LVL then s.medLvl u
  else if r.is R.MED_Uu_BASE then s.rd r i ||| BitVec.ofNat 32 (lowBits 16 (s.unit u).b)
  else if r.is R.MED_Uu_STAT then s.medStat u
  else s.rd r i

def State.vpWord (s : State) (r : Reg) (v : VpNum) (j : Nat) : Word :=
  if r.is R.VPn_SNAPDATA then s.snapWord v
  else if r.is R.VPn_STAT then s.vpStat v
  else s.rd r v.val j

def State.flcWord (s : State) (r : Reg) (i : Nat) : Word :=
  if r.is R.FLC_STAT then s.flcStat
  else if r.is R.FLC_CYC then BitVec.ofNat 32 (s.cyclesOf (s.fld F.FLC_CYCSEL_SECTOR))
  else if r.is R.FLC_WOWN then BitVec.ofNat 32 (ownerCode s.flc.owner)
  else if r.is R.FLC_PWD_LO ∨ r.is R.FLC_PWD_HI then 0
  else if r.is R.FLC_PWDSTAT then s.pwdStat
  else s.rd r i

def State.secWord (s : State) (r : Reg) (i j : Nat) : Word :=
  if r.is R.SEC_SSs_STAT then s.sessStat (Fin.ofNat 8 i)
  else if r.is R.SEC_SSs_LAST then (s.sess (Fin.ofNat 8 i)).last
  else s.rd r i j

def State.uaWord (s : State) (r : Reg) (u : UaNum) : Word :=
  if r.is R.UAn_DATA then (s.uaRead u).2
  else if r.is R.UAn_LVL then s.uaLvl u
  else if r.is R.UAn_STAT then s.uaStat u
  else s.rd r u.val

def State.fccWord (s : State) (r : Reg) (i : Nat) : Word :=
  if r.is R.FCC_PENDj then idBits i s.idPend
  else if r.is R.FCC_INJj then idBits i fun id => (sourcesOf id).any s.sourceInj
  else if r.is R.FCC_FER_CLR ∨ r.is R.FCC_FORCEj then 0
  else s.rd r i

def State.lcsWord (s : State) (r : Reg) (i : Nat) : Word :=
  if r.is R.LCS_DBG then s.lcsDbg
  else if r.is R.LCS_TRANS ∨ r.is R.LCS_OWNTRANS ∨ r.is R.LCS_KEYDATAi then 0
  else s.rd r i

/-- What copy (i, j) of a register reads as for a requester. -/
def State.regWord (s : State) (rq : Requester) (pg : PageIx) (r : Reg) (i j : Nat) : Word :=
  match blk pg with
  | .fixed => if pg = Pg.sys then s.sysWord r else if pg = Pg.lcs then s.lcsWord r i else s.fccWord r i
  | .qmg => s.qmgWord r i
  | .seq => s.seqWord r i
  | .rnd => s.rndWord r i
  | .skn => s.sknWord r i
  | .hhe => s.hheWord r i j
  | .hp p => s.hpWord r p
  | .sba => s.sbaWord r i
  | .ehm => s.ehmWord rq r i
  | .moc => s.mocWord r i
  | .ax a => s.axWord r a j
  | .qe e => s.rd r e.val
  | .adc => s.adcWord r i
  | .adt => s.rd r i
  | .med => s.medRegWord r i
  | .csi => if r.is R.CSI_STAT then s.csiStat else s.rd r i
  | .vp v => s.vpWord r v j
  | .ic => if r.is R.ICk_STAT then s.icStat (Fin.ofNat 2 i) else if r.is R.ICk_CMD then 0 else s.rd r i j
  | .flc => s.flcWord r i
  | .csl => if r.is R.CSL_STAT then s.cslStat else s.rd r i
  | .sec => s.secWord r i j
  | .ua u => s.uaWord r u
  | .spt => if r.is R.SPT_STAT then BitVec.ofNat 32 (s.spt.mode3.toNat * 2 + s.spt.active.toNat) else s.rd r i

-- snapshot slots (R46, R47)

/-- What a requester's slot holds. -/
def State.snapOf (s : State) (rq : Requester) : Option Snap := (s.bus.snaps.find? fun x => x.1 == rq).map (·.2)

def State.setSnap (s : State) (rq : Requester) (x : Option Snap) : State :=
  let rest := s.bus.snaps.filter fun y => y.1 != rq
  { s with bus := { s.bus with snaps := match x with
    | some v => (rq, v) :: rest
    | none => rest } }

/-- The _LO halves of the pairs; the _HI half lies 4 bytes above. -/
def pairRegs : List Reg :=
  [R.SYS_TIME_LO, R.QEn_POS_LO, R.ADC_FIFO_LO, R.ADC_LASTc_LO, R.EHM_EW_LO, R.FLC_PWD_LO, R.SEC_MBm_TAG_LO,
   R.FCC_FER_TIME_LO]

/-- The _HI half of a pair, by its _LO half. -/
def Reg.hiHalf (r : Reg) : Option Reg :=
  if r.is R.SYS_TIME_LO then some R.SYS_TIME_HI
  else if r.is R.QEn_POS_LO then some R.QEn_POS_HI
  else if r.is R.ADC_FIFO_LO then some R.ADC_FIFO_HI
  else if r.is R.ADC_LASTc_LO then some R.ADC_LASTc_HI
  else if r.is R.EHM_EW_LO then some R.EHM_EW_HI
  else if r.is R.FLC_PWD_LO then some R.FLC_PWD_HI
  else if r.is R.SEC_MBm_TAG_LO then some R.SEC_MBm_TAG_HI
  else if r.is R.FCC_FER_TIME_LO then some R.FCC_FER_TIME_HI
  else none

/-- The register is the _HI half of a pair. -/
def Reg.isHi (r : Reg) : Bool :=
  pairRegs.any fun l => match l.hiHalf with
    | some h => r.is h
    | none => false

/-- What a read removes: a FIFO entry, a received character, four snapshot pixels. -/
def State.readTakes (s : State) (pg : PageIx) (r : Reg) : State :=
  match blk pg with
  | .adc => if r.is R.ADC_FIFO_LO then s.fifoPop.2 else s
  | .ua u => if r.is R.UAn_DATA then (s.uaRead u).1 else s
  | .vp v => if r.is R.VPn_SNAPDATA then s.snapNext v else s
  | _ => s

/-- A read of a register page at a decoded, aligned address: reserved offsets read 0 (00 R9), a _LO half stores its
_HI half in the requester's slot, and a _HI half comes from the slot if it holds that pair (R46). -/
def State.regRead (s : State) (rq : Requester) (a : Nat) : State × Word :=
  match pageOf a with
  | none => (s, 0)
  | some pg =>
    let off := a - pageBase pg
    if off < 0x40 then (s, s.headerWord pg off)
    else match findReg (pageRegs pg) a with
      | none => (s, 0)
      | some (r, i, j) =>
        let v := s.regWord rq pg r i j
        match r.hiHalf with
        | some h =>
          let hv := s.regWord rq pg h i j
          ((s.readTakes pg r).setSnap rq (some (.hi (a + 4) hv)), v)
        | none =>
          if r.isHi then
            match s.snapOf rq with
            | some (.hi b hv) => if b = a then (s.setSnap rq none, hv) else (s, v)
            | _ => (s, v)
          else (s.readTakes pg r, v)

end Sys2Proof.Machine
end

