-- ==== Sys2Proof/Machine/RegWrite.lean ====
section
/-! DEFINITION. Writing the register pages (00 R7 to R9, 02 R32 to R49): what a write does once it has reached its
block, by the access types of the register and by the rules that give a register an effect of its own. -/

namespace Sys2Proof.Machine

-- access types (00 R7, R8)

/-- Bits that a write replaces. -/
def Reg.plain (r : Reg) (keyed : Bool) : Nat := r.rw ||| r.rws ||| (if keyed then r.kw else 0)

/-- The register after a write of `v` by its access types. -/
def Reg.merge (r : Reg) (keyed : Bool) (old v : Word) : Word :=
  let m : Word := BitVec.ofNat 32 (r.plain keyed)
  ((old &&& ~~~m) ||| (v &&& m)) &&& ~~~(v &&& BitVec.ofNat 32 r.w1c)

/-- Bits of a write that copy `j` of a register has (00 R9). -/
def Reg.holds (r : Reg) (j : Nat) (v : Word) : Word :=
  if j + 1 = r.c2 then v &&& ~~~BitVec.ofNat 32 r.lastHole else v

/-- A write by access types alone; a SAT counter takes zero only (02 R48). -/
def State.plainWrite (s : State) (keyed : Bool) (r : Reg) (i j : Nat) (v : Word) : State :=
  let v := r.holds j v
  if r.sat then (if v = 0 then s.wr r 0 i j else s)
  else s.wr r (r.merge keyed (s.rd r i j) v) i j

-- the common header (02 R34 to R42)

/-- Bits of PG_IRQ_STAT and PG_IRQ_EN that a page has are below this one; bit 3 is reserved (02 R40).
DEDUCED, log entry 104. -/
def irqTop (pg : PageIx) : Nat :=
  match blk pg with
  | .fixed => if pg = Pg.sys then 4 else if pg = Pg.lcs then 6 else 9
  | .qmg => 8 | .seq => 8 | .rnd => 6 | .skn => 6 | .hhe => 8 | .hp _ => 11 | .sba => 9 | .ehm => 9 | .moc => 5
  | .ax _ => 10 | .qe _ => 6 | .adc => 10 | .adt => 4 | .med => 13 | .csi => 7 | .vp _ => 10 | .ic => 7 | .flc => 9
  | .csl => 11 | .sec => 10 | .ua _ => 11 | .spt => 7

def irqMask (pg : PageIx) : Word := BitVec.ofNat 32 (2 ^ irqTop pg - 1) &&& 0xFFFFFFF7

/-- PG_CTRL: SRST wins over EN (02 R37). -/
def State.ctrlWrite (s : State) (pg : PageIx) (v : Word) : State :=
  let s := if v.getLsbD 2 then s.modPage pg fun x => { x with drainAck := false } else s
  if v.getLsbD 1 ∧ blk pg ≠ .fixed then s.blockSrst pg
  else if v.getLsbD 0 then s.blockEnable pg
  else s.blockDrain pg

/-- PG_COMMIT (02 R42, R43). -/
def State.commitWrite (s : State) (pg : PageIx) (v : Word) : State :=
  if ¬ hasSet pg then s
  else
    let s := s.modPage pg fun x => { x with tag := (v >>> 8).setWidth 8 }
    let s := (setPages pg).foldl (fun s i => s.modPage i fun x =>
      { x with rej := x.rej && !v.getLsbD 18, merged := x.merged && !v.getLsbD 17 }) s
    if v.getLsbD 0 then s.pgCommit pg else s

/-- A write of a header register. -/
def State.headerWrite (s : State) (keyed : Bool) (pg : PageIx) (off : Nat) (v : Word) : State :=
  match off with
  | 0x04 => s.ctrlWrite pg v
  | 0x0C =>
    let s := s.modPage pg fun x => { x with irqStat := x.irqStat &&& ~~~v }
    if pg = Pg.adc then s.fifoThr else s
  | 0x10 => s.modPage pg fun x => { x with irqEn := v &&& irqMask pg }
  | 0x14 => if keyed then s.pgForce pg v else s
  | 0x1C => s.commitWrite pg v
  | _ => s

-- registers with an effect of their own

/-- SYS: SYS_AERR_INFO, SYS_SWRST (02 R51). -/
def State.aerrClear (s : State) (v : Word) : State :=
  if v = 0 then (s.wr R.SYS_AERR_INFO 0).wr R.SYS_AERR_ADDR 0 else s

def State.sysWrite (s : State) (keyed : Bool) (r : Reg) (v : Word) : State :=
  if r.is R.SYS_AERR_INFO then s.aerrClear v
  else if r.is R.SYS_SWRST then
    (if keyed ∧ wbits v 0 8 = 0xA5 then { s with chip := { s.chip with swrst := true } } else s)
  else s.plainWrite keyed r 0 0 v

/-- QMG (03 R56, R75, R79 to R86). DESIGN CHOICE, log entry 192. -/
def State.qmgWrite (s : State) (keyed : Bool) (r : Reg) (i : Nat) (v : Word) : State :=
  let q : QNum := Fin.ofNat 16 i
  if r.is R.QMG_Qn_CFG then (if v.getLsbD 0 then s.queueEnable q v else s.queueDisable q v)
  else if r.is R.QMG_Qn_RING then s.ringWrite q R.QMG_Qn_RING v
  else if r.is R.QMG_Qn_CRING then s.ringWrite q R.QMG_Qn_CRING v
  else if r.is R.QMG_Qn_DB then s.doorbell q (v.setWidth 16)
  else if r.is R.QMG_Qn_CRD then s.crdWrite q (v.setWidth 16)
  else if r.is R.QMG_Qn_RCMD then
    (match wbits v 0 2 with
    | 1 => s.rcmdResume q
    | 2 => s.rcmdSkip q
    | 3 => s.rcmdFlush q
    | _ => s)
  else s.plainWrite keyed r i 0 v

/-- SEQ (04 R109, R116, R121). -/
def State.seqWrite (s : State) (keyed : Bool) (r : Reg) (i : Nat) (v : Word) : State :=
  if r.is R.SEQ_EVENT_SET then s.eventSet v
  else if r.is R.SEQ_EVENT_CLR then s.eventClr v
  else
    let s := s.plainWrite keyed r i 0 v
    if r.is R.SEQ_BTC_CTL ∧ v.getLsbD 0 then s.btcEmpty else s

/-- A configuration write of port `p` in RUN is discarded (06 R171). -/
def State.hheCfgRej (s : State) (p : Port) : State :=
  (s.wr R.HHE_STAT (s.rd R.HHE_STAT ||| BitVec.ofNat 32 (2 ^ p.val))).irq Pg.hhe 7

/-- HHE_Pp_CFG: EN acts at any time; the other bit only while the head port is not in RUN (06 R171).
DEDUCED, log entry 200. -/
def State.hheCfgWrite (s : State) (p : Port) (v : Word) : State :=
  let was := s.rd R.HHE_Pp_CFG p.val
  let differs : Bool := was.getLsbD 1 != v.getLsbD 1
  let s :=
    if ¬ differs then s
    else if s.running (Pg.hp p) then s.hheCfgRej p
    else s.wr R.HHE_Pp_CFG ((was &&& 1) ||| (v &&& 2)) p.val
  if v.getLsbD 0 = was.getLsbD 0 then s
  else if v.getLsbD 0 then s.hhePortEnable p else s.hhePortDisable p

/-- HHE (06 R160, R161, R171). -/
def State.hheWrite (s : State) (keyed : Bool) (r : Reg) (i j : Nat) (v : Word) : State :=
  let p : Port := Fin.ofNat 4 i
  if r.is R.HHE_Pp_CFG then s.hheCfgWrite p v
  else if r.is R.HHE_Pp_PRj_CTL then s.profilePublish p (Fin.ofNat 16 j) v
  else if (r.is R.HHE_Pp_SRC || r.is R.HHE_Pp_VHFS || r.is R.HHE_Pp_RNOM || r.is R.HHE_Pp_DCFG) ∧ s.running (Pg.hp p) then
    s.hheCfgRej p
  else s.plainWrite keyed r i j v

/-- HP (07 R188, R194, R199). DESIGN CHOICE, log entry 201. -/
def State.hpWrite (s : State) (keyed : Bool) (r : Reg) (p : Port) (v : Word) : State :=
  if r.is R.HPn_ESYNC then s.hpEsync p v
  else if r.is R.HPn_SHUT then
    let s := if v.getLsbD 2 then s.shutOpen p else s
    if v.getLsbD 1 then s.shutHost p else s
  else if (r.is R.HPn_CFG || r.is R.HPn_POL || r.is R.HPn_PACE) ∧ s.running (Pg.hp p) then
    (s.setBit F.HPn_ERR_CFGREJ true p.val).irq (Pg.hp p) 10
  else
    let s := s.plainWrite keyed r p.val 0 v
    if r.is R.HPn_CFG then s.headLook p else s

/-- The entry of the element window as its two halves. -/
def State.ewWrite (s : State) (rq : Requester) (lo hi : Word) : State :=
  let v := s.ewSel rq
  if wbits v 0 13 > 6143 then s
  else s.writeElem (Fin.ofNat 4 (wbits v 16 2)) (wbits v 0 13) (natBytes 4 lo.toNat ++ natBytes 4 hi.toNat)

/-- EHM_EWSEL of one requester (09 R239). -/
def State.ewselWrite (s : State) (rq : Requester) (v : Word) : State :=
  let rest := s.ehm.sel.filter fun (x : Requester × Word) => x.1 != rq
  let w := v &&& 0x00031FFF
  { s with ehm := { s.ehm with sel := if w = 0 then rest else (rq, w) :: rest } }

/-- EHM apart from the element window (09 R226, R236 to R240). -/
def State.ehmWrite (s : State) (rq : Requester) (keyed : Bool) (r : Reg) (i : Nat) (v : Word) : State :=
  let p : Port := Fin.ofNat 4 i
  if r.is R.EHM_EWSEL then s.ewselWrite rq v
  else if r.is R.EHM_RSTCTL then (if keyed then s.rstStart v else s)
  else if r.is R.EHM_Pp_PRIO then s.prioAdd p (wbits v 0 13)
  else if r.is R.EHM_Pp_CUR then s.cursorWrite p (wbits v 0 13)
  else if r.is R.EHM_Pp_OPT then (if keyed then s.optWrite p v else s)
  else if r.is R.EHM_Pp_SCAN then
    let old := s.flag F.EHM_Pp_SCAN_EN p.val
    (s.plainWrite keyed r i 0 v).scanWrite p old
  else s.plainWrite keyed r i 0 v

/-- MOC (10 R254, R269). -/
def State.mocWrite (s : State) (keyed : Bool) (r : Reg) (i : Nat) (v : Word) : State :=
  if r.is R.MOC_ESTOP then s.mocEstop (v.setWidth 8)
  else if r.is R.MOC_GO then s.mocGo (v.setWidth 8)
  else s.plainWrite keyed r i 0 v

/-- AX (10 R254, R259, R264, R270). -/
def State.axWrite (s : State) (keyed : Bool) (r : Reg) (a : AxNum) (j : Nat) (v : Word) : State :=
  if r.is R.AXn_CMD then s.axCmdWrite a (wbits v 0 4) (v.getLsbD 8)
  else if (r.is R.AXn_CFG ∧ s.running (Pg.ax a) ∧ ¬ s.axIdle a) ∨ (r.is R.AXn_GEAR ∧ (s.axS a).act = .gear ∧ (s.axS a).stop.isNone) then
    s.axErr a F.AXn_ERR_CFGREJ
  else
    let on := s.encOn a
    let s := s.plainWrite keyed r a.val j v
    if r.is R.AXn_ENC ∧ ¬ on ∧ s.encOn a then s.takeRefs a
    else if r.is R.AXn_HOME then s.homeCheck a
    else s

/-- ADC (11 R280, R285, R297). -/
def State.adcWrite (s : State) (keyed : Bool) (r : Reg) (i : Nat) (v : Word) : State :=
  if r.is R.ADC_START then (if v.getLsbD 0 then s.adcStart else s)
  else
    let s := s.plainWrite keyed r i 0 v
    if r.is R.ADC_FIFO_LVL then s.fifoThr else s

/-- MED (12 R308, R316). -/
def State.medWrite (s : State) (keyed : Bool) (r : Reg) (i : Nat) (v : Word) : State :=
  if r.is R.MED_CALSTART then s.medCalstart (v.setWidth 8)
  else if r.is R.MED_Uu_CFG then
    let old := s.rd R.MED_Uu_CFG i
    (s.plainWrite keyed r i 0 v).unitCfg (Fin.ofNat 8 i) old
  else
    let s := s.plainWrite keyed r i 0 v
    if r.is R.MED_PORTp ∨ r.is R.MED_Uu_LIM then s.medPorts else s

/-- CSI: EN = 1 of a channel is refused for sizes out of range (13 R320); CSI_CFG holds in RUN (R341). DEDUCED, log
entry 106. DEDUCED, log entry 106. -/
def State.csiWrite (s : State) (keyed : Bool) (r : Reg) (i : Nat) (v : Word) : State :=
  let v := if r.is R.CSI_VCv_CFG ∧ v.getLsbD 31 ∧ ¬ cfgOk v then v &&& 0x7FFFFFFF else v
  if r.is R.CSI_CFG ∧ s.running Pg.csi then s else s.plainWrite keyed r i 0 v

/-- VP (13 R327, R326, R342). DEDUCED, log entry 105. -/
def State.vpWrite (s : State) (keyed : Bool) (r : Reg) (v : VpNum) (j : Nat) (w : Word) : State :=
  if (r.is R.VPn_BIND || r.is R.VPn_Cx_CFG) ∧ s.running (Pg.vp v) then
    (s.setBit F.VPn_BIND_CFGREJ true v.val).irq (Pg.vp v) 8
  else if r.is R.VPn_STATCTL ∧ ¬ w.getLsbD 0 ∧ s.flag F.VPn_STATCTL_HOLD v.val then s.statsRelease v
  else
    let s := s.plainWrite keyed r v.val j w
    if r.is R.VPn_SNAPCTL ∧ w.getLsbD 0 then s.snapArm v else s

/-- ICx (13 R330, R344). -/
def State.icWrite (s : State) (keyed : Bool) (r : Reg) (i j : Nat) (v : Word) : State :=
  let k : Fin 2 := Fin.ofNat 2 i
  if r.is R.ICk_CMD then s.i2cStart k v
  else if r.is R.ICk_CFG ∧ ((s.icS k).busy ∨ (s.icS k).pend) then s
  else s.plainWrite keyed r i j v

/-- FLC_PWDSTAT.RELOCK (14 R367). -/
def State.passwordRelock (s : State) : State := { s with flc := { s.flc with unlocked := false } }

/-- The password pair (14 R367). DEDUCED, log entry 107. -/
def State.pwdWrite (s : State) (lo hi : Word) : State :=
  ((s.wr R.FLC_PWD_LO lo).wr R.FLC_PWD_HI hi).passwordCheck lo hi

/-- FLC apart from the password pair (14 R356, R357, R363 to R368). -/
def State.flcWrite (s : State) (rq : Requester) (keyed : Bool) (r : Reg) (i : Nat) (v : Word) : State :=
  if r.is R.FLC_CMD then (if keyed then s.flcCommand rq v else s)
  else if r.is R.FLC_WCLR then (if v.getLsbD 0 then s.wbufClear else s)
  else if r.is R.FLC_PWDSTAT then (if v.getLsbD 4 then s.passwordRelock else s)
  else if r.is R.FLC_PROTr then (if keyed then s.protWrite (Fin.ofNat 8 i) v else s)
  else if r.is R.FLC_WBUFj then s.wbufWrite rq i v
  else if r.is R.FLC_CFG ∧ s.flc.op.isSome then s.plainWrite false r 0 0 v
  else
    let s := s.plainWrite keyed r i 0 v
    if r.is R.FLC_CORR0 ∧ v = 0 then { s with flc := { s.flc with warned := s.flc.warned.set 0 false } }
    else if r.is R.FLC_CORR1 ∧ v = 0 then { s with flc := { s.flc with warned := s.flc.warned.set 1 false } }
    else s

/-- CSL (15 R376, R401, R402). -/
def State.cslWrite (s : State) (rq : Requester) (keyed : Bool) (r : Reg) (v : Word) : State :=
  if r.is R.CSL_RATE then s.rateWrite (wbits v 0 3) (rq == .csl)
  else if r.is R.CSL_ADDR then s.addrWrite rq v
  else s.plainWrite keyed r 0 0 v

/-- SEC apart from the tag pairs (16 R422, R427, R428). -/
def State.secWrite (s : State) (rq : Requester) (keyed : Bool) (r : Reg) (i j : Nat) (v : Word) : State :=
  let m : Fin 2 := Fin.ofNat 2 i
  let box := r.is R.SEC_MBm_CTL || r.is R.SEC_MBm_DATAi || r.is R.SEC_MBm_CTR
  if r.is R.SEC_CTRL then (if v.getLsbD 0 then s.bootEnd else s)
  else if box ∧ (rq ≠ mailboxRq m ∨ s.flag F.SEC_MBm_CTL_BUSY i) then s
  else
    let s := s.plainWrite keyed r i j v
    if r.is R.SEC_MBm_CTL ∧ v.getLsbD 0 then s.mailboxGo m else s

/-- The tag pair of a mailbox (16 R428). -/
def State.tagWrite (s : State) (rq : Requester) (m : Fin 2) (lo : Option Word) (hi : Word) : State :=
  if rq ≠ mailboxRq m ∨ s.flag F.SEC_MBm_CTL_BUSY m.val then s
  else
    let s := match lo with
      | some l => s.wr R.SEC_MBm_TAG_LO l m.val
      | none => s
    s.wr R.SEC_MBm_TAG_HI hi m.val

/-- UA (17 R436, R438, R444). -/
def State.uaRegWrite (s : State) (keyed : Bool) (r : Reg) (u : UaNum) (v : Word) : State :=
  if r.is R.UAn_DATA then s.uaWrite u v
  else if (r.is R.UAn_CFG || r.is R.UAn_BAUD || r.is R.UAn_RXTHR) ∧ s.running (Pg.ua u) then
    (s.setBit F.UAn_ERR_CFGREJ true u.val).irq (Pg.ua u) 10
  else if r.is R.UAn_CFG then (s.plainWrite keyed r u.val 0 v).uaCfg u (s.rd R.UAn_CFG u.val)
  else if r.is R.UAn_ERR ∧ v.getLsbD 0 then (s.plainWrite keyed r u.val 0 v).uaCollClear u
  else s.plainWrite keyed r u.val 0 v

/-- FCC_RCFGi: EPIN stays 1 for class F, BRST stays 0 for SYS and FCC (18 R459, R471). -/
def rcfgFix (id : Nat) (v : Word) : Word :=
  let v := if faultClass id = 3 then v ||| 0x10 else v
  if id < 4 then v &&& ~~~4 else v

/-- FCC (18 R457, R458, R461, R463, R471). -/
def State.fccWrite (s : State) (keyed : Bool) (r : Reg) (i : Nat) (v : Word) : State :=
  if r.is R.FCC_FER_CLR then s.ferClear v
  else if r.is R.FCC_PENDj then s.pendClear (Fin.ofNat 4 i) v
  else if r.is R.FCC_FORCEj then (if keyed then s.faultInject (Fin.ofNat 4 i) v else s)
  else if r.is R.FCC_RCFGi ∧ keyed then s.plainWrite true r i 0 (rcfgFix i v)
  else s.plainWrite keyed r i 0 v

/-- LCS (19 R481, R483, R491). -/
def State.lcsWrite (s : State) (rq : Requester) (keyed : Bool) (r : Reg) (i : Nat) (v : Word) : State :=
  if r.is R.LCS_TRANS ∨ r.is R.LCS_OWNTRANS then
    (if keyed then s.transition (r.is R.LCS_OWNTRANS) ((v >>> 8).setWidth 8) (wbits v 0 3) else s)
  else if r.is R.LCS_KEYPROG then
    (if v.getLsbD 0 then s.keyProgram rq (v.getLsbD 1) else s.plainWrite keyed r 0 0 v)
  else s.plainWrite keyed r i 0 v

/-- A write of copy (i, j) of a block-specific register that belongs to no writable pair. -/
def State.blockWrite (s : State) (rq : Requester) (keyed : Bool) (pg : PageIx) (r : Reg) (i j : Nat) (v : Word) :
    State :=
  match blk pg with
  | .fixed =>
    if pg = Pg.sys then s.sysWrite keyed r v
    else if pg = Pg.lcs then s.lcsWrite rq keyed r i v else s.fccWrite keyed r i v
  | .qmg => s.qmgWrite keyed r i v
  | .seq => s.seqWrite keyed r i v
  | .rnd => if r.is R.RND_DIR then s.rndDirWrite v else s.plainWrite keyed r i j v
  | .skn => s.plainWrite keyed r i j v
  | .hhe => s.hheWrite keyed r i j v
  | .hp p => s.hpWrite keyed r p v
  | .sba => s.plainWrite keyed r i j v
  | .ehm => s.ehmWrite rq keyed r i v
  | .moc => s.mocWrite keyed r i v
  | .ax a => s.axWrite keyed r a j v
  | .qe e => if r.is R.QEn_CFG ∧ s.running (Pg.qe e) then s else s.plainWrite keyed r e.val j v
  | .adc => s.adcWrite keyed r i v
  | .adt => s.plainWrite keyed r i j v
  | .med => s.medWrite keyed r i v
  | .csi => s.csiWrite keyed r i v
  | .vp w => s.vpWrite keyed r w j v
  | .ic => s.icWrite keyed r i j v
  | .flc => s.flcWrite rq keyed r i v
  | .csl => s.cslWrite rq keyed r v
  | .sec => s.secWrite rq keyed r i j v
  | .ua u => s.uaRegWrite keyed r u v
  | .spt => s.plainWrite keyed r i j v

-- writable pairs (02 R47)

/-- The _LO halves of the writable pairs: the element window, the password, the tag of a mailbox. -/
def Reg.isPairLo (r : Reg) : Bool := r.is R.EHM_EW_LO || r.is R.FLC_PWD_LO || r.is R.SEC_MBm_TAG_LO
def Reg.isPairHi (r : Reg) : Bool := r.is R.EHM_EW_HI || r.is R.FLC_PWD_HI || r.is R.SEC_MBm_TAG_HI

/-- A requester's held _LO half of the pair whose _HI half lies at `a`. DEDUCED, log entry 108. -/
def State.heldLo (s : State) (rq : Requester) (a : Nat) : Option Word :=
  match s.snapOf rq with
  | some (.lo b v) => if b + 4 = a then some v else none
  | _ => none

/-- A _LO half is held in the requester's slot: a KW half only from a keyed write, a mailbox tag only where the
mailbox takes the write (16 R428). -/
def State.loWriteHold (s : State) (rq : Requester) (keyed : Bool) (r : Reg) (i : Nat) (a : Nat) (v : Word) : State :=
  let barred : Bool := r.is R.SEC_MBm_TAG_LO && (rq != mailboxRq (Fin.ofNat 2 i) || s.flag F.SEC_MBm_CTL_BUSY i)
  if (r.kw ≠ 0 ∧ ¬ keyed) ∨ barred then s else s.setSnap rq (some (.lo a v))

/-- A write of a _HI half: both halves in one step if the slot holds the other, else the high half alone. -/
def State.hiWritePair (s : State) (rq : Requester) (keyed : Bool) (r : Reg) (i : Nat) (a : Nat) (v : Word) : State :=
  if r.kw ≠ 0 ∧ ¬ keyed then s
  else
    let lo := s.heldLo rq a
    let s := if lo.isSome then s.setSnap rq none else s
    if r.is R.EHM_EW_HI then s.ewWrite rq (lo.getD (s.ewWord rq 0)) v
    else if r.is R.FLC_PWD_HI then s.pwdWrite (lo.getD (s.rd R.FLC_PWD_LO)) v
    else s.tagWrite rq (Fin.ofNat 2 i) lo v

/-- A write of a register page at a decoded, aligned address takes effect (02 R37, R47). `keyed`: it arrives inside a
keyed command that has passed its check. -/
def State.regWrite (s : State) (rq : Requester) (keyed : Bool) (a : Nat) (v : Word) : State :=
  match pageOf a with
  | none => s
  | some pg =>
    let off := a - pageBase pg
    if (s.page pg).st = .resetting then s
    else if off < 0x40 then s.headerWrite keyed pg off v
    else match findReg (pageRegs pg) a with
      | none => s
      | some (r, i, j) =>
        if r.isPairLo then s.loWriteHold rq keyed r i a v
        else if r.isPairHi then s.hiWritePair rq keyed r i a v
        else s.blockWrite rq keyed pg r i j v

/-- The KW bits of the register at an address (00 R8, 04 R113). DEDUCED, log entry 111. -/
def kwBits (a : Nat) : Word :=
  match pageOf a with
  | none => 0
  | some pg =>
    if a - pageBase pg = 0x14 then BitVec.allOnes 32
    else match findReg (pageRegs pg) a with
      | some (r, _, _) => BitVec.ofNat 32 r.kw
      | none => 0

/-- Registers described as "KW, maker" (16 R412, 19 R491). -/
def makerReg (a : Nat) : Bool := a == R.LCS_TRANS.base

end Sys2Proof.Machine
end

