-- ==== Sys2Proof/Machine/Bus.lean ====
section
/-! DEFINITION. The crossbar (01 R13 to R21, 02 R29 to R31, R518): which requester reaches what, posted writes, reads,
and the access-error outcome. -/

namespace Sys2Proof.Machine

/-- The decoded regions, each register page one of them (02 R29). -/
inductive Area
  | flash | skein | wram | elem | otp | page (pg : PageIx)
  deriving DecidableEq, Repr

def areaOf (a : Nat) : Option Area :=
  if a < flashEnd then some .flash
  else if skeinBase ≤ a ∧ a < skeinEnd then some .skein
  else if wramBase ≤ a ∧ a < wramEnd then some .wram
  else if elemBase ≤ a ∧ a < elemEnd then some .elem
  else if otpBase ≤ a ∧ a < otpEnd then some .otp
  else (pageOf a).map .page

/-- Reach of a requester (01 R13). -/
def reach (rq : Requester) (wr : Bool) (ar : Area) : Bool :=
  match rq, ar with
  | .seq _, .flash => !wr
  | .seq _, .wram => true
  | .seq _, .page _ => true
  | .rnd, .flash => !wr
  | .rnd, .skein => true
  | .rnd, .wram => !wr
  | .hhe, .skein => !wr
  | .hhe, .elem => !wr
  | .ehm, .flash => !wr
  | .ehm, .wram => !wr
  | .ehm, .elem => true
  | .vp _, .skein => !wr
  | .vp _, .elem => !wr
  | .qmg, .wram => true
  | .transom, .elem => true
  | .csl, .wram => true
  | .csl, .page _ => true
  | .csl, _ => !wr
  | .spt, .wram => true
  | .spt, .page _ => true
  | .spt, _ => !wr
  | .transom, .wram => true
  | .transom, .page _ => true
  | .transom, _ => !wr
  | _, _ => false

/-- Sizes and alignment (02 R30). DEDUCED, log entry 109. -/
def sizeOk (ar : Area) (size a : Nat) : Bool :=
  match ar with
  | .page _ => size == 4 && a % 4 == 0
  | _ => (size == 1 || size == 2 || size == 4) && a % size == 0

/-- SYS_AERR_INFO.REQ. -/
def requesterCode : Requester → Nat
  | .seq _ => 0
  | .rnd => 1
  | .hhe => 2
  | .ehm => 3
  | .vp v => 4 + v.val
  | .qmg => 6
  | .csl => 7
  | .spt => 8
  | .transom => 9

/-- The access-error outcome of R13 in SYS: the first one since the last clear is recorded, all are counted in a SAT
counter of 15 bits (02 R31, R51), and XBAR is raised. -/
def State.accessError (s : State) (rq : Requester) (wr : Bool) (a : Word) : State :=
  let w := s.rd R.SYS_AERR_INFO
  let n := wbits w 16 15
  let first : Bool := n == 0 && !w.getLsbD 31
  let s := if first then s.wr R.SYS_AERR_ADDR a else s
  let low := if first then wr.toNat * 256 + requesterCode rq else wbits w 0 16
  let full : Bool := n == 32767
  let s := s.wr R.SYS_AERR_INFO
    (BitVec.ofNat 32 ((if full then 1 else wbits w 31 1) * 2 ^ 31 + (if full then n else n + 1) * 65536 + low))
  s.raise Pg.sys 0

-- posted writes (R18 to R21)

/-- A QMG doorbell register (R21). -/
def isDoorbell (a : Nat) : Bool :=
  match R.QMG_Qn_DB.at? a with
  | some _ => true
  | none => false

/-- One byte of the element table; reserved bits stay 0 (09 R222). -/
def elemByteMask (a : Nat) (b : Byte) : Byte :=
  if (a - elemBase) % 8 = 1 then b &&& 0x3F else if (a - elemBase) % 8 = 2 then b &&& 0x7F else b

/-- A write performed at its target. -/
def State.perform (s : State) (p : Posted) : State :=
  let a := p.addr.toNat
  let bytes := natBytes p.size p.val.toNat
  match areaOf a with
  | some (.page _) => s.regWrite p.rq p.keyed a p.val
  | some .elem => s.setBytes a (bytes.zipIdx.map fun (b : Byte × Nat) => elemByteMask (a + b.2) b.1)
  | some .skein => (s.unblank (skeinBandOf a) (skeinRowOf a)).setBytes a bytes
  | some _ => s.setBytes a bytes
  | none => s

/-- The oldest posted write of a requester to an area takes effect; a doorbell after that requester's earlier writes
to working RAM (R19, R21). -/
def State.takeEffect (s : State) (rq : Requester) (ar : Area) : State :=
  let other (x : Posted) : Bool := !(x.rq == rq && areaOf x.addr.toNat == some ar)
  match s.bus.posted.span other with
  | (_, []) => s
  | (pre, x :: post) =>
    let ram (y : Posted) : Bool := isDoorbell x.addr.toNat && y.rq == rq && areaOf y.addr.toNat == some .wram
    let s := { s with bus := { s.bus with posted := pre.filter (fun y => !ram y) ++ post } }
    ((pre.filter ram).foldl (fun s y => s.perform y) s).perform x

/-- `n` posted writes of a requester to an area take effect. -/
def State.takeEffects (s : State) (rq : Requester) (ar : Area) : Nat → State
  | 0 => s
  | n + 1 => (s.takeEffect rq ar).takeEffects rq ar n

/-- Every posted write of a requester to an area takes effect (R19). DEDUCED, log entry 110. -/
def State.settleWrites (s : State) (rq : Requester) (ar : Area) : State :=
  s.takeEffects rq ar s.bus.posted.length

/-- What comes before a register write of the requester: its earlier writes to the page, and for a doorbell those to
working RAM (R19, R21). -/
def State.settleBefore (s : State) (rq : Requester) (a : Nat) (pg : PageIx) : State :=
  (if isDoorbell a then s.settleWrites rq .wram else s).settleWrites rq (.page pg)

/-- The requester learns the outcome of an access. -/
def State.answer (s : State) (x : Answer) : State :=
  { s with bus := { s.bus with answers := x :: s.bus.answers.filter fun y => y.rq != x.rq } }

/-- A write of the requester reaches the crossbar: it is posted, or it gets the access error. The flag says which. -/
def State.busWrite (s : State) (rq : Requester) (keyed : Bool) (size : Nat) (a v : Word) : State × Bool :=
  match areaOf a.toNat with
  | some ar =>
    if reach rq true ar && sizeOk ar size a.toNat then
      ({ s with bus := { s.bus with posted := s.bus.posted ++ [Posted.mk rq a v size keyed] } }, true)
    else (s.accessError rq true a, false)
  | none => (s.accessError rq true a, false)

-- reads

/-- The class of a flash read (14 R347). -/
def flashClass : Requester → FlashClass
  | .seq _ => .seq
  | .ehm => .seq
  | .rnd => .rnd
  | _ => .host

/-- FLC_HSUB bit of a host requester (14 R351). -/
def hsubBit : Requester → Option Nat
  | .spt => some 0
  | .csl => some 1
  | .transom => some 2
  | _ => none

/-- Bytes of the OTP window that read 0 (14 R369). -/
def otpHidden (off : Nat) : Bool := (0x28 ≤ off && off < 0x30) || (0x38 ≤ off && off < 0xC0)

/-- A flash read of a requester (14 R349 to R351). -/
def State.flashAnswer (s : State) (rq : Requester) (size : Nat) (a : Word) : State × Answer :=
  let n := a.toNat
  let cls := flashClass rq
  if cls = .host ∧ s.hostReadBarred n then (s.accessError rq false a, { rq := rq, addr := a, val := 0, err := true })
  else
    let (s, r) := s.flashRead cls n
    match r with
    | .subst =>
      let s := match hsubBit rq with
        | some b => s.wr R.FLC_HSUB (s.rd R.FLC_HSUB ||| BitVec.ofNat 32 (2 ^ b))
        | none => s
      let w := (s.flcStat ||| 0x80000000).toNat / 256 ^ (n % 4)
      (s, { rq := rq, addr := a, val := BitVec.ofNat 32 (w % 256 ^ size), subst := true })
    | .data _ =>
      let bad := r.bad n
      let v : Word := BitVec.ofNat 32 (leNat (s.cells n size))
      (s, { rq := rq, addr := a, val := if bad && cls == .host then 0 else v, err := bad })

/-- A read of a requester: after its earlier writes to that area have taken effect (R518). DEDUCED, log entry 11. -/
def State.busRead (s : State) (rq : Requester) (size : Nat) (a : Word) : State × Answer :=
  let n := a.toNat
  let fail : State × Answer := (s.accessError rq false a, { rq := rq, addr := a, val := 0, err := true })
  match areaOf n with
  | none => fail
  | some ar =>
    if ¬ (reach rq false ar && sizeOk ar size n) then fail
    else
      let s := s.settleWrites rq ar
      let give (l : List Byte) : State × Answer :=
        (s, { rq := rq, addr := a, val := BitVec.ofNat 32 (leNat l) })
      match ar with
      | .flash => s.flashAnswer rq size a
      | .skein => give ((List.range size).map fun k => s.skeinByte (n + k))
      | .otp => give ((List.range size).map fun k => if otpHidden (n + k - otpBase) then 0 else s.cell (n + k))
      | .page _ =>
        let (s, v) := s.regRead rq n
        (s, { rq := rq, addr := a, val := v })
      | _ => give (s.bytes n size)

/-- A read whose answer the requester receives. -/
def State.readAnswer (s : State) (rq : Requester) (size : Nat) (a : Word) : State :=
  let (s, x) := s.busRead rq size a
  s.answer x

/-- A write whose access error the requester receives. -/
def State.writeAnswer (s : State) (rq : Requester) (keyed : Bool) (size : Nat) (a v : Word) : State :=
  let (s, good) := s.busWrite rq keyed size a v
  if good then s else s.answer { rq := rq, addr := a, val := 0, err := true }

-- bursts of up to 4 beats of 16 bytes (01 R15, 02 R30)

def isBurst (size : Nat) : Bool := size == 16 || size == 32 || size == 48 || size == 64

/-- A burst of the requester is performed: it starts at a beat of a memory region and stays in it.
DEDUCED, log entry 156. -/
def burstOk (rq : Requester) (wr : Bool) (size : Nat) (a : Word) : Bool :=
  match areaOf a.toNat with
  | none => false
  | some (.page _) => false
  | some ar => reach rq wr ar && a.toNat % 16 == 0 && areaOf (a.toNat + size - 1) == some ar

/-- A burst write: its words are posted together, in order. -/
def State.burstWrite (s : State) (rq : Requester) (size : Nat) (a : Word) (l : List Word) : State :=
  if burstOk rq true size a then
    (l.take (size / 4)).zipIdx.foldl (fun s (x : Word × Nat) => s.writeAnswer rq false 4 (a + BitVec.ofNat 32 (4 * x.2)) x.1) s
  else (s.accessError rq true a).answer { rq := rq, addr := a, val := 0, err := true }

/-- A burst read: one answer of all its words. -/
def State.burstRead (s : State) (rq : Requester) (size : Nat) (a : Word) : State :=
  let barred : Bool := areaOf a.toNat == some .flash && flashClass rq == .host &&
    (s.hostReadBarred a.toNat || s.hostReadBarred (a.toNat + size - 1))
  if ¬ burstOk rq false size a ∨ barred then
    (s.accessError rq false a).answer { rq := rq, addr := a, val := 0, err := true }
  else
    let (s, l) := (List.range (size / 4)).foldl (fun (x : State × List Answer) k =>
      let (s, y) := x.1.busRead rq 4 (a + BitVec.ofNat 32 (4 * k))
      (s, x.2 ++ [y])) (s, [])
    s.answer { rq := rq, addr := a, val := (l.map (·.val)).headD 0, beats := (l.map (·.val)).drop 1,
               err := l.any (·.err), subst := l.any (·.subst) }

end Sys2Proof.Machine
end

