-- ==== Sys2Proof/Machine/Seq.lean ====
section
/-! DEFINITION. The sequencer at work (04): issuing a command, transfers of control and the branch target cache, list
entries fetched from flash, and trap lists. -/

namespace Sys2Proof.Machine

-- where an opcode may stand (R89)

/-- The contexts of R89 that admit an opcode. -/
def allowedAt (op : Nat) : Place → Bool
  | .ring => !(op == 0x40 || op == 0x42 || op == 0x43)
  | .list => !(op == 0x01 || op == 0x02 || op == 0x61)
  | .trap => op == 0x40 || op == 0x42 || op == 0x43 || op == 0x44 || op == 0x51 || op == 0x60 || op == 0x7F

/-- Opcodes that a queue bound to no port may not issue at all. -/
def needsPort (op : Nat) : Bool :=
  (0x10 ≤ op && op ≤ 0x15) || op == 0x22 || op == 0x30 || op == 0x31

-- outcomes; a command of a trap list has no uid

/-- A run of the trap list ends (R119, R120). Its RESULT is `st` if that is not OK, else the first status other than
OK. DEDUCED, log entry 137. -/
def State.trapEnd (s : State) (q : QNum) (st : Byte) : State :=
  match (s.thr q).trap with
  | none => s
  | some r =>
    let res := if st = St.ok then r.result else st
    (s.modThr q fun t =>
      { t with trap := none, trapResult := res, trapDue := t.trapPend, trapPend := false, fetched := none, retry := none,
               jumped := false }).irq Pg.seq 4

/-- A command of the trap list has its status (R120). -/
def State.trapDone (s : State) (q : QNum) (st : Byte) : State :=
  let s := s.modThr q fun t =>
    { t with trap := t.trap.map fun (r : TrapRun) => { r with result := if r.result = St.ok then st else r.result } }
  match (s.thr q).trap with
  | some r => if r.count ≥ 256 then s.trapEnd q St.badCommand else s
  | none => s

/-- The outcome of a command, in a list of its queue or in the trap list. -/
def State.outcome (s : State) (q : QNum) (u : Option Nat) (st : Byte) : State :=
  match u with
  | some uid => s.finish q uid st
  | none => s.trapDone q st

/-- SEQ_Tn_BADCMD for a command of the trap list: no ring entry reached it, and CMD_IDX is a free value (R121).
DEDUCED, log entry 99. -/
def State.trapBad (s : State) (q : QNum) (op reason : Nat) : State :=
  let (n, s) := s.fresh
  let idx := wbits (Config.freeWord n) 0 16
  (s.wr R.SEQ_Tn_BADCMD (BitVec.ofNat 32 (idx * 65536 + op * 256 + 128 + reason)) q.val).irq Pg.seq 6

/-- A command completes BAD_COMMAND. -/
def State.refuseCmd (s : State) (q : QNum) (u : Option Nat) (e : Entry) (reason : Nat) : State :=
  match u with
  | some uid => s.badCmd q uid reason
  | none => (s.trapBad q e.opc reason).trapDone q St.badCommand

-- issuing (R90 to R92)

/-- The thread takes the issue slot and its next entry, from where that entry stands. -/
def State.begin (s : State) (q : QNum) (e : Entry) : State × Option Nat :=
  let place := s.spot q
  let s := s.tookSlot q
  let s := if 0x40 ≤ e.opc ∧ e.opc ≤ 0x44 then s else s.modThr q fun t => { t with transfers := 0 }
  match place with
  | .trap =>
    (s.modThr q fun t =>
      { t with fetched := none, jumped := false,
               trap := t.trap.map fun (r : TrapRun) => { r with pc := r.pc + 16, count := r.count + 1 } }, none)
  | .list =>
    let uid := s.nextUid
    let t := s.thr q
    let root := (t.levels.getLast?.map (·.call)).getD 0
    let top := (s.q q).cmds.find? fun c => c.uid == root
    let c : Cmd :=
      { uid := uid, idx := (top.map (·.idx)).getD 0, parent := t.levels.head?.map (·.call), root := root,
        job := (top.map (·.job)).getD 0xFFFF, e := e, e2 := e }
    let s := { s with nextUid := uid + 1 }
    ((s.modQ q fun x => { x with cmds := x.cmds ++ [c] }).modThr q fun t =>
      { t with pc := t.pc + 16, fetched := none, jumped := false }, some uid)
  | .ring =>
    let uid := s.nextUid
    let x := s.q q
    let e2 := if e.slots = 2 then s.ringEntry q (x.next + 1) else e
    let c : Cmd :=
      { uid := uid, idx := x.next, slots := e.slots, root := uid, job := if x.jobOpen then x.jobNum else 0xFFFF,
        e := e, e2 := e2 }
    let s := { s with
      nextUid := uid + 1
      sec := { s.sec with bootQ := s.sec.bootQ.filter fun (b : QNum × Nat) =>
        !(b.1 == q && decide (b.2 ≤ x.next.toNat)) } }
    (s.modQ q fun x => { x with cmds := x.cmds ++ [c], next := x.next + BitVec.ofNat 16 e.slots }, some uid)

/-- A command that R89 forbids in a trap list ends it. DEDUCED, log entry 61. -/
def State.trapForbid (s : State) (q : QNum) (e : Entry) (reason : Nat) : State :=
  (s.trapBad q e.opc reason).trapEnd q St.badCommand

/-- A well-formed command issues: the context checks of R89, then what `k` does with it. -/
def State.start (s : State) (q : QNum) (e : Entry) (k : State → Option Nat → State) : State :=
  let place := s.spot q
  let (s, u) := s.begin q e
  if ¬ allowedAt e.opc place then
    (if place = .trap then s.trapForbid q e 4 else s.refuseCmd q u e 4)
  else if needsPort e.opc ∧ (s.qPort q).isNone then s.refuseCmd q u e 4
  else k s u

/-- The thread issues its next entry if it is a well-formed one with opcode `op`. -/
def State.issue (s : State) (q : QNum) (op : Nat) (k : Entry → State → Option Nat → State) : State :=
  match s.issuing q op with
  | some e => s.start q e (k e)
  | none => s

/-- As `issue`, for an opcode that works only with an uid (it may not stand in a trap list). -/
def State.issueCmd (s : State) (q : QNum) (op : Nat) (k : Entry → State → Nat → State) : State :=
  s.issue q op fun e s u => match u with
    | some uid => k e s uid
    | none => s

/-- UNDEFINED_OPCODE: the next entry has an opcode that R89 does not list, or a reserved bit set (R87). -/
def State.issueMalformed (s : State) (q : QNum) : State :=
  if s.seqPick ≠ some q ∨ (s.thr q).trapDue then s
  else match s.nextEntry q with
    | none => s
    | some e => match e.malformed with
      | none => s
      | some r =>
        let place := s.spot q
        let (s, u) := s.begin q e
        if place = .trap ∧ ¬ allowedAt e.opc .trap then s.trapForbid q e r else s.refuseCmd q u e r

-- transfers (R102 to R106, R116)

/-- A target inside the command ring of an enabled queue (R102). -/
def State.inCommandRing (s : State) (a : Nat) : Bool :=
  (List.finRange 16).any fun q =>
    let base := (s.rd R.QMG_Qn_RING q.val).toNat
    s.qEn q && decide (base ≤ a) && decide (a < base + 16 * s.qSize q)

/-- Why a target is refused. -/
def State.targetBad (s : State) (a : Nat) : Option Nat :=
  if a % 16 ≠ 0 ∨ offMemory a then some 9 else if s.inCommandRing a then some 0xD else none

/-- Entry `a` of a line of the branch target cache. -/
def BtcLine.entry (l : BtcLine) (a : Nat) : Entry := if a % 32 = 0 then l.e0 else l.e1

def btcLine (a : Nat) : Nat := a / 32 * 32

/-- The thread goes on at list entry `a`; a flash target is looked up in the branch target cache (R116). -/
def State.transfer (s : State) (q : QNum) (a : Nat) : State :=
  let s := s.modThr q fun t =>
    match t.trap with
    | some r => { t with trap := some { r with pc := a }, fetched := none, jumped := false }
    | none => { t with pc := a, fetched := none, jumped := false }
  if ¬ inFlash a 16 ∨ s.flag F.SEQ_BTC_CTL_DIS then s
  else match s.seq.btc.find? fun l => l.addr == btcLine a with
    | some l =>
      let s := (s.count R.SEQ_BTC_HIT).modThr q fun t => { t with fetched := some (a, l.entry a) }
      { s with seq := { s.seq with btc := l :: s.seq.btc.filter fun x => x.addr != l.addr } }
    | none => (s.count R.SEQ_BTC_MISS).modThr q fun t => { t with jumped := true }

/-- SEQ_BRLIM.LIMIT. -/
def State.brLimit (s : State) : Nat :=
  let n := s.fld F.SEQ_BRLIM_LIMIT
  if n = 0 then 0x10000 else n

/-- The next transfer would exceed the limit of R106. -/
def State.limited (s : State) (q : QNum) : Bool := decide (s.brLimit ≤ (s.thr q).transfers)

/-- A transfer of JUMP, LOOP or IF_STATE. -/
def State.countedTransfer (s : State) (q : QNum) (a : Nat) : State :=
  (s.modThr q fun t => { t with transfers := t.transfers + 1 }).transfer q a

/-- The thread enters a list for the call `uid`; `ret` is where RET goes (R103). -/
def State.enterList (s : State) (q : QNum) (uid : Nat) (ret : Option Nat) (a : Nat) : State :=
  ((s.modCmd q uid fun c => { c with call := true }).modThr q fun t =>
    { t with levels := Level.mk ret uid {} :: t.levels }).transfer q a

/-- Set the loop counter of the current level. -/
def State.setLoop (s : State) (q : QNum) (l : LoopCtr) : State :=
  s.modThr q fun t =>
    match t.trap with
    | some r => { t with trap := some { r with loop := l } }
    | none => { t with levels := match t.levels with
      | x :: rest => { x with loop := l } :: rest
      | [] => [] }

-- list entries in flash (R116 to R118)

/-- One entry of flash as its cells hold it. -/
def State.flashEntry (s : State) (a : Nat) : Entry :=
  let w (k : Nat) : Word := BitVec.ofNat 32 (leNat (s.cells (a + 4 * k) 4))
  ⟨w 0, w 1, w 2, w 3⟩

/-- A list entry cannot be had: the ring entry that reached the list completes FAULT, or the trap list ends with
RESULT FAULT (R117, R118). -/
def State.fetchFail (s : State) (q : QNum) : State :=
  match s.spot q with
  | .trap => s.trapEnd q St.fault
  | .list =>
    let root := ((s.thr q).levels.getLast?.map (·.call)).getD 0
    ((s.modCmd q root fun c => { c with forced := some St.fault }).leaveList q).closeCalls q 6
  | .ring => s

/-- The line of the next list entry has arrived; `e` marks its uncorrectable words. -/
def State.fetchGot (s : State) (q : QNum) (e : BitVec 4) : State :=
  let a := s.listPc q
  let k := a % 32 / 8
  if e.getLsbD k ∨ e.getLsbD (k + 1) then s.fetchFail q
  else
    let fill : Bool := (s.thr q).jumped && !s.flag F.SEQ_BTC_CTL_DIS && e == 0
    let la := btcLine a
    let s := s.modThr q fun t => { t with fetched := some (a, s.flashEntry a), retry := none, jumped := false }
    if fill then
      let line : BtcLine := ⟨la, s.flashEntry la, s.flashEntry (la + 16)⟩
      { s with seq := { s.seq with btc := (line :: s.seq.btc.filter fun x => x.addr != la).take 16 } }
    else s

/-- The thread wants a list entry from flash and has not got it. -/
def State.wantsFetch (s : State) (q : QNum) : Bool :=
  let a := s.listPc q
  s.running Pg.seq && s.spot q != .ring && inFlash a 16 &&
    !((s.thr q).fetched.any fun (f : Nat × Entry) => f.1 == a)

/-- A list entry outside the memories: it completes BAD_COMMAND as a command of the list, or ends the trap list; what
its opcode is, no fetch has told (R102). -/
def State.fetchOutside (s : State) (q : QNum) : State :=
  if s.spot q = .trap then
    let (n, s) := s.fresh
    ((s.tookSlot q).trapBad q (wbits (Config.freeWord n) 0 8) 9).trapEnd q St.badCommand
  else
    let (n, s) := s.fresh
    let e : Entry := ⟨Config.freeWord n &&& 0xFF, 0, 0, 0⟩
    let (s, u) := s.begin q e
    s.refuseCmd q u e 9

/-- LIST_ENTRY_FETCH. -/
def State.listFetch (s : State) (q : QNum) : State :=
  if s.wantsFetch q then
    (if (s.thr q).retry.isSome then s
    else
      let a := s.listPc q
      match s.flashRead .seq a with
      | (s, .subst) => s.modThr q fun t => { t with retry := some ⟨a, 1⟩ }
      | (s, .data e) => s.fetchGot q e)
  else if s.seqPick = some q ∧ ¬ (s.thr q).trapDue ∧ s.spot q ≠ .ring ∧ offMemory (s.listPc q) then s.fetchOutside q
  else s

/-- SEQ_FLASH_RETRY (R117). DEDUCED, log entry 122. -/
def State.seqFlashRetry (s : State) (q : QNum) : State :=
  match (s.thr q).retry with
  | none => s
  | some r =>
    if ¬ s.running Pg.seq then s
    else
      let s := s.count R.SEQ_FLRETRY
      match s.flashRead .seq r.addr with
      | (s, .subst) =>
        if r.count + 1 ≥ 1024 then
          let s := { s with reports := s.reports ++ [Report.mk Pg.seq 0 false s.time [] (some q) none] }
          ((s.irq Pg.seq 7).modThr q fun t => { t with retry := none }).fetchFail q
        else s.modThr q fun t => { t with retry := some ⟨r.addr, r.count + 1⟩ }
      | (s, .data e) => s.fetchGot q e

/-- TRAP_LIST_START: the thread starts its trap list at its issue slot (R119). -/
def State.trapStart (s : State) (q : QNum) : State :=
  if s.seqPick ≠ some q ∨ ¬ (s.thr q).trapDue then s
  else
    let base := s.fld F.SEQ_Tn_TRAP_BASE q.val * 16
    (s.tookSlot q).modThr q fun t =>
      { t with trapDue := false, fresh := false, trap := some { pc := base }, fetched := none, retry := none, jumped := false }

end Sys2Proof.Machine
end

