-- ==== Sys2Proof/Machine/Commands.lean ====
section
/-! DEFINITION. What each job command does once its thread issues it (04 R93 to R115). -/

namespace Sys2Proof.Machine

/-- Every block that the command needs is in RUN (03 R516). -/
def State.needsMet (s : State) (q : QNum) (e : Entry) : Bool := (s.needsAll e (s.qPort q)).all s.running

/-- Carry a command out unless a block that it needs is not in RUN: then it completes ABORTED at once (R516). -/
def State.ifMet (s : State) (q : QNum) (uid : Nat) (e : Entry) (k : State → State) : State :=
  if s.needsMet q e then k s else s.finish q uid St.aborted

-- jobs (R93, 03 R82)

/-- JOB_BEGIN opens a job (R93). DEDUCED, log entry 30. DESIGN CHOICE, log entry 193. -/
def State.jobBegin (s : State) (q : QNum) : State :=
  s.issueCmd q 0x01 fun e s uid =>
    if e.sp = 0xFFFF then s.badCmd q uid 3
    else if (s.q q).jobOpen then s.badCmd q uid 8
    else
      let n := BitVec.ofNat 16 e.sp
      ((s.modQ q fun x =>
        { x with jobOpen := true, jobNum := n, policy := e.w1.setWidth 8, retryUsed := 0 }).modCmd q uid fun c =>
          { c with job := n }).finish q uid St.ok

def State.jobEnd (s : State) (q : QNum) : State :=
  s.issueCmd q 0x02 fun _ s uid => (s.modQ q fun x => { x with jobOpen := false }).finish q uid St.ok

-- composition and printing (R94 to R97)

/-- A composition command: the checks that need no reading, then RND takes the step (05 R131). -/
def State.compose (s : State) (q : QNum) (op : Nat) : State :=
  s.issueCmd q op fun e s uid =>
    match s.qPort q with
    | none => s
    | some p => match s.compStatic p e with
      | some r => s.badCmd q uid r
      | none => s.ifMet q uid e fun s => s.pushStep p { uid := uid, q := q, e := e }

def State.print (s : State) (q : QNum) : State :=
  s.issueCmd q 0x15 fun e s uid =>
    match s.qPort q with
    | none => s
    | some p =>
      if e.sp = 0 ∨ s.area p < e.sp then s.badCmd q uid 0xA
      else s.ifMet q uid e fun s =>
        (s.modThr q fun t => { t with wait := .commit uid }).pushStep p { uid := uid, q := q, e := e }

/-- PRINT_COMMIT: every earlier step has been drawn, and the PRINT that stands at the front of its port commits its
lines under the queue's profile (R97, 05 R127). A port in HOLD lets no line start: the PRINT completes as those that
HOLD found (07 R193). -/
def State.printCommit (s : State) (q : QNum) : State :=
  match (s.thr q).wait, s.qPort q with
  | .commit uid, some p =>
    match s.steps p, s.liveCmd q uid with
    | x :: rest, some c =>
      if x.uid ≠ uid ∨ ¬ x.granted ∨ ¬ s.running Pg.skn then s
      else
        let n := c.e.sp
        let w := (s.win p).filter fun (w : Win) => w.closing.isNone
        let s := (s.setSteps p rest).commit p uid q n (s.q q).profile (w.map (·.nextW))
        let s := match w with
          | some w => s.setWin p (some { w with nextW := w.nextW + n })
          | none => s
        let s := (((s.modThr q fun t => { t with wait := .none }).atEntry q).measureYield p).govGrew p
        let s := match (s.hpP p).hold with
          | some st => s.finish q uid st
          | none => s
        s.rndGo
    | _, _ => s
  | _, _ => s

-- media (R98, R99)

/-- Why the AXIS of FEED or CUT is refused. -/
def State.axisBad (s : State) (e : Entry) (port : Option Port) : Option Nat :=
  let n := e.sp % 16
  if n < 8 then none
  else if n < 15 then some 3
  else if port.isNone then some 4
  else if (s.mediaAx e port).isNone then some 3
  else none

/-- The thread waits for the outcome of `uid`. -/
def State.waitFor (s : State) (q : QNum) (uid : Nat) : State := s.modThr q fun t => { t with wait := .outcome uid }

/-- FEED (R98). DESIGN CHOICE, log entry 149. -/
def State.feedCmd (s : State) (q : QNum) (uid : Nat) (e : Entry) : State :=
  let port := s.qPort q
  let lines : Bool := e.flags % 2 == 0
  if lines ∧ port.isNone then s.badCmd q uid 4
  else match s.axisBad e port with
    | some r => s.badCmd q uid r
    | none => match s.mediaAx e port with
      | none => s
      | some a => s.ifMet q uid e fun s =>
        let dist := e.w1.toInt
        if dist = 0 then s.finish q uid St.ok
        else
          (s.waitFor q uid).axSubmit a { q := q, uid := uid, port := port, kind := .feed lines dist }

def State.cutCmd (s : State) (q : QNum) (uid : Nat) (e : Entry) : State :=
  let port := s.qPort q
  match s.axisBad e port with
  | some r => s.badCmd q uid r
  | none => match s.mediaAx e port with
    | none => s
    | some a => s.ifMet q uid e fun s =>
      (s.waitFor q uid).axSubmit a { q := q, uid := uid, port := port, kind := .cut (e.flags % 2 == 1) }

/-- Why the operands of a WAIT_MEDIA are refused: a reserved event, STOPAT without FEED, an OFFSET without STOPAT, a
LIMIT of 0 where none is accepted, a search without a feed axis. DEDUCED, log entry 119. -/
def State.waitBad (s : State) (e : Entry) (p : Port) : Bool :=
  let ev := e.sp % 16
  let feed : Bool := e.flags % 2 == 1
  let stopAt : Bool := e.flags / 2 % 2 == 1
  decide (7 ≤ ev) || (stopAt && !feed) || (!stopAt && e.w2 != 0) || (e.w1 == 0 && (feed || decide (ev < 4))) ||
    (feed && (s.feedAx p).isNone)

def State.waitMediaCmd (s : State) (q : QNum) (uid : Nat) (e : Entry) : State :=
  match s.qPort q with
  | none => s
  | some p =>
    if s.waitBad e p then s.badCmd q uid 3
    else s.ifMet q uid e fun s => (s.waitFor q uid).waitStart q uid e p

def State.feed (s : State) (q : QNum) : State := s.issueCmd q 0x20 fun e s uid => s.feedCmd q uid e
def State.cut (s : State) (q : QNum) : State := s.issueCmd q 0x21 fun e s uid => s.cutCmd q uid e
def State.waitMedia (s : State) (q : QNum) : State := s.issueCmd q 0x22 fun e s uid => s.waitMediaCmd q uid e

-- profile and verification (R100, R101)

def State.setProfile (s : State) (q : QNum) : State :=
  s.issueCmd q 0x30 fun e s uid =>
    match s.qPort q with
    | none => s
    | some p =>
      let n : Fin 16 := Fin.ofNat 16 (e.sp % 16)
      if ((s.hheP p).profiles[n]).valid then (s.modQ q fun x => { x with profile := n.val }).finish q uid St.ok
      else s.badCmd q uid 3

/-- VERIFY with CLOSE = 0 opens a window (R101). DESIGN CHOICE, log entry 194. -/
def State.verifyOpen (s : State) (p : Port) (q : QNum) (uid : Nat) (e : Entry) : State :=
  if (s.win p).isSome then s.badCmd q uid 4
  else if ((s.vpOf p).filter fun v => s.running (Pg.vp v)).isEmpty then s.badCmd q uid 0xC
  else (s.winOpen p (wbits e.w1 0 16) (wbits e.w1 16 16)).finish q uid St.ok

/-- VERIFY with CLOSE = 1 closes it. DESIGN CHOICE, log entry 165. -/
def State.verifyClose (s : State) (p : Port) (q : QNum) (uid : Nat) : State :=
  match s.win p with
  | none => s.finish q uid St.ok
  | some w => if w.closing.isSome then s.finish q uid St.ok
    else (s.setWin p (some { w with closing := some (q, uid) })).winCheck p

/-- VERIFY, opening or closing as CLOSE says. -/
def State.verify (s : State) (q : QNum) (close : Bool) : State :=
  match s.issuing q 0x31 with
  | none => s
  | some e =>
    if (e.flags % 2 == 1) != close then s
    else s.issueCmd q 0x31 fun e s uid =>
      match s.qPort q with
      | none => s
      | some p => if close then s.verifyClose p q uid else s.verifyOpen p q uid e

-- control flow (R103 to R107)

def State.jump (s : State) (q : QNum) : State :=
  s.issue q 0x40 fun e s u =>
    let a := e.w1.toNat
    match s.targetBad a with
    | some r => s.refuseCmd q u e r
    | none => if s.limited q then s.refuseCmd q u e 7 else (s.countedTransfer q a).outcome q u St.ok

/-- Where the thread stands after the entry it has just issued: none in the ring. -/
def State.returnPoint (s : State) (q : QNum) : Option Nat :=
  if (s.thr q).levels.isEmpty then none else some (s.thr q).pc

def State.callCmd (s : State) (q : QNum) : State :=
  s.issueCmd q 0x41 fun e s uid =>
    let a := e.w1.toNat
    match s.targetBad a with
    | some r => s.badCmd q uid r
    | none =>
      if (s.thr q).levels.length ≥ 4 then s.badCmd q uid 5 else s.enterList q uid (s.returnPoint q) a

/-- RET: to the most recent return point, or the end of the trap list (R103, R120). -/
def State.ret (s : State) (q : QNum) : State :=
  s.issue q 0x42 fun _ s u =>
    match u with
    | none => s.trapEnd q St.ok
    | some uid =>
      let s := s.finish q uid St.ok
      match (s.thr q).levels with
      | [] => s
      | l :: rest =>
        let s := s.modThr q fun t => { t with levels := rest }
        let s := (s.modCmd q l.call fun c => { c with closed := true }).closeCalls q 6
        match l.ret with
        | some a => if (s.thr q).levels.isEmpty then s else s.transfer q a
        | none => s.modThr q fun t => { t with fetched := none, jumped := false }

/-- LOOP (R104). DEDUCED, log entry 120. -/
def State.loop (s : State) (q : QNum) : State :=
  let here := s.listPc q
  s.issue q 0x43 fun e s u =>
    let a := e.w1.toNat
    let l := (s.thr q).loopCtr
    match s.targetBad a with
    | some r => s.refuseCmd q u e r
    | none =>
      if e.sp = 0 then s.refuseCmd q u e 3
      else if l.active ∧ l.origin ≠ here then s.refuseCmd q u e 6
      else
        let remain := if l.active then l.remain else e.sp - 1
        if remain = 0 then (s.setLoop q { active := false, remain := 0, origin := here }).outcome q u St.ok
        else if s.limited q then s.refuseCmd q u e 7
        else
          ((s.setLoop q { active := true, remain := remain - 1, origin := here }).countedTransfer q a).outcome q u St.ok

/-- SEL of an IF_STATE. -/
def Entry.sel (e : Entry) : Nat := e.sp % 256

/-- Selectors that R105 lists. -/
def knownSel (n : Nat) : Bool := [0, 1, 2, 3, 4, 0x10, 0x11, 0x12, 0x20, 0x21, 0x30, 0x40].contains n

/-- ARG or ARG2 is not 0 where the selector defines none: reserved bits (R87, R105). -/
def Entry.argReserved (e : Entry) : Bool :=
  (e.sel < 5 && e.w2 != 0) || (e.sel == 0x30 && e.w2 != 0) || (e.sel != 0x40 && e.w3 != 0)

/-- Why an IF_STATE is refused. DESIGN CHOICE, log entry 195. -/
def State.ifBad (s : State) (q : QNum) (e : Entry) : Option Nat :=
  if ¬ knownSel e.sel then some 3
  else if e.argReserved then some 2
  else if 1 ≤ e.sel ∧ e.sel ≤ 0x12 ∧ (s.qPort q).isNone then some 4
  else match s.targetBad e.w1.toNat with
    | some r => some r
    | none =>
      if e.sel = 0x40 ∧ (e.w2.toNat % 4 ≠ 0 ∨ (pageOf e.w2.toNat).isNone) then some 9
      else if e.sel = 0x12 ∧ e.w2.toNat > 15 then some 3
      else none

/-- A selector of the bound port. -/
def State.portSel (s : State) (p : Port) (q : QNum) (e : Entry) : Bool :=
  match e.sel with
  | 1 => s.paperIn p
  | 2 => s.headShut p
  | 3 => wbits (s.pstat p) 3 1 == 1
  | 4 => wbits (s.pstat p) 4 1 == 1
  | 0x10 => decide (e.w2.toNat ≤ s.linesLeft p)
  | 0x11 => decide (e.w2.toNat ≤ s.deadCount p)
  | _ => (s.q q).profile == e.w2.toNat

/-- The selector's result; REG_ANY reads its register as the thread's own access (R105). -/
def State.selTrue (s : State) (q : QNum) (e : Entry) : State × Bool :=
  match e.sel with
  | 0 => (s, true)
  | 0x20 => (s, s.seq.event &&& e.w2 != 0)
  | 0x21 => (s, s.seq.event &&& e.w2 == e.w2)
  | 0x30 => (s, (s.thr q).timedOut)
  | 0x40 =>
    let (s, x) := s.busRead (.seq q) 4 e.w2
    (s, x.val &&& e.w3 != 0)
  | _ => match s.qPort q with
    | some p => (s, s.portSel p q e)
    | none => (s, false)

def State.ifState (s : State) (q : QNum) : State :=
  let ring : Bool := s.spot q == .ring
  s.issue q 0x44 fun e s u =>
    match s.ifBad q e with
    | some r => s.refuseCmd q u e r
    | none =>
      let (s, v) := s.selTrue q e
      if v == (e.sp / 2 ^ 15 % 2 == 1) then s.outcome q u St.ok
      else if s.limited q then s.refuseCmd q u e 7
      else
        let a := e.w1.toNat
        match ring, u with
        | true, some uid => (s.modThr q fun t => { t with transfers := t.transfers + 1 }).enterList q uid none a
        | _, _ => (s.countedTransfer q a).outcome q u St.ok

-- events and fences (R109 to R112)

def State.fence (s : State) (q : QNum) : State :=
  s.issueCmd q 0x50 fun _ s uid => (s.waitFor q uid).closeCalls q 6

/-- SIGNAL with FLAGS [1:0] = `op`. -/
def State.signal (s : State) (q : QNum) (op : Nat) (k : State → Word → State) : State :=
  match s.issuing q 0x51 with
  | none => s
  | some e => if e.flags % 4 = op then s.issue q 0x51 fun e s u => (k s e.w1).outcome q u St.ok else s

def State.eventToggle (s : State) (bits : Word) : State := (s.setEvent (s.seq.event ^^^ bits)).eventEval

def State.waitEvent (s : State) (q : QNum) : State :=
  s.issueCmd q 0x52 fun e s uid =>
    if e.w1 = 0 then s.badCmd q uid 3
    else if e.eventMet s.seq.event then s.eventTaken q uid e
    else s.modThr q fun t => { t with wait := .event uid s.time }

/-- WAIT_EVENT_TIMEOUT (R110). -/
def State.waitEventTimeout (s : State) (q : QNum) : State :=
  match (s.thr q).wait with
  | .event uid since =>
    match s.liveCmd q uid with
    | some c =>
      let ms := wbits c.e.w2 0 16
      if ms = 0 ∨ s.since since < ms * msTicks ∨ ¬ s.working Pg.seq then s
      else (s.modThr q fun t => { t with timedOut := true }).finish q uid St.partly
    | none => s
  | _ => s

-- register writes and keyed commands (R113, R114)

/-- ADDR of a WRITE_REG is not aligned, or lies in no decoded register page. -/
def Entry.addrBad (e : Entry) : Bool := e.w1.toNat % 4 != 0 || (pageOf e.w1.toNat).isNone

/-- The accesses of a WRITE_REG: whether one of them received the access-error response (01 R13). -/
def State.writeMasked (s : State) (rq : Requester) (keyed : Bool) (e : Entry) : State × Bool :=
  let (s, x) : State × Answer := if e.w3 = 0xFFFFFFFF then (s, ⟨rq, e.w1, 0, false, false, []⟩) else s.busRead rq 4 e.w1
  let (s, good) := s.busWrite rq keyed 4 e.w1 ((x.val &&& ~~~e.w3) ||| (e.w2 &&& e.w3))
  let (s, y) : State × Answer := if e.flags % 2 = 1 then s.busRead rq 4 e.w1 else (s, ⟨rq, e.w1, 0, false, false, []⟩)
  (s, x.err || !good || y.err)

/-- A WRITE_REG with a good ADDR runs for a requester of a ring or of the link: its status. -/
def State.runWrite (s : State) (rq : Requester) (keyed : Bool) (e : Entry) : State × Byte :=
  if ¬ keyed ∧ e.w3 &&& kwBits e.w1.toNat ≠ 0 then (s, St.authFail) else ((s.writeMasked rq keyed e).1, St.ok)

def State.writeReg (s : State) (q : QNum) : State :=
  s.issue q 0x60 fun e s u =>
    if e.addrBad then s.refuseCmd q u e 9
    else
      let (s, st) := s.runWrite (.seq q) false e
      s.outcome q u st

/-- The 16 bytes of an entry. -/
def Entry.bytes (e : Entry) : List Byte :=
  natBytes 4 e.w0.toNat ++ natBytes 4 e.w1.toNat ++ natBytes 4 e.w2.toNat ++ natBytes 4 e.w3.toNat

/-- Why an entry that a keyed command carries completes BAD_COMMAND before any check (R114, 16 R428). -/
def Entry.carriedBad (e : Entry) : Option Nat :=
  if e.opc ≠ 0x60 then some 0xB
  else match e.malformed with
    | some r => some r
    | none => if e.addrBad then some 9 else none

/-- A carried WRITE_REG under its keyed check: its status. -/
def State.runKeyed (s : State) (by_ : KeyedBy) (rq : Requester) (i : SlotNum) (ctr : Word) (t : List Byte) (e : Entry) :
    State × Byte :=
  let (s, good) := s.keyedCheck by_ i ctr t e.bytes (makerReg e.w1.toNat)
  if good then s.runWrite rq true e else (s, St.authFail)

/-- The KEYED pair at `idx` lies among the boot list's copied entries (19 R478). -/
def State.fromBoot (s : State) (q : QNum) (idx : BitVec 16) : Bool :=
  s.sec.bootQ.any fun (b : QNum × Nat) => b.1 == q && decide (idx.toNat + 1 < b.2)

/-- A KEYED of the ring waits for checks that SEC makes first (16 R413). DEDUCED, log entry 188. -/
def State.keyedWaits (s : State) (q : QNum) : Bool :=
  !s.secFree (.seq q) && s.spot q == .ring && (s.ringEntry q ((s.q q).next + 1)).carriedBad.isNone

def State.keyed (s : State) (q : QNum) : State :=
  if s.keyedWaits q then s else
  s.issueCmd q 0x61 fun e s uid =>
    match s.liveCmd q uid with
    | none => s
    | some c => match c.e2.carriedBad with
      | some r => s.badCmd q uid r
      | none =>
        let t := natBytes 4 e.w2.toNat ++ natBytes 4 e.w3.toNat
        let (s, st) := s.runKeyed (.seq (s.fromBoot q c.idx)) (.seq q) (Fin.ofNat 8 (e.sp % 8)) e.w1 t c.e2
        s.finish q uid st

def State.nop (s : State) (q : QNum) : State := s.issue q 0x7F fun _ s u => s.outcome q u St.ok

/-- MEDIA_ORDER_SATISFIED: the media command or selector that waited issues (R91). -/
def State.mediaSatisfied (s : State) (q : QNum) : State :=
  match s.nextEntry q with
  | none => s
  | some e =>
    if ¬ e.mediaOrdered then s
    else if e.opc = 0x20 then s.feed q
    else if e.opc = 0x21 then s.cut q
    else if e.opc = 0x22 then s.waitMedia q
    else s.ifState q

end Sys2Proof.Machine
end

