-- ==== Sys2Proof/Machine/Frames.lean ====
section
/-! DEFINITION. What hosts command from outside: the frames of the Castos link (15 R389 to R394), session requests
(16 R424), the mailbox WRITE (16 R428), the SPI target (17 R446 to R451) and the Transom (19 R486, R487). -/

namespace Sys2Proof.Machine

/-- 32-bit word `i` of a payload. -/
def payWord (l : List Byte) (i : Nat) : Word := wordOf l i

-- the link (15)

/-- A frame is executed: CSL_RXOK counts it (15 R403). -/
def State.rxOk (s : State) : State := s.count R.CSL_RXOK

/-- POLL (R391): always executed, never stored. DEDUCED, log entry 113. -/
def State.poll (s : State) (adr : Byte) (l : List Byte) : State :=
  s.request ⟨adr, 0x01, l⟩ fun s broadcast =>
    if broadcast then s
    else if ¬ l.isEmpty then s.answerNow adr (some (s.ack .badArg))
    else
      let s := s.rxOk
      s.answerNow adr (some (s.statusReply (s.irqSum 0 32) (s.irqSum 32 12) s.haltedWord s.cmplPend
        ((List.finRange 16).map s.credit)))

/-- The access of a register frame at `a`: an address outside a decoded page gets the access error (R392). -/
def State.pageRead (s : State) (a : Word) : State × Answer :=
  if (pageOf a.toNat).isSome then s.busRead .csl 4 a
  else (s.accessError .csl false a, { rq := .csl, addr := a, val := 0, err := true })

def State.pageWrite (s : State) (a v : Word) : State × Bool :=
  if (pageOf a.toNat).isSome then s.busWrite .csl false 4 a v else (s.accessError .csl true a, false)

/-- Read `n` registers from word address `a` on: the data, and the first read that got an access error. -/
def State.readRegs (s : State) (a : Word) (k : Nat) : Nat → State × List Byte × Option Nat
  | 0 => (s, [], none)
  | n + 1 =>
    let (s, x) := s.pageRead a
    let (s, l, bad) := s.readRegs (a + 4) (k + 1) n
    (s, natBytes 4 x.val.toNat ++ l, if x.err then some k else bad)

/-- REG_RD (R392). -/
def State.regRd (s : State) (adr : Byte) (l : List Byte) : State :=
  let r : Request := ⟨adr, 0x10, l⟩
  s.request r fun s broadcast =>
    let n := (l.getD 4 0).toNat
    if broadcast ∨ l.length ≠ 8 ∨ n = 0 ∨ n > 32 ∨ (l.drop 5).any (· != 0) then s.badArg r broadcast
    else
      let (s, d, bad) := s.rxOk.readRegs (payWord l 0) 0 n
      s.answerStored r (dataReply 0x82 bad d)

/-- Write `n` address and value pairs from pair `k` on: the first that got an access error or reached a KW field.
DEDUCED, log entry 116. -/
def State.writePairs (s : State) (l : List Byte) (k : Nat) : Nat → State × Option (Nat × Ack)
  | 0 => (s, none)
  | n + 1 =>
    let a := payWord l (2 * k)
    let (s, good) := s.pageWrite a (payWord l (2 * k + 1))
    let here : Option (Nat × Ack) :=
      if ¬ good then some (k, .access) else if kwBits a.toNat ≠ 0 then some (k, .kwDisc) else none
    let (s, later) := s.writePairs l (k + 1) n
    (s, here.or later)

/-- REG_WR (R392): the ACK means that the crossbar has accepted every write. -/
def State.regWr (s : State) (adr : Byte) (l : List Byte) : State :=
  let r : Request := ⟨adr, 0x11, l⟩
  s.request r fun s broadcast =>
    let n := l.length / 8
    if l.length % 8 ≠ 0 ∨ n = 0 ∨ n > 32 then s.badArg r broadcast
    else
      let (s, bad) := s.rxOk.writePairs l 0 n
      if broadcast then s
      else match bad with
        | some (k, st) => s.answerStored r (s.ack st k)
        | none => s.answerStored r (s.ack .ok)

/-- The entry in 16 bytes of a payload. -/
def payEntry (l : List Byte) (i : Nat) : Entry := ⟨payWord l i, payWord l (i + 1), payWord l (i + 2), payWord l (i + 3)⟩

/-- A keyed request of the link is checked and runs: KREG_WR, or CLOSE and TOUCH of SEC_REQ (R393; 16 R419). -/
def State.keyedRequest (s : State) (r : Request) : State × Reply :=
  let l := r.payload
  let i := r.slot
  if r.typ = 0x12 then
    let (s, st) := s.runKeyed .csl .csl i (payWord l 1) ((l.drop 8).take 8) (payEntry l 4)
    (s, s.ack (if st = St.ok then .ok else .authFail))
  else if l.getD 0 0 = 3 then
    let (s, st) := s.secClose .csl i (payWord l 1) (l.drop 8)
    (s, secRsp 3 st i [])
  else
    let (s, st) := s.secTouch .csl i (payWord l 1) (l.drop 8)
    (s, secRsp 4 st i [])

/-- A keyed request executes; with `slow`, or behind checks that SEC has still to make (16 R413), its check runs past the
reply slot, to the REQUEST_FINISH (R388). -/
def State.startKeyed (s : State) (r : Request) (slow : Bool) : State :=
  let s := s.rxOk
  if slow ∨ ¬ s.secFree .csl then
    ((s.answerNow r.adr none).checkBegins .csl).modCsl fun c =>
      { c with exec := some { req := r, addr := 0, left := 0, tried := s.time, keyed := true } }
  else
    let (s, p) := s.keyedRequest r
    s.answerStored r p

/-- KREG_WR (R393). -/
def State.kregWr (s : State) (adr : Byte) (l : List Byte) (slow : Bool) : State :=
  let r : Request := ⟨adr, 0x12, l⟩
  s.request r fun s broadcast =>
    let e := payEntry l 4
    let i := (l.getD 0 0).toNat
    if broadcast ∨ l.length ≠ 32 ∨ i > 7 ∨ ((l.drop 1).take 3).any (· != 0) ∨ e.carriedBad.isSome then s.badArg r broadcast
    else s.startKeyed r slow

/-- Write the words of entry data to the ring, from slot `i` on. -/
def State.ringFill (s : State) (q : QNum) (i : BitVec 16) (l : List Byte) (k : Nat) : Nat → State
  | 0 => s
  | n + 1 =>
    let a := s.ringAddr q (i + BitVec.ofNat 16 (k / 4)) + 4 * (k % 4)
    let (s, _) := s.busWrite .csl false 4 (BitVec.ofNat 32 a) (payWord l k)
    s.ringFill q i l (k + 1) n

/-- ENQ (R394): the entries, then the doorbell, which takes effect after them (01 R21). DEDUCED, log entry 114. -/
def State.enq (s : State) (adr : Byte) (l : List Byte) : State :=
  let r : Request := ⟨adr, 0x20, l⟩
  s.request r fun s broadcast =>
    let n := (l.getD 1 0).toNat
    let qn := (l.getD 0 0).toNat
    if broadcast ∨ l.length ≠ 4 + 16 * n ∨ n = 0 ∨ n > 15 ∨ qn > 15 ∨ ((l.drop 2).take 2).any (· != 0) then s.badArg r broadcast
    else
      let q : QNum := Fin.ofNat 16 qn
      let s := s.rxOk.settleWrites .csl (.page Pg.qmg)
      if s.qState q = 0 then s.answerStored r (s.ack .qRefused 0 (s.credit q))
      else if n > s.credit q then s.answerStored r (s.ack .qFull 0 (s.credit q))
      else
        let t := (s.q q).tail
        let s := s.ringFill q t (l.drop 4) 0 (4 * n)
        let db := BitVec.ofNat 32 (R.QMG_Qn_DB.addr q.val 0)
        let (s, _) := s.busWrite .csl false 4 db ((t + BitVec.ofNat 16 n).setWidth 32)
        let s := s.settleWrites .csl (.page Pg.qmg)
        s.answerStored r (s.ack .ok 0 (s.credit q))

/-- A range of memory that MEM and BULK frames may name: multiples of 4, within one region that is no register page
(R389). -/
def memRange (a n : Nat) : Bool :=
  a % 4 == 0 && n % 4 == 0 && decide (4 ≤ n) && decide (n ≤ 252) &&
  match areaOf a with
  | none => false
  | some (.page _) => false
  | some x => areaOf (a + n - 1) == some x

/-- Write words from a payload: whether one got the access error. -/
def State.writeWords (s : State) (a : Word) (l : List Byte) (k : Nat) : Nat → State × Bool
  | 0 => (s, false)
  | n + 1 =>
    let (s, good) := s.busWrite .csl false 4 a (payWord l k)
    let (s, bad) := s.writeWords (a + 4) l (k + 1) n
    (s, !good || bad)

/-- MEM_WR and BULK_WR. -/
def State.memWrite (s : State) (typ adr : Byte) (l : List Byte) : State :=
  let r : Request := ⟨adr, typ, l⟩
  s.request r fun s broadcast =>
    let n := l.length - 4
    if l.length < 8 ∨ ¬ memRange (payWord l 0).toNat n then s.badArg r broadcast
    else
      let (s, bad) := s.rxOk.writeWords (payWord l 0) (l.drop 4) 0 (n / 4)
      if broadcast then s else s.answerStored r (s.ack (if bad then .access else .ok))

/-- The reply of a finished MEM_RD or BULK_RD. -/
def LinkExec.reply (x : LinkExec) : Reply := dataReply (if x.req.typ = 0x31 then 0x84 else 0x83) x.bad x.data

/-- A read that still executes goes on, up to `n` words; it stops at a flash line that came back status-substituted,
and CSL clears its own FLC_HSUB bit (R388). -/
def State.linkRead (s : State) (x : LinkExec) : Nat → State × LinkExec
  | 0 => (s, x)
  | n + 1 =>
    let (s, v) := s.busRead .csl 4 (BitVec.ofNat 32 x.addr)
    if v.subst then (s.wr R.FLC_HSUB (s.rd R.FLC_HSUB &&& ~~~2), { x with tried := s.time })
    else
      let k := x.data.length / 4
      s.linkRead { x with
        addr := x.addr + 4, left := x.left - 1, data := x.data ++ natBytes 4 v.val.toNat,
        bad := if v.err && x.bad.isNone then some k else x.bad } n

/-- A request finishes before its slot: its reply waits for the slot (R385, R388). -/
def State.linkDone (s : State) (x : LinkExec) (r : Reply) : State :=
  s.modCsl fun c =>
    { c with stored := some x.req, reply := some r, exec := none,
             slot := c.slot.map fun (y : ReplySlot) => { y with reply := some (y.reply.getD r) } }

/-- REQUEST_FINISH: a request that still executed finishes; the real reply of one answered PENDING replaces the stored
one (R388). -/
def State.requestFinish (s : State) : State :=
  match s.csl.exec with
  | none => s
  | some x =>
    let finish (s : State) (r : Reply) : State :=
      if x.pending then s.modCsl fun c => { c with reply := some r, exec := none } else s.linkDone x r
    match x.done with
    | some r => finish s r
    | none =>
      if ¬ x.keyed ∨ ¬ s.secTurn .csl then s
      else
        let (s, r) := s.keyedRequest x.req
        finish (s.checkEnds .csl) r

/-- A read of the link stands as `x` says: finished, or still executing. -/
def State.linkStand (s : State) (x : LinkExec) : State :=
  if x.left ≠ 0 then s.modCsl fun c => { c with exec := some x }
  else if x.pending then s.modCsl fun c => { c with exec := some { x with done := some x.reply } }
  else s.linkDone x x.reply

/-- MEM_RD and BULK_RD. -/
def State.memRead (s : State) (typ adr : Byte) (l : List Byte) : State :=
  let r : Request := ⟨adr, typ, l⟩
  s.request r fun s broadcast =>
    let a := (payWord l 0).toNat
    let n := leNat ((l.drop 4).take 2)
    if broadcast ∨ l.length ≠ 8 ∨ (l.drop 6).any (· != 0) ∨ ¬ memRange a n then s.badArg r broadcast
    else
      let x : LinkExec := { req := r, addr := a, left := n / 4, tried := s.time }
      let (s, x) := (s.rxOk.answerNow adr none).linkRead x (n / 4)
      s.linkStand x

/-- CSL_FLASH_RETRY: every 1 µs (R388). -/
def State.cslFlashRetry (s : State) : State :=
  match s.csl.exec with
  | none => s
  | some x =>
    if x.left = 0 ∨ s.since x.tried < usTicks then s
    else
      let (s, x) := s.linkRead x x.left
      s.linkStand x

-- session requests (16 R424)

/-- A SEC_REQ frame with the OP of its row, which `f` executes and answers. -/
def State.secReq (s : State) (adr : Byte) (l : List Byte) (op : Byte) (good : Bool) (f : State → Request → State) : State :=
  let r : Request := ⟨adr, 0x40, l⟩
  s.request r fun s broadcast => if broadcast ∨ l.getD 0 0 ≠ op ∨ ¬ good then s.badArg r broadcast else f s r

def zeros (l : List Byte) (i n : Nat) : Bool := ((l.drop i).take n).all (· == 0)

/-- OPEN of a SEC_REQ frame (16 R424). DEDUCED, log entry 76. -/
def State.linkOpen (s : State) (adr : Byte) (l nd : List Byte) : State :=
  let ksel := (l.getD 1 0).toNat
  s.secReq adr l 1 (l.length == 24 && decide (ksel ≤ 1) && zeros l 2 6) fun s r =>
    let (s, st, i) := s.rxOk.secOpen .csl (ksel == 1) (l.drop 8) nd
    s.answerStored r (secRsp 1 st i (if st = .ok then nd else List.replicate 16 0))

/-- The slot that a session request names. -/
def paySlot (l : List Byte) : SlotNum := Fin.ofNat 8 (l.getD 1 0).toNat

def State.linkProve (s : State) (adr : Byte) (l : List Byte) : State :=
  s.secReq adr l 2 (l.length == 16 && decide ((l.getD 1 0).toNat < 8) && zeros l 2 6) fun s r =>
    let (s, st, pd) := s.rxOk.secProve .csl .csl (paySlot l) (l.drop 8)
    s.answerStored r (secRsp 2 st (paySlot l) pd)

def keyedForm (l : List Byte) : Bool := l.length == 16 && decide ((l.getD 1 0).toNat < 8) && zeros l 2 2

def State.linkClose (s : State) (adr : Byte) (l : List Byte) (slow : Bool) : State :=
  s.secReq adr l 3 (keyedForm l) fun s r => s.startKeyed r slow

def State.linkTouch (s : State) (adr : Byte) (l : List Byte) (slow : Bool) : State :=
  s.secReq adr l 4 (keyedForm l) fun s r => s.startKeyed r slow

/-- What the restriction of PROVISIONED lets the Transom reach (19 R487). -/
def restrictedReach (a : Nat) : Bool := pageOf a == some Pg.lcs || pageOf a == some Pg.sec

/-- MAILBOX_WRITE (16 R428), in its turn (16 R413). A restricted Transom reaches no page but LCS and SEC through its
mailbox either: the check runs, no access is made, and the operation ends ACCESS (19 R487; DEDUCED, log entry 112). -/
def State.mailboxWrite (s : State) (m : Fin 2) : State :=
  if ¬ s.mailboxRuns m 5 ∨ ¬ s.secTurn (mailboxRq m) then s
  else
    let d (k : Nat) : Word := s.rd R.SEC_MBm_DATAi m.val k
    let e : Entry := ⟨d 0, d 1, d 2, d 3⟩
    if e.carriedBad.isSome then s.mailboxEnd m .badArg
    else
      let barred := m.val = 1 ∧ s.transomRestricted ∧ ¬ restrictedReach e.w1.toNat
      let (s, good) := s.keyedCheck (mailboxBy m) (s.mailboxSlot m) (s.mailboxCtr m) (s.mailboxTag m) e.bytes
        (makerReg e.w1.toNat)
      if ¬ good then s.mailboxEnd m .authFail
      else if barred then s.mailboxEnd m .access
      else
        let (s, err) := s.writeMasked (mailboxRq m) true e
        s.mailboxEnd m (if err then .access else .ok)

-- the SPI target (17 R445 to R451)

/-- SCK clocks of `n` bits on one lane or on four (R446, R447). -/
def sptBits (quad : Bool) (n : Nat) : Nat := if quad then n / 4 else n

/-- The commands of R446. -/
inductive SptCmd
  | write (quad : Bool) | read (quad : Bool) | rdsr | rdid
  deriving DecidableEq, Repr

/-- The first byte of a transaction (R446). -/
def sptCommand (b : Byte) : Option SptCmd :=
  match b.toNat with
  | 0x02 => some (.write false)
  | 0x03 => some (.read false)
  | 0x32 => some (.write true)
  | 0xEB => some (.read true)
  | 0x05 => some .rdsr
  | 0x9F => some .rdid
  | _ => none

/-- The address phase: most significant byte first (R447). -/
def sptAddr (l : List Byte) : Word := BitVec.ofNat 32 (leNat (l.take 4).reverse)

/-- Command and address of a transaction as the host sends them. -/
def sptHead (cmd : Byte) (a : Word) : List Byte := cmd :: (natBytes 4 a.toNat).reverse

/-- The levels of a driven byte, clock by clock, as the driven balls of IO3 to IO0 and their levels: most significant
bit first on IO1, or bits [7:4] and then bits [3:0] on all four (R446, R447). -/
def sptDrive (quad : Bool) (b : Byte) : List (BitVec 4 × BitVec 4) :=
  if quad then [(0xF, (b >>> 4).setWidth 4), (0xF, b.setWidth 4)]
  else (List.range 8).reverse.map fun k => ((2 : BitVec 4), if b.getLsbD k then 2 else 0)

/-- What the device drove in the latest transaction; outside it the outputs are high-impedance (R445). -/
def State.sptDriven (s : State) : List (BitVec 4 × BitVec 4) := s.spt.out.flatMap (sptDrive s.spt.quad)

/-- A transaction of `clocks` SCK clocks is taken while SPT is in RUN; the mode is read at the falling edge of nCS,
which is low until the transaction ends (R445). -/
def State.sptTake (s : State) (mode3 quad : Bool) (clocks : Nat) (f : State → State × List Byte) : State :=
  if ¬ s.running Pg.spt then s
  else
    let (s, out) := f { s with spt := { s.spt with mode3 := mode3, active := true } }
    { s with spt := { mode3 := mode3, out := out, quad := quad, clocks := clocks } }

/-- An unknown command, or a misaligned address (R446, R447). -/
def State.sptBad (s : State) : State × List Byte := ((s.setBit F.SPT_ERR_CMDERR true).irq Pg.spt 6, [])

/-- An access took the access-error path. -/
def State.sptAerr (s : State) : State := ((s.setBit F.SPT_ERR_AERR true).count R.SPT_AERRS).irq Pg.spt 4

def State.sptWords (s : State) (a : Word) (l : List Byte) (k : Nat) : Nat → State
  | 0 => s
  | n + 1 =>
    let (s, good) := s.busWrite .spt false 4 a (payWord l k)
    (if good then s else s.sptAerr).sptWords (a + 4) l (k + 1) n

/-- WRITE and QWRITE of the data bytes `l` and `part` further bits: whole words are written; a partial last word is
discarded (R448, R451). -/
def State.sptWrite (s : State) (a : Word) (l : List Byte) (part : Nat) : State × List Byte :=
  if a.toNat % 4 ≠ 0 then s.sptBad
  else
    let s := s.sptWords a l 0 (l.length / 4)
    (if l.length % 4 = 0 ∧ part = 0 then s else ((s.setBit F.SPT_ERR_TRUNC true).count R.SPT_TRUNC).irq Pg.spt 5, [])

/-- The read of one word, behind `w` wait markers. -/
def State.sptWord (s : State) (a : Word) (w : Nat) : State × List Byte :=
  let s := s.wr R.SPT_WAITS (satAdd (s.rd R.SPT_WAITS) w)
  let (s, v) := s.busRead .spt 4 a
  (if v.err then s.sptAerr else s, List.replicate w 0xFF ++ (0xA5 : Byte) :: natBytes 4 v.val.toNat)

/-- Read `n` words from word `k` on, each behind its markers: as many 0xFF as `waits` lists, then 0xA5 (R449). Where
`waits` names one word more, nCS rises in that word, `part` bits after its wait markers: it has been read, and its
value is lost. -/
def State.sptData (s : State) (a : Word) (waits : List Nat) (part k : Nat) : Nat → State × List Byte
  | 0 =>
    if waits.length ≤ k then (s, [])
    else
      let (s, l) := s.sptWord a (waits.getD k 0)
      (s, l.take (waits.getD k 0 + part / 8))
  | n + 1 =>
    let (s, l) := s.sptWord a (waits.getD k 0)
    let (s, m) := s.sptData (a + 4) waits part (k + 1) n
    (s, l ++ m)

/-- SCK clocks of a read of `n` words (R446, R449): command, address, DUMMY clocks, markers and words. -/
def State.sptReadClocks (s : State) (quad : Bool) (n : Nat) (waits : List Nat) (part : Nat) : Nat :=
  8 + max 2 (s.fld F.SPT_CFG_DUMMY) + sptBits quad (32 + 40 * n + 8 * (waits.take (n + 1)).sum + part)

/-- The RDSR status byte (R450); `wip`: the crossbar has yet to accept a posted write of SPT. DEDUCED, log entry
118. DEDUCED, log entry 118. -/
def State.sptStatus (s : State) (wip : Bool) : Byte :=
  BitVec.ofNat 8 ((wip && s.bus.posted.any fun x => x.rq == .spt).toNat + (s.flag F.SPT_ERR_AERR).toNat * 2 +
    s.hirq.toNat * 4 + ((s.rd R.FLC_HSUB).getLsbD 0).toNat * 8)

/-- A transaction (R445 to R451): `l` the host's whole bytes on the lanes of the command, `part` further bits, and, of
the phases that the device drives, `n` words behind the markers that `waits` gives, or one status byte for each of
`wips`. DEDUCED, log entry 117. -/
def State.sptTransaction (s : State) (mode3 : Bool) (l : List Byte) (n : Nat) (waits : List Nat) (part : Nat)
    (wips : List Bool) : State :=
  let a := sptAddr (l.drop 1)
  match sptCommand (l.headD 0) with
  | some (.write q) =>
    s.sptTake mode3 q (8 + sptBits q (8 * (l.length - 1) + part)) fun s => s.sptWrite a (l.drop 5) part
  | some (.read q) =>
    s.sptTake mode3 q (s.sptReadClocks q n waits part) fun s =>
      if a.toNat % 4 ≠ 0 then s.sptBad else s.sptData a waits part 0 n
  | some .rdsr => s.sptTake mode3 false (8 + 8 * wips.length) fun s => (s, wips.map s.sptStatus)
  | some .rdid => s.sptTake mode3 false 40 fun s => (s, natBytes 4 (s.rd R.SYS_CHIP_ID).toNat)
  | none => s.sptTake mode3 false (8 * l.length) State.sptBad

-- the Transom (19 R486, R487)

def State.transomResult (s : State) (res : BitVec 2) : State := { s with chip := { s.chip with tres := res } }

/-- The Transom makes an access, `f`, which says whether it got the access error. It takes effect here and runs for a
free time (R486), in which Capture-DR shows the data of the read before. DESIGN CHOICE, log entry 189. -/
def State.transomMake (s : State) (f : State → State × Bool) : State :=
  let (n, s) := s.fresh
  let prev := s.chip.tdata
  let (s, err) := f s
  let s := s.transomResult (if err then 2 else 0)
  { s with chip := { s.chip with tuntil := s.time + (Config.freeWord n).setWidth 64, tprev := prev } }

/-- An access that the Transom is asked for: it makes none before step 8 of cast-on or where the life cycle closes it
(R486, R487). -/
def State.transomAccess (s : State) (a : Word) (f : State → State × Bool) : State :=
  if s.chip.phase ≠ .up then s.transomResult 1
  else if s.transomRestricted then
    (if restrictedReach a.toNat then s.transomMake f else s.transomResult 2)
  else if ¬ s.transomOpen then s.transomResult 3
  else s.transomMake f

def State.transomRead (s : State) (a : Word) : State :=
  s.transomAccess a fun s =>
    let (s, v) := s.busRead .transom 4 a
    ({ s with chip := { s.chip with tdata := v.val } }, v.err)

def State.transomWrite (s : State) (a v : Word) : State :=
  s.transomAccess a fun s =>
    let (s, good) := s.busWrite .transom false 4 a v
    (s, !good)

/-- The 66 bits that are shifted into the register of TRANSOM: OP, ADDR, DATA (R486). -/
def transomWord (op : BitVec 2) (addr data : Word) : BitVec 66 := op ++ addr ++ data

/-- Update-DR of the register of TRANSOM (R486): OP 0b01 reads, 0b10 writes, 0b00 starts nothing, nor does 0b11, which
the table does not list; an OP given while an access is running is ignored. DESIGN CHOICE, log entry 189. -/
def State.transomUpdate (s : State) (dr : BitVec 66) : State :=
  let addr : Word := dr.extractLsb' 32 32
  let data : Word := dr.extractLsb' 0 32
  if s.chip.tap ≠ .transom ∨ s.transomBusy then s
  else if dr.extractLsb' 64 2 = (1 : BitVec 2) then s.transomRead addr
  else if dr.extractLsb' 64 2 = (2 : BitVec 2) then s.transomWrite addr data
  else s

end Sys2Proof.Machine
end

