-- ==== Sys2Proof/Machine/Exec.lean ====
section
/-! DEFINITION. What every command's meaning shares: a command acts only while the chip is up, and a register write only
while its page is not RESETTING (02 R37, 19 R472). -/

namespace Sys2Proof.Machine

/-- What a command answers. -/
abbrev Res := Host.Outcome State Fault Refusal

/-- What no command but those of the TAP and power-on reaches: the queue of waiting commands, and the TAP's current
instruction (19 R486 to R489). DESIGN CHOICE, log entry 5. -/
def State.keepOuter (s t : State) : State := { t with pending := s.pending, chip := { t.chip with tap := s.chip.tap } }

/-- The queue of waiting commands alone. -/
def State.keepQueue (s t : State) : State := { t with pending := s.pending }

/-- A command that needs the chip up: before the end of cast-on, or while boundary scan holds the islands, it finds
nothing to act on (19 R472, R489). DEDUCED, log entry 6. -/
def whenUp (s : State) (f : State → State) : Res := .next (if s.chip.phase = .up then s.keepOuter (f s) else s)

/-- A register write of a page: discarded while the page is RESETTING (02 R37). -/
def whenPage (pg : PageIx) (s : State) (f : State → State) : Res :=
  whenUp s fun s => if (s.page pg).st = .resetting then s else f s

/-- A keyed or plain write of a block-specific register of a page. -/
def whenIf (b : State → Bool) (s : State) (f : State → State) : Res := whenUp s fun s => if b s then f s else s

/-- What the life cycle lets a requester reach: the Transom only where 19 R487 opens it (01 R13). -/
def State.mayAccess (s : State) (rq : Requester) (a : Word) : Bool :=
  rq != .transom || s.transomOpen || (s.transomRestricted && restrictedReach a.toNat)

/-- An access of a requester: a closed Transom makes none. -/
def whenMay (rq : Requester) (a : Word) (s : State) (f : State → State) : Res :=
  whenUp s fun s => if s.mayAccess rq a then f s else s

/-- The address of copy `i` of a register. -/
def wordAt (r : Reg) (i : Nat := 0) : Word := BitVec.ofNat 32 (r.addr i 0)

/-- The register at an address. -/
def regAt (a : Word) : Option Reg :=
  (pageOf a.toNat).bind fun pg => (findReg (pageRegs pg) a.toNat).map fun x => x.1

/-- The register at an address has the property. -/
def regIs (f : Reg → Bool) (a : Word) : Bool := (regAt a).any f

/-- An aligned register address the requester reaches (01 R13). -/
def reaches (rq : Requester) (wr : Bool) (a : Word) : Bool :=
  match areaOf a.toNat with
  | some (.page pg) => a.toNat % 4 == 0 && reach rq wr (.page pg)
  | _ => false

/-- A register write of a requester takes effect: after its earlier writes to the page (01 R19, R21, 02 R518), and not
while the page is RESETTING (02 R37). A write that reaches no register page as R13 and R30 ask goes the way of every
other crossbar write: to memory, or to the access-error outcome. -/
def whenWrite (rq : Requester) (a val : Word) (s : State) (f : State → State) : Res :=
  whenMay rq a s fun s =>
    match areaOf a.toNat with
    | some (.page pg) =>
      if ¬ reaches rq true a then s.writeAnswer rq false 4 a val
      else
        let s := s.settleBefore rq a.toNat pg
        if (s.page pg).st = .resetting then s else f s
    | _ => s.writeAnswer rq false 4 a val

end Sys2Proof.Machine
end

