-- ==== Sys2Proof/Machine/ExecAdc.lean ====
section
/-! DEFINITION. Meanings of the commands of chapter 11: the converter. -/

namespace Sys2Proof.Machine

/-- SCAN_START (11 R279). -/
def execScanStart (s : State) : Res := whenUp s fun s => s.scanStart

/-- ADC_START (11 R279): ADC_START.GO written 1. -/
def execAdcStart (s : State) : Res := whenPage Pg.adc s fun s => s.adcStart

/-- BACKGROUND_VISIT_START (11 R283). -/
def execBackgroundVisitStart (s : State) : Res := whenUp s fun s => s.bgStart

/-- ADC_WORD_END (11 R276, R287): a word of the decimation chain ends with the raw 24-bit code `raw`. -/
def execAdcWordEnd (l : UnitNum) (raw : BitVec 24) (s : State) : Res := whenUp s fun s => s.adcWordEnd l raw

/-- ADC_FIFO_READ (11 R286). -/
def execAdcFifoRead (rq : Requester) (s : State) : Res :=
  whenMay rq (wordAt R.ADC_FIFO_LO) s fun s => s.readAnswer rq 4 (wordAt R.ADC_FIFO_LO)

/-- BURST_REQUEST (11 R284). -/
def execBurstRequest (p : Port) (s : State) : Res := whenUp s fun s => s.burstRequest p

/-- INITIAL_CALIBRATION_DONE (11 R289). -/
def execInitialCalibrationDone (codes : List (List CalWords)) (s : State) : Res :=
  whenUp s fun s => s.initialCal codes

/-- SPARE_CALIBRATE (11 R290). -/
def execSpareCalibrate (codes : List CalWords) (s : State) : Res := whenUp s fun s => s.spareCal codes

/-- SPARE_HANDOVER (11 R291). -/
def execSpareHandover (l : UnitNum) (s : State) : Res := whenUp s fun s => s.spareHandover l

/-- SCAN_END (11 R279). -/
def execScanEnd (s : State) : Res := whenUp s fun s => s.scanEnd

end Sys2Proof.Machine
end

