-- ==== Sys2Proof/Machine/ExecCamera.lean ====
section
/-! DEFINITION. Meanings of the commands of chapter 13: cameras, verification pipelines, I²C. -/

namespace Sys2Proof.Machine

/-- CSI_FRAME_START (13 R318 to R321). -/
def execCsiFrameStart (vc : Fin 4) (fnum : BitVec 16) (ecc : HeaderEcc) (s : State) (first : Bool := true)
    (last : Bool := true) : Res :=
  whenUp s fun s => (s.lanesAt last).csiStart vc fnum ecc first

/-- CSI_FRAME_END (13 R320). -/
def execCsiFrameEnd (vc : Fin 4) (ecc : HeaderEcc) (s : State) (first : Bool := true) (last : Bool := true) : Res :=
  whenUp s fun s => (s.lanesAt last).csiEnd vc ecc first

/-- CSI_LONG_PACKET (13 R320). -/
def execCsiLongPacket (vc : Fin 4) (dt : BitVec 6) (pixels : List Nat) (ecc : HeaderEcc) (s : State) (first : Bool := true)
    (last : Bool := true) : Res :=
  whenUp s fun s => (s.lanesAt last).csiPacket vc dt pixels ecc first

/-- CSI_SOT_ERROR (13 R318). -/
def execCsiSotError (s : State) (last : Bool := true) : Res := whenUp s fun s => (s.lanesAt last).csiSot

/-- FRAME_RESULTS_FINAL (13 R322 to R336). -/
def execFrameResultsFinal (v : VpNum) (s : State) : Res := whenUp s fun s => s.frameFinal v

/-- ROUND_TURN_TIMEOUT (13 R321). -/
def execRoundTurnTimeout (v : VpNum) (s : State) : Res := whenUp s fun s => s.turnTimeout v

/-- LINE_EVAL_TIMEOUT (13 R334). -/
def execLineEvalTimeout (v : VpNum) (s : State) : Res := whenUp s fun s => s.lineEvalTimeout v

/-- FRAMELOSS (13 R338). -/
def execFrameloss (v : VpNum) (ctx : Fin 2) (s : State) : Res := whenUp s fun s => s.frameLoss v ctx

/-- SNAP_ARM (13 R327): SNAPCTL.ARM written 1. -/
def execSnapArm (v : VpNum) (s : State) : Res := whenPage (Pg.vp v) s fun s => s.snapArm v

/-- SNAPDATA_READ (13 R327). -/
def execSnapdataRead (rq : Requester) (v : VpNum) (s : State) : Res :=
  whenMay rq (wordAt R.VPn_SNAPDATA v.val) s fun s => s.readAnswer rq 4 (wordAt R.VPn_SNAPDATA v.val)

/-- STATS_HOLD_RELEASE (13 R326): STATCTL.HOLD written 0 while it is 1. -/
def execStatsHoldRelease (v : VpNum) (s : State) : Res :=
  whenPage (Pg.vp v) s fun s => if s.flag F.VPn_STATCTL_HOLD v.val then s.statsRelease v else s

/-- I2C_TRANSACTION (13 R330). -/
def execI2cTransaction (k : Fin 2) (cmd : Word) (s : State) : Res :=
  whenPage Pg.ic s fun s => s.i2cStart k cmd

/-- I2C_TRANSACTION_END (13 R331). -/
def execI2cTransactionEnd (k : Fin 2) (outcome : I2cOutcome) (rx : List Byte) (s : State) : Res :=
  whenUp s fun s => s.i2cEnd k outcome rx

/-- I2C_STRETCH_TIMEOUT (13 R331). -/
def execI2cStretchTimeout (k : Fin 2) (sdaLow stuck : Bool) (s : State) (us : Word := 0xFFFFFFFF) : Res :=
  whenUp s fun s => s.i2cTimeout k us sdaLow stuck

end Sys2Proof.Machine
end

