-- ==== Sys2Proof/Machine/ExecFault.lean ====
section
/-! DEFINITION. Meanings of the commands of chapter 18: faults. -/

namespace Sys2Proof.Machine

/-- FAULT_REPORT (18 R455 to R459). -/
def execFaultReport (s : State) : Res := whenUp s fun s => s.faultReport

/-- CRST_REACTION (18 R470): 1 µs after the recorded reaction; a stopped FCC resets nothing (18 R457). -/
def execCrstReaction (w : CastOnWorld) (s : State) : Res :=
  whenUp s fun s =>
    if ¬ s.chip.sysStopped ∧ s.fcc.crst.any fun t => decide (usTicks ≤ s.since t) then s.chipReset 2 w else s

/-- PATHBRK (18 R454). -/
def execPathbrk (pg : PageIx) (k : Fin 32) (s : State) (clocks : Word := 0xFFFFFFFF) : Res :=
  whenUp s fun s => s.pathbrk pg k clocks.toNat

/-- CLKLOSS (18 R457). -/
def execClkloss (s : State) (isl : Fin 11 := 0) (ticks : Word := 0xFFFFFFFF) (stopped : Bool := true) : Res :=
  whenUp s fun s => s.clkloss isl ticks.toNat stopped

/-- SYSCLK_LOSS_ALIVE_STOP (18 R457). -/
def execSysclkLossAliveStop (s : State) (ticks : Word := 0xFFFFFFFF) : Res :=
  whenUp s fun s => s.sysclkLoss ticks.toNat

/-- SHADOW_END (18 R465). -/
def execShadowEnd (pg : PageIx) (s : State) : Res := whenUp s fun s => s.shadowEnd pg

/-- FER_CLEAR (18 R462). -/
def execFerClear (id : Word) (s : State) : Res := whenUp s fun s => s.ferClear id

/-- FAULT_INJECT (18 R463): a keyed write of FCC_FORCEj. -/
def execFaultInject (j : Fin 4) (bits : Word) (s : State) : Res := whenUp s fun s => s.faultInject j bits

/-- PEND_CLEAR (18 R461). -/
def execPendClear (j : Fin 4) (bits : Word) (s : State) : Res := whenUp s fun s => s.pendClear j bits

/-- ALIVE_EDGE (18 R464). -/
def execAliveEdge (s : State) : Res := whenUp s fun s => s.aliveEdge

end Sys2Proof.Machine
end

