-- ==== Sys2Proof/Machine/ExecFlash.lean ====
section
/-! DEFINITION. Meanings of the commands of chapter 14: the flash controller. -/

namespace Sys2Proof.Machine

/-- FLC_PROGRAM (14 R358): a keyed write of FLC_CMD with CMD = 1. -/
def execFlcProgram (rq : Requester) (cmd : Word) (s : State) : Res :=
  whenWrite rq (wordAt R.FLC_CMD) cmd s fun s => if wbits cmd 28 4 = 1 then s.flcCommand rq cmd else s

/-- FLC_ERASE (14 R359): a keyed write of FLC_CMD with CMD = 2. -/
def execFlcErase (rq : Requester) (cmd : Word) (s : State) : Res :=
  whenWrite rq (wordAt R.FLC_CMD) cmd s fun s => if wbits cmd 28 4 = 2 then s.flcCommand rq cmd else s

/-- FLC_ERASE_BANK (14 R359): a keyed write of FLC_CMD with CMD = 3. -/
def execFlcEraseBank (rq : Requester) (cmd : Word) (s : State) : Res :=
  whenWrite rq (wordAt R.FLC_CMD) cmd s fun s => if wbits cmd 28 4 = 3 then s.flcCommand rq cmd else s

/-- FLC_BLANK (14 R361): a keyed write of FLC_CMD with CMD = 4. -/
def execFlcBlank (rq : Requester) (cmd : Word) (s : State) : Res :=
  whenWrite rq (wordAt R.FLC_CMD) cmd s fun s => if wbits cmd 28 4 = 4 then s.flcCommand rq cmd else s

/-- FLC_MARGIN (14 R361): a keyed write of FLC_CMD with CMD = 5. -/
def execFlcMargin (rq : Requester) (cmd : Word) (s : State) : Res :=
  whenWrite rq (wordAt R.FLC_CMD) cmd s fun s => if wbits cmd 28 4 = 5 then s.flcCommand rq cmd else s

/-- FLC_ERASE_BLOCK (14 R363): a keyed write of FLC_CMD with CMD = 6. -/
def execFlcEraseBlock (rq : Requester) (cmd : Word) (s : State) : Res :=
  whenWrite rq (wordAt R.FLC_CMD) cmd s fun s => if wbits cmd 28 4 = 6 then s.flcCommand rq cmd else s

/-- FLC_PROGRAM_PAGE (14 R364): a keyed write of FLC_CMD with CMD = 7. -/
def execFlcProgramPage (rq : Requester) (cmd : Word) (s : State) : Res :=
  whenWrite rq (wordAt R.FLC_CMD) cmd s fun s => if wbits cmd 28 4 = 7 then s.flcCommand rq cmd else s

/-- FLC_OTP_PROGRAM (14 R371): a keyed write of FLC_CMD with CMD = 8. -/
def execFlcOtpProgram (rq : Requester) (cmd : Word) (s : State) : Res :=
  whenWrite rq (wordAt R.FLC_CMD) cmd s fun s => if wbits cmd 28 4 = 8 then s.flcCommand rq cmd else s

/-- FLC_UNKNOWN_CMD (14 R355): a keyed write of FLC_CMD with a CMD that the table lacks. -/
def execFlcUnknownCmd (rq : Requester) (cmd : Word) (s : State) : Res :=
  whenWrite rq (wordAt R.FLC_CMD) cmd s fun s => if wbits cmd 28 4 = 0 ∨ 8 < wbits cmd 28 4 then s.flcCommand rq cmd else s

/-- FLASH_OPERATION_DONE (14 R357 to R361, R371). -/
def execFlashOperationDone (out : FlashOutcome) (s : State) : Res := whenUp s fun s => s.flashDone out

/-- FLASH_DEMAND_READ (14 R347 to R351). -/
def execFlashDemandRead (rq : Requester) (addr : Word) (s : State) : Res :=
  whenMay rq addr s fun s => if areaOf addr.toNat = some .flash then s.readAnswer rq 4 addr else s

/-- FLASH_PREFETCH (14 R348). -/
def execFlashPrefetch (cls : FlashClass) (s : State) : Res := whenUp s fun s => s.prefetch cls

/-- FLASH_SUSPEND (14 R352). -/
def execFlashSuspend (s : State) : Res := whenUp s fun s => s.flashSuspend

/-- FLASH_RESUME (14 R353). -/
def execFlashResume (s : State) : Res := whenUp s fun s => s.flashResume

/-- WBUF_WRITE (14 R356). -/
def execWbufWrite (rq : Requester) (j : Fin 128) (val : Word) (s : State) : Res :=
  whenWrite rq (wordAt R.FLC_WBUFj j.val) val s fun s => s.wbufWrite rq j.val val

/-- WBUF_CLEAR (14 R356). -/
def execWbufClear (s : State) : Res := whenPage Pg.flc s fun s => s.wbufClear

/-- PASSWORD_CHECK (14 R367): a keyed pair write of FLC_PWD. -/
def execPasswordCheck (lo hi : Word) (s : State) : Res := whenPage Pg.flc s fun s => s.pwdWrite lo hi

/-- PASSWORD_RELOCK (14 R367). -/
def execPasswordRelock (s : State) : Res := whenPage Pg.flc s fun s => s.passwordRelock

/-- PROT_WRITE (14 R366): a keyed write of FLC_PROTr. -/
def execProtWrite (r : Fin 8) (val : Word) (s : State) : Res := whenPage Pg.flc s fun s => s.protWrite r val

end Sys2Proof.Machine
end

