-- ==== Sys2Proof/Machine/ExecHead.lean ====
section
/-! DEFINITION. Meanings of the commands of chapter 07: the head ports. -/

namespace Sys2Proof.Machine

/-- START_OF_SCAN (06 R163, 07 R185 to R187). -/
def execStartOfScan (p : Port) (s : State) : Res := whenUp s fun s => s.startOfScan p

/-- LINE_TIMER_EXPIRE (07 R185). -/
def execLineTimerExpire (p : Port) (s : State) : Res := whenUp s fun s => s.lineTimerExpire p

/-- SLICE_LATCH (07 R181). -/
def execSliceLatch (p : Port) (s : State) : Res := whenUp s fun s => s.sliceLatch p

/-- SBA_GRANT (08 R206). -/
def execSbaGrant (p : Port) (s : State) : Res := whenUp s fun s => s.sbaGrant p

/-- STROBE_ON (07 R183). -/
def execStrobeOn (p : Port) (s : State) : Res := whenUp s fun s => s.strobeOn p

/-- SLICE_FIRE_END (07 R183, 08 R207). -/
def execSliceFireEnd (p : Port) (s : State) : Res := whenUp s fun s => s.sliceFireEnd p

/-- LINE_END (07 R184). DESIGN CHOICE, log entry 3. -/
def execLineEnd (p : Port) (s : State) : Res := whenUp s fun s => s.lineEnd p

/-- SHUTTER_CLOSE_HOST (07 R194). -/
def execShutterCloseHost (p : Port) (s : State) : Res := whenPage (Pg.hp p) s fun s => s.shutHost p

/-- SHUTTER_OPEN (07 R194). -/
def execShutterOpen (p : Port) (s : State) : Res := whenPage (Pg.hp p) s fun s => s.shutOpen p

/-- STBLONG (07 R197): the AON reference measures that one strobe output has been active for `us` microseconds without
a break; which one is not recorded. -/
def execStbLong (p : Port) (_strobe : Fin 8) (s : State) (us : Word := 0xFFFFFFFF) : Res :=
  whenUp s fun s => s.stbLong p us.toNat

/-- HP_ESYNC (07 R188). -/
def execHpEsync (p : Port) (pos : Word) (s : State) : Res := whenPage (Pg.hp p) s fun s => s.hpEsync p pos

end Sys2Proof.Machine
end

