-- ==== Sys2Proof/Machine/ExecHealth.lean ====
section
/-! DEFINITION. Meanings of the commands of chapter 09: element health. -/

namespace Sys2Proof.Machine

/-- ELEMENT_WINDOW_WRITE (09 R239): a keyed pair write, which leaves the requester's slot empty (02 R46, R47). -/
def execElementWindowWrite (rq : Requester) (lo hi : Word) (s : State) : Res :=
  whenWrite rq (wordAt R.EHM_EW_HI) hi s fun s => (s.setSnap rq none).ewWrite rq lo hi

/-- RESTORE_COPY_START (09 R226): a keyed write of EHM_RSTCTL. -/
def execRestoreCopyStart (ctl : Word) (s : State) : Res := whenPage Pg.ehm s fun s => s.rstStart ctl

/-- RESTORE_COPY_END (09 R226). -/
def execRestoreCopyEnd (s : State) : Res := whenUp s fun s => s.rstCopy

/-- MEASURE_SLOT_START (09 R229). -/
def execMeasureSlotStart (p : Port) (s : State) : Res := whenUp s fun s => s.measureStart p

/-- MEASURE_SLOT_END (09 R233). -/
def execMeasureSlotEnd (p : Port) (s : State) : Res := whenUp s fun s => s.measureEnd p

/-- SETTLE_EXPIRE (09 R236). -/
def execSettleExpire (p : Port) (s : State) : Res := whenUp s fun s => s.settleExpire p

/-- EHM_PRIO_ADD (09 R236). -/
def execEhmPrioAdd (p : Port) (elem : Word) (s : State) : Res :=
  whenPage Pg.ehm s fun s => s.prioAdd p (wbits elem 0 13)

/-- OPT_AUTO_ENABLE (09 R237): a keyed write of EHM_Pp_OPT. -/
def execOptAutoEnable (p : Port) (val : Word) (s : State) : Res := whenPage Pg.ehm s fun s => s.optWrite p val

/-- RESTORE_FLASH_RETRY (09 R226). -/
def execRestoreFlashRetry (s : State) : Res := whenUp s fun s => s.rstRetry

end Sys2Proof.Machine
end

