-- ==== Sys2Proof/Machine/ExecHeat.lean ====
section
/-! DEFINITION. Meanings of the commands of chapters 06 and 08: heat history and the supply budget. -/

namespace Sys2Proof.Machine

/-- LINE_COMPUTE (06 R165). -/
def execLineCompute (s : State) : Res := whenUp s fun s => s.lineCompute

/-- SOURCE_STALE (06 R159). -/
def execSourceStale (p : Port) (s : State) : Res := whenUp s fun s => s.sourceStale p

/-- HHE_PAUSE (06 R167). -/
def execHhePause (p : Port) (s : State) : Res := whenUp s fun s => s.hhePause p

/-- PROFILE_PUBLISH (06 R160). -/
def execProfilePublish (p : Port) (j : Fin 16) (ctl : Word) (s : State) : Res :=
  whenPage Pg.hhe s fun s => s.profilePublish p j ctl

/-- HHE_PORT_ENABLE (06 R170): EN goes 0 to 1. -/
def execHhePortEnable (p : Port) (s : State) : Res :=
  whenPage Pg.hhe s fun s => if s.flag F.HHE_Pp_CFG_EN p.val then s else s.hhePortEnable p

/-- HHE_PORT_DISABLE (06 R170): EN is written 0. -/
def execHhePortDisable (p : Port) (s : State) : Res := whenPage Pg.hhe s fun s => s.hhePortDisable p

/-- ENERGY_BUCKET_ROLL (08 R212). -/
def execEnergyBucketRoll (p : Port) (s : State) : Res := whenUp s fun s => s.rollBucket p

/-- GOVERNOR_RESUME_TIMEOUT (08 R216). -/
def execGovernorResumeTimeout (p : Port) (s : State) : Res := whenUp s fun s => s.govTimeout p

end Sys2Proof.Machine
end

