-- ==== Sys2Proof/Machine/ExecLife.lean ====
section
/-! DEFINITION. Meanings of the commands of chapters 19 and 20: resets, life cycle, debug. -/

namespace Sys2Proof.Machine

/-- POWER_ON_RESET (20 R498). -/
def execPowerOnReset (w : CastOnWorld) (s : State) (dip : Option SupplyDip := none) : Res :=
  .next (s.keepQueue (s.powerOn w dip))

/-- NRESET (20 R510). -/
def execNreset (lowNs : Nat) (taken : Bool) (w : CastOnWorld) (s : State) : Res :=
  .next (s.keepOuter (s.nReset lowNs taken w))

/-- PLL_LOCK_LOSS (19 R475). -/
def execPllLockLoss (w : CastOnWorld) (s : State) : Res := whenUp s fun s => s.chipReset 4 w

/-- TRANS_MAKER_TEST (19 R482): a keyed write of LCS_TRANS, or of LCS_OWNTRANS, with TARGET = 1. -/
def execTransMakerTest (own : Bool) (confirm : Byte) (s : State) : Res :=
  whenUp s fun s => s.transition own confirm 1

/-- TRANS_PROVISIONED (19 R482): a keyed write of LCS_TRANS, or of LCS_OWNTRANS, with TARGET = 2. -/
def execTransProvisioned (own : Bool) (confirm : Byte) (s : State) : Res :=
  whenUp s fun s => s.transition own confirm 2

/-- TRANS_FIELD (19 R482): a keyed write of LCS_TRANS, or of LCS_OWNTRANS, with TARGET = 3. -/
def execTransField (own : Bool) (confirm : Byte) (s : State) : Res :=
  whenUp s fun s => s.transition own confirm 3

/-- TRANS_RETURNED (19 R482): a keyed write of LCS_TRANS, or of LCS_OWNTRANS, with TARGET = 4. -/
def execTransReturned (own : Bool) (confirm : Byte) (s : State) : Res :=
  whenUp s fun s => s.transition own confirm 4

/-- TRANS_SCRAPPED (19 R484): a keyed write of LCS_TRANS, or of LCS_OWNTRANS, with TARGET = 5. -/
def execTransScrapped (own : Bool) (confirm : Byte) (s : State) : Res :=
  whenUp s fun s => s.transition own confirm 5

/-- KEY_PROGRAM (19 R481). -/
def execKeyProgram (rq : Requester) (sel : Bool) (s : State) : Res :=
  whenWrite rq (wordAt R.LCS_KEYPROG) (BitVec.ofNat 32 (2 * sel.toNat + 1)) s fun s => s.keyProgram rq sel

/-- TRANSOM_READ (19 R486): an Update-DR with OP 0b01. -/
def execTransomRead (addr : Word) (s : State) : Res := .next (s.keepOuter (s.transomUpdate (transomWord 1 addr 0)))

/-- TRANSOM_WRITE (19 R486): an Update-DR with OP 0b10. -/
def execTransomWrite (addr data : Word) (s : State) : Res :=
  .next (s.keepOuter (s.transomUpdate (transomWord 2 addr data)))

/-- BSCAN_EXTEST (19 R489). -/
def execBscanExtest (s : State) (bits : BitVec 547 := 0) (board : BitVec 217 := 0) : Res :=
  .next (s.keepQueue (s.bscanExtest bits board))

/-- BSCAN_CLAMP (19 R489). -/
def execBscanClamp (s : State) : Res := .next (s.keepQueue (s.bscanHold .clamp))

/-- BSCAN_HIGHZ (19 R489). -/
def execBscanHighz (s : State) : Res := .next (s.keepQueue (s.bscanHold .highz))

/-- BSCAN_SAMPLE_PRELOAD (19 R488). -/
def execBscanSamplePreload (s : State) (bits : BitVec 547 := 0) (board : BitVec 217 := 0) : Res :=
  .next (s.keepQueue (s.bscanPreload bits board))

/-- BSCAN_IDCODE (19 R488). -/
def execBscanIdcode (s : State) (tlr : Bool := false) : Res := .next (s.keepQueue (s.bscanIdcode tlr))

/-- BSCAN_BYPASS (19 R488). -/
def execBscanBypass (s : State) (code : BitVec 5 := 0x1F) : Res := .next (s.keepQueue (s.bscanBypass code))

/-- BSCAN_TRANSOM (19 R486). -/
def execBscanTransom (s : State) : Res := .next (s.keepQueue (s.bscanSelect .transom))

/-- BSCAN_RESET_RELEASE (19 R489). -/
def execBscanResetRelease (w : CastOnWorld) (s : State) : Res := .next (s.keepOuter (s.bscanRelease w))

/-- LCS_PROGRAMMING_END (19 R481, R483). -/
def execLcsProgrammingEnd (readBackGood : Bool) (w : CastOnWorld) (s : State) : Res :=
  whenUp s fun s => s.lcsEnd readBackGood w

end Sys2Proof.Machine
end

