-- ==== Sys2Proof/Machine/ExecLink.lean ====
section
/-! DEFINITION. Meanings of the commands of chapter 15: the Castos link. -/

namespace Sys2Proof.Machine

/-- POLL (15 R391). -/
def execPoll (adr : Byte) (payload : List Byte) (s : State) : Res := whenUp s fun s => s.poll adr payload

/-- REG_RD (15 R392). -/
def execRegRd (adr : Byte) (payload : List Byte) (s : State) : Res := whenUp s fun s => s.regRd adr payload

/-- REG_WR (15 R392). -/
def execRegWr (adr : Byte) (payload : List Byte) (s : State) : Res := whenUp s fun s => s.regWr adr payload

/-- KREG_WR (15 R393). -/
def execKregWr (adr : Byte) (payload : List Byte) (s : State) (slow : Bool := false) : Res :=
  whenUp s fun s => s.kregWr adr payload slow

/-- ENQ (15 R394). -/
def execEnq (adr : Byte) (payload : List Byte) (s : State) : Res := whenUp s fun s => s.enq adr payload

/-- MEM_WR (15 R389). -/
def execMemWr (adr : Byte) (payload : List Byte) (s : State) : Res :=
  whenUp s fun s => s.memWrite 0x21 adr payload

/-- MEM_RD (15 R389). -/
def execMemRd (adr : Byte) (payload : List Byte) (s : State) : Res :=
  whenUp s fun s => s.memRead 0x22 adr payload

/-- BULK_WR (15 R389). -/
def execBulkWr (adr : Byte) (payload : List Byte) (s : State) : Res :=
  whenUp s fun s => s.memWrite 0x30 adr payload

/-- BULK_RD (15 R389). -/
def execBulkRd (adr : Byte) (payload : List Byte) (s : State) : Res :=
  whenUp s fun s => s.memRead 0x31 adr payload

/-- REPLY_SLOT (15 R385, R386). -/
def execReplySlot (lineLeftIdle : Bool) (mismatchBit : Option Nat) (s : State) : Res :=
  whenUp s fun s => s.replySlot lineLeftIdle mismatchBit

/-- REQUEST_FINISH (15 R388). -/
def execRequestFinish (s : State) : Res := whenUp s fun s => s.requestFinish

/-- TXGUARD (15 R397). -/
def execTxguard (s : State) (ticks : Word := 0xFFFFFFFF) : Res := whenUp s fun s => s.txGuard ticks.toNat

/-- LINE_BREAK (15 R398). -/
def execLineBreak (s : State) (ticks : Word := 0xFFFFFFFF) : Res := whenUp s fun s => s.linkBreak ticks.toNat

/-- LINE_DEAD (15 R398). -/
def execLineDead (s : State) (ticks : Word := 0xFFFFFFFF) : Res := whenUp s fun s => s.linkDead ticks.toNat

/-- LINE_RESTORED (15 R398). -/
def execLineRestored (s : State) (ticks : Word := 0xFFFFFFFF) : Res :=
  whenUp s fun s => s.linkRestored ticks.toNat

/-- HOSTLOST (15 R399). -/
def execHostlost (s : State) : Res := whenUp s fun s => s.hostLost

/-- CSL_RATE_CHANGE (15 R401). -/
def execCslRateChange (s : State) : Res := whenUp s fun s => s.rateChange

/-- CSL_ADDR_WRITE (15 R382). -/
def execCslAddrWrite (rq : Requester) (val : Word) (s : State) : Res :=
  whenWrite rq (wordAt R.CSL_ADDR) val s fun s => s.addrWrite rq val

/-- CSL_FLASH_RETRY (15 R388). -/
def execCslFlashRetry (s : State) : Res := whenUp s fun s => s.cslFlashRetry

/-- BAD_FRAME (15 R381). -/
def execBadFrame (preamble : Bool) (bytes : List Byte) (damaged : Bool) (s : State) (goesOn : Bool := false) : Res :=
  whenUp s fun s => s.badFrame preamble bytes damaged goesOn

end Sys2Proof.Machine
end

