-- ==== Sys2Proof/Machine/ExecMedia.lean ====
section
/-! DEFINITION. Meanings of the commands of chapter 12: media sensing. -/

namespace Sys2Proof.Machine

/-- GPI_DEBOUNCE (12 R301). -/
def execGpiDebounce (i : Fin 16) (level : Bool) (s : State) (us : Word := 0xFFFFFFFF) : Res :=
  whenUp s fun s => s.gpiDebounce i level us

/-- UNIT_STALE (12 R308). -/
def execUnitStale (u : UnitNum) (s : State) : Res := whenUp s fun s => s.unitStale u

/-- MED_CALSTART (12 R309). -/
def execMedCalstart (units : BitVec 8) (s : State) : Res := whenPage Pg.med s fun s => s.medCalstart units

end Sys2Proof.Machine
end

