-- ==== Sys2Proof/Machine/ExecMotion.lean ====
section
/-! DEFINITION. Meanings of the commands of chapter 10: motion. -/

namespace Sys2Proof.Machine

/-- AX_MOVE (10 R250): AXn_CMD written with CMD = 1. -/
def execAxMove (a : AxNum) (sync : Bool) (s : State) : Res :=
  whenPage (Pg.ax a) s fun s => s.axCmdWrite a 1 sync

/-- AX_VEL (10 R254): AXn_CMD written with CMD = 2. -/
def execAxVel (a : AxNum) (sync : Bool) (s : State) : Res :=
  whenPage (Pg.ax a) s fun s => s.axCmdWrite a 2 sync

/-- AX_STOP (10 R251): AXn_CMD written with CMD = 3. -/
def execAxStop (a : AxNum) (sync : Bool) (s : State) : Res :=
  whenPage (Pg.ax a) s fun s => s.axCmdWrite a 3 sync

/-- AX_ESTOP (10 R251): AXn_CMD written with CMD = 4. -/
def execAxEstop (a : AxNum) (sync : Bool) (s : State) : Res :=
  whenPage (Pg.ax a) s fun s => s.axCmdWrite a 4 sync

/-- AX_LINEADV (10 R257): AXn_CMD written with CMD = 5. -/
def execAxLineadv (a : AxNum) (sync : Bool) (s : State) : Res :=
  whenPage (Pg.ax a) s fun s => s.axCmdWrite a 5 sync

/-- AX_GEAR (10 R262): AXn_CMD written with CMD = 6. -/
def execAxGear (a : AxNum) (sync : Bool) (s : State) : Res :=
  whenPage (Pg.ax a) s fun s => s.axCmdWrite a 6 sync

/-- AX_HOME (10 R265): AXn_CMD written with CMD = 7. -/
def execAxHome (a : AxNum) (sync : Bool) (s : State) : Res :=
  whenPage (Pg.ax a) s fun s => s.axCmdWrite a 7 sync

/-- AX_SETPOS (10 R254): AXn_CMD written with CMD = 8. -/
def execAxSetpos (a : AxNum) (sync : Bool) (s : State) : Res :=
  whenPage (Pg.ax a) s fun s => s.axCmdWrite a 8 sync

/-- MOC_GO (10 R254). -/
def execMocGo (axes : BitVec 8) (s : State) : Res := whenPage Pg.moc s fun s => s.mocGo axes

/-- MOC_ESTOP (10 R251). -/
def execMocEstop (axes : BitVec 8) (s : State) : Res := whenPage Pg.moc s fun s => s.mocEstop axes

/-- PROFILE_TICK (10 R248). -/
def execProfileTick (a : AxNum) (s : State) : Res := whenUp s fun s => s.profileTick a

/-- STEP_EMIT (10 R245). -/
def execStepEmit (a : AxNum) (s : State) : Res := whenUp s fun s => s.stepEmit a

/-- LINE_ADVANCE (10 R257). -/
def execLineAdvance (p : Port) (s : State) : Res := whenUp s fun s => s.lineAdvance p

/-- CURRENT_STANDBY (10 R253). -/
def execCurrentStandby (a : AxNum) (s : State) : Res := whenUp s fun s => s.currentStandby a

/-- STALL (10 R260). -/
def execStall (a : AxNum) (s : State) : Res := whenUp s fun s => s.axStall a

/-- QE_COUNT (10 R266). -/
def execQeCount (e : QeNum) (levelA levelB : Bool) (s : State) (stable : Word := 0xFFFFFFFF) : Res :=
  whenUp s fun s => s.qeCount e levelA levelB stable

/-- QE_INDEX (10 R267). -/
def execQeIndex (e : QeNum) (s : State) (level : Bool := true) (stable : Word := 0xFFFFFFFF) : Res :=
  whenUp s fun s => s.qeIndex e level stable

/-- QE_RATE_WINDOW (10 R267). -/
def execQeRateWindow (e : QeNum) (s : State) : Res := whenUp s fun s => s.qeRateWindow e

/-- INVALID_TRANSITION (10 R266). -/
def execInvalidTransition (e : QeNum) (levelA levelB : Bool) (s : State) (stable : Word := 0xFFFFFFFF) : Res :=
  whenUp s fun s => s.qeInvalid e levelA levelB stable

end Sys2Proof.Machine
end

