-- ==== Sys2Proof/Machine/ExecQueues.lean ====
section
/-! DEFINITION. Meanings of the commands of chapter 03: the queues. -/

namespace Sys2Proof.Machine

/-- DOORBELL (03 R56): after the requester's earlier writes to working RAM (01 R21). -/
def execDoorbell (q : QNum) (t : BitVec 16) (s : State) (rq : Requester := .csl) : Res :=
  whenWrite rq (wordAt R.QMG_Qn_DB q.val) (t.setWidth 32) s fun s => s.doorbell q t

/-- CRD_WRITE (03 R65). -/
def execCrdWrite (q : QNum) (v : BitVec 16) (s : State) : Res := whenPage Pg.qmg s fun s => s.crdWrite q v

/-- QUEUE_ENABLE (03 R53, R54): QMG_Qn_CFG written with EN = 1. -/
def execQueueEnable (q : QNum) (cfg : Word) (s : State) : Res :=
  whenPage Pg.qmg s fun s => if cfg.getLsbD 0 then s.queueEnable q cfg else s

/-- QUEUE_DISABLE (03 R83): QMG_Qn_CFG written with EN = 0. -/
def execQueueDisable (q : QNum) (cfg : Word) (s : State) : Res :=
  whenPage Pg.qmg s fun s => if cfg.getLsbD 0 then s else s.queueDisable q cfg

/-- QUEUE_RECONFIGURE (03 R84): 0 QMG_Qn_CFG, 1 QMG_Qn_RING, 2 QMG_Qn_CRING. -/
def execQueueReconfigure (q : QNum) (reg : Fin 3) (val : Word) (s : State) : Res :=
  whenPage Pg.qmg s fun s => s.queueReconfigure q reg val

/-- RCMD_RESUME (03 R76). -/
def execRcmdResume (q : QNum) (s : State) : Res := whenPage Pg.qmg s fun s => s.rcmdResume q

/-- RCMD_SKIP_JOB (03 R77). -/
def execRcmdSkipJob (q : QNum) (s : State) : Res := whenPage Pg.qmg s fun s => s.rcmdSkip q

/-- RCMD_FLUSH (03 R78). -/
def execRcmdFlush (q : QNum) (s : State) : Res := whenPage Pg.qmg s fun s => s.rcmdFlush q

/-- COMPLETION_WRITE (03 R63 to R68). -/
def execCompletionWrite (q : QNum) (s : State) : Res := whenUp s fun s => s.completionWrite q

/-- AUTO_RECOVERY (03 R81). -/
def execAutoRecovery (q : QNum) (s : State) : Res := whenUp s fun s => s.autoRecovery q

end Sys2Proof.Machine
end

