-- ==== Sys2Proof/Machine/ExecRegs.lean ====
section
/-! DEFINITION. Meanings of the commands of chapters 00 to 02: register access, block states, shadow sets, SYS. -/

namespace Sys2Proof.Machine

/-- REGISTER_WRITE (00 R7): the write takes effect at its block by its access types. -/
def execRegisterWrite (rq : Requester) (addr val : Word) (s : State) : Res :=
  whenWrite rq addr val s fun s => s.regWrite rq false addr.toNat val

/-- CROSSBAR_ACCESS (01 R13 to R16): performed, posted, or answered with the access error. -/
def execCrossbarAccess (rq : Requester) (wr : Bool) (size : Nat) (addr val : Word) (s : State) (beats : List Word := []) : Res :=
  whenMay rq addr s fun s =>
    if isBurst size then
      (if wr then s.burstWrite rq size addr (val :: beats) else s.burstRead rq size addr)
    else if wr then s.writeAnswer rq false size addr val else s.readAnswer rq size addr

/-- WRITE_TAKES_EFFECT (01 R18 to R21): the requester's oldest posted write to that page or region. -/
def execWriteTakesEffect (rq : Requester) (addr : Word) (s : State) : Res :=
  whenUp s fun s =>
    match areaOf addr.toNat with
    | some ar => s.takeEffect rq ar
    | none => s

/-- LO_READ_SNAPSHOT (02 R46). -/
def execLoReadSnapshot (rq : Requester) (addr : Word) (s : State) : Res :=
  whenMay rq addr s fun s => if regIs (fun r => r.hiHalf.isSome) addr then s.readAnswer rq 4 addr else s

/-- HI_READ (02 R46). -/
def execHiRead (rq : Requester) (addr : Word) (s : State) : Res :=
  whenMay rq addr s fun s => if regIs Reg.isHi addr then s.readAnswer rq 4 addr else s

/-- LO_WRITE_HOLD (02 R47). Every writable pair is one of FLC_PWD, EHM_EW and SEC_MBm_TAG; the first two are written
inside a keyed command (04 R114). -/
def execLoWriteHold (rq : Requester) (addr val : Word) (s : State) : Res :=
  whenWrite rq addr val s fun s => if regIs Reg.isPairLo addr then s.regWrite rq true addr.toNat val else s

/-- HI_WRITE_PAIR (02 R47). -/
def execHiWritePair (rq : Requester) (addr val : Word) (s : State) : Res :=
  whenWrite rq addr val s fun s => if regIs Reg.isPairHi addr then s.regWrite rq true addr.toNat val else s

/-- COUNTER_CLEAR (02 R48): zero clears the count and SAT; another value is ignored. -/
def execCounterClear (rq : Requester) (addr val : Word) (s : State) : Res :=
  whenWrite rq addr val s fun s => if regIs (fun r => r.sat) addr then s.regWrite rq false addr.toNat val else s

/-- BLOCK_ENABLE (02 R36, R37): PG_CTRL.EN written 1. -/
def execBlockEnable (pg : PageIx) (s : State) : Res := whenPage pg s fun s => s.blockEnable pg

/-- BLOCK_DRAIN (02 R36, R38): PG_CTRL.EN written 0. -/
def execBlockDrain (pg : PageIx) (s : State) : Res := whenPage pg s fun s => s.blockDrain pg

/-- DRAIN_COMPLETE (02 R36). -/
def execDrainComplete (pg : PageIx) (s : State) : Res := whenUp s fun s => s.drainComplete pg

/-- BLOCK_SRST (02 R37, R38): PG_CTRL.SRST written 1. -/
def execBlockSrst (pg : PageIx) (s : State) : Res := whenPage pg s fun s => s.blockSrst pg

/-- RESET_COMPLETE (18 R467). -/
def execResetComplete (pg : PageIx) (s : State) : Res := whenUp s fun s => s.resetComplete pg

/-- PG_COMMIT (02 R43): PG_COMMIT.COMMIT written 1. -/
def execPgCommit (pg : PageIx) (s : State) : Res :=
  whenPage pg s fun s => if hasSet pg then s.pgCommit pg else s

/-- COMMIT_DONE (02 R43): the pending set of a running block is taken at its boundary. -/
def execCommitDone (pg : PageIx) (s : State) : Res :=
  whenUp s fun s => if (s.page pg).pend && s.running pg && atBoundary pg then s.takeSet pg else s

/-- PG_FLT_FORCE (02 R41, 18 R463): a keyed write. -/
def execPgFltForce (pg : PageIx) (bits : Word) (s : State) : Res := whenPage pg s fun s => s.pgForce pg bits

/-- SYS_SWRST (02 R51): a keyed write of 0xA5 resets the chip with cause SWRST; so does one already posted. -/
def execSysSwrst (val : Word) (w : CastOnWorld) (s : State) : Res :=
  whenUp s fun s => if wbits val 0 8 = 0xA5 ∨ s.chip.swrst then s.chipReset 3 w else s

/-- AERR_CLEAR (02 R51). -/
def execAerrClear (val : Word) (s : State) : Res := whenUp s fun s => s.aerrClear val

end Sys2Proof.Machine
end

