-- ==== Sys2Proof/Machine/ExecRnd.lean ====
section
/-! DEFINITION. Meanings of the commands of chapter 05 that RND and SKN give themselves. -/

namespace Sys2Proof.Machine

/-- BAND_WAIT_GRANT (05 R130). -/
def execBandWaitGrant (s : State) : Res := whenUp s fun s => s.bandWaitGrant

/-- STEP_AGED (05 R130). -/
def execStepAged (p : Port) (s : State) : Res := whenUp s fun s => s.stepAged p

/-- DRAW_COMPLETE (04 R96, 05 R137 to R145). -/
def execDrawComplete (p : Port) (s : State) : Res := whenUp s fun s => s.drawComplete p

/-- RND_DIR_CHECK (05 R134): RND_DIR is written. -/
def execRndDirCheck (val : Word) (s : State) : Res := whenPage Pg.rnd s fun s => s.rndDirWrite val

/-- RND_FLASH_RETRY (05 R145). -/
def execRndFlashRetry (p : Port) (s : State) : Res := whenUp s fun s => s.rndFlashRetry p

end Sys2Proof.Machine
end

