-- ==== Sys2Proof/Machine/ExecSeq.lean ====
section
/-! DEFINITION. Meanings of the commands of chapter 04, and of the composition commands of chapter 05, issued by a thread. -/

namespace Sys2Proof.Machine

/-- UNDEFINED_OPCODE (04 R87, R519). -/
def execUndefinedOpcode (t : QNum) (s : State) : Res := whenUp s fun s => s.issueMalformed t

/-- JOB_BEGIN (04 R93). -/
def execJobBegin (t : QNum) (s : State) : Res := whenUp s fun s => s.jobBegin t

/-- JOB_END (04 R93). -/
def execJobEnd (t : QNum) (s : State) : Res := whenUp s fun s => s.jobEnd t

/-- BAND_RAW (05 R142). -/
def execBandRaw (t : QNum) (s : State) : Res := whenUp s fun s => s.compose t 0x10

/-- TEXT_RUN (05 R138). -/
def execTextRun (t : QNum) (s : State) : Res := whenUp s fun s => s.compose t 0x11

/-- LOGO (05 R139). -/
def execLogo (t : QNum) (s : State) : Res := whenUp s fun s => s.compose t 0x12

/-- RULE (05 R140). -/
def execRule (t : QNum) (s : State) : Res := whenUp s fun s => s.compose t 0x13

/-- BARS (05 R141). -/
def execBars (t : QNum) (s : State) : Res := whenUp s fun s => s.compose t 0x14

/-- PRINT (04 R97). -/
def execPrint (t : QNum) (s : State) : Res := whenUp s fun s => s.print t

/-- PRINT_COMMIT (05 R127). -/
def execPrintCommit (t : QNum) (s : State) : Res := whenUp s fun s => s.printCommit t

/-- FEED (04 R98). -/
def execFeed (t : QNum) (s : State) : Res := whenUp s fun s => s.feed t

/-- CUT (04 R98). -/
def execCut (t : QNum) (s : State) : Res := whenUp s fun s => s.cut t

/-- WAIT_MEDIA (04 R99). -/
def execWaitMedia (t : QNum) (s : State) : Res := whenUp s fun s => s.waitMedia t

/-- MEDIA_ORDER_SATISFIED (04 R91). -/
def execMediaOrderSatisfied (t : QNum) (s : State) : Res := whenUp s fun s => s.mediaSatisfied t

/-- WAIT_MEDIA_TIMEOUT (04 R99). -/
def execWaitMediaTimeout (t : QNum) (s : State) : Res := whenUp s fun s => s.waitTimeout t

/-- SET_PROFILE (04 R100). -/
def execSetProfile (t : QNum) (s : State) : Res := whenUp s fun s => s.setProfile t

/-- VERIFY_OPEN (04 R101). -/
def execVerifyOpen (t : QNum) (s : State) : Res := whenUp s fun s => s.verify t false

/-- VERIFY_CLOSE (04 R101). -/
def execVerifyClose (t : QNum) (s : State) : Res := whenUp s fun s => s.verify t true

/-- JUMP (04 R104). -/
def execJump (t : QNum) (s : State) : Res := whenUp s fun s => s.jump t

/-- CALL (04 R103). -/
def execCall (t : QNum) (s : State) : Res := whenUp s fun s => s.callCmd t

/-- RET (04 R103). -/
def execRet (t : QNum) (s : State) : Res := whenUp s fun s => s.ret t

/-- LOOP (04 R104). -/
def execLoop (t : QNum) (s : State) : Res := whenUp s fun s => s.loop t

/-- IF_STATE (04 R105). -/
def execIfState (t : QNum) (s : State) : Res := whenUp s fun s => s.ifState t

/-- FENCE (04 R112). -/
def execFence (t : QNum) (s : State) : Res := whenUp s fun s => s.fence t

/-- SIGNAL_SET (04 R109). -/
def execSignalSet (t : QNum) (s : State) : Res := whenUp s fun s => s.signal t 0 State.eventSet

/-- SIGNAL_CLEAR (04 R109). -/
def execSignalClear (t : QNum) (s : State) : Res := whenUp s fun s => s.signal t 1 State.eventClr

/-- SIGNAL_PULSE (04 R109). -/
def execSignalPulse (t : QNum) (s : State) : Res := whenUp s fun s => s.signal t 2 State.eventPulse

/-- SIGNAL_TOGGLE (04 R109). -/
def execSignalToggle (t : QNum) (s : State) : Res := whenUp s fun s => s.signal t 3 State.eventToggle

/-- WAIT_EVENT (04 R110). -/
def execWaitEvent (t : QNum) (s : State) : Res := whenUp s fun s => s.waitEvent t

/-- WAIT_EVENT_TIMEOUT (04 R110). -/
def execWaitEventTimeout (t : QNum) (s : State) : Res := whenUp s fun s => s.waitEventTimeout t

/-- SEQ_EVENT_SET (04 R111). -/
def execSeqEventSet (bits : Word) (s : State) : Res := whenPage Pg.seq s fun s => s.eventSet bits

/-- SEQ_EVENT_CLR (04 R111). -/
def execSeqEventClr (bits : Word) (s : State) : Res := whenPage Pg.seq s fun s => s.eventClr bits

/-- WRITE_REG (04 R113). -/
def execWriteReg (t : QNum) (s : State) : Res := whenUp s fun s => s.writeReg t

/-- KEYED (04 R114). -/
def execKeyed (t : QNum) (s : State) : Res := whenUp s fun s => s.keyed t

/-- NOP (04 R115). -/
def execNop (t : QNum) (s : State) : Res := whenUp s fun s => s.nop t

/-- BTC_INVALIDATE (04 R116). -/
def execBtcInvalidate (s : State) : Res := whenPage Pg.seq s fun s => s.btcEmpty

/-- SEQ_FLASH_RETRY (04 R117). -/
def execSeqFlashRetry (t : QNum) (s : State) : Res := whenUp s fun s => s.seqFlashRetry t

/-- LIST_ENTRY_FETCH (04 R118). -/
def execListEntryFetch (t : QNum) (s : State) : Res := whenUp s fun s => s.listFetch t

/-- TRAP_LIST_START (04 R119). -/
def execTrapListStart (t : QNum) (s : State) : Res := whenUp s fun s => s.trapStart t

end Sys2Proof.Machine
end

