-- ==== Sys2Proof/Machine/ExecSerial.lean ====
section
/-! DEFINITION. Meanings of the commands of chapter 17: UARTs and the SPI target. -/

namespace Sys2Proof.Machine

/-- UART_CHAR_RECEIVED (17 R432 to R435). -/
def execUartCharReceived (u : UaNum) (samples : List (List Bool)) (s : State) (low : Bool := false)
    (rose : Bool := false) : Res :=
  whenUp s fun s => s.uaReceive u samples low rose

/-- UART_DATA_READ (17 R435). -/
def execUartDataRead (rq : Requester) (u : UaNum) (s : State) : Res :=
  whenMay rq (wordAt R.UAn_DATA u.val) s fun s => s.readAnswer rq 4 (wordAt R.UAn_DATA u.val)

/-- UART_DATA_WRITE (17 R436): the same for every requester that reaches the page. -/
def execUartDataWrite (rq : Requester) (u : UaNum) (val : Word) (s : State) : Res :=
  whenWrite rq (wordAt R.UAn_DATA u.val) val s fun s => s.uaWrite u val

/-- UART_TX_CHAR (17 R436, R438). -/
def execUartTxChar (u : UaNum) (cts : Bool) (ball : List Bool) (s : State) : Res :=
  whenUp s fun s => s.uaTransmit u cts ball

/-- UART_COLL_CLEAR (17 R438). -/
def execUartCollClear (u : UaNum) (s : State) : Res := whenPage (Pg.ua u) s fun s => s.uaCollClear u

/-- UART_BREAK (17 R437). -/
def execUartBreak (u : UaNum) (s : State) (ticks : BitVec 64 := 0xFFFFFFFFFFFFFFFF) : Res :=
  whenUp s fun s => s.uaBreak u ticks.toNat

/-- UART_LINE_DEAD (17 R437). -/
def execUartLineDead (u : UaNum) (s : State) (ticks : BitVec 64 := 0xFFFFFFFFFFFFFFFF) : Res :=
  whenUp s fun s => s.uaDead u ticks.toNat

/-- UART_LINE_RESTORED (17 R437). -/
def execUartLineRestored (u : UaNum) (s : State) (ticks : BitVec 64 := 0xFFFFFFFFFFFFFFFF) : Res :=
  whenUp s fun s => s.uaRestored u ticks.toNat

/-- UART_FEED_ENQUEUE (17 R440). -/
def execUartFeedEnqueue (u : UaNum) (s : State) : Res := whenUp s fun s => s.feedEnqueue u

/-- FEED_GAP_DISCARD (17 R440). -/
def execFeedGapDiscard (u : UaNum) (s : State) : Res := whenUp s fun s => s.feedGap u

/-- SPT_WRITE (17 R447), on one lane. -/
def execSptWrite (mode3 : Bool) (addr : Word) (data : List Byte) (s : State) (part : Nat := 0) : Res :=
  whenUp s fun s => s.sptTransaction mode3 (sptHead 0x02 addr ++ data) 0 [] part []

/-- SPT_READ (17 R449), on one lane. -/
def execSptRead (mode3 : Bool) (addr : Word) (words : Nat) (waits : List Nat) (s : State) (part : Nat := 0) : Res :=
  whenUp s fun s => s.sptTransaction mode3 (sptHead 0x03 addr) words waits part []

/-- SPT_QWRITE (17 R447), on four lanes. -/
def execSptQwrite (mode3 : Bool) (addr : Word) (data : List Byte) (s : State) (part : Nat := 0) : Res :=
  whenUp s fun s => s.sptTransaction mode3 (sptHead 0x32 addr ++ data) 0 [] part []

/-- SPT_QREAD (17 R449), on four lanes. -/
def execSptQread (mode3 : Bool) (addr : Word) (words : Nat) (waits : List Nat) (s : State) (part : Nat := 0) : Res :=
  whenUp s fun s => s.sptTransaction mode3 (sptHead 0xEB addr) words waits part []

/-- SPT_RDSR (17 R450). -/
def execSptRdsr (mode3 : Bool) (s : State) (wips : List Bool := [false]) : Res :=
  whenUp s fun s => s.sptTransaction mode3 [0x05] 0 [] 0 wips

/-- SPT_RDID (17 R446). -/
def execSptRdid (mode3 : Bool) (s : State) : Res := whenUp s fun s => s.sptTransaction mode3 [0x9F] 0 [] 0 []

/-- SPT_UNKNOWN_CMD (17 R446): a first byte that names no command. -/
def execSptUnknownCmd (mode3 : Bool) (s : State) (cmd : Byte := 0) : Res :=
  whenUp s fun s => if (sptCommand cmd).isSome then s else s.sptTransaction mode3 [cmd] 0 [] 0 []

end Sys2Proof.Machine
end

