-- ==== Sys2Proof/Machine/ExecSession.lean ====
section
/-! DEFINITION. Meanings of the commands of chapter 16: sessions and mailboxes. -/

namespace Sys2Proof.Machine

/-- SEC_OPEN (16 R407): ND is what the random source gives. -/
def execSecOpen (src : SecSource) (nd : BitVec 128) (s : State) : Res :=
  whenUp s fun s =>
    match src with
    | .link adr payload => s.linkOpen adr payload (natBytes 16 nd.toNat)
    | .mailbox m => s.mailboxOpen m (natBytes 16 nd.toNat)

/-- SEC_PROVE (16 R408). -/
def execSecProve (src : SecSource) (s : State) : Res :=
  whenUp s fun s =>
    match src with
    | .link adr payload => s.linkProve adr payload
    | .mailbox m => s.mailboxProve m

/-- SEC_CLOSE (16 R419). -/
def execSecClose (src : SecSource) (s : State) (slow : Bool := false) : Res :=
  whenUp s fun s =>
    match src with
    | .link adr payload => s.linkClose adr payload slow
    | .mailbox m => s.mailboxClose m

/-- SEC_TOUCH (16 R419). -/
def execSecTouch (src : SecSource) (s : State) (slow : Bool := false) : Res :=
  whenUp s fun s =>
    match src with
    | .link adr payload => s.linkTouch adr payload slow
    | .mailbox m => s.mailboxTouch m

/-- MAILBOX_WRITE (16 R428). -/
def execMailboxWrite (m : Fin 2) (s : State) : Res := whenUp s fun s => s.mailboxWrite m

/-- OPEN_TIMEOUT (16 R409). -/
def execOpenTimeout (i : SlotNum) (s : State) : Res := whenUp s fun s => s.openTimeout i

/-- SESSION_IDLE_CLOSE (16 R420). -/
def execSessionIdleClose (i : SlotNum) (s : State) : Res := whenUp s fun s => s.idleClose i

/-- BOOTEND (16 R422). -/
def execBootend (s : State) : Res := whenPage Pg.sec s fun s => s.bootEnd

end Sys2Proof.Machine
end

