-- ==== Sys2Proof/Machine/Dispatch.lean ====
section
/-! DEFINITION. One arm per command: each calls its meaning. -/

namespace Sys2Proof.Machine

def exec (i : Instr) (s : State) : Host.Outcome State Fault Refusal :=
  match i with
  | .registerWrite rq addr val => Sys2Proof.Machine.execRegisterWrite rq addr val s
  | .crossbarAccess rq wr size addr val beats => Sys2Proof.Machine.execCrossbarAccess rq wr size addr val s beats
  | .writeTakesEffect rq addr => Sys2Proof.Machine.execWriteTakesEffect rq addr s
  | .loReadSnapshot rq addr => Sys2Proof.Machine.execLoReadSnapshot rq addr s
  | .hiRead rq addr => Sys2Proof.Machine.execHiRead rq addr s
  | .loWriteHold rq addr val => Sys2Proof.Machine.execLoWriteHold rq addr val s
  | .hiWritePair rq addr val => Sys2Proof.Machine.execHiWritePair rq addr val s
  | .counterClear rq addr val => Sys2Proof.Machine.execCounterClear rq addr val s
  | .blockEnable pg => Sys2Proof.Machine.execBlockEnable pg s
  | .blockDrain pg => Sys2Proof.Machine.execBlockDrain pg s
  | .drainComplete pg => Sys2Proof.Machine.execDrainComplete pg s
  | .blockSrst pg => Sys2Proof.Machine.execBlockSrst pg s
  | .resetComplete pg => Sys2Proof.Machine.execResetComplete pg s
  | .pgCommit pg => Sys2Proof.Machine.execPgCommit pg s
  | .commitDone pg => Sys2Proof.Machine.execCommitDone pg s
  | .pgFltForce pg bits => Sys2Proof.Machine.execPgFltForce pg bits s
  | .sysSwrst val w => Sys2Proof.Machine.execSysSwrst val w s
  | .aerrClear val => Sys2Proof.Machine.execAerrClear val s
  | .doorbell q t rq => Sys2Proof.Machine.execDoorbell q t s rq
  | .crdWrite q v => Sys2Proof.Machine.execCrdWrite q v s
  | .queueEnable q cfg => Sys2Proof.Machine.execQueueEnable q cfg s
  | .queueDisable q cfg => Sys2Proof.Machine.execQueueDisable q cfg s
  | .queueReconfigure q reg val => Sys2Proof.Machine.execQueueReconfigure q reg val s
  | .rcmdResume q => Sys2Proof.Machine.execRcmdResume q s
  | .rcmdSkipJob q => Sys2Proof.Machine.execRcmdSkipJob q s
  | .rcmdFlush q => Sys2Proof.Machine.execRcmdFlush q s
  | .completionWrite q => Sys2Proof.Machine.execCompletionWrite q s
  | .autoRecovery q => Sys2Proof.Machine.execAutoRecovery q s
  | .undefinedOpcode t => Sys2Proof.Machine.execUndefinedOpcode t s
  | .jobBegin t => Sys2Proof.Machine.execJobBegin t s
  | .jobEnd t => Sys2Proof.Machine.execJobEnd t s
  | .bandRaw t => Sys2Proof.Machine.execBandRaw t s
  | .textRun t => Sys2Proof.Machine.execTextRun t s
  | .logo t => Sys2Proof.Machine.execLogo t s
  | .rule t => Sys2Proof.Machine.execRule t s
  | .bars t => Sys2Proof.Machine.execBars t s
  | .print t => Sys2Proof.Machine.execPrint t s
  | .printCommit t => Sys2Proof.Machine.execPrintCommit t s
  | .feed t => Sys2Proof.Machine.execFeed t s
  | .cut t => Sys2Proof.Machine.execCut t s
  | .waitMedia t => Sys2Proof.Machine.execWaitMedia t s
  | .mediaOrderSatisfied t => Sys2Proof.Machine.execMediaOrderSatisfied t s
  | .waitMediaTimeout t => Sys2Proof.Machine.execWaitMediaTimeout t s
  | .setProfile t => Sys2Proof.Machine.execSetProfile t s
  | .verifyOpen t => Sys2Proof.Machine.execVerifyOpen t s
  | .verifyClose t => Sys2Proof.Machine.execVerifyClose t s
  | .jump t => Sys2Proof.Machine.execJump t s
  | .call t => Sys2Proof.Machine.execCall t s
  | .ret t => Sys2Proof.Machine.execRet t s
  | .loop t => Sys2Proof.Machine.execLoop t s
  | .ifState t => Sys2Proof.Machine.execIfState t s
  | .fence t => Sys2Proof.Machine.execFence t s
  | .signalSet t => Sys2Proof.Machine.execSignalSet t s
  | .signalClear t => Sys2Proof.Machine.execSignalClear t s
  | .signalPulse t => Sys2Proof.Machine.execSignalPulse t s
  | .signalToggle t => Sys2Proof.Machine.execSignalToggle t s
  | .waitEvent t => Sys2Proof.Machine.execWaitEvent t s
  | .waitEventTimeout t => Sys2Proof.Machine.execWaitEventTimeout t s
  | .seqEventSet bits => Sys2Proof.Machine.execSeqEventSet bits s
  | .seqEventClr bits => Sys2Proof.Machine.execSeqEventClr bits s
  | .writeReg t => Sys2Proof.Machine.execWriteReg t s
  | .keyed t => Sys2Proof.Machine.execKeyed t s
  | .nop t => Sys2Proof.Machine.execNop t s
  | .btcInvalidate => Sys2Proof.Machine.execBtcInvalidate s
  | .seqFlashRetry t => Sys2Proof.Machine.execSeqFlashRetry t s
  | .listEntryFetch t => Sys2Proof.Machine.execListEntryFetch t s
  | .trapListStart t => Sys2Proof.Machine.execTrapListStart t s
  | .bandWaitGrant => Sys2Proof.Machine.execBandWaitGrant s
  | .stepAged p => Sys2Proof.Machine.execStepAged p s
  | .drawComplete p => Sys2Proof.Machine.execDrawComplete p s
  | .rndDirCheck val => Sys2Proof.Machine.execRndDirCheck val s
  | .rndFlashRetry p => Sys2Proof.Machine.execRndFlashRetry p s
  | .lineCompute => Sys2Proof.Machine.execLineCompute s
  | .sourceStale p => Sys2Proof.Machine.execSourceStale p s
  | .hhePause p => Sys2Proof.Machine.execHhePause p s
  | .profilePublish p j ctl => Sys2Proof.Machine.execProfilePublish p j ctl s
  | .hhePortEnable p => Sys2Proof.Machine.execHhePortEnable p s
  | .hhePortDisable p => Sys2Proof.Machine.execHhePortDisable p s
  | .startOfScan p => Sys2Proof.Machine.execStartOfScan p s
  | .lineTimerExpire p => Sys2Proof.Machine.execLineTimerExpire p s
  | .sliceLatch p => Sys2Proof.Machine.execSliceLatch p s
  | .sbaGrant p => Sys2Proof.Machine.execSbaGrant p s
  | .strobeOn p => Sys2Proof.Machine.execStrobeOn p s
  | .sliceFireEnd p => Sys2Proof.Machine.execSliceFireEnd p s
  | .lineEnd p => Sys2Proof.Machine.execLineEnd p s
  | .shutterCloseHost p => Sys2Proof.Machine.execShutterCloseHost p s
  | .shutterOpen p => Sys2Proof.Machine.execShutterOpen p s
  | .stbLong p strobe us => Sys2Proof.Machine.execStbLong p strobe s us
  | .hpEsync p pos => Sys2Proof.Machine.execHpEsync p pos s
  | .energyBucketRoll p => Sys2Proof.Machine.execEnergyBucketRoll p s
  | .governorResumeTimeout p => Sys2Proof.Machine.execGovernorResumeTimeout p s
  | .elementWindowWrite rq lo hi => Sys2Proof.Machine.execElementWindowWrite rq lo hi s
  | .restoreCopyStart ctl => Sys2Proof.Machine.execRestoreCopyStart ctl s
  | .restoreCopyEnd => Sys2Proof.Machine.execRestoreCopyEnd s
  | .measureSlotStart p => Sys2Proof.Machine.execMeasureSlotStart p s
  | .measureSlotEnd p => Sys2Proof.Machine.execMeasureSlotEnd p s
  | .settleExpire p => Sys2Proof.Machine.execSettleExpire p s
  | .ehmPrioAdd p elem => Sys2Proof.Machine.execEhmPrioAdd p elem s
  | .optAutoEnable p val => Sys2Proof.Machine.execOptAutoEnable p val s
  | .axMove a sync => Sys2Proof.Machine.execAxMove a sync s
  | .axVel a sync => Sys2Proof.Machine.execAxVel a sync s
  | .axStop a sync => Sys2Proof.Machine.execAxStop a sync s
  | .axEstop a sync => Sys2Proof.Machine.execAxEstop a sync s
  | .axLineadv a sync => Sys2Proof.Machine.execAxLineadv a sync s
  | .axGear a sync => Sys2Proof.Machine.execAxGear a sync s
  | .axHome a sync => Sys2Proof.Machine.execAxHome a sync s
  | .axSetpos a sync => Sys2Proof.Machine.execAxSetpos a sync s
  | .mocGo axes => Sys2Proof.Machine.execMocGo axes s
  | .mocEstop axes => Sys2Proof.Machine.execMocEstop axes s
  | .profileTick a => Sys2Proof.Machine.execProfileTick a s
  | .stepEmit a => Sys2Proof.Machine.execStepEmit a s
  | .lineAdvance p => Sys2Proof.Machine.execLineAdvance p s
  | .currentStandby a => Sys2Proof.Machine.execCurrentStandby a s
  | .stall a => Sys2Proof.Machine.execStall a s
  | .qeCount e levelA levelB stable => Sys2Proof.Machine.execQeCount e levelA levelB s stable
  | .qeIndex e level stable => Sys2Proof.Machine.execQeIndex e s level stable
  | .qeRateWindow e => Sys2Proof.Machine.execQeRateWindow e s
  | .scanStart => Sys2Proof.Machine.execScanStart s
  | .adcStart => Sys2Proof.Machine.execAdcStart s
  | .backgroundVisitStart => Sys2Proof.Machine.execBackgroundVisitStart s
  | .adcWordEnd l raw => Sys2Proof.Machine.execAdcWordEnd l raw s
  | .adcFifoRead rq => Sys2Proof.Machine.execAdcFifoRead rq s
  | .burstRequest p => Sys2Proof.Machine.execBurstRequest p s
  | .initialCalibrationDone means => Sys2Proof.Machine.execInitialCalibrationDone means s
  | .spareCalibrate means => Sys2Proof.Machine.execSpareCalibrate means s
  | .spareHandover l => Sys2Proof.Machine.execSpareHandover l s
  | .gpiDebounce k level us => Sys2Proof.Machine.execGpiDebounce k level s us
  | .unitStale u => Sys2Proof.Machine.execUnitStale u s
  | .medCalstart units => Sys2Proof.Machine.execMedCalstart units s
  | .csiFrameStart vc fnum ecc first last => Sys2Proof.Machine.execCsiFrameStart vc fnum ecc s first last
  | .csiFrameEnd vc ecc first last => Sys2Proof.Machine.execCsiFrameEnd vc ecc s first last
  | .csiLongPacket vc dt pixels ecc first last => Sys2Proof.Machine.execCsiLongPacket vc dt pixels ecc s first last
  | .csiSotError last => Sys2Proof.Machine.execCsiSotError s last
  | .frameResultsFinal v => Sys2Proof.Machine.execFrameResultsFinal v s
  | .roundTurnTimeout v => Sys2Proof.Machine.execRoundTurnTimeout v s
  | .lineEvalTimeout v => Sys2Proof.Machine.execLineEvalTimeout v s
  | .frameloss v ctx => Sys2Proof.Machine.execFrameloss v ctx s
  | .snapArm v => Sys2Proof.Machine.execSnapArm v s
  | .snapdataRead rq v => Sys2Proof.Machine.execSnapdataRead rq v s
  | .statsHoldRelease v => Sys2Proof.Machine.execStatsHoldRelease v s
  | .i2cTransaction k cmd => Sys2Proof.Machine.execI2cTransaction k cmd s
  | .i2cTransactionEnd k outcome rx => Sys2Proof.Machine.execI2cTransactionEnd k outcome rx s
  | .i2cStretchTimeout k sdaLow stuck us => Sys2Proof.Machine.execI2cStretchTimeout k sdaLow stuck s us
  | .flcProgram rq cmd => Sys2Proof.Machine.execFlcProgram rq cmd s
  | .flcErase rq cmd => Sys2Proof.Machine.execFlcErase rq cmd s
  | .flcEraseBank rq cmd => Sys2Proof.Machine.execFlcEraseBank rq cmd s
  | .flcBlank rq cmd => Sys2Proof.Machine.execFlcBlank rq cmd s
  | .flcMargin rq cmd => Sys2Proof.Machine.execFlcMargin rq cmd s
  | .flcEraseBlock rq cmd => Sys2Proof.Machine.execFlcEraseBlock rq cmd s
  | .flcProgramPage rq cmd => Sys2Proof.Machine.execFlcProgramPage rq cmd s
  | .flcOtpProgram rq cmd => Sys2Proof.Machine.execFlcOtpProgram rq cmd s
  | .flcUnknownCmd rq cmd => Sys2Proof.Machine.execFlcUnknownCmd rq cmd s
  | .flashOperationDone out => Sys2Proof.Machine.execFlashOperationDone out s
  | .flashDemandRead rq addr => Sys2Proof.Machine.execFlashDemandRead rq addr s
  | .flashPrefetch cls => Sys2Proof.Machine.execFlashPrefetch cls s
  | .flashSuspend => Sys2Proof.Machine.execFlashSuspend s
  | .flashResume => Sys2Proof.Machine.execFlashResume s
  | .wbufWrite rq j val => Sys2Proof.Machine.execWbufWrite rq j val s
  | .wbufClear => Sys2Proof.Machine.execWbufClear s
  | .passwordCheck lo hi => Sys2Proof.Machine.execPasswordCheck lo hi s
  | .passwordRelock => Sys2Proof.Machine.execPasswordRelock s
  | .protWrite r val => Sys2Proof.Machine.execProtWrite r val s
  | .poll adr payload => Sys2Proof.Machine.execPoll adr payload s
  | .regRd adr payload => Sys2Proof.Machine.execRegRd adr payload s
  | .regWr adr payload => Sys2Proof.Machine.execRegWr adr payload s
  | .kregWr adr payload slow => Sys2Proof.Machine.execKregWr adr payload s slow
  | .enq adr payload => Sys2Proof.Machine.execEnq adr payload s
  | .memWr adr payload => Sys2Proof.Machine.execMemWr adr payload s
  | .memRd adr payload => Sys2Proof.Machine.execMemRd adr payload s
  | .bulkWr adr payload => Sys2Proof.Machine.execBulkWr adr payload s
  | .bulkRd adr payload => Sys2Proof.Machine.execBulkRd adr payload s
  | .replySlot lineLeftIdle mismatchBit => Sys2Proof.Machine.execReplySlot lineLeftIdle mismatchBit s
  | .requestFinish => Sys2Proof.Machine.execRequestFinish s
  | .txguard ticks => Sys2Proof.Machine.execTxguard s ticks
  | .lineBreak ticks => Sys2Proof.Machine.execLineBreak s ticks
  | .lineDead ticks => Sys2Proof.Machine.execLineDead s ticks
  | .lineRestored ticks => Sys2Proof.Machine.execLineRestored s ticks
  | .hostlost => Sys2Proof.Machine.execHostlost s
  | .cslRateChange => Sys2Proof.Machine.execCslRateChange s
  | .cslAddrWrite rq val => Sys2Proof.Machine.execCslAddrWrite rq val s
  | .secOpen src nd => Sys2Proof.Machine.execSecOpen src nd s
  | .secProve src => Sys2Proof.Machine.execSecProve src s
  | .secClose src slow => Sys2Proof.Machine.execSecClose src s slow
  | .secTouch src slow => Sys2Proof.Machine.execSecTouch src s slow
  | .mailboxWrite m => Sys2Proof.Machine.execMailboxWrite m s
  | .openTimeout k => Sys2Proof.Machine.execOpenTimeout k s
  | .sessionIdleClose k => Sys2Proof.Machine.execSessionIdleClose k s
  | .bootend => Sys2Proof.Machine.execBootend s
  | .uartCharReceived u samples low rose => Sys2Proof.Machine.execUartCharReceived u samples s low rose
  | .uartDataRead rq u => Sys2Proof.Machine.execUartDataRead rq u s
  | .uartDataWrite rq u val => Sys2Proof.Machine.execUartDataWrite rq u val s
  | .uartTxChar u cts ball => Sys2Proof.Machine.execUartTxChar u cts ball s
  | .uartCollClear u => Sys2Proof.Machine.execUartCollClear u s
  | .uartBreak u ticks => Sys2Proof.Machine.execUartBreak u s ticks
  | .uartLineDead u ticks => Sys2Proof.Machine.execUartLineDead u s ticks
  | .uartLineRestored u ticks => Sys2Proof.Machine.execUartLineRestored u s ticks
  | .uartFeedEnqueue u => Sys2Proof.Machine.execUartFeedEnqueue u s
  | .feedGapDiscard u => Sys2Proof.Machine.execFeedGapDiscard u s
  | .sptWrite mode3 addr data part => Sys2Proof.Machine.execSptWrite mode3 addr data s part
  | .sptRead mode3 addr words waits part => Sys2Proof.Machine.execSptRead mode3 addr words waits s part
  | .sptQwrite mode3 addr data part => Sys2Proof.Machine.execSptQwrite mode3 addr data s part
  | .sptQread mode3 addr words waits part => Sys2Proof.Machine.execSptQread mode3 addr words waits s part
  | .sptRdsr mode3 wips => Sys2Proof.Machine.execSptRdsr mode3 s wips
  | .sptRdid mode3 => Sys2Proof.Machine.execSptRdid mode3 s
  | .sptUnknownCmd mode3 cmd => Sys2Proof.Machine.execSptUnknownCmd mode3 s cmd
  | .faultReport => Sys2Proof.Machine.execFaultReport s
  | .crstReaction w => Sys2Proof.Machine.execCrstReaction w s
  | .pathbrk pg k clocks => Sys2Proof.Machine.execPathbrk pg k s clocks
  | .clkloss isl ticks stopped => Sys2Proof.Machine.execClkloss s isl ticks stopped
  | .sysclkLossAliveStop ticks => Sys2Proof.Machine.execSysclkLossAliveStop s ticks
  | .shadowEnd pg => Sys2Proof.Machine.execShadowEnd pg s
  | .ferClear id => Sys2Proof.Machine.execFerClear id s
  | .faultInject j bits => Sys2Proof.Machine.execFaultInject j bits s
  | .pendClear j bits => Sys2Proof.Machine.execPendClear j bits s
  | .powerOnReset w dip => Sys2Proof.Machine.execPowerOnReset w s dip
  | .nreset lowNs taken w => Sys2Proof.Machine.execNreset lowNs taken w s
  | .pllLockLoss w => Sys2Proof.Machine.execPllLockLoss w s
  | .transMakerTest own confirm => Sys2Proof.Machine.execTransMakerTest own confirm s
  | .transProvisioned own confirm => Sys2Proof.Machine.execTransProvisioned own confirm s
  | .transField own confirm => Sys2Proof.Machine.execTransField own confirm s
  | .transReturned own confirm => Sys2Proof.Machine.execTransReturned own confirm s
  | .transScrapped own confirm => Sys2Proof.Machine.execTransScrapped own confirm s
  | .keyProgram rq sel => Sys2Proof.Machine.execKeyProgram rq sel s
  | .transomRead addr => Sys2Proof.Machine.execTransomRead addr s
  | .transomWrite addr data => Sys2Proof.Machine.execTransomWrite addr data s
  | .bscanExtest bits board => Sys2Proof.Machine.execBscanExtest s bits board
  | .bscanClamp => Sys2Proof.Machine.execBscanClamp s
  | .bscanHighz => Sys2Proof.Machine.execBscanHighz s
  | .bscanSamplePreload bits board => Sys2Proof.Machine.execBscanSamplePreload s bits board
  | .bscanIdcode tlr => Sys2Proof.Machine.execBscanIdcode s tlr
  | .bscanBypass code => Sys2Proof.Machine.execBscanBypass s code
  | .bscanTransom => Sys2Proof.Machine.execBscanTransom s
  | .bscanResetRelease w => Sys2Proof.Machine.execBscanResetRelease w s
  | .restoreFlashRetry => Sys2Proof.Machine.execRestoreFlashRetry s
  | .cslFlashRetry => Sys2Proof.Machine.execCslFlashRetry s
  | .aliveEdge => Sys2Proof.Machine.execAliveEdge s
  | .scanEnd => Sys2Proof.Machine.execScanEnd s
  | .badFrame preamble bytes damaged goesOn => Sys2Proof.Machine.execBadFrame preamble bytes damaged s goesOn
  | .invalidTransition e levelA levelB stable => Sys2Proof.Machine.execInvalidTransition e levelA levelB s stable
  | .lcsProgrammingEnd readBackGood w => Sys2Proof.Machine.execLcsProgrammingEnd readBackGood w s

end Sys2Proof.Machine
end

