-- ==== Sys2Proof/Machine/Step.lean ====
section
/-! DEFINITION. One step: the command at the front of the queue, or one tick of the timestamp where none waits. -/

namespace Sys2Proof.Machine

/-- With no command waiting: the timestamp advances by one tick of 10 ns while the chip is up (02 R50). DESIGN CHOICE,
log entry 2. -/
def State.idleTick (s : State) : State := if s.chip.phase = .up then { s with time := s.time + 1 } else s

/-- The block runs the command at the front of its queue. -/
def step (s : State) : Host.Outcome State Fault Refusal :=
  match s.pending with
  | [] => .next s.idleTick
  | c :: rest => exec c { s with pending := rest }

/-- The command that a word spells, put at the front of the queue. -/
def State.withFetchWord (s : State) (nbits w : Nat) : State :=
  match decodeTableWord nbits w with
  | some c => { s with pending := c :: s.pending }
  | none => s

end Sys2Proof.Machine
end

