-- ==== Sys2Proof/Safety.lean ====
section
/-! DEFINITION. The terms in which the statements speak: a command that completes, what stays as it was, and the
promise about the TAP that every step keeps. -/

namespace Sys2Proof.Machine

/-- The command completes: its meaning answers a next state, of which `P` holds. -/
def Gives (c : Instr) (s : State) (P : State → Prop) : Prop := ∃ t, exec c s = .next t ∧ P t

/-- `n` steps; the first that answers no next state ends the run. -/
def runSteps : Nat → State → Res
  | 0, s => .next s
  | n + 1, s =>
    match step s with
    | .next t => runSteps n t
    | o => o

/-- Cast-on has ended and boundary scan does not hold the islands (19 R472, R489). -/
abbrev State.Up (s : State) : Prop := s.chip.phase = .up

/-- The page takes writes: the chip is up and the page is not RESETTING (02 R37). -/
abbrev State.Open (s : State) (pg : PageIx) : Prop := s.Up ∧ (s.page pg).st ≠ .resetting

/-- The store of registers reads as before at every address that is not listed, whatever the reset value there. -/
def SameRegsBut (l : List Nat) (s t : State) : Prop := ∀ (a : Nat) (d : Word), a ∉ l → sget d a t.regs = sget d a s.regs

/-- A register write of requester `rq` at `a` reaches its page, and no write that was posted waits (01 R13, R19). -/
abbrev State.WritesAt (s : State) (rq : Requester) (a : Word) : Prop :=
  s.mayAccess rq a = true ∧ reaches rq true a = true ∧ s.bus.posted = []

/-- A register read of requester `rq` at `a` reaches its page, and no write that was posted waits (01 R13, R19). -/
abbrev State.ReadsAt (s : State) (rq : Requester) (a : Word) : Prop :=
  s.mayAccess rq a = true ∧ reaches rq false a = true ∧ s.bus.posted = []

/-- An access of requester `rq` at `a` is refused: nothing is performed or posted, it is answered 0 with the access error
in SYS (01 R13, 02 R31, R51). -/
def AccessRefused (rq : Requester) (wr : Bool) (a : Word) (s t : State) : Prop :=
  t.mem = s.mem ∧ SameRegsBut [R.SYS_AERR_ADDR.addr 0 0, R.SYS_AERR_INFO.addr 0 0] s t ∧
  t.bus.posted = s.bus.posted ∧ t.bus.answers.head? = some { rq := rq, addr := a, val := 0, err := true } ∧
  t.reports = s.reports ++ [{ page := Pg.sys, k := 0, at_ := s.time }] ∧
  (s.rd R.SYS_AERR_INFO = 0 →
    t.rd R.SYS_AERR_ADDR = a ∧ t.rd R.SYS_AERR_INFO = BitVec.ofNat 32 (65536 + 256 * wr.toNat + requesterCode rq))

/-- No command is in flight and every queue is disabled. -/
def State.Quiet (s : State) : Prop := ∀ q : QNum, (s.q q).cmds = [] ∧ (s.q q).conts = [] ∧ s.qEn q = false

/-- Every byte of memory reads as before. -/
def SameMem (s t : State) : Prop := ∀ a, t.byte a = s.byte a

/-- Every byte of memory outside the `n` bytes from `a` reads as before. -/
def SameMemBut (a n : Nat) (s t : State) : Prop := ∀ b, b < a ∨ a + n ≤ b → t.byte b = s.byte b

/-- While EXTEST, CLAMP or HIGHZ is current, every island but AON is held in reset (19 R489). -/
def State.TapSafe (s : State) : Prop := s.chip.tap.holds = true → s.chip.phase = .held

-- single bits of a field

/-- Bit `i` of a field. -/
def State.bitOf (s : State) (f : Fld) (i : Nat) : Bool := (s.fld f).testBit i

/-- The state with bit `i` of a field at `b`, its other bits as before. -/
def State.putBit (s : State) (f : Fld) (i : Nat) (b : Bool) : State :=
  s.setFld f (s.fld f / 2 ^ (i + 1) * 2 ^ (i + 1) + b.toNat * 2 ^ i + s.fld f % 2 ^ i)

/-- MED sees nothing new when axis `a` makes a step: it is not in RUN, or no unit at work watches the feed of `a`, the
levels of every port stand as MED has them, and nothing waits (12 R302, R307, R309). -/
def State.MedStill (s : State) (a : AxNum) : Prop :=
  s.running Pg.med = false ∨
  ((∀ u : UnitNum, s.unitOn u = true → s.feedAx (Fin.ofNat 4 (s.fld F.MED_Uu_CFG_PORT u.val)) ≠ some a) ∧
   (∀ p : Port, s.med.paper[p] = s.paperIn p ∧ s.med.head[p] = s.headShut p) ∧ s.med.waits = [])

/-- MED does nothing with a settled word of channel `ch` but keep it: it is not in RUN, or every unit of the channel has fewer
words than its filter takes and is not stale, the levels of every port stand as MED has them, and nothing waits (12 R302,
R303, R308). -/
def State.MedCalm (s : State) (ch : Nat) : Prop :=
  s.running Pg.med = false ∨
  (ch ≠ 38 ∧ (∀ u : UnitNum, s.unitOn u = true → s.fld F.MED_Uu_CFG_CH u.val = ch →
      (s.unit u).stale = false ∧ (s.unit u).ys.length + 1 < 2 ^ s.fld F.MED_Uu_CFG_K u.val) ∧
    (∀ p : Port, s.med.paper[p] = s.paperIn p ∧ s.med.head[p] = s.headShut p) ∧ s.med.waits = [])

/-- A moving axis after a stop has begun: it leaves LINEADV and GEAR (10 R251, R254, R258). -/
def AxSt.braked (x : AxSt) (hard : Bool) (now : BitVec 64) : AxSt :=
  { x with
    inAdv := false, budget := 0, held := false, lagArmed := true, next := none, nextVel := false, startAt := none
    stalled := x.stalled && x.stop.isSome
    acc := if x.act = .gear then 0 else x.acc, accAt := if x.act = .gear then now else x.accAt
    stop := some (hard || x.stop == some true), endSt := if x.endSt = St.ok then St.aborted else x.endSt }

/-- Everything of port `p` is released: no line waits, no verification window is open, HOLD has ended, the HHE ring holds
fired lines only, and the composition window stands at 0; the bands of other ports stay as they were (03 R77, R78). -/
def PortReleased (p : Port) (s t : State) : Prop :=
  t.lines p = [] ∧ t.win p = none ∧ t.skn.o[p] = 0 ∧ (t.hpP p).hold = none ∧ (t.hpP p).heldAtStop = false ∧
  (∀ r ∈ (t.hhe[p]).ring, r.fired = true) ∧ ∀ b, (s.band b).port ≠ p → t.band b = s.band b

-- flash commands

/-- A command of FLC is refused with reason `r` (14 R355). -/
def FlcRefused (r : Nat) (s t : State) : Prop :=
  SameMem s t ∧ t.flc = s.flc ∧ SameRegsBut [R.FLC_REJ.addr 0 0] s t ∧ t.fld F.FLC_REJ_REASON = r ∧
  t.page Pg.flc = { s.page Pg.flc with irqStat := (s.page Pg.flc).irqStat ||| 32 }

/-- A command of FLC that stores: PROGRAM, ERASE, ERASE_BANK, ERASE_BLOCK, PROGRAM_PAGE. -/
def flcStores (cmd : Nat) : Bool := cmd = 1 || cmd = 2 || cmd = 3 || cmd = 6 || cmd = 7

/-- A command of FLC that takes the write buffer: PROGRAM, PROGRAM_PAGE, OTP_PROGRAM. -/
def flcTakes (cmd : Nat) : Bool := cmd = 1 || cmd = 7 || cmd = 8

/-- The bank's mode does not allow the command (14 R355, R363). -/
def State.flcWrongMode (s : State) (c : FlcCmd) : Bool :=
  (c.cmd = 1 || c.cmd = 2) && s.compat c.bank || (c.cmd = 6 || c.cmd = 7) && !s.compat c.bank

-- the Castos link

/-- The device takes the request: it hears the line, the frame is for it alone, nothing of an earlier one still
executes, and it is no duplicate (15 R381 to R388). -/
abbrev State.LinkTakes (s : State) (r : Request) : Prop :=
  s.Up ∧ s.linkHears (frameBits r.typ.toNat r.payload.length) = true ∧ s.frameFor r.adr = .unicast ∧ s.csl.exec = none ∧
  ¬ (r.typ ≠ 1 ∧ s.csl.stored = some r ∧ s.csl.reply.isSome = true)

/-- The request has been executed: it and its reply are stored, and the reply waits for the slot, 2 µs later. -/
def LinkAnswered (r : Request) (p : Reply) (s t : State) : Prop :=
  t.csl = { s.csl with lastFrame := s.time, lost := false, rx := false, lineEnd := some s.time, stored := some r, reply := some p
                       exec := none, slot := some ⟨s.time + 200, some p, r.adr.getLsbD 7⟩ }

/-- One more frame executed: no register but CSL_RXOK changes. -/
def LinkCounted (s t : State) : Prop :=
  SameRegsBut [R.CSL_RXOK.addr 0 0] s t ∧ t.rd R.CSL_RXOK = satStep (s.rd R.CSL_RXOK)

-- a thread at its issue slot

/-- The thread waits for an event (04 R111). -/
def Thread.awaitsEvent (x : Thread) : Bool :=
  match x.wait with
  | .event _ _ => true
  | _ => false

/-- Queue `q` has nothing in flight, and no entry of its own waits to be written. -/
abbrev State.Clear (s : State) (q : QNum) : Prop := (s.q q).cmds = [] ∧ (s.q q).conts = []

/-- Thread `q` takes its issue slot with the well-formed entry `e`, of opcode `op`, from its ring, with nothing else of
its queue in flight (04 R90). -/
abbrev State.Issues (s : State) (q : QNum) (op : Nat) (e : Entry) : Prop :=
  s.Up ∧ s.issuing q op = some e ∧ s.spot q = .ring ∧ s.Clear q

/-- The command that the entry `e` of the ring becomes (03 R59, R61). -/
def State.taken (s : State) (q : QNum) (e : Entry) : Cmd :=
  { uid := s.nextUid, idx := (s.q q).next, slots := e.slots, root := s.nextUid,
    job := if (s.q q).jobOpen then (s.q q).jobNum else 0xFFFF, e := e,
    e2 := if e.slots = 2 then s.ringEntry q ((s.q q).next + 1) else e }

/-- Thread `q` stands in one list level `l`, opened by the command `k` of its ring, the one command in flight; it takes
its issue slot with the well-formed entry `e` of the list (04 R103, R107). -/
abbrev State.ListIssues (s : State) (q : QNum) (op : Nat) (e : Entry) (l : Level) (k : Cmd) : Prop :=
  s.Up ∧ s.issuing q op = some e ∧ (s.thr q).trap = none ∧ (s.thr q).levels = [l] ∧
  (s.q q).cmds = [k] ∧ (s.q q).conts = [] ∧ k.uid = l.call ∧ k.uid < s.nextUid ∧ k.e.opc = 0x41 ∧ k.call = true ∧
  (s.thr q).leaving = false ∧ k.closed = false ∧ k.early = false ∧ k.forced = none ∧ k.cont = false ∧ k.parent = none ∧ k.out = none

/-- The command that the entry `e` of such a list becomes. -/
def State.listed (s : State) (k : Cmd) (e : Entry) : Cmd :=
  { uid := s.nextUid, idx := k.idx, parent := some k.uid, root := k.uid, job := k.job, e := e, e2 := e }

/-- A command with its outcome. -/
def State.done (s : State) (c : Cmd) (st : Byte) : Cmd := { c with out := some st, outTime := s.timeLo }

/-- What an issue of thread `q` may touch: its queue, the threads and the order of their turns, the names of commands
and the mark of the boot list. Everything else of `t` is as in `s`; other threads have only been passed over. -/
def IssueFrame (q : QNum) (s t : State) : Prop :=
  t = { s with
    queues := s.queues.set q (t.q q), nextUid := s.nextUid + 1, sec := { s.sec with bootQ := t.sec.bootQ }
    seq := { s.seq with threads := t.seq.threads, lastAt := t.seq.lastAt } } ∧
  ∀ o, o ≠ q → t.thr o = { s.thr o with passed := (t.thr o).passed }

/-- RND draws a step, and no PRINT at the front of its port has still to ask for its bands: a step that joins the others
changes nothing else (05 R127, R131). -/
def State.RndBusy (s : State) : Prop :=
  (∃ o, s.rnd.cur = some o ∧ s.drawable o = true) ∧
  ∀ o y l, s.steps o = y :: l → y.e.opc = 0x15 → y.granted = true ∨ s.skn.waits.any (fun w => w.port == o) = true

/-- Nothing starts in RND when the steps of port `p` change: no other port holds a step, or RND draws one of another port
and no PRINT at the front of another port has still to ask for its bands. -/
def State.RndStill (s : State) (p : Port) : Prop :=
  (∀ o, o ≠ p → s.steps o = []) ∨
  ((∃ o, o ≠ p ∧ s.rnd.cur = some o ∧ s.drawable o = true) ∧
   ∀ o y l, o ≠ p → s.steps o = y :: l → y.e.opc = 0x15 →
     y.granted = true ∨ s.skn.waits.any (fun w => w.port == o) = true)

-- what a composition step draws (05 R133, R138 to R144)

/-- Flash answers every read: no operation holds a bank, and no byte is undefined, in error or in a failed bank. -/
def State.FlashSound (s : State) : Prop :=
  (s.page Pg.flc).st ≠ .resetting ∧ s.flc.op = none ∧ s.flc.undef = [] ∧ s.flc.ecc = [] ∧ s.bankFailed 0 = false ∧
  s.bankFailed 1 = false ∧ ∀ l ∈ s.flc.bufs[(1 : Fin 3)], l.uncor = 0

/-- The `n` bits from bit `i` on of the bytes from `a` upward, which lie in one byte. -/
def State.srcBits (s : State) (a i n : Nat) : Nat := (s.byte (a + i / 8)).toNat / 2 ^ (i % 8) % 2 ^ n

/-- The line of port `p`'s composition area that line `l` of band `b` is, if it is one. -/
def State.areaY (s : State) (p : Port) (b : Fin 128) (l : Nat) : Option Nat :=
  if s.slotBand p (s.band b).slot.val = some b ∧ s.skn.o[p] ≤ 64 * (s.band b).slot.val + l then
    some (64 * (s.band b).slot.val + l - s.skn.o[p])
  else none

/-- A dot after one is laid on it; white lays nothing. -/
def laid (under top : Nat) : Nat := if top = 0 then under else layDot under top

/-- Place `k` of a bar code of these widths, ink and white in turn. -/
def barAt (ink : Nat) : List Nat → Bool → Nat → Nat
  | [], _, _ => 0
  | w :: l, dark, k => if k < w then (if dark then ink else 0) else barAt ink l (!dark) (k - w)

/-- Dot `d` of area line `y` once the object has been drawn over `old`; `rows` are the rows of a run-length stream. -/
def Obj.over (o : Obj) (s : State) (p : Port) (e : Entry) (rows : List (List Nat)) (y d old : Nat) : Nat :=
  let base := if e.merge then old else 0
  let lo3 := wbits e.w3 0 16
  let hi3 := wbits e.w3 16 16
  let white3 (v : Nat) : Nat := if v = 3 then 0 else v
  let rect (w h : Nat) (code : Nat → Nat → Nat) : Nat :=
    if e.x ≤ d ∧ d < e.x + w ∧ e.y ≤ y ∧ y < e.y + h then laid base (code (y - e.y) (d - e.x)) else old
  match o with
  | .raw => rect lo3 e.sp fun r c => white3 (s.srcBits (e.w1.toNat + r * hi3) (2 * c) 2)
  | .rle => rect lo3 e.sp fun r c => (rows.getD r []).getD c 0
  | .rule => rect lo3 e.sp fun _ c =>
      if wbits e.w1 16 16 = 0 ∨ c % (wbits e.w1 0 16 + wbits e.w1 16 16) < wbits e.w1 0 16 then wbits e.w3 16 2 else 0
  | .bars ws =>
    let bar := barAt (wbits e.w3 16 2) ws true
    let sum := ws.foldl (· + ·) 0
    if e.flags % 2 = 1 then rect lo3 sum fun r _ => bar r else rect sum lo3 fun _ c => bar c
  | .logo l => rect (min l.w (s.nEl p - e.x)) l.h fun r c =>
      if l.rle then (rows.getD r []).getD c 0
      else
        let v := s.srcBits (l.data + r * ((l.w * l.bpp + 31) / 32 * 4)) (c * l.bpp) l.bpp
        if l.bpp = 1 then v else white3 v
  | .text a cells _ =>
    let lo := cells.foldl (fun m c => min m c.x) (s.nEl p)
    let hi := cells.foldl (fun m c => max m (c.x + a.w * e.xm)) 0
    if e.y ≤ y ∧ y < e.y + a.h * e.ym then
      cells.foldl (fun u c =>
        if c.x ≤ d ∧ d < c.x + a.w * e.xm then
          let row := a.data + (c.glyph * a.h + (y - e.y) / e.ym) * ((a.w * a.bpp + 7) / 8)
          laid u (glyphMap a.bpp (wbits e.w3 8 2) (s.srcBits row ((d - c.x) / e.xm * a.bpp) a.bpp))
        else u) (if lo ≤ d ∧ d < hi then base else old)
    else old
  | .print _ => old

/-- The object lies on the head, and where it is a bit map its source is not the Skein; a run-length stream decodes to
`rows` without breaking. -/
def Obj.Fits (o : Obj) (s : State) (p : Port) (e : Entry) (rows : List (List Nat)) : Prop :=
  let lo3 := wbits e.w3 0 16
  let hi3 := wbits e.w3 16 16
  let stream (a len w h : Nat) : Prop := ∃ r : Rle, (rleDecode (a + len) w h (len + 1) a {} s).1 = .ok r ∧
    r.failed = none ∧ r.broken = false ∧ rows = r.rows
  match o with
  | .raw => 0x20000000 ≤ e.w1.toNat ∧ lo3 % 4 = 0 ∧ e.x + lo3 ≤ 6144
  | .rle => 0x20000000 ≤ e.w1.toNat ∧ e.x + lo3 ≤ 6144 ∧ stream e.w1.toNat (hi3 * 64) lo3 e.sp
  | .rule => e.x + lo3 ≤ 6144
  | .logo l => s.nEl p ≤ 6144 ∧ (l.rle = true → stream l.data l.size l.w l.h)
  | .print _ => False
  | _ => s.nEl p ≤ 6144

/-- Dots of the object did not fit, or codes had no room (05 R138, R140). -/
def Obj.partly (o : Obj) (s : State) (p : Port) (e : Entry) : Bool :=
  match o with
  | .text _ _ part => part
  | .logo l => decide (s.nEl p - e.x < l.w)
  | _ => false

/-- The Skein after the object has been drawn over it: each line of the composition area of `p` holds, dot by dot, the
object laid over what it held, every other line what it held, and every band is what it was. -/
def Drew (o : Obj) (p : Port) (e : Entry) (rows : List (List Nat)) (s t : State) : Prop :=
  SameMemBut 0x10000000 0xC00000 s t ∧ ∀ b : Fin 128,
    ((t.band b).st = (s.band b).st ∧ (t.band b).port = (s.band b).port ∧ (t.band b).slot = (s.band b).slot) ∧
    ∀ l d, l < 64 → d < 6144 → t.dot b l d =
      match s.areaY p b l with
      | some y => o.over s p e rows y d (s.dot b l d)
      | none => s.dot b l d

/-- The one command in flight of queue `q` is `c`, which its thread waits for in the ring. -/
abbrev State.Holds (s : State) (q : QNum) (c : Cmd) : Prop :=
  (s.q q).cmds = [c] ∧ (s.q q).conts = [] ∧ (s.q q).mode = .run ∧ c.out = none ∧ c.parent = none ∧ c.call = false ∧
  (c.e.opc ≠ 0x15 ∧ c.e.opc ≠ 0x50) ∧ (s.thr q).levels = []

end Sys2Proof.Machine
end

