-- ==== Sys2Proof/Certificates/Slice0/Obligations.lean ====
section
/-! DEFINITION. The statements about the model, for the provers. -/

open Sys2Proof Sys2Proof.Machine

/-- With command c at the front of its queue, the block's step is exec of c on the state with the queue's rest. -/
def Obligations.FrontCommandRuns : Prop :=
  ∀ (c : Instr) (s : State), step { s with pending := c :: s.pending } = exec c s

/-- Whatever command is at the front, the step answers a next state, and the commands that then wait are the rest of
the queue, in order. With no command waiting and the chip up, a step advances the timestamp by one and changes nothing
else; this is the model's choice, log entry 2. -/
def Obligations.QueueFirstInFirstOut : Prop :=
  ∀ s : State,
    (∀ (c : Instr) (l : List Instr), s.pending = c :: l → ∃ t, step s = .next t ∧ t.pending = l) ∧
    (s.pending = [] → s.Up → step s = .next { s with time := s.time + 1 })

/-- From every state, as many steps as commands wait all answer a next state, and the queue is then empty. -/
def Obligations.QueueDrains : Prop :=
  ∀ s : State, ∃ t : State, runSteps s.pending.length s = .next t ∧ t.pending = []

/-- Every step keeps the promise that while EXTEST, CLAMP or HIGHZ is the TAP's current instruction, every island but
AON is held in reset. -/
def Obligations.TapHoldsIslandsInReset : Prop :=
  ∀ s t : State, s.TapSafe → step s = .next t → t.TapSafe

/-- Right after reset the TAP's current instruction does not hold the islands, and the islands run. -/
def Obligations.TapSafeAtReset : Prop :=
  State.reset.TapSafe ∧ State.reset.Up

/-- Until cast-on has ended, or while boundary scan holds the islands, every command leaves the state as it is, but
for the resets of AON and the TAP's own operations. R517 says it of the accesses of hosts; that it holds of every
other command is the model's choice, log entry 6. -/
def Obligations.HeldChipIgnoresCommands : Prop :=
  ∀ (c : Instr) (s : State), ¬ s.Up →
    (match c with
      | .powerOnReset _ _ | .nreset _ _ _ | .transomRead _ | .transomWrite _ _ | .bscanExtest _ _ | .bscanClamp
      | .bscanHighz | .bscanSamplePreload _ _ | .bscanIdcode _ | .bscanBypass _ | .bscanTransom | .bscanResetRelease _ => true
      | _ => false) = false → exec c s = .next s

/-- After reset every page's block whose EN resets to 1 is in RUN and every other one is OFF, no register differs from
its reset value, memory lists nothing, nothing is posted or reported, no command is in flight and every FIFO is empty.
Reset values the manual does not give are the model's (log entry 1). -/
def Obligations.ResetState : Prop :=
  (∀ i : PageIx, (State.reset.page i).st = if pageEnReset i.val then .run else .off) ∧ State.reset.regs = [] ∧
    State.reset.active = [] ∧ State.reset.mem = [] ∧ State.reset.pending = [] ∧ State.reset.bus.posted = [] ∧
    State.reset.reports = [] ∧ (∀ q : QNum, (State.reset.q q).cmds = [] ∧ (State.reset.q q).tail = 0) ∧
    State.reset.adc.fifo = [] ∧ (∀ u : UaNum, (State.reset.ua u).rx = [] ∧ (State.reset.ua u).tx = [])

/-- A write of SKN_AGE, a plain RW register, by a requester that reaches the page acts behind that requester's earlier
writes of the page; then it replaces the register's 16 RW bits, keeps the reserved ones, and changes nothing else.
With nothing posted: a write of SYS_CHIP_ID, RO, leaves every register and every byte of memory as it was; one of
QMG_REFUSED or of a page's PG_IRQ_STAT, W1C, clears the bits written 1 (ADC's, whose FIFO level may set one again at
once, apart); one of SEQ_EVENT_SET, W1S, sets the bits written 1 while no thread waits for an event; one of
SBA_Pp_EST, RWS, replaces the bits of the shadow set alone, not of the active one; one of HPn_ESYNC, WO, sets the next
trigger position and leaves every register as it was; and an unkeyed one of SBA_GCAP, KW, changes no register. -/
def Obligations.RegisterWriteByAccess : Prop :=
  ∀ (s : State) (rq : Requester) (v : Word), s.Up →
    (s.Open Pg.qmg → s.WritesAt rq 0x4000304C → exec (.registerWrite rq 0x4000304C v) s =
      .next (s.wr R.QMG_REFUSED (s.rd R.QMG_REFUSED &&& ~~~(v &&& 0xFFFF)))) ∧
    (∀ (pg : PageIx) (a : Word), a = BitVec.ofNat 32 (pageBase pg + 0xC) → pg ≠ Pg.adc → s.Open pg → s.WritesAt rq a →
      exec (.registerWrite rq a v) s = .next (s.modPage pg fun x => { x with irqStat := x.irqStat &&& ~~~v })) ∧
    (s.Open Pg.seq → s.WritesAt rq 0x40004044 → (∀ q : QNum, ¬ (s.thr q).awaitsEvent = true) →
      exec (.registerWrite rq 0x40004044 v) s = .next (s.setEvent (s.seq.event ||| v))) ∧
    (∀ (p : Port) (a : Word), a = BitVec.ofNat 32 (R.SBA_Pp_EST.addr p.val 0) → s.Open Pg.sba → s.WritesAt rq a →
      exec (.registerWrite rq a v) s =
        .next (s.wr R.SBA_Pp_EST ((s.rd R.SBA_Pp_EST p.val &&& 0xFFFFC000) ||| (v &&& 0x3FFF)) p.val)) ∧
    (∀ (p : Port) (a : Word), a = BitVec.ofNat 32 (R.HPn_ESYNC.addr p.val 0) → s.Open (Pg.hp p) → s.WritesAt rq a →
      Gives (.registerWrite rq a v) s fun t => t.regs = s.regs ∧ (t.hpP p).trigAt = v.setWidth 48 <<< 16) ∧
    (s.Open Pg.sba → s.WritesAt rq 0x4000C040 → Gives (.registerWrite rq 0x4000C040 v) s fun t =>
      SameRegsBut [] s t ∧ SameMem s t ∧ t.pages = s.pages ∧ t.sba = s.sba) ∧
    (s.mayAccess rq 0x40006040 = true → reaches rq true 0x40006040 = true →
      ∀ u, u = s.settleWrites rq (.page Pg.skn) → (u.page Pg.skn).st ≠ .resetting →
      exec (.registerWrite rq 0x40006040 v) s =
        .next (s.keepOuter (u.wr R.SKN_AGE ((u.rd R.SKN_AGE &&& 0xFFFF0000) ||| (v &&& 0xFFFF))))) ∧
    ((s.page Pg.sys).st ≠ .resetting → s.WritesAt rq 0x40000040 →
      Gives (.registerWrite rq 0x40000040 v) s fun t =>
        t.rd R.SYS_CHIP_ID = s.rd R.SYS_CHIP_ID ∧ SameRegsBut [0x40000040] s t ∧ t.mem = s.mem ∧ t.pages = s.pages)

/-- A write of 0 to any SAT counter of any page clears that copy's count and SAT flag and changes nothing else, but
that the early warning of the flash bank of FLC_CORR0 or FLC_CORR1 may come again; a write of any other value changes
nothing. SYS_AERR_INFO, which has a second register beside it, stands in CrossbarRefusesOutsideReach. -/
def Obligations.CounterClear : Prop :=
  ∀ (s : State) (rq : Requester) (pg : PageIx) (r : Reg) (i j : Nat) (v : Word),
    r ∈ pageRegs pg → r.sat = true → r ≠ R.SYS_AERR_INFO → i < r.c1 → j < r.c2 →
    pageOf (r.addr i j) = some pg → s.Open pg → s.WritesAt rq (BitVec.ofNat 32 (r.addr i j)) →
    Gives (.counterClear rq (BitVec.ofNat 32 (r.addr i j)) 0) s (fun t =>
      t.regs = (s.wr r 0 i j).regs ∧ t = { s with regs := t.regs, flc := { s.flc with warned := t.flc.warned } } ∧
      t.flc.warned = if r = R.FLC_CORR0 then s.flc.warned.set 0 false
        else if r = R.FLC_CORR1 then s.flc.warned.set 1 false else s.flc.warned) ∧
    (v ≠ 0 → exec (.counterClear rq (BitVec.ofNat 32 (r.addr i j)) v) s = .next s)

/-- A write of a requester that reaches the region, of 1, 2 or 4 bytes at its natural alignment, is accepted: it waits
behind the writes posted before it, and nothing else changes yet. The words of a burst of one to four beats of 16
bytes that starts at a beat and stays in its memory region wait in their order. -/
def Obligations.CrossbarWritePosts : Prop :=
  ∀ (s : State) (rq : Requester) (size : Nat) (a v : Word) (l : List Word) (ar : Area), s.Up →
    s.mayAccess rq a = true →
    (areaOf a.toNat = some ar → reach rq true ar = true → sizeOk ar size a.toNat = true →
      exec (.crossbarAccess rq true size a v l) s =
        .next { s with bus := { s.bus with posted := s.bus.posted ++ [{ rq := rq, addr := a, val := v, size := size }] } }) ∧
    (isBurst size = true → burstOk rq true size a = true →
      exec (.crossbarAccess rq true size a v l) s =
        .next { s with bus := { s.bus with posted := s.bus.posted ++
          ((v :: l).take (size / 4)).zipIdx.map fun x =>
            { rq := rq, addr := a + BitVec.ofNat 32 (4 * x.2), val := x.1, size := 4 } } })

/-- A read or write at an address outside every region or page, or outside the requester's reach, or of a wrong size
or alignment, is not performed: memory and every register but SYS_AERR_ADDR and SYS_AERR_INFO read as before, nothing
is posted, the requester is answered 0 with the access error, and the crossbar fault is reported; the first one since
the last clear is recorded with its address, direction and requester. So is an access of any other size than 1, 2 and
4 bytes or a burst of one to four beats, the model's choice, log entry 109; so is a burst that does not start at a
beat of a memory region within reach or does not stay in it, the model's choice, log entry 156. So is a register write
to such an address. A write of 0 to SYS_AERR_INFO clears it and SYS_AERR_ADDR and changes nothing else; another value
changes nothing. -/
def Obligations.CrossbarRefusesOutsideReach : Prop :=
  ∀ (s : State) (a v : Word), s.Up →
    (∀ (rq : Requester) (wr : Bool) (size : Nat) (l : List Word), s.mayAccess rq a = true →
      (if isBurst size then burstOk rq wr size a = false
       else ∀ ar, areaOf a.toNat = some ar → reach rq wr ar = true → sizeOk ar size a.toNat = false) →
      Gives (.crossbarAccess rq wr size a v l) s (AccessRefused rq wr a s)) ∧
    (∀ (rq : Requester), s.mayAccess rq a = true →
      (∀ ar, areaOf a.toNat = some ar → reach rq true ar = true → sizeOk ar 4 a.toNat = false) →
      Gives (.registerWrite rq a v) s (AccessRefused rq true a s)) ∧
    exec (.aerrClear 0) s = .next ((s.wr R.SYS_AERR_INFO 0).wr R.SYS_AERR_ADDR 0) ∧
    (v ≠ 0 → exec (.aerrClear v) s = .next s)

/-- A read of working RAM by a requester that reaches it and has nothing posted there is answered with the bytes,
least significant first, and changes nothing but the requester's answer. The oldest posted write, of a requester to
working RAM, takes effect: its bytes are stored, least significant first, every other byte and every register reads as
before, and the later posted writes still wait. -/
def Obligations.WorkingRamReadsAndWrites : Prop :=
  ∀ (s : State), s.Up →
    (∀ (rq : Requester) (size : Nat) (a v : Word) (l : List Word), areaOf a.toNat = some .wram →
      reach rq false .wram = true → s.mayAccess rq a = true → sizeOk .wram size a.toNat = true → s.bus.posted = [] →
      exec (.crossbarAccess rq false size a v l) s =
        .next (s.answer { rq := rq, addr := a, val := BitVec.ofNat 32 (leNat (s.bytes a.toNat size)) })) ∧
    (∀ (x : Posted) (l : List Posted), s.bus.posted = x :: l → areaOf x.addr.toNat = some .wram →
      Gives (.writeTakesEffect x.rq x.addr) s fun t =>
        t.bus.posted = l ∧ t.regs = s.regs ∧ t.pages = s.pages ∧ SameMemBut x.addr.toNat x.size s t ∧
        ∀ k, k < x.size → t.byte (x.addr.toNat + k) = BitVec.ofNat 8 (x.val.toNat / 256 ^ k))

/-- A read of SYS_TIME_LO answers the low word of the timestamp and stores its high word in the requester's slot; a
read of SYS_TIME_HI answers the stored half and empties the slot, whatever the timestamp now is. -/
def Obligations.PairReadIsOneInstant : Prop :=
  ∀ (s : State) (rq : Requester) (v : Word), s.Up → s.ReadsAt rq 0x40000050 → s.ReadsAt rq 0x40000054 →
    (Gives (.loReadSnapshot rq 0x40000050) s fun t =>
      t.snapOf rq = some (.hi 0x40000054 ((s.time >>> 32).setWidth 32)) ∧
      t.bus.answers.head? = some { rq := rq, addr := 0x40000050, val := s.time.setWidth 32 } ∧
      t.regs = s.regs ∧ t.mem = s.mem) ∧
    (s.snapOf rq = some (.hi 0x40000054 v) → Gives (.hiRead rq 0x40000054) s fun t =>
      t.snapOf rq = none ∧ t.bus.answers.head? = some { rq := rq, addr := 0x40000054, val := v } ∧
      t.regs = s.regs ∧ t.mem = s.mem)

/-- With nothing posted, a write of SEC_MB0_TAG_LO by SPT while the mailbox is not busy is held in SPT's slot and no
register changes; the write of SEC_MB0_TAG_HI that follows writes both halves, and with nothing held it writes the
high half alone. -/
def Obligations.PairWriteIsOneStep : Prop :=
  ∀ (s : State) (v w : Word), s.Open Pg.sec → s.flag F.SEC_MBm_CTL_BUSY 0 = false → s.bus.posted = [] →
    (Gives (.loWriteHold .spt 0x40051218 v) s fun t =>
      t.snapOf .spt = some (.lo 0x40051218 v) ∧ t.regs = s.regs ∧ t.mem = s.mem) ∧
    (s.snapOf .spt = some (.lo 0x40051218 v) → Gives (.hiWritePair .spt 0x4005121C w) s fun t =>
      t.snapOf .spt = none ∧ t.rd R.SEC_MBm_TAG_LO 0 = v ∧ t.rd R.SEC_MBm_TAG_HI 0 = w ∧
      SameRegsBut [0x40051218, 0x4005121C] s t ∧ t.mem = s.mem) ∧
    (s.snapOf .spt = none → exec (.hiWritePair .spt 0x4005121C w) s = .next (s.wr R.SEC_MBm_TAG_HI w))

/-- SPT, FLC, MOC, an axis or an encoder, whose drain unit is empty, with no command in flight and every queue
disabled: EN = 1 takes it from OFF or DISABLED to RUN; EN = 0 in RUN starts a drain; at its end the block is DISABLED
with DRAIN_ACK and DRAINED, and in RUN again if EN has been written 1 meanwhile; SRST makes it RESETTING and opens its
reset shadow. Nothing else changes in these, but that an encoder which enters RUN begins a rate window. When SPT, MOC,
or an axis that no other is geared to, leaves RESETTING, its registers have their reset values, and it runs where its
EN resets to 1 and is OFF where it resets to 0. That the drain of an encoder ends by its DRAIN_COMPLETE row, and what
stops at once, is the model's reading, log entry 91. -/
def Obligations.BlockStateCycle : Prop :=
  ∀ (s : State) (pg : PageIx), s.Up → s.Quiet → s.unitBusy pg = false →
    (pg = Pg.spt ∨ pg = Pg.flc ∨ pg = Pg.moc ∨ (∃ a : AxNum, pg = Pg.ax a) ∨ (∃ e : QeNum, pg = Pg.qe e)) →
    (((s.page pg).st = .off ∨ (s.page pg).st = .disabled) → (s.page pg).pend = false → Gives (.blockEnable pg) s fun t =>
      t = { s with qe := t.qe }.modPage pg (fun x => { x with st := .run, en := true }) ∧
      (∀ e : QeNum, t.qeS e = if pg = Pg.qe e then { s.qeS e with rateBase := s.rd R.QEn_POS_LO e.val, windowAt := s.time }
        else s.qeS e)) ∧
    ((s.page pg).st = .run →
      exec (.blockDrain pg) s = .next (s.modPage pg fun x => { x with st := .draining, en := false })) ∧
    ((s.page pg).st = .draining → (s.page pg).en = false → exec (.drainComplete pg) s =
      .next ((s.modPage pg fun x => { x with st := .disabled, en := false, drainAck := true }).irq pg 0)) ∧
    ((s.page pg).st = .draining → (s.page pg).en = true → (s.page pg).pend = false → Gives (.drainComplete pg) s fun t =>
      (t.page pg).st = .run ∧ (t.page pg).drainAck = true ∧ t.regs = s.regs ∧ t.mem = s.mem ∧ ∀ o, o ≠ pg → t.page o = s.page o) ∧
    ((s.page pg).st ≠ .resetting → exec (.blockSrst pg) s =
      .next ((s.modPage pg fun x => { x with st := .resetting }).openShadow pg)) ∧
    ((s.page pg).st = .resetting → (pg = Pg.spt ∨ pg = Pg.moc ∨ ∃ a : AxNum, pg = Pg.ax a ∧ ∀ b : AxNum, s.fld F.AXn_GEAR_SRC b.val ≠ 8 + a.val) →
      Gives (.resetComplete pg) s fun t =>
        (t.page pg).st = (if pg = Pg.spt then .run else .off) ∧ (t.page pg).en = decide (pg = Pg.spt) ∧ (t.page pg).irqStat = 0 ∧
        t.mem = s.mem ∧ (∀ o, o ≠ pg → t.page o = s.page o) ∧
        ∀ (a : Nat) (d : Word), sget d a t.regs =
          if pageBase pg + 0x40 ≤ a ∧ a < pageBase pg + 0x1000 then d else sget d a s.regs)

/-- On every page, EN = 1 written while the block drains is noted and changes nothing else: the block is still
DRAINING and what the drain has cancelled stays cancelled. While a page is RESETTING, writes of its PG_CTRL, PG_COMMIT
and PG_FLT_FORCE, and a write of any of its registers that reaches it with nothing posted, change nothing, and a read
of any of its registers is answered. One write of PG_CTRL that sets SRST is the reset whatever EN it carries (here:
one that does not clear DRAIN_ACK as well). -/
def Obligations.DrainingAndResetting : Prop :=
  ∀ (s : State) (pg : PageIx), s.Up →
    ((s.page pg).st = .draining → exec (.blockEnable pg) s = .next (s.modPage pg fun x => { x with en := true })) ∧
    ((s.page pg).st = .resetting → ∀ (rq : Requester) (bits v : Word) (a : Word),
      exec (.blockEnable pg) s = .next s ∧ exec (.blockDrain pg) s = .next s ∧ exec (.blockSrst pg) s = .next s ∧
      exec (.pgCommit pg) s = .next s ∧ exec (.pgFltForce pg bits) s = .next s ∧
      (pageOf a.toNat = some pg → s.WritesAt rq a → exec (.registerWrite rq a v) s = .next s) ∧
      (pageOf a.toNat = some pg → s.ReadsAt rq a → Gives (.crossbarAccess rq false 4 a v []) s fun t =>
        t.bus.answers.head?.map (fun y => (y.rq, y.addr, y.err)) = some (rq, a, false))) ∧
    ((s.page pg).st ≠ .resetting → blk pg ≠ .fixed → ∀ (rq : Requester) (v a : Word), a = BitVec.ofNat 32 (pageBase pg + 4) →
      s.WritesAt rq a → v.getLsbD 1 = true → v.getLsbD 2 = false → exec (.registerWrite rq a v) s = exec (.blockSrst pg) s)

/-- PG_COMMIT of SBA, a head port, a verification pipeline or an axis in RUN, whose shadow set passes the block's own
check, copies the page's shadow registers into the pending set with the TAG, and MERGED records an earlier pending
set; in ADC and ADT, one set, through either page, both pages do. A commit to a port, pipeline or axis that is OFF or
DISABLED is active at once. COMMIT_DONE of SBA in RUN makes the pending set active, ACT_TAG follows, PEND falls and
the event is set, with event 8 where a governor pauses for it: that a governor pauses when a new FMIN is its rate and
no line is ready is the model's reading, log entry 190. Other pages' sets, memory and the shadow stay as they were. -/
def Obligations.ShadowSetCommits : Prop :=
  ∀ s : State, s.Up →
    (∀ pg : PageIx, (pg = Pg.sba ∨ (∃ p : Port, pg = Pg.hp p) ∨ (∃ v : VpNum, pg = Pg.vp v) ∨ ∃ a : AxNum, pg = Pg.ax a) →
      s.commitRefused pg = none →
      ((s.page pg).st = .run → Gives (.pgCommit pg) s fun t =>
        t.regs = s.regs ∧ t.mem = s.mem ∧ t.active = s.active ∧ (∀ o, o ≠ pg → t.page o = s.page o) ∧
        t.page pg = { s.page pg with pend := true, pendTag := (s.page pg).tag, merged := (s.page pg).merged || (s.page pg).pend } ∧
        ∀ (a : Nat) (d : Word), sget d a t.pendSet =
          if pageBase pg + 0x40 ≤ a ∧ a < pageBase pg + 0x1000 then sget d a s.regs else sget d a s.pendSet) ∧
      (pg ≠ Pg.sba → (s.page pg).st = .off ∨ (s.page pg).st = .disabled → Gives (.pgCommit pg) s fun t =>
        t.regs = s.regs ∧ t.mem = s.mem ∧ (∀ o, o ≠ pg → t.page o = s.page o) ∧
        t.page pg = { s.page pg with
          pend := false, pendTag := (s.page pg).tag, actTag := (s.page pg).tag, merged := (s.page pg).merged || (s.page pg).pend
          irqStat := (s.page pg).irqStat ||| 2 } ∧
        ∀ (a : Nat) (d : Word), sget d a t.active =
          if pageBase pg + 0x40 ≤ a ∧ a < pageBase pg + 0x1000 then sget d a s.regs else sget d a s.active)) ∧
    (∀ pg, pg = Pg.adc ∨ pg = Pg.adt → (s.page Pg.adc).st = .run → (s.page pg).st ≠ .resetting → s.adcRefusal = none →
      Gives (.pgCommit pg) s fun t =>
        t.regs = s.regs ∧ t.mem = s.mem ∧ t.active = s.active ∧
        (∀ o, o = Pg.adc ∨ o = Pg.adt → t.page o = { s.page o with
          pend := true, pendTag := (s.page pg).tag, merged := (s.page o).merged || (s.page o).pend }) ∧
        ∀ (a : Nat) (d : Word), sget d a t.pendSet =
          if (pageBase Pg.adc + 0x40 ≤ a ∧ a < pageBase Pg.adc + 0x1000) ∨ (pageBase Pg.adt + 0x40 ≤ a ∧ a < pageBase Pg.adt + 0x1000)
          then sget d a s.regs else sget d a s.pendSet) ∧
    ((s.page Pg.sba).st = .run → (s.page Pg.sba).pend = true → Gives (.commitDone Pg.sba) s fun t =>
      t.regs = s.regs ∧ t.mem = s.mem ∧
      t.page Pg.sba = { s.page Pg.sba with
        pend := false, actTag := (s.page Pg.sba).pendTag
        irqStat := (s.page Pg.sba).irqStat ||| (if (List.finRange 4).any fun p => !(s.sbaP p).paused && (t.sbaP p).paused then 0x102 else 2) } ∧
      ∀ (a : Nat) (d : Word), sget d a t.active =
        if 0x4000C040 ≤ a ∧ a < 0x4000D000 then sget d a s.pendSet else sget d a s.active)

/-- While FCC has its clock, a keyed write of PG_FLT_FORCE injects one report for each bit of a local source that the
page has, and one of FCC_FORCE one report for each identifier named, at its lowest source; they join the reports that
wait for FCC and nothing else changes. -/
def Obligations.ForcedFaultIsReported : Prop :=
  ∀ (s : State) (pg : PageIx) (bits : Word) (j : Fin 4), s.Open pg → s.chip.sysStopped = false →
    exec (.pgFltForce pg bits) s = .next { s with reports := s.reports ++
      (((List.range 32).filter fun k => bits.getLsbD k && (faultId pg k).isSome).map fun k =>
        { page := pg, k := Fin.ofNat 32 k, inj := true, at_ := s.time }) } ∧
    exec (.faultInject j bits) s = .next { s with reports := s.reports ++
      (((List.range 32).filter fun b => bits.getLsbD b).filterMap fun b => (sourcesOf (32 * j.val + b)).head?).map fun x =>
        { page := x.1, k := Fin.ofNat 32 x.2, inj := true, at_ := s.time } }

/-- A doorbell value no further than the ring size from HEAD and from TAIL becomes TAIL, which the running manager
presents to the thread, and nothing else changes; any other value is discarded, recorded in QMG_DBERR, counted, and
raises the doorbell fault. The queue is not in recovery, and no posted write waits. -/
def Obligations.DoorbellWithinRange : Prop :=
  ∀ (s : State) (rq : Requester) (q : QNum) (v : BitVec 16), s.Open Pg.qmg → s.WritesAt rq (wordAt R.QMG_Qn_DB q.val) →
    (s.q q).recov = none →
    ((v - (s.q q).head).toNat ≤ s.qSize q ∧ (v - (s.q q).tail).toNat ≤ s.qSize q →
      exec (.doorbell q v rq) s =
        .next (s.modQ q fun x => { x with tail := v, pres := if s.running Pg.qmg then v else x.pres })) ∧
    (¬ ((v - (s.q q).head).toNat ≤ s.qSize q ∧ (v - (s.q q).tail).toNat ≤ s.qSize q) →
      exec (.doorbell q v rq) s =
        .next ((((s.wr R.QMG_DBERR (s.rd R.QMG_DBERR ||| BitVec.ofNat 32 (2 ^ q.val))).count R.QMG_Qn_DBREJ q.val).irq
          Pg.qmg 6).raise Pg.qmg 0))

/-- A write of CRD that would leave more unread entries than the completion ring holds is refused into QMG_REFUSED;
any other is taken, and no register, byte of memory or other queue index changes. -/
def Obligations.CompletionCreditReturns : Prop :=
  ∀ (s : State) (q : QNum) (v : BitVec 16), s.Open Pg.qmg →
    (s.qCsize q < ((s.q q).cwr - v).toNat → exec (.crdWrite q v) s = .next (s.refuse q)) ∧
    (((s.q q).cwr - v).toNat ≤ s.qCsize q → Gives (.crdWrite q v) s fun t =>
      t.queues = s.queues.set q { s.q q with crd := v } ∧ t.regs = s.regs ∧ t.mem = s.mem)

/-- EN = 1 on a disabled queue whose configuration is taken enables it where its rings and port pass the checks, and
is refused where they do not; EN = 0 on an enabled queue with nothing in flight disables it. Memory does not change. A
new value of QMG_Qn_RING for a disabled queue with empty rings is stored and the queue's indices are cleared; with
entries left it is refused; on an enabled queue it changes nothing. -/
def Obligations.QueueEnablesAndDisables : Prop :=
  ∀ (s : State) (q : QNum) (v : Word), s.Open Pg.qmg →
    (v.getLsbD 0 = true → (s.q q).mode = .off → (s.cfgWrite q v).2 = true → (s.cfgWrite q v).1.qEn q = false →
      (((s.cfgWrite q v).1.enableOk q = true → Gives (.queueEnable q v) s fun t =>
          (t.q q).mode = .run ∧ (t.q q).profile = 0 ∧ t.qEn q = true ∧ t.mem = s.mem) ∧
        ((s.cfgWrite q v).1.enableOk q = false → exec (.queueEnable q v) s = .next ((s.cfgWrite q v).1.refuse q)))) ∧
    (v.getLsbD 0 = false → (s.q q).mode = .run → s.qEn q = true → (s.q q).cmds = [] → (s.q q).conts = [] →
      (s.q q).flushTo = none → (s.thr q).levels = [] → (s.thr q).wait = .none → Gives (.queueDisable q v) s fun t =>
        (t.q q).mode = .off ∧ t.qEn q = false ∧ t.mem = s.mem) ∧
    (s.rd R.QMG_Qn_RING q.val ≠ v →
      ((s.q q).mode = .off → (s.q q).emptyRings = true →
        exec (.queueReconfigure q 1 v) s = .next ((s.wr R.QMG_Qn_RING v q.val).clearIx q)) ∧
      ((s.q q).mode = .off → (s.q q).emptyRings = false → exec (.queueReconfigure q 1 v) s = .next (s.refuse q)) ∧
      ((s.q q).mode ≠ .off → exec (.queueReconfigure q 1 v) s = .next s))

/-- On a halted queue whose thread context is not lost: RESUME takes the continuations of the halt set and lets the
queue run on, and ends HOLD of the port that it is bound to. On a halted queue SKIP_JOB outside a job lets it run on
with nothing continued, and inside one it starts the cancellations, unless the next entry is a JOB_BEGIN: then it ends
at once; FLUSH of a ring with nothing left ends at once, and with entries left it starts the cancellations. On a queue
bound to a port SKIP_JOB and FLUSH release the port's lines, bands, window and held lines. FLUSH of a queue that is
IDLE, ACTIVE or WAIT_SLOT, or in its bind-off, with nothing in flight acts as on a halted one; one whose command in
flight is the ring's aborts that command at once, and its cancellations wait for the halt. A cancellation of SKIP_JOB
writes the CANCELLED entry of the command at NEXT and moves past it; it is the last if that was a JOB_END or a
JOB_BEGIN comes next; a JOB_BEGIN at NEXT is not cancelled: the skip ends before it and writes nothing. On a queue in
any other state RESUME and SKIP_JOB are refused, RESUME also where the context is lost, and FLUSH is refused on a
disabled one. The model's choice is named: the JOB of a CANCELLED entry is log entry 131. -/
def Obligations.RecoveryCommands : Prop :=
  ∀ (s : State) (q : QNum), s.Open Pg.qmg →
    ((s.q q).mode = .halted → s.qEn q = true → (s.q q).lost = false → (∀ c ∈ s.continuations q false, c.e.opc = 0x15 → c.committed = true) →
      Gives (.rcmdResume q) s fun t =>
        (t.q q).mode = .run ∧ (t.q q).conts = s.continuations q false ∧ (t.q q).haltSet = [] ∧ SameMem s t ∧ t.regs = s.regs ∧
        (∀ p, s.qPort q = some p → (t.hpP p).hold = none ∧ t.lines p = s.lines p)) ∧
    ((s.q q).mode = .halted → s.qEn q = true →
      ((s.q q).hjob = 0xFFFF → Gives (.rcmdSkipJob q) s fun t => (t.q q).mode = .run ∧ (t.q q).haltSet = [] ∧
        (t.q q).conts = (s.q q).conts ∧ (t.q q).next = (s.q q).next ∧
        (∀ p, s.qPort q = some p → PortReleased p s t) ∧ SameMem s t ∧ t.regs = s.regs) ∧
      ((s.q q).hjob ≠ 0xFFFF → (s.q q).next = (s.q q).tail → Gives (.rcmdSkipJob q) s fun t =>
        (t.q q).mode = .recovering ∧ (t.q q).recov = some .skip ∧ (∀ p, s.qPort q = some p → PortReleased p s t) ∧
        SameMem s t ∧ t.regs = s.regs) ∧
      ((s.q q).hjob ≠ 0xFFFF → (s.q q).next ≠ (s.q q).tail → Gives (.rcmdSkipJob q) s fun t =>
        (t.q q).next = (s.q q).next ∧ (∀ p, s.qPort q = some p → PortReleased p s t) ∧ SameMem s t ∧ t.regs = s.regs ∧
        (if (s.ringEntry q (s.q q).next).opc = 1 then (t.q q).mode = .run ∧ (t.q q).recov = none ∧ (t.q q).jobOpen = false
         else (t.q q).mode = .recovering ∧ (t.q q).recov = some .skip))) ∧
    (s.qEn q = true → (s.q q).mode = .halted ∨ (s.q q).mode = .recovering ∨ (s.Clear q ∧ (s.thr q).levels = [] ∧
        ((s.q q).mode = .run ∨ (s.q q).mode = .bindoff)) →
      ((s.q q).next = (s.q q).tail → Gives (.rcmdFlush q) s fun t => (t.q q).mode = .run ∧ (t.q q).jobOpen = false ∧
        (∀ p, s.qPort q = some p → PortReleased p s t) ∧ SameMem s t ∧ t.regs = s.regs) ∧
      ((s.q q).next ≠ (s.q q).tail → Gives (.rcmdFlush q) s fun t => (t.q q).mode = .recovering ∧
        (t.q q).recov = some (.flush (s.q q).tail) ∧ (t.q q).next = (s.q q).next ∧
        (∀ p, s.qPort q = some p → PortReleased p s t) ∧ SameMem s t ∧ t.regs = s.regs)) ∧
    (∀ c, (s.q q).mode = .run ∨ (s.q q).mode = .bindoff → (s.q q).cmds = [c] → (s.q q).conts = [] → c.out = none → c.ring = true →
      c.call = false → (s.thr q).levels = [] → Gives (.rcmdFlush q) s fun t => SameMem s t ∧ t.regs = s.regs ∧
        t.q q = { s.q q with
          mode := .bindoff, haltGiven := if (s.q q).mode = .run then false else (s.q q).haltGiven, flushTo := some (s.q q).tail
          cmds := [{ s.done c St.aborted with resume := if c.e.opc = 0x15 then BitVec.ofNat 32 c.resumeLine else c.resume }] } ∧
        ∀ o, o ≠ q → t.q o = s.q o) ∧
    (∀ (e : Entry) (a : Nat), s.running Pg.qmg = true → (s.q q).mode = .recovering → (s.q q).recov = some .skip → (s.q q).cmds = [] → (s.q q).conts = [] →
      s.qEn q = true → s.slotFree q = true → s.echoUart q = none → e = s.ringEntry q (s.q q).next →
      (e.opc = 1 → (s.q q).next ≠ (s.q q).tail → Gives (.completionWrite q) s fun t => SameMem s t ∧ t.regs = s.regs ∧
        (t.q q).mode = .run ∧ (t.q q).recov = none ∧ (t.q q).jobOpen = false ∧ (t.q q).next = (s.q q).next ∧ (t.q q).cwr = (s.q q).cwr) ∧
      (e.opc ≠ 1 → e.slots ≤ ((s.q q).tail - (s.q q).next).toNat →
        a = (s.rd R.QMG_Qn_CRING q.val).toNat + (s.q q).cwr.toNat % s.qCsize q * 16 →
        Gives (.completionWrite q) s fun t => (t.q q).next = (s.q q).next + BitVec.ofNat 16 e.slots ∧ (t.q q).cwr = (s.q q).cwr + 1 ∧
          (t.q q).head = (t.q q).next ∧ SameMemBut a 16 s t ∧ SameRegsBut [R.QMG_Qn_DONE.addr q.val 0] s t ∧
          t.bytes a 16 = (Cpl.bytes { job := (s.q q).recovJob, idx := (s.q q).next, status := St.cancelled, auto := (s.q q).recovAuto, time := s.timeLo, slots := e.slots } (s.q q).phase false) ∧
          (t.q q).mode = if e.opc = 2 ∨ ((t.q q).next ≠ (s.q q).tail ∧ (t.ringEntry q (t.q q).next).opc = 1) then .run else .recovering)) ∧
    ((s.q q).mode ≠ .halted → exec (.rcmdResume q) s = .next (s.refuse q) ∧ exec (.rcmdSkipJob q) s = .next (s.refuse q)) ∧
    ((s.q q).lost = true → exec (.rcmdResume q) s = .next (s.refuse q)) ∧
    ((s.q q).mode = .off → exec (.rcmdFlush q) s = .next (s.refuse q))

/-- With the manager at work and a queue that runs, whose oldest command has the outcome OK and has no others with it,
and which no UART echoes: the sixteen bytes of its entry are stored at the slot that CWR names, CWR advances by one,
HEAD moves past the command, and every other byte of memory reads as before. -/
def Obligations.CompletionEntryIsWritten : Prop :=
  ∀ (s : State) (q : QNum) (c : Cmd), s.Up → s.working Pg.qmg = true → (s.q q).mode = .run → (s.q q).conts = [] →
    (s.q q).cmds = [c] → c.out = some 0 → c.cont = false → c.slots ≠ 0 → s.echoUart q = none →
    Gives (.completionWrite q) s fun t =>
      SameMemBut ((s.rd R.QMG_Qn_CRING q.val).toNat + (s.q q).cwr.toNat % s.qCsize q * 16) 16 s t ∧
      t.bytes ((s.rd R.QMG_Qn_CRING q.val).toNat + (s.q q).cwr.toNat % s.qCsize q * 16) 16 =
        c.cpl.bytes (s.q q).phase false ∧
      (t.q q).cwr = (s.q q).cwr + 1 ∧ (t.q q).head = c.idx + BitVec.ofNat 16 c.slots ∧ (t.q q).cmds = [] ∧
      SameRegsBut [R.QMG_Qn_DONE.addr q.val 0] s t

/-- On a halted queue bound to no port whose halt set is empty and whose status was ABORTED, with SEQ in RUN, the
policy's RESUME lets the queue run on and counts one retry; without an action of the policy nothing happens. -/
def Obligations.PolicyActsAfterHalt : Prop :=
  ∀ (s : State) (q : QNum), s.Up →
    ((s.q q).mode = .halted → (s.q q).autoAct = some 1 → (s.q q).haltSet = [] → (s.q q).hstat = St.aborted →
      s.qPort q = none → s.running Pg.seq = true → s.qEn q = true → Gives (.autoRecovery q) s fun t =>
        (t.q q).mode = .run ∧ (t.q q).retryUsed = (s.q q).retryUsed + 1 ∧ (t.q q).autoAct = none ∧
        t.mem = s.mem ∧ t.regs = s.regs) ∧
    ((s.q q).autoAct = none → exec (.autoRecovery q) s = .next s)

/-- Issued from the ring of a queue with nothing in flight: JOB_BEGIN opens the job that SP names, with its POLICY and
no retries used (its own completion carries the number: model's choice, log entry 30); JOB_END closes the job; NOP
does nothing; SET_PROFILE of a valid profile makes it current. Each completes OK at once, NEXT moves past it, and
nothing but its queue and the turns of the threads changes. -/
def Obligations.JobCommandsComplete : Prop :=
  ∀ (s : State) (q : QNum) (e : Entry),
    (s.Issues q 0x01 e → e.sp ≠ 0xFFFF → (s.q q).jobOpen = false → Gives (.jobBegin q) s fun t =>
      IssueFrame q (s.dropStep s.nextUid) t ∧ (t.thr q).wait = .none ∧
      t.q q = { s.q q with
        next := (s.q q).next + 1, cmds := [{ s.done (s.taken q e) St.ok with job := BitVec.ofNat 16 e.sp }]
        jobOpen := true, jobNum := BitVec.ofNat 16 e.sp, policy := e.w1.setWidth 8, retryUsed := 0 }) ∧
    (s.Issues q 0x02 e → Gives (.jobEnd q) s fun t =>
      IssueFrame q (s.dropStep s.nextUid) t ∧ (t.thr q).wait = .none ∧
      t.q q = { s.q q with
        next := (s.q q).next + 1, cmds := [s.done (s.taken q e) St.ok], jobOpen := false }) ∧
    (s.Issues q 0x7F e → Gives (.nop q) s fun t =>
      IssueFrame q (s.dropStep s.nextUid) t ∧ (t.thr q).wait = .none ∧
      t.q q = { s.q q with next := (s.q q).next + 1, cmds := [s.done (s.taken q e) St.ok] }) ∧
    (∀ p, s.Issues q 0x30 e → s.qPort q = some p → ((s.hheP p).profiles[Fin.ofNat 16 (e.sp % 16)]).valid = true →
      Gives (.setProfile q) s fun t =>
      IssueFrame q (s.dropStep s.nextUid) t ∧ (t.thr q).wait = .none ∧
      t.q q = { s.q q with
        next := (s.q q).next + 1, cmds := [s.done (s.taken q e) St.ok], profile := e.sp % 16 })

/-- The next entry of the ring has an opcode that R89 does not list, or a reserved bit set: it completes BAD_COMMAND,
the queue is bound off, SEQ_Tn_BADCMD records index, opcode and reason 1 or 2, and event 6 of SEQ is set. No other
register and no byte of memory changes. That a reserved bit is recorded before a refusal of the context, and that bits
of unused fields shown as 0 count as reserved, is the model's choice, log entries 95 and 96. -/
def Obligations.MalformedEntryIsRefused : Prop :=
  ∀ (s : State) (q : QNum) (e : Entry) (r : Nat),
    s.Up → s.seqPick = some q → (s.thr q).trapDue = false → s.nextEntry q = some e → e.malformed = some r →
    s.spot q = .ring → s.Clear q → Gives (.undefinedOpcode q) s fun t =>
      SameMem s t ∧ SameRegsBut [R.SEQ_Tn_BADCMD.addr q.val 0] s t ∧
      t.rd R.SEQ_Tn_BADCMD q.val = BitVec.ofNat 32 ((s.q q).next.toNat * 65536 + e.opc * 256 + r) ∧ (r = 1 ∨ r = 2) ∧
      t.page Pg.seq = { s.page Pg.seq with irqStat := (s.page Pg.seq).irqStat ||| 64 } ∧
      t.q q = { s.q q with
        next := (s.q q).next + BitVec.ofNat 16 e.slots, cmds := [s.done (s.taken q e) St.badCommand]
        mode := .bindoff, haltGiven := false } ∧ ∀ o, o ≠ q → t.q o = s.q o

/-- While RND draws a step, of this port or another: a composition command whose operands pass the checks that need no
reading, and whose blocks run, is started and joins the steps of its port behind those that wait there; its thread
goes on. A PRINT of 1 line up to the area's lines does the same behind the steps of its port, and its thread waits for
the commit. Nothing is drawn yet: memory and registers stay as they were. That the checks that need the object wait
until RND takes the step up is the model's choice, log entry 15, and so is that nothing is drawn before the step's
DRAW_COMPLETE, log entry 16. -/
def Obligations.CompositionEntersRender : Prop :=
  ∀ (s : State) (q : QNum) (e : Entry) (p : Port),
    s.qPort q = some p → s.needsMet q e = true → s.RndBusy →
    (∀ op c, (op, c) ∈ [(0x10, Instr.bandRaw q), (0x11, .textRun q), (0x12, .logo q), (0x13, .rule q), (0x14, .bars q)] →
      s.Issues q op e → s.compStatic p e = none → Gives c s fun t =>
        IssueFrame q { s with rnd := { s.rnd with
          steps := s.rnd.steps.set p (s.steps p ++ [{ uid := s.nextUid, q := q, e := e }]) } } t ∧
        (t.thr q).wait = .none ∧
        t.q q = { s.q q with next := (s.q q).next + 1, cmds := [s.taken q e] }) ∧
    (s.Issues q 0x15 e → s.steps p ≠ [] → e.sp ≠ 0 → e.sp ≤ s.area p → Gives (.print q) s fun t =>
        IssueFrame q { s with rnd := { s.rnd with
          steps := s.rnd.steps.set p (s.steps p ++ [{ uid := s.nextUid, q := q, e := e }]) } } t ∧
        (t.thr q).wait = .commit s.nextUid ∧
        t.q q = { s.q q with next := (s.q q).next + 1, cmds := [s.taken q e] })

/-- When every earlier step of its port has been drawn, RND takes up nothing new of another port, and the PRINT of n
lines stands at the front with no window open and no hold, the commit appends its n lines in order to the port's
committed lines, each with its band, row and the queue's profile, where every line of it has its band; line 0 of the
area moves n on; the thread goes on; the PRINT is in flight with its n lines. Memory stays as it was. -/
def Obligations.PrintCommits : Prop :=
  ∀ (s : State) (q : QNum) (p : Port) (x : Step) (c : Cmd),
    s.Up → (s.thr q).wait = .commit x.uid → s.qPort q = some p → s.steps p = [x] → x.granted = true →
    s.RndStill p → (s.thr q).leaving = false → s.running Pg.skn = true → (s.q q).cmds = [c] → (s.q q).conts = [] → c.uid = x.uid → c.out = none →
    s.win p = none → (s.hpP p).hold = none →
    (∀ k < c.e.sp, (s.slotBand p ((s.skn.o[p] + k) / 64)).isSome = true) →
    Gives (.printCommit q) s fun t =>
      SameMem s t ∧ t.skn.o[p] = (s.skn.o[p] + c.e.sp) % 64 ∧ (t.thr q).wait = .none ∧ t.steps p = [] ∧
      (t.q q).cmds = [{ c with committed := true, lines := c.e.sp }] ∧
      (t.lines p).length = (s.lines p).length + c.e.sp ∧
      (∀ i, i < (s.lines p).length → (t.lines p)[i]? = (s.lines p)[i]?) ∧
      (∀ k b, k < c.e.sp → s.slotBand p ((s.skn.o[p] + k) / 64) = some b →
        (t.lines p)[(s.lines p).length + k]? =
          some (Line.mk c.uid q k b (Fin.ofNat 64 ((s.skn.o[p] + k) % 64)) (s.q q).profile none)) ∧
      ∀ o, o ≠ p → t.lines o = s.lines o ∧ t.skn.o[o] = s.skn.o[o]

/-- FEED or CUT, issued for an idle axis with no command waiting, or issued as its media order becomes satisfied,
makes a pending set of the axis active and gives the axis the job: FEED by DIST steps, or by as many dot lines in
steps by the pitch now active; CUT from the home input by the stroke of its kind, or by a home search first. The axis
starts from rest, its thread waits for the outcome, the position, the registers and memory stay, and no other axis is
touched. -/
def Obligations.FeedAndCutStart : Prop :=
  ∀ (s : State) (q : QNum) (e : Entry) (a : AxNum) (cmd : Instr),
    s.axisBad e (s.qPort q) = none → s.mediaAx e (s.qPort q) = some a → s.needsMet q e = true →
    s.axIdle a = true → (s.axS a).waiting = [] →
    (∀ d : Int, d = (if e.flags % 2 = 0 then (s.activate (Pg.ax a)).lineSteps a e.w1.toInt else e.w1.toInt) →
      (e.flags % 2 = 0 → (s.qPort q).isSome = true) → e.w1 ≠ 0 → BitVec.ofInt 32 d ≠ 0 →
      s.Issues q 0x20 e → cmd = .feed q ∨ cmd = .mediaOrderSatisfied q → Gives cmd s fun t =>
        SameMem s t ∧ t.regs = s.regs ∧ (t.thr q).wait = .outcome s.nextUid ∧ (t.q q).cmds = [s.taken q e] ∧
        (t.axS a).act = .move ∧ (t.axS a).v = 0 ∧ (t.axS a).target = s.axPos a + BitVec.ofInt 32 d ∧
        (t.axS a).job = some ⟨q, s.nextUid, s.qPort q, .feed (e.flags % 2 == 0) e.w1.toInt⟩ ∧ ∀ b, b ≠ a → t.axS b = s.axS b) ∧
    (s.Issues q 0x21 e → cmd = .cut q ∨ cmd = .mediaOrderSatisfied q → Gives cmd s fun t =>
        SameMem s t ∧ t.regs = s.regs ∧ (t.thr q).wait = .outcome s.nextUid ∧ (t.q q).cmds = [s.taken q e] ∧
        (t.axS a).job = some ⟨q, s.nextUid, s.qPort q, .cut (e.flags % 2 == 1)⟩ ∧ (t.axS a).v = 0 ∧
        (if s.atHome a then (t.axS a).act = .move ∧ (t.axS a).cut = some 2
          else (t.axS a).act = .home ∧ (t.axS a).neg = true ∧ (t.axS a).cut = some 1) ∧ ∀ b, b ≠ a → t.axS b = s.axS b)

/-- WAIT_MEDIA of a condition that holds completes OK. Of one that does not hold, without FEED, it joins the waits of
MED, due LIMIT ms from now; with FEED and an idle feed axis it starts a search forward as well. A wait without FEED
that is due, the only command in flight, completes MEDIA_TIMEOUT and binds its queue off. Memory and registers stay as
they were. -/
def Obligations.WaitMediaWaits : Prop :=
  ∀ (s : State) (q : QNum) (e : Entry) (p : Port) (cmd : Instr), s.qPort q = some p →
    (s.Issues q 0x22 e → s.waitBad e p = false → s.needsMet q e = true → cmd = .waitMedia q ∨ cmd = .mediaOrderSatisfied q →
      (s.mediaHolds p (e.sp % 16) = true → Gives cmd s fun t =>
        IssueFrame q (s.dropStep s.nextUid) t ∧ (t.thr q).wait = .none ∧
        t.q q = { s.q q with next := (s.q q).next + 1, cmds := [s.done (s.taken q e) St.ok] }) ∧
      (s.mediaHolds p (e.sp % 16) = false → e.flags % 2 = 0 → Gives cmd s fun t =>
        IssueFrame q { s with med := { s.med with waits := s.med.waits ++ [MediaWait.mk q s.nextUid p (e.sp % 16) none
          (if e.w1 = 0 then none else some (s.time + BitVec.ofNat 64 (e.w1.toNat * 100000)))] } } t ∧
        (t.thr q).wait = .outcome s.nextUid ∧
        t.q q = { s.q q with next := (s.q q).next + 1, cmds := [s.taken q e] }) ∧
      (∀ a, s.mediaHolds p (e.sp % 16) = false → e.flags % 2 = 1 → s.feedAx p = some a → s.axIdle a = true →
        (s.axS a).waiting = [] → Gives cmd s fun t =>
        SameMem s t ∧ t.regs = s.regs ∧ (t.thr q).wait = .outcome s.nextUid ∧ (t.q q).cmds = [s.taken q e] ∧
        t.med = { s.med with waits := s.med.waits ++ [MediaWait.mk q s.nextUid p (e.sp % 16) (some a) none] } ∧
        (t.axS a).act = .search ∧ (t.axS a).neg = false ∧ (t.axS a).v = 0 ∧
        ((t.axS a).job.map fun j => (j.q, j.uid)) = some (q, s.nextUid) ∧ ∀ b, b ≠ a → t.axS b = s.axS b)) ∧
    (∀ (c : Cmd) (w : MediaWait) (d : BitVec 64), s.Up → s.Holds q c → s.med.waits = [w] → w.q = q → w.uid = c.uid →
      w.due = some d → d.toNat ≤ s.time.toNat → (s.thr q).wait = .outcome c.uid → Gives (.waitMediaTimeout q) s fun t =>
        SameMem s t ∧ t.regs = s.regs ∧ t.med = { s.med with waits := [] } ∧ (t.thr q).wait = .none ∧
        t.q q = { s.q q with cmds := [s.done c St.mediaTimeout], mode := .bindoff, haltGiven := false })

/-- VERIFY opening, on a port without a window and with an enabled context of a pipeline in RUN, opens one with its
two limits and completes OK. VERIFY closing completes OK at once where no window is open; where one is open and not
done, the close waits in it while its thread goes on. Other ports' windows and memory stay as they were. -/
def Obligations.VerifyWindows : Prop :=
  ∀ (s : State) (q : QNum) (e : Entry) (p : Port), s.Issues q 0x31 e → s.qPort q = some p →
    (e.flags % 2 = 0 → s.win p = none → (∃ v ∈ s.vpOf p, s.running (Pg.vp v) = true) → Gives (.verifyOpen q) s fun t =>
      SameMem s t ∧ t.win p = some { maxDot := wbits e.w1 0 16, maxMis := wbits e.w1 16 16 } ∧
      (∀ o, o ≠ p → t.win o = s.win o) ∧ (t.thr q).wait = .none ∧
      (t.q q).cmds = [s.done (s.taken q e) St.ok] ∧ ∀ o, o ≠ q → t.q o = s.q o) ∧
    (e.flags % 2 = 1 → s.win p = none → Gives (.verifyClose q) s fun t =>
      IssueFrame q (s.dropStep s.nextUid) t ∧ (t.thr q).wait = .none ∧
      t.q q = { s.q q with next := (s.q q).next + 1, cmds := [s.done (s.taken q e) St.ok] }) ∧
    (∀ w, e.flags % 2 = 1 → s.win p = some w → w.closing = none → s.winDone p = false → Gives (.verifyClose q) s fun t =>
      IssueFrame q (s.setWin p (some { w with closing := some (q, s.nextUid) })) t ∧ (t.thr q).wait = .none ∧
      t.q q = { s.q q with next := (s.q q).next + 1, cmds := [s.taken q e] })

/-- With good targets and within the limit of transfers: CALL, and an IF_STATE whose selector is true, enter a list
from the ring and stay in flight; an IF_STATE whose inverted selector is false completes OK and goes on. In the list,
JUMP goes to its target; LOOP goes to its target as long as its count is not used up, and then past itself; RET of the
outermost level ends the list, and the call completes OK with it. Only the branch target cache's counters change among
the registers, and no byte of memory. -/
def Obligations.ListsTransferControl : Prop :=
  ∀ (s : State) (q : QNum) (e : Entry) (l : Level) (k : Cmd),
    s.targetBad e.w1.toNat = none →
    (s.Issues q 0x41 e → Gives (.call q) s fun t =>
      SameMem s t ∧ SameRegsBut [R.SEQ_BTC_HIT.addr 0 0, R.SEQ_BTC_MISS.addr 0 0] s t ∧
      (t.thr q).levels = [⟨none, s.nextUid, {}⟩] ∧ (t.thr q).pc = e.w1.toNat ∧ (t.thr q).wait = .none ∧
      (t.q q).cmds = [{ s.taken q e with call := true }]) ∧
    (s.Issues q 0x44 e → e.sel = 0 → s.ifBad q e = none → s.limited q = false →
      (e.sp / 2 ^ 15 % 2 = 0 → Gives (.ifState q) s fun t =>
        SameMem s t ∧ SameRegsBut [R.SEQ_BTC_HIT.addr 0 0, R.SEQ_BTC_MISS.addr 0 0] s t ∧
        (t.thr q).levels = [⟨none, s.nextUid, {}⟩] ∧ (t.thr q).pc = e.w1.toNat ∧
        (t.thr q).transfers = (s.thr q).transfers + 1 ∧ (t.q q).cmds = [{ s.taken q e with call := true }]) ∧
      (e.sp / 2 ^ 15 % 2 = 1 → Gives (.ifState q) s fun t =>
        IssueFrame q (s.dropStep s.nextUid) t ∧ (t.thr q).levels = [] ∧
        (t.q q).cmds = [s.done (s.taken q e) St.ok])) ∧
    (s.ListIssues q 0x40 e l k → s.limited q = false → Gives (.jump q) s fun t =>
      SameMem s t ∧ SameRegsBut [R.SEQ_BTC_HIT.addr 0 0, R.SEQ_BTC_MISS.addr 0 0] s t ∧
      (t.thr q).levels = [l] ∧ (t.thr q).pc = e.w1.toNat ∧ (t.thr q).transfers = (s.thr q).transfers + 1 ∧
      (t.q q).cmds = [k, s.done (s.listed k e) St.ok]) ∧
    (s.ListIssues q 0x43 e l k → s.limited q = false → e.sp ≠ 0 → (l.loop.active = true → l.loop.origin = (s.thr q).pc) →
      Gives (.loop q) s fun t =>
      SameMem s t ∧ SameRegsBut [R.SEQ_BTC_HIT.addr 0 0, R.SEQ_BTC_MISS.addr 0 0] s t ∧
      (t.q q).cmds = [k, s.done (s.listed k e) St.ok] ∧ (t.thr q).loopCtr.origin = (s.thr q).pc ∧
      (match (if l.loop.active then l.loop.remain else e.sp - 1) with
        | 0 => (t.thr q).pc = (s.thr q).pc + 16 ∧ (t.thr q).loopCtr.active = false
        | r + 1 => (t.thr q).pc = e.w1.toNat ∧ (t.thr q).loopCtr.active = true ∧ (t.thr q).loopCtr.remain = r)) ∧
    (s.ListIssues q 0x42 e l k → l.ret = none → Gives (.ret q) s fun t =>
      SameMem s t ∧ t.regs = s.regs ∧ (t.thr q).levels = [] ∧
      (t.q q).cmds = [{ s.done k St.ok with closed := true, tag := 0, resume := 0 }, s.done (s.listed k e) St.ok])

/-- With no thread waiting for an event, SIGNAL sets, clears, pulses (no lasting change) or toggles the event bits of
its MASK, and SEQ_EVENT_SET and SEQ_EVENT_CLR set and clear theirs. WAIT_EVENT whose condition holds completes OK,
CONSUME clearing the bits of its MASK; else its thread waits, and after its limit completes PARTIAL. FENCE with
nothing before it completes OK. Nothing else of the machine changes. -/
def Obligations.EventsAndFence : Prop :=
  ∀ (s : State) (q : QNum) (e : Entry) (bits : Word),
    ((∀ o u n, (s.thr o).wait ≠ .event u n) →
      (∀ op c v, (op, c, v) ∈ [(0, Instr.signalSet q, s.seq.event ||| e.w1), (1, .signalClear q, s.seq.event &&& ~~~e.w1),
          (2, .signalPulse q, s.seq.event), (3, .signalToggle q, s.seq.event ^^^ e.w1)] →
        s.Issues q 0x51 e → e.flags % 4 = op → Gives c s fun t =>
          IssueFrame q ((s.setEvent v).dropStep s.nextUid) t ∧ (t.thr q).wait = .none ∧
          t.q q = { s.q q with next := (s.q q).next + 1, cmds := [s.done (s.taken q e) St.ok] }) ∧
      (s.Open Pg.seq → exec (.seqEventSet bits) s = .next (s.setEvent (s.seq.event ||| bits)) ∧
        exec (.seqEventClr bits) s = .next (s.setEvent (s.seq.event &&& ~~~bits)))) ∧
    (s.Issues q 0x52 e → e.w1 ≠ 0 →
      (e.eventMet s.seq.event = true → Gives (.waitEvent q) s fun t =>
        IssueFrame q ((s.setEvent (if e.flags / 2 % 2 = 1 then s.seq.event &&& ~~~e.w1 else s.seq.event)).dropStep
          s.nextUid) t ∧ (t.thr q).timedOut = false ∧
        t.q q = { s.q q with next := (s.q q).next + 1, cmds := [s.done (s.taken q e) St.ok] }) ∧
      (e.eventMet s.seq.event = false → Gives (.waitEvent q) s fun t =>
        IssueFrame q s t ∧ (t.thr q).wait = .event s.nextUid s.time ∧
        t.q q = { s.q q with next := (s.q q).next + 1, cmds := [s.taken q e] })) ∧
    (∀ (c : Cmd) (since : BitVec 64), s.Up → s.Holds q c → (s.thr q).wait = .event c.uid since → wbits c.e.w2 0 16 ≠ 0 →
      wbits c.e.w2 0 16 * 100000 ≤ s.since since → s.working Pg.seq = true → Gives (.waitEventTimeout q) s fun t =>
        t.seq.event = s.seq.event ∧ SameMem s t ∧ t.regs = s.regs ∧ (t.thr q).wait = .none ∧ (t.thr q).timedOut = true ∧
        t.q q = { s.q q with cmds := [s.done c St.partly] }) ∧
    (s.Issues q 0x50 e → Gives (.fence q) s fun t =>
      IssueFrame q (s.dropStep s.nextUid) t ∧ (t.thr q).wait = .none ∧
      t.q q = { s.q q with next := (s.q q).next + 1, cmds := [s.done (s.taken q e) St.ok] })

/-- WRITE_REG of a whole register without a keyed bit posts the write as its thread's own and completes OK; with a
keyed bit it completes AUTH_FAIL, posts nothing and binds its queue off. With MASK it reads SKN_AGE first and posts
the bits of VALUE under the mask among the others; with READBACK the write has taken effect when the command
completes. A KEYED at NEXT for which SEC has checks to make first waits (the model's order of checks is log entry
188). KEYED whose carried WRITE_REG of a whole register passes every test of the keyed check posts that write as a
keyed one, moves the session's counter, counts the success and takes two slots of the ring; one that fails a test
completes AUTH_FAIL and posts nothing. Memory stays as it was. -/
def Obligations.ThreadsWriteRegisters : Prop :=
  ∀ (s : State) (q : QNum) (e : Entry),
    (s.Issues q 0x60 e → e.addrBad = false →
      (e.w3 = 0xFFFFFFFF → e.flags % 2 = 0 → kwBits e.w1.toNat = 0 → Gives (.writeReg q) s fun t =>
        IssueFrame q { s.dropStep s.nextUid with
          bus := { s.bus with posted := s.bus.posted ++ [Posted.mk (.seq q) e.w1 e.w2 4 false] } } t ∧
        (t.thr q).wait = .none ∧
        t.q q = { s.q q with next := (s.q q).next + 1, cmds := [s.done (s.taken q e) St.ok] }) ∧
      (e.w3 &&& kwBits e.w1.toNat ≠ 0 → Gives (.writeReg q) s fun t =>
        IssueFrame q (s.dropStep s.nextUid) t ∧
        t.q q = { s.q q with
          next := (s.q q).next + 1, cmds := [s.done (s.taken q e) St.authFail], mode := .bindoff, haltGiven := false }) ∧
      (∀ v, e.w1 = 0x40006040 → s.bus.posted = [] → (s.page Pg.skn).st ≠ .resetting →
        v = ((s.rd R.SKN_AGE &&& ~~~e.w3) ||| (e.w2 &&& e.w3)) → Gives (.writeReg q) s fun t =>
        (t.thr q).wait = .none ∧
        t.q q = { s.q q with next := (s.q q).next + 1, cmds := [s.done (s.taken q e) St.ok] } ∧
        (e.flags % 2 = 0 → IssueFrame q { s.dropStep s.nextUid with
          bus := { s.bus with posted := [Posted.mk (.seq q) e.w1 v 4 false] } } t) ∧
        (e.flags % 2 = 1 → IssueFrame q ((s.dropStep s.nextUid).wr R.SKN_AGE
          ((s.rd R.SKN_AGE &&& 0xFFFF0000) ||| (v &&& 0xFFFF))) t))) ∧
    (s.Up → s.keyedWaits q = true → exec (.keyed q) s = .next s) ∧
    (∀ e2 i reason, s.Issues q 0x61 e → s.keyedWaits q = false → (s.taken q e).e2 = e2 → i = Fin.ofNat 8 (e.sp % 8) → e2.carriedBad = none →
      e2.w3 = 0xFFFFFFFF → e2.flags % 2 = 0 →
      s.keyedReason (.seq (s.fromBoot q (s.q q).next)) i e.w1 (natBytes 4 e.w2.toNat ++ natBytes 4 e.w3.toNat) e2.bytes
        (makerReg e2.w1.toNat) = reason →
      (reason = none → Gives (.keyed q) s fun t =>
        SameMem s t ∧ SameRegsBut [R.SEC_SSs_OK.addr i.val 0] s t ∧
        t.bus.posted = s.bus.posted ++ [Posted.mk (.seq q) e2.w1 e2.w2 4 true] ∧
        t.sess i = { s.sess i with last := e.w1, run := 0, since := s.time } ∧ (∀ j, j ≠ i → t.sess j = s.sess j) ∧
        t.q q = { s.q q with next := (s.q q).next + 2, cmds := [s.done (s.taken q e) St.ok] }) ∧
      (reason ≠ none → Gives (.keyed q) s fun t =>
        SameMem s t ∧ t.bus = s.bus ∧ (∀ j, j ≠ i → t.sess j = s.sess j) ∧
        t.q q = { s.q q with
          next := (s.q q).next + 2, cmds := [s.done (s.taken q e) St.authFail], mode := .bindoff, haltGiven := false }))

/-- A write of BTC_INVALIDATE empties the branch target cache. A thread in a list that wants its next entry gets it
from a line of a bank that is free and holds no error; from a bank that runs an operation it gets a status line, asks
for a suspend, and retries, each retry counted; when the bank is free the retry brings the entry. A thread whose trap
list is due starts it at its base. Memory stays as it was. -/
def Obligations.ListEntriesComeFromFlash : Prop :=
  ∀ (s : State) (q : QNum),
    (s.Open Pg.seq → exec .btcInvalidate s = .next { s with seq := { s.seq with btc := [] } }) ∧
    (s.Up → s.running Pg.flc = true → s.bankFailed 0 = false → s.bankFailed 1 = false → s.flc.ecc = [] → s.flc.undef = [] →
      s.flc.bufs[(0 : Fin 3)] = [] →
      (s.wantsFetch q = true → (s.thr q).retry = none → s.flc.op = none → Gives (.listEntryFetch q) s fun t =>
        SameMem s t ∧ t.regs = s.regs ∧ t.q q = s.q q ∧
        t.thr q = { s.thr q with fetched := some (s.listPc q, s.flashEntry (s.listPc q)), retry := none, jumped := false } ∧
        ∀ o, o ≠ q → t.thr o = s.thr o) ∧
      (∀ o, s.flc.op = some o → o.suspSince = none → o.bank = flashBank (s.listPc q) → s.running Pg.seq = true →
        (s.wantsFetch q = true → (s.thr q).retry = none → exec (.listEntryFetch q) s =
          .next ({ s with flc := { s.flc with op := some { o with spend := true } } }.modThr q
            fun t => { t with retry := some ⟨s.listPc q, 1⟩ })) ∧
        (∀ n, (s.thr q).retry = some ⟨s.listPc q, n⟩ → n + 1 < 1024 → exec (.seqFlashRetry q) s =
          .next ({ s.count R.SEQ_FLRETRY with flc := { s.flc with op := some { o with spend := true } } }.modThr q
            fun t => { t with retry := some ⟨s.listPc q, n + 1⟩ }))) ∧
      (∀ n, s.flc.op = none → s.running Pg.seq = true → (s.thr q).retry = some ⟨s.listPc q, n⟩ →
        inFlash (s.listPc q) 16 = true → Gives (.seqFlashRetry q) s fun t =>
        SameMem s t ∧ t.regs = (s.count R.SEQ_FLRETRY).regs ∧
        (t.thr q).fetched = some (s.listPc q, s.flashEntry (s.listPc q)) ∧ (t.thr q).retry = none)) ∧
    (s.Up → s.seqPick = some q → (s.thr q).trapDue = true → Gives (.trapListStart q) s fun t =>
      SameMem s t ∧ t.regs = s.regs ∧ t.queues = s.queues ∧ t.pages = s.pages ∧
      t.thr q = { s.thr q with trapDue := false, fresh := false, trap := some { pc := s.fld F.SEQ_Tn_TRAP_BASE q.val * 16 }, passed := 0,
                               fetched := none, retry := none, jumped := false } ∧
      ∀ o, o ≠ q → t.thr o = { s.thr o with passed := (t.thr o).passed })

/-- With SKN in RUN and nothing else to start in RND: the only waiting step is granted its bands when enough are free,
reserved bands first where they suffice and pool bands after them where they do not, each band then a COMPOSE band of
the port for its window slot, all other bands as before; with too few free it goes on waiting and nothing changes. A
waiting step that reaches the aging limit is marked, and AGED is set; before that nothing changes. A granted
composition step that is the only one RND holds, whose object reads well and lies on the head, is drawn: its command
completes OK, or PARTIAL where dots of a text or logo had no room, RND_STEPS counts, it leaves the steps of its port,
each dot of its rectangle (of a TEXT_RUN, of its cells) is the object's laid over what the rectangle held, or over
white without MERGE, and every other dot of the Skein and every byte outside it stays: so for BAND_RAW, RULE, BARS,
TEXT_RUN and LOGO, and for run-length streams that do not break. A RULE or band that the area no longer holds when it
is drawn completes BAD_COMMAND with reason 0xA. (When the object is read, what a text without a glyph clears, how RND
takes turns and that the drawing is one event are the model's choices, log entries 15, 13 and 16.) A step or a header
check that waits for a status line retries it: while the bank runs an operation the retries are counted, and once it
is free a granted step goes on. -/
def Obligations.RenderStepsProceed : Prop :=
  ∀ (s : State) (p : Port), s.Up →
    (∀ w x l pool n, s.running Pg.skn = true → s.skn.waits = [w] → w.port = p → s.steps p = x :: l → x.granted = false →
      s.RndStill p → n = (s.newSlots p w.y w.h).length →
      pool = (if n ≤ (s.freeRes p).length then s.freeRes p else s.freeRes p ++ s.freePool) →
      (n ≤ pool.length → Gives .bandWaitGrant s fun t =>
        SameMem s t ∧ t.skn.waits = [] ∧ t.steps p = { x with granted := true, got := pool.take n } :: l ∧
        (∀ e ∈ (s.newSlots p w.y w.h).zip pool, t.band e.2 = { st := .compose, port := p, slot := e.1 }) ∧
        (∀ b, b ∉ pool.take n → t.band b = s.band b) ∧ t.queues = s.queues ∧ t.pages = s.pages) ∧
      (pool.length < n → exec .bandWaitGrant s = .next s)) ∧
    (s.running Pg.skn = false → exec .bandWaitGrant s = .next s) ∧
    (∀ w l r, s.skn.waits = l ++ w :: r → (∀ v ∈ l ++ r, v.port ≠ p) → w.port = p → w.aged = false →
      (s.fld F.SKN_AGE_AGE * 100 ≤ s.since w.since → exec (.stepAged p) s =
        .next ({ s with skn := { s.skn with waits := l ++ { w with aged := true } :: r } }.irq Pg.skn 4)) ∧
      (s.since w.since < s.fld F.SKN_AGE_AGE * 100 → exec (.stepAged p) s = .next s)) ∧
    (∀ x c, s.steps p = [x] → (∀ o, o ≠ p → s.steps o = []) → s.working Pg.rnd = true → x.granted = true →
      x.retry = none → s.Holds x.q c → c.uid = x.uid →
      (∀ o rows, (rdObject p x.e s).1 = .ok (.ok o) → o.Fits s p x.e rows → s.dirWait x = false →
        (x.e.opc = 0x13 ∨ (x.e.needsDir = false ∧ 0x01000000 ≤ x.e.w1.toNat) ∨ s.FlashSound) →
        Gives (.drawComplete p) s fun t =>
          (t.q x.q).cmds = [s.done c (if o.partly s p x.e = true then St.partly else St.ok)] ∧ t.steps p = [] ∧
          t.regs = (s.count R.RND_STEPS).regs ∧ Drew o p x.e rows s t) ∧
      (x.e.opc = 0x10 ∨ x.e.opc = 0x13 → s.area p < x.e.y + x.e.sp → Gives (.drawComplete p) s fun t =>
        SameMem s t ∧ (t.q x.q).cmds = [s.done c St.badCommand] ∧ t.steps p = [] ∧
        wbits (t.rd R.SEQ_Tn_BADCMD x.q.val) 0 7 = 0xA ∧ t.rd R.RND_STEPS = satStep (s.rd R.RND_STEPS))) ∧
    (∀ x l r, s.steps p = x :: l → x.retry = some r → (s.page Pg.flc).st ≠ .resetting →
      (∀ o, s.flc.op = some o → o.suspSince = none → o.bank = flashBank r.addr → r.count + 1 < 1024 →
        exec (.rndFlashRetry p) s = .next (({ s.count R.RND_FLRETRY with
          flc := { s.flc with op := some { o with spend := true } } }).setSteps p
            ({ x with retry := some { r with count := r.count + 1 } } :: l))) ∧
      (s.flc.op = none → x.granted = true → s.RndStill p → Gives (.rndFlashRetry p) s fun t =>
        SameMem s t ∧ t.steps p = { x with retry := none } :: l ∧ t.skn = s.skn ∧ t.queues = s.queues)) ∧
    (∀ n o, s.steps p = [] → s.rnd.dirChk = some ⟨s.dirBase, n⟩ → (s.page Pg.flc).st ≠ .resetting → s.flc.op = some o →
      o.suspSince = none → o.bank = flashBank s.dirBase → n + 1 < 1024 → exec (.rndFlashRetry p) s =
        .next { s.count R.RND_FLRETRY with
          flc := { s.flc with op := some { o with spend := true } }
          rnd := { s.rnd with dirChk := some ⟨s.dirBase, n + 1⟩ } })

/-- With RND in RUN, no step waiting, and FLC with no operation, no failed bank and no word in error, a write of
RND_DIR stores the base and reads the header at it: the directory is valid exactly when magic, version and both counts
pass, and then the counts and tables are those of the header; otherwise DIRERR is set. With RND not in RUN the write
only stores the base, the model's choice (log entry 17), as is that DIRERR is set by a check that failed and that the
counts hold until a check ends (entries 150 and 151). -/
def Obligations.DirectoryIsChecked : Prop :=
  ∀ (s : State) (v : Word) (base : Nat), s.Open Pg.rnd → base = wbits v 12 12 * 4096 →
    (s.running Pg.rnd = true → (∀ p, s.steps p = []) → s.flc.op = none → s.running Pg.flc = true →
      s.bankFailed 0 = false → s.bankFailed 1 = false → s.flc.ecc = [] → s.flc.undef = [] → s.flc.bufs[(1 : Fin 3)] = [] →
      Gives (.rndDirCheck v) s fun t =>
        SameMem s t ∧ t.rd R.RND_DIR = v &&& 0x00FFF000 ∧ SameRegsBut [R.RND_DIR.addr 0 0] s t ∧
        (t.rnd.dirValid = true ↔ leNat (s.cells base 4) = 0x44524B49 ∧ leNat (s.cells (base + 4) 2) = 1 ∧
          leNat (s.cells (base + 6) 2) ≤ 256 ∧ leNat (s.cells (base + 8) 2) ≤ 1024) ∧
        (t.rnd.dirValid = true → t.rnd.nAtlas = leNat (s.cells (base + 6) 2) ∧
          t.rnd.nLogo = leNat (s.cells (base + 8) 2) ∧ t.rnd.atlasTab = leNat (s.cells (base + 12) 4) ∧
          t.rnd.logoTab = leNat (s.cells (base + 16) 4) ∧ t.pages = s.pages) ∧
        (t.rnd.dirValid = false → t.pages = (s.irq Pg.rnd 4).pages)) ∧
    (s.running Pg.rnd = false → exec (.rndDirCheck v) s = .next (s.wr R.RND_DIR (v &&& 0x00FFF000)))

/-- PROFILE_PUBLISH publishes the four staged words, or rejects them where a valid profile would have E_SLICE 0.
Enabling a port puts it in IDLE with an empty ring; disabling one with nothing in progress switches it off. One with
committed lines holds: the line it fires goes on, what it held is discarded, and its committed lines stay. A running
port whose held line is not started by its projected start and RCTOL is PAUSED and its held lines are stale, and
before that nothing changes; one that wants a line and whose samples are too old stops, with its report: the
thermistor sample for a line in progress, either sample for one to be computed ahead. With no line in demand, the
eligible line of the earliest deadline is computed and held. The model's choices are named: what enabling a port
starts anew is log entry 154, that a pause before its time changes nothing is log entry 3, a line computed ahead is
computed when the command comes is log entry 23, and which samples a line takes is log entry 139. Memory and the other
ports' engines stay as they were. -/
def Obligations.HeatEngineCommands : Prop :=
  ∀ (s : State) (p : Port),
    (∀ (j : Fin 16) (ctl : Word), s.Open Pg.hhe →
      (((ctl &&& 0x8000FFFF).getLsbD 31 = false ∨ wbits (s.rd R.HHE_Pp_PRj_E p.val j.val) 16 8 ≠ 0) →
        Gives (.profilePublish p j ctl) s fun t =>
          SameMem s t ∧ t.rd R.HHE_Pp_PRj_CTL p.val j.val = ctl &&& 0x8000FFFF ∧ t.pages = s.pages ∧
          (t.hheP p).profiles[j] = { e := s.rd R.HHE_Pp_PRj_E p.val j.val, a := s.rd R.HHE_Pp_PRj_A p.val j.val,
                                     n := s.rd R.HHE_Pp_PRj_N p.val j.val, ctl := ctl &&& 0x8000FFFF } ∧
          (∀ i, i ≠ j → (t.hheP p).profiles[i] = (s.hheP p).profiles[i]) ∧ ∀ o, o ≠ p → t.hheP o = s.hheP o) ∧
      ((ctl &&& 0x8000FFFF).getLsbD 31 = true → wbits (s.rd R.HHE_Pp_PRj_E p.val j.val) 16 8 = 0 →
        Gives (.profilePublish p j ctl) s fun t =>
          t.hhe = s.hhe ∧ SameMem s t ∧ t.page Pg.hhe = { s.page Pg.hhe with irqStat := (s.page Pg.hhe).irqStat ||| 32 } ∧
          t.rd R.HHE_STAT = s.rd R.HHE_STAT ||| BitVec.ofNat 32 (16 * 2 ^ p.val))) ∧
    (s.Open Pg.hhe → s.flag F.HHE_Pp_CFG_EN p.val = false → Gives (.hhePortEnable p) s fun t =>
      SameMem s t ∧ t.flag F.HHE_Pp_CFG_EN p.val = true ∧ (t.hheP p).mode = .idle ∧ (t.hheP p).ring = [] ∧
      (t.hheP p).lastStart = none ∧ (t.hheP p).profiles = (s.hheP p).profiles ∧ ∀ o, o ≠ p → t.hheP o = s.hheP o) ∧
    (s.Open Pg.hhe → s.flag F.HHE_Pp_CFG_EN p.val = true → (s.hpP p).cur = none → s.lines p = [] →
      Gives (.hhePortDisable p) s fun t =>
      SameMem s t ∧ t.flag F.HHE_Pp_CFG_EN p.val = false ∧ (t.hheP p).mode = .off ∧ (t.hpP p).cur = none ∧
      (t.hpP p).hold = (s.hpP p).hold ∧ ((s.ehmP p).slot = none → t.hpP p = s.hpP p) ∧ (t.ehmP p).slot = none ∧
      t.queues = s.queues ∧ ∀ o, o ≠ p → t.hheP o = s.hheP o) ∧
    (s.Open Pg.hhe → s.flag F.HHE_Pp_CFG_EN p.val = true → s.working (Pg.hp p) = true → s.lines p ≠ [] →
      (∀ c, (s.hpP p).cur = some c → c.data.isSome = true) → (s.hpP p).hold = none →
      (∀ q ∈ s.portQueues p, (s.q q).cmds = [] ∧ (s.q q).conts = []) → Gives (.hhePortDisable p) s fun t =>
      SameMem s t ∧ t.flag F.HHE_Pp_CFG_EN p.val = false ∧ (t.hheP p).mode = .off ∧
      (t.hheP p).ring = (s.hheP p).ring.filter (·.fired) ∧ (t.hpP p).hold = some St.aborted ∧
      (t.hpP p).cur = (s.hpP p).cur ∧ t.lines p = s.lines p ∧ t.queues = s.queues) ∧
    (∀ r i t, s.Up → s.computes p = true → (s.hheP p).mode = .running →
      ((s.hheP p).ring.find? fun x => !x.fired) = some r → s.lineIx p r.uid r.k = some i → s.projOf p i = some t →
      (t.toNat + s.fld F.HHE_Pp_DCFG_RCTOL p.val * 100 ≤ s.time.toNat → exec (.hhePause p) s =
        .next (s.modHhe p fun x => { x with mode := .paused, ring := x.ring.map fun (y : RingLine) =>
          if y.fired then y else { y with stale := true } })) ∧
      (s.time.toNat < t.toNat + s.fld F.HHE_Pp_DCFG_RCTOL p.val * 100 → exec (.hhePause p) s = .next s)) ∧
    (s.Up → ((s.onDemand p).isSome = true ∧ s.tsubNow p = none) ∨
        (s.onDemand p = none ∧ (s.eligible p).isSome = true ∧ s.vhLook p = .stale) → Gives (.sourceStale p) s fun t =>
      SameMem s t ∧ t.hheP p = { s.hheP p with mode := .stopped } ∧ (∀ o, o ≠ p → t.hheP o = s.hheP o) ∧
      t.reports = s.reports ++ [{ page := Pg.hhe, k := Fin.ofNat 32 (4 + p.val), at_ := s.time }] ∧
      t.page Pg.hhe = { s.page Pg.hhe with irqStat := (s.page Pg.hhe).irqStat ||| 64 }) ∧
    (∀ l τ vh ts, s.Up → (∀ o, s.onDemand o = none) → s.nextLine = some (p, l, τ) → s.vhLook p = .good vh ts →
      Gives .lineCompute s fun t =>
      SameMem s t ∧ t.pages = s.pages ∧ (∀ o, o ≠ p → t.hheP o = s.hheP o) ∧
      ∃ r ∈ (t.hheP p).ring, r.uid = l.uid ∧ r.k = l.k ∧ r.fired = false ∧ r.start = τ ∧ r.stale = false)

/-- A port that may start takes its next committed line: self-fed when its timer is done and the governor does not
pause, encoder-paced when a trigger is pending. The timer is done when its time has come, and not before. A slice that
has been shifted is latched when the next latch pulse may start: its bits are in the head's latch, its grant is
requested, and the next slice's bits are shifted after the pulse; without SBA the line ends there and the port holds.
The arbiter makes a pending set active and answers with a start, or refuses a slice above a cap with its report. At
the granted start the strobe groups fire their pulses; when they end the reservation ends, and the next slice is
shifted or the line waits for its end; where SBA has stopped before the last slice, or the port is no longer in RUN,
the line ends there. At the end LREP and LTIME are written and the port has no line; a trigger that was pending finds
none and starves; a port that paper-out has stopped then holds. The model's choices are named: that a line timer's
command before its time changes nothing is log entry 3, that a refused slice stands as refused until the Shutter
closes is log entry 37, that the pulses are kept as instants is log entry 125, that a line is cut short where the
arbiter or the port has stopped is log entry 160, and when the PRINTs of a port that paper-out stops complete is log
entry 26. Memory stays as it was, but for pulse counts in the element table at a start of scan, and where a line whose
slice counts the head has not yet got is cut short. -/
def Obligations.LineGoesThroughItsSlices : Prop :=
  ∀ (s : State) (p : Port), s.Up →
    (∀ l, s.nextLive p = some l → s.canStart p = true →
      (if s.paced p then (s.hpP p).pendTrig = true else (s.hpP p).timerDone = true ∧ s.govPaused p = false) →
      (∀ r ∈ (s.hheP p).ring, r.data.counts.length ≤ 6144) → Gives (.startOfScan p) s fun t =>
        SameMemBut 0x21000000 0x30000 s t ∧
        t.lines p = (s.lines p).filter (fun x => !(x.uid == l.uid && x.k == l.k)) ∧
        (t.hpP p).cur.map (fun c => (c.line, c.start)) = some (l, s.time) ∧ (t.hpP p).lastS = s.time ∧
        (t.hpP p).pendTrig = false ∧ (t.hpP p).timerDone = false ∧ ∀ o, o ≠ p → (t.hpP o).cur = (s.hpP o).cur) ∧
    (s.working (Pg.hp p) = true → s.paced p = false →
      ((s.hpP p).dueAt.toNat ≤ s.time.toNat →
        exec (.lineTimerExpire p) s = .next (s.modHp p fun h => { h with timerDone := true })) ∧
      (s.time.toNat < (s.hpP p).dueAt.toNat → exec (.lineTimerExpire p) s = .next s)) ∧
    (∀ c u counts, (s.hpP p).cur = some c → u = s.sbaActivate → counts = (c.data.map (·.counts)).getD [] →
      (c.st = .shifting → c.nextLatch.toNat ≤ s.time.toNat → s.running (Pg.hp p) = true →
        (s.running Pg.sba = true →
          Gives (.sliceLatch p) s fun t => SameMem s t ∧ SameRegsBut [R.SBA_Pp_IEST.addr p.val 0] s t ∧
            t.fld F.SBA_Pp_IEST_MA p.val = min 0xFFFF (s.estimate p c.dots) ∧
            t.hpP p = { s.hpP p with
              latch := s.sliceBits p counts c.slice, latAt := some s.time
              shiftAt := if c.slice < (c.data.map (·.nLine)).getD 0 then some (s.time + BitVec.ofNat 64 (s.latw p)) else none
              shiftBits := if c.slice < (c.data.map (·.nLine)).getD 0 then s.sliceBits p counts (c.slice + 1) else []
              cur := some { c with st := .latched s.time
                                   nextLatch := s.time + BitVec.ofNat 64 (s.latw p + s.tShift p + s.tds p) } }) ∧
        (s.running Pg.sba = false → Gives (.sliceLatch p) s fun t =>
          (c.data.isSome = true → SameMem s t) ∧ (t.hpP p).cur = none ∧ (t.hpP p).hold.isSome = true)) ∧
      (∀ ta start d ma, c.st = .latched ta → s.running Pg.sba = true → s.grantTurn p = true →
        (u.place p c.dots c.w (s.tFire p c.w) (ta + BitVec.ofNat 64 (s.latw p + s.tls p)) ta = some (start, d, ma) →
          Gives (.sbaGrant p) s fun t => SameMem s t ∧
            t.hpP p = { s.hpP p with cur := some { c with st := .granted start, defer := c.defer + d } } ∧
            Resv.mk p start (start + BitVec.ofNat 64 (s.tFire p c.w)) ma ∈ t.sba.calendar ∧ t.sba.lastPort = some p) ∧
        (u.place p c.dots c.w (s.tFire p c.w) (ta + BitVec.ofNat 64 (s.latw p + s.tls p)) ta = none →
          exec (.sbaGrant p) s = .next ((((u.noteEstimate p c.dots).raise Pg.sba (8 + p.val)).irq Pg.sba 6).modHp p
            fun h => { h with cur := some { c with st := .refused } }))) ∧
      (∀ at_, c.st = .granted at_ → s.shut p = false → at_.toNat ≤ s.time.toNat → Gives (.strobeOn p) s fun t =>
        SameMem s t ∧ SameRegsBut [R.SBA_ISUM.addr 0 0] s t ∧
        t.hpP p = { s.hpP p with pulses := s.slicePulses p counts c.slice c.w at_, cur := some { c with
          st := .firing (at_ + BitVec.ofNat 64 (s.tFire p c.w)) } }) ∧
      (∀ until_ n, c.st = .firing until_ → until_.toNat ≤ s.time.toNat → (c.data.map (·.nLine)).getD 0 = n →
        Gives (.sliceFireEnd p) s fun t => (c.data.isSome = true → SameMem s t) ∧ (∀ r ∈ t.sba.calendar, r.port ≠ p) ∧
          (s.running (Pg.hp p) = true → n ≤ c.slice → SameMem s t ∧ t.regs = s.regs ∧ t.hpP p = { s.hpP p with cur := some { c with
            st := .ending (until_ + BitVec.ofNat 64 (s.tsl p)) } }) ∧
          (s.running (Pg.hp p) = true → c.slice < n → s.running Pg.sba = true → SameMem s t ∧ t.regs = s.regs ∧
            t.hpP p = { s.hpP p with cur := some { c with
              st := .shifting, slice := c.slice + 1
              nextLatch := if c.nextLatch.toNat < (until_ + BitVec.ofNat 64 (s.tsl p)).toNat
                then until_ + BitVec.ofNat 64 (s.tsl p) else c.nextLatch } }) ∧
          (s.running (Pg.hp p) = false ∨ (c.slice < n ∧ s.running Pg.sba = false) → (t.hpP p).cur = none)) ∧
      (∀ at_, c.st = .ending at_ → at_.toNat ≤ s.time.toNat → (s.hpP p).pendTrig = false → (s.hpP p).paperOut = true →
        s.running (Pg.hp p) = true → Gives (.lineEnd p) s fun t =>
          SameMem s t ∧ (t.hpP p).cur = none ∧ (t.hpP p).hold.isSome = true) ∧
      (∀ at_ n, c.st = .ending at_ → at_.toNat ≤ s.time.toNat → (s.hpP p).pendTrig = false ∨ s.lines p = [] →
        (s.hpP p).paperOut = false → (c.data.map (·.nLine)).getD 0 = n → Gives (.lineEnd p) s fun t =>
          SameMem s t ∧ (t.hpP p).cur = none ∧ (t.hpP p).lastEnd = s.time ∧ (t.hpP p).pendTrig = false ∧
          SameRegsBut (R.HPn_LREP.addr p.val 0 :: R.HPn_LTIME.addr p.val 0 ::
            if (s.hpP p).pendTrig then [R.HPn_STARVE.addr p.val 0] else []) s t ∧
          ((s.hpP p).pendTrig = true → t.rd R.HPn_STARVE p.val = satStep (s.rd R.HPn_STARVE p.val)) ∧
          t.rd R.HPn_LREP p.val = BitVec.ofNat 32 (min 0xFFFF c.defer * 65536 + n * 256 + c.tag.toNat) ∧
          t.rd R.HPn_LTIME p.val = BitVec.ofNat 32 (min 0xFFFFFF (at_ - c.start).toNat)))

/-- If the reserved current never exceeds GCAP from now on, then after an answer of the arbiter to any port it still
never does. Times are below 2^62 ticks (some 1,400 years) and widths within their register. -/
def Obligations.SupplyBudgetIsKept : Prop :=
  ∀ (s : State) (p : Port), s.Up → s.time.toNat < 2 ^ 62 → (∀ r ∈ s.sba.calendar, r.stop.toNat < 2 ^ 62) →
    (∀ ta, s.requested p = some ta → ta.toNat < 2 ^ 62) → (∀ c, (s.hpP p).cur = some c → c.w ≤ 65535) →
    (∀ x, s.time.toNat ≤ x → loadAt s.sba.calendar x ≤ s.gcap) → Gives (.sbaGrant p) s fun t =>
      t.gcap = s.gcap ∧ t.time = s.time ∧ ∀ x, t.time.toNat ≤ x → loadAt t.sba.calendar x ≤ t.gcap

/-- SHUTTER_CLOSE_HOST closes the Shutter with cause HOST, abandoning the line in progress; where neither paper-out
nor a VERIFY close waits for that line it completes no command and holds nothing; SHUTTER_OPEN clears HOST, STBLONG
and SBARST, and the Shutter is open unless another cause remains. A strobe that stays active longer than STBMAX closes
it with its report, and a running port holds; a shorter one changes nothing. HP_ESYNC sets the trigger position. A
bucket of energy that is over gives way to a new one. A paused governor whose ready lines have not grown for its time
goes on. How long a strobe has been active is the STBLONG command's operand (the model's choice, log entry 121).
Memory stays as it was, but for the pulse counts of a line that is abandoned before the head has its slice counts. -/
def Obligations.ShutterAndPace : Prop :=
  ∀ (s : State) (p : Port),
    (s.Open (Pg.hp p) → Gives (.shutterCloseHost p) s fun t =>
      t.shut p = true ∧ (t.hpP p).causes = { (s.hpP p).causes with host := true } ∧ (t.hpP p).cur = none ∧
      ((s.hpP p).cur = none ∨ ((s.hpP p).paperOut = false ∧ s.win p = none) → t.queues = s.queues ∧ (t.hpP p).hold = (s.hpP p).hold) ∧
      ((∀ c, (s.hpP p).cur = some c → c.data.isSome = true) → SameMem s t ∧ t.reports = s.reports) ∧
      ∀ o, o ≠ p → t.hpP o = s.hpP o) ∧
    (s.Open (Pg.hp p) → Gives (.shutterOpen p) s fun t =>
      SameMem s t ∧ (t.hpP p).causes = { (s.hpP p).causes with host := false, stbLong := false, sbaRst := false } ∧
      t.queues = s.queues ∧ t.reports = s.reports ∧ ∀ o, o ≠ p → t.hpP o = s.hpP o) ∧
    (∀ k us, s.Up → s.flag F.HPn_CFG_OE p.val = true → s.shut p = false → s.running (Pg.hp p) = true →
      (us.toNat ≤ max 1 (s.fld F.HPn_STBMAX_MAX p.val) → exec (.stbLong p k us) s = .next s) ∧
      (max 1 (s.fld F.HPn_STBMAX_MAX p.val) < us.toNat → Gives (.stbLong p k us) s fun t =>
      (t.hpP p).causes = { (s.hpP p).causes with stbLong := true } ∧ (t.hpP p).cur = none ∧
      (t.hpP p).hold.isSome = true ∧ ((∀ c, (s.hpP p).cur = some c → c.data.isSome = true) →
        SameMem s t ∧ t.reports = s.reports ++ [{ page := Pg.hp p, k := 3, at_ := s.time }]))) ∧
    (∀ pos, s.Open (Pg.hp p) → exec (.hpEsync p pos) s =
      .next (s.modHp p fun h => { h with trigAt := pos.setWidth 48 <<< 16 })) ∧
    (s.Up → s.working Pg.sba = true → s.bucketTicks p ≤ s.since (s.sbaP p).bucketStart → Gives (.energyBucketRoll p) s fun t =>
      SameMem s t ∧ SameRegsBut [R.SBA_Pp_EWIN.addr p.val 0] s t ∧ t.rd R.SBA_Pp_EWIN p.val = BitVec.ofNat 32 (t.ewin p) ∧
      (t.sbaP p).buckets = 0 :: (s.sbaP p).buckets.take 15 ∧ ∀ o, o ≠ p → t.sbaP o = s.sbaP o) ∧
    (s.Up → (s.sbaP p).paused = true → 0 < s.linesLeft p → s.act F.SBA_GVp_CTL_RTMO p.val * 100 ≤ s.since (s.sbaP p).grewAt →
      exec (.governorResumeTimeout p) s = .next (s.modSba p fun x => { x with paused := false }))

/-- A keyed write of the element window stores the eight bytes of the requester's selected entry, its reserved bits 0,
and nothing else in memory, and empties the requester's snapshot slot. A restore copy that is accepted starts at entry
0; from working RAM it runs to its end and then every entry of its range holds its source, its reserved bits 0, with
RESULT OK and its event; a line that comes back substituted is retried. An element joins its port's priority list
unless it is there or the list is full. Optical trims are stored, and switching them on clears the votes. When a copy
may start, and what a reset leaves of it, is the model's choice (log entry 55). -/
def Obligations.ElementTableCommands : Prop :=
  ∀ (s : State) (p : Port),
    (∀ rq lo hi, s.Open Pg.ehm → s.WritesAt rq 0x4000D048 → wbits (s.ewSel rq) 0 13 ≤ 6143 → Gives (.elementWindowWrite rq lo hi) s fun t =>
      t.regs = s.regs ∧ t.pages = s.pages ∧ t.ehm = s.ehm ∧ t.snapOf rq = none ∧ (∀ r, r ≠ rq → t.snapOf r = s.snapOf r) ∧
      (∀ a, a = elemAddr (Fin.ofNat 4 (wbits (s.ewSel rq) 16 2)) (wbits (s.ewSel rq) 0 13) → SameMemBut a 8 s t ∧
        t.byte a = lo.setWidth 8 ∧ t.byte (a + 1) = (lo >>> 8).setWidth 8 &&& 0x3F ∧
        t.byte (a + 2) = (lo >>> 16).setWidth 8 &&& 0x7F ∧ t.byte (a + 3) = (lo >>> 24).setWidth 8 ∧
        t.byte (a + 4) = hi.setWidth 8 ∧ t.byte (a + 5) = (hi >>> 8).setWidth 8 ∧ t.byte (a + 6) = (hi >>> 16).setWidth 8 ∧ t.byte (a + 7) = (hi >>> 24).setWidth 8)) ∧
    (∀ ctl, s.Open Pg.ehm → s.running Pg.ehm = true → ctl.getLsbD 31 = true → s.ehm.restore = none →
      wbits ctl 16 13 ≠ 0 → wbits ctl 0 13 + wbits ctl 16 13 ≤ 6144 →
      (inFlash (s.fld F.EHM_RSTSRC_ADDR * 8) (8 * wbits ctl 16 13) || inWram (s.fld F.EHM_RSTSRC_ADDR * 8) (8 * wbits ctl 16 13)) = true →
      Gives (.restoreCopyStart ctl) s fun t =>
        SameMem s t ∧ t.fld F.EHM_RSTSTAT_DONE = 0 ∧ t.pages = s.pages ∧
        t.ehm = { s.ehm with restore := some (Restore.mk (s.fld F.EHM_RSTSRC_ADDR * 8) (Fin.ofNat 4 (wbits ctl 14 2))
          (wbits ctl 0 13) (wbits ctl 16 13) 0 none) }) ∧
    (∀ r, s.Up → s.working Pg.ehm = true → s.ehm.restore = some r → r.retry = none →
      (inWram r.src (8 * r.count) = true → r.done = 0 → 0 < r.count → r.first + r.count ≤ 6144 →
        Gives .restoreCopyEnd s fun t =>
          t.ehm = { s.ehm with restore := none } ∧ t.fld F.EHM_RSTSTAT_RESULT = 1 ∧ t.fld F.EHM_RSTSTAT_DONE = r.count ∧
          t.page Pg.ehm = { s.page Pg.ehm with irqStat := (s.page Pg.ehm).irqStat ||| 256 } ∧
          SameMemBut (elemAddr r.port r.first) (8 * r.count) s t ∧
          ∀ k j, k < r.count → j < 8 → t.byte (elemAddr r.port (r.first + k) + j) =
            s.byte (r.src + 8 * k + j) &&& (if j = 1 then 0x3F else if j = 2 then 0x7F else 0xFF)) ∧
      (∀ o, inFlash r.src (8 * r.count) = true → r.done < r.count → (s.page Pg.flc).st ≠ .resetting → s.flc.op = some o →
        o.suspSince = none → o.bank = flashBank (r.src + 8 * r.done) → exec .restoreCopyEnd s =
          .next { s with
            flc := { s.flc with op := some { o with spend := true } }
            ehm := { s.ehm with restore := some { r with retry := some ⟨r.src + 8 * r.done, 1⟩ } } })) ∧
    (∀ r x, s.Up → s.ehm.restore = some r → r.retry = some x → (s.page Pg.flc).st ≠ .resetting →
      (s.flc.op = none → Gives .restoreFlashRetry s fun t =>
        SameMem s t ∧ t.ehm = { s.ehm with restore := some { r with retry := none } } ∧ t.queues = s.queues) ∧
      (∀ o, s.flc.op = some o → o.suspSince = none → o.bank = flashBank x.addr → x.count + 1 < 1024 →
        exec .restoreFlashRetry s = .next { s with
          flc := { s.flc with op := some { o with spend := true } }
          ehm := { s.ehm with restore := some { r with retry := some ⟨x.addr, x.count + 1⟩ } } })) ∧
    (∀ elem, s.Open Pg.ehm → exec (.ehmPrioAdd p elem) s = .next (s.modEhm p fun x =>
      if wbits elem 0 13 ∈ x.prio ∨ 16 ≤ x.prio.length then x else { x with prio := x.prio ++ [wbits elem 0 13] })) ∧
    (∀ v, s.Open Pg.ehm → Gives (.optAutoEnable p v) s fun t =>
      SameMem s t ∧ t.rd R.EHM_Pp_OPT p.val = v &&& 0xBF3F007F ∧ SameRegsBut [R.EHM_Pp_OPT.addr p.val 0] s t ∧
      (t.ehmP p).votes = (if v.getLsbD 31 = true ∧ s.flag F.EHM_Pp_OPT_OAUTO p.val = false then [] else (s.ehmP p).votes) ∧
      ∀ o, o ≠ p → t.ehmP o = s.ehmP o)

/-- A port that has been available for SETTLE ms is settled. When its burst visit has begun, a slot starts for the
first element of the priority list, and its pattern of one dot is shifted and latched. A complete plain slot of class
OK marks its element MEASURED and sets its trim where trims are automatic and not locked, counts, and changes no other
byte; a slot that lost a word is discarded, counted, and comes next again: that a discarded slot keeps its element is
the model's choice (log entry 53). -/
def Obligations.MeasurementSlots : Prop :=
  ∀ (s : State) (p : Port), s.Up →
    (s.scanAvail p = true → (s.ehmP p).settled = false → s.fld F.EHM_Pp_SCAN_SETTLE p.val * 100000 ≤ s.since (s.ehmP p).availFrom →
      s.fld F.EHM_Pp_SCAN_SETTLE p.val * 100000 ≤ s.since (s.hpP p).lastEnd →
      exec (.settleExpire p) s = .next (s.modEhm p fun x => { x with settled := true, chunk := 0 })) ∧
    (∀ l v e rest, s.scanMay p = true → s.measuring p = false → s.burstOf p = some (l, v) → (s.ehmP p).next = none →
      (s.ehmP p).prio = e :: rest → s.elemFlag p e elDead = false → e < s.nEl p → Gives (.measureSlotStart p) s fun t =>
        SameMem s t ∧ t.regs = s.regs ∧ t.slice l = { s.slice l with visit := some { v with taken := true } } ∧
        t.ehmP p = { s.ehmP p with
          prio := rest
          slot := some { elem := e, kind := .plain, start := s.mclkTime (v.start + v.s * (s.adt v.entry).osr) } } ∧
        t.hpP p = { s.hpP p with
          shiftAt := some (s.mclkTime (v.start + v.s * (s.adt v.entry).osr)), shiftBits := s.sliceBits p (oneDot (s.nEl p) e) 1
          latAt := some (s.mclkTime (v.start + v.s * (s.adt v.entry).osr) + BitVec.ofNat 64 (s.tShift p + s.tds p)) } ∧
        ∀ o, o ≠ p → t.ehmP o = s.ehmP o ∧ t.hpP o = s.hpP o) ∧
    (∀ x m vh code, s.working Pg.ehm = true → (s.ehmP p).slot = some x → (s.ehmP p).curWrite = none → x.kind = .plain →
      x.fromCur = false → x.lost = false → x.words.length = 32 → (∀ w ∈ x.words, w ≠ none) →
      s.adc.lastValid.toList.getD (s.fld F.HHE_Pp_SRC_VHCH p.val) none = some code → vh = s.vhOf p code.code →
      m = s.measured p (windowSum (x.words.reverse.filterMap id)) vh → m.cls = .ok → x.elem < 6144 →
      Gives (.measureSlotEnd p) s fun t =>
        t.byte (elemAddr p x.elem + 2) = s.byte (elemAddr p x.elem + 2) ||| 0x10 ∧
        t.byte (elemAddr p x.elem) = (if s.elemFlag p x.elem elRlock = false ∧ s.flag F.EHM_Pp_SCAN_AUTOR p.val = true
          then BitVec.ofNat 8 m.rtrim else s.byte (elemAddr p x.elem)) ∧
        (∀ a, a ≠ elemAddr p x.elem → a ≠ elemAddr p x.elem + 2 → t.byte a = s.byte a) ∧
        SameRegsBut [R.EHM_Pp_MEAS.addr p.val 0, R.EHM_Pp_LAST.addr p.val 0] s t ∧
        t.rd R.EHM_Pp_MEAS p.val = satStep (s.rd R.EHM_Pp_MEAS p.val) ∧ (t.ehmP p).slot = none ∧ (t.ehmP p).next = (s.ehmP p).next) ∧
    (∀ x, s.working Pg.ehm = true → (s.ehmP p).slot = some x → (s.ehmP p).curWrite = none → x.lost = true →
      Gives (.measureSlotEnd p) s fun t =>
        SameMem s t ∧ (t.ehmP p).slot = none ∧ (t.ehmP p).next = some (x.elem, x.kind, x.fromCur) ∧
        SameRegsBut [R.EHM_Pp_DISC.addr p.val 0, R.EHM_Pp_LAST.addr p.val 0] s t ∧
        t.rd R.EHM_Pp_DISC p.val = satStep (s.rd R.EHM_Pp_DISC p.val))

/-- With SYNC the command is held, and MOC_GO that names the axis then runs it. From standstill, with or without
MOC_GO, MOVE, VEL, LINEADV and HOME start after max(TDIR, wake time), owned by the host, GEAR arms at once, SETPOS
sets P and takes the references (no axis being geared to this one), and HOME on an active home input ends at once with
DONE. A running move takes a new target that lies far enough ahead; for any other it stops first. STOP and ESTOP brake
a moving axis and leave LINEADV. While SEQ owns the axis the host's moves are refused with BUSYREJ. What a MOVE does
that comes while another command runs is the model's choice (log entry 38). -/
def Obligations.AxisCommands : Prop :=
  ∀ (s : State) (a : AxNum), s.Open (Pg.ax a) → s.running (Pg.ax a) = true → (s.page (Pg.ax a)).pend = false →
    (∀ ci ∈ [(1, Instr.axMove), (2, .axVel), (3, .axStop), (4, .axEstop), (5, .axLineadv), (6, .axGear), (7, .axHome), (8, .axSetpos)],
      exec (ci.2 a true) s = .next (s.modAx a fun x => { x with sync := some ci.1 }) ∧
      (s.Open Pg.moc → (s.axS a).sync = some ci.1 →
        exec (.mocGo (BitVec.ofNat 8 (2 ^ a.val))) s = exec (ci.2 a false) (s.modAx a fun x => { x with sync := none }))) ∧
    (∀ ci ∈ [(AxAct.move, 1, Instr.axMove a), (.vel, 2, .axVel a), (.lineadv, 5, .axLineadv a), (.home, 7, .axHome a)],
      ∀ c, c = ci.2.2 false ∨
        (c = .mocGo (BitVec.ofNat 8 (2 ^ a.val)) ∧ s.Open Pg.moc ∧ (s.axS a).sync = some ci.2.1) → s.axIdle a = true →
      (ci.1 = .move → s.axPos a ≠ s.rd R.AXn_TARGET a.val) → (ci.1 = .home → s.atHome a = false) →
      Gives c s fun t =>
        SameMem s t ∧ t.regs = s.regs ∧ t.pages = s.pages ∧ t.queues = s.queues ∧ (∀ b, b ≠ a → t.axS b = s.axS b) ∧
        (t.axS a).act = ci.1 ∧ (t.axS a).host = true ∧ (t.axS a).v = 0 ∧ (t.axS a).stop = none ∧ (t.axS a).ired = false ∧
        (t.axS a).startAt = some (s.time + BitVec.ofNat 64
          (if (s.axS a).ired = true then max (s.tDir a) (s.fld F.AXn_ISTBY_TWAKE a.val * 100) else s.tDir a)) ∧
        (ci.1 = .move → (t.axS a).target = s.rd R.AXn_TARGET a.val ∧
          (t.axS a).neg = decide ((s.rd R.AXn_TARGET a.val - s.axPos a).toInt < 0)) ∧
        (ci.1 = .vel → (t.axS a).vCmd = min (s.vMax a) (s.fld F.AXn_VCMD_V a.val) ∧ (t.axS a).vNeg = s.flag F.AXn_VCMD_DIR a.val) ∧
        (ci.1 = .lineadv → (t.axS a).inAdv = true ∧ (t.axS a).budget = 0) ∧ (ci.1 = .home → (t.axS a).neg = true)) ∧
    (s.axIdle a = true → (s.axS a).waiting = [] → (s.axS a).inAdv = false → s.atHome a = true → Gives (.axHome a false) s fun t =>
      SameMem s t ∧ t.regs = s.regs ∧ (t.axS a).act = .idle ∧ (t.axS a).host = false ∧
      t.page (Pg.ax a) = { s.page (Pg.ax a) with irqStat := (s.page (Pg.ax a)).irqStat ||| 16 }) ∧
    (s.axIdle a = true → s.fld F.AXn_GEAR_SRC a.val ≠ 6 → s.fld F.AXn_GEAR_SRC a.val ≠ 7 →
      s.fld F.AXn_GEAR_SRC a.val ≠ 8 + a.val → s.fld F.AXn_GEAR_NSEG a.val = 0 → Gives (.axGear a false) s fun t =>
        SameMem s t ∧ t.regs = s.regs ∧ t.pages = s.pages ∧ (∀ b, b ≠ a → t.axS b = s.axS b) ∧ (t.axS a).act = .gear ∧
        (t.axS a).g = (s.axPos a).toInt * 16777216 ∧ (t.axS a).gseg = 0 ∧ (t.axS a).startAt = none ∧
        (t.axS a).rEff = (s.rdAct R.AXn_RATIOh a.val 0).toInt) ∧
    (s.axIdle a = true → (∀ b, (s.axS b).act = .gear → s.fld F.AXn_GEAR_SRC b.val ≠ 8 + a.val) → Gives (.axSetpos a false) s fun t =>
      SameMem s t ∧ SameRegsBut [R.AXn_POS.addr a.val 0] s t ∧ t.axPos a = s.rd R.AXn_TARGET a.val ∧ t.pages = s.pages ∧
      t.ax = s.ax.set a { s.axS a with pRef := s.rd R.AXn_TARGET a.val, eRef := s.encPos a, below := none }) ∧
    ((s.axS a).act = .move → (s.axS a).job = none → (s.axS a).stop = none → (s.axS a).startAt = none → (s.axS a).v ≠ 0 →
      Gives (.axMove a false) s fun t =>
        SameMem s t ∧ t.regs = s.regs ∧ t.pages = s.pages ∧ (t.axS a).v = (s.axS a).v ∧
        let d := (s.rd R.AXn_TARGET a.val - s.axPos a).toInt
        if d ≠ 0 ∧ (d < 0 ↔ (s.axS a).neg = true) ∧ s.stopDist a ((s.axS a).v / 1000000) + 2 ≤ d.natAbs then
          (t.axS a).target = s.rd R.AXn_TARGET a.val ∧ (t.axS a).stop = none ∧ (t.axS a).decel = false
        else (t.axS a).stop = some false ∧ (t.axS a).next = some (s.rd R.AXn_TARGET a.val) ∧ (t.axS a).target = (s.axS a).target) ∧
    ((s.axS a).v ≠ 0 →
      exec (.axStop a false) s = .next (s.modAx a fun x => x.braked false s.time) ∧
      (s.fld F.AXn_EDEC_A a.val ≠ 0 → exec (.axEstop a false) s = .next (s.modAx a fun x => x.braked true s.time)) ∧
      (s.fld F.AXn_EDEC_A a.val = 0 → (s.axS a).job = none → (s.axS a).waiting = [] → Gives (.axEstop a false) s fun t =>
        SameMem s t ∧ t.regs = s.regs ∧ (t.axS a).act = .idle ∧ (t.axS a).v = 0 ∧ (t.axS a).stop = none ∧
        t.page (Pg.ax a) = { s.page (Pg.ax a) with irqStat := (s.page (Pg.ax a)).irqStat ||| 16 })) ∧
    (∀ axes : BitVec 8, s.Open Pg.moc → (∀ b : AxNum, axes.getLsbD b.val = true → (s.axS b).v ≠ 0 ∧ s.fld F.AXn_EDEC_A b.val ≠ 0) →
      Gives (.mocEstop axes) s fun t => t = { s with ax := t.ax } ∧ ∀ b : AxNum, t.axS b =
        if axes.getLsbD b.val = true then (s.axS b).braked true s.time
        else s.axS b) ∧
    (∀ c ∈ [Instr.axMove a false, .axVel a false, .axLineadv a false, .axGear a false, .axHome a false],
      (s.axS a).job ≠ none → Gives c s fun t =>
        SameMem s t ∧ t.ax = s.ax ∧ SameRegsBut [R.AXn_ERR.addr a.val 0] s t ∧ t.rd R.AXn_ERR a.val = s.rd R.AXn_ERR a.val ||| 2 ∧
        t.page (Pg.ax a) = { s.page (Pg.ax a) with irqStat := (s.page (Pg.ax a)).irqStat ||| 512 })

/-- At its first tick an axis takes VSTART; each later tick of a position move raises V by ACC1 below VBRK while there
is room, and lowers it by DEC1, not below VSTOP, once it decelerates. A due step, of which MED sees nothing new,
changes P by one and the accumulator by one step; the step that reaches the target ends the move with DONE. A line
advance adds LPITCH to the budget of the axis in LINEADV for the port, or is discarded and counted. After TSTBY ms the
current is reduced. A deviation that has lasted STALLT is a stall: an emergency stop, counted and reported. An edge of
A counts the 48-bit position up where A then differs from B and down where it equals B, in modes 2 and 3 a rising edge
only; an edge of B counts up where B then equals A and down where it differs, in mode 0 only; a rising index latches
it; the rate window takes the change; a sample in which both change is counted as invalid only; levels that are not
stable for FILT + 1 clocks do nothing. No step falls within TDIR of a change of DIR. The model's choices are named:
the direction of a count is log entry 32, that a row brings levels and their time is log entry 144, and a row whose
time has not come changes nothing is log entry 3. -/
def Obligations.MotionEvents : Prop :=
  ∀ (s : State), s.Up →
    (∀ a, s.working (Pg.ax a) = true → 100 ≤ s.since (s.axS a).tickAt → (s.axS a).stop = none → (s.axS a).act = .move →
      s.axPos a ≠ (s.axS a).target → s.encOn a = false → (s.axS a).cut = none →
      (∀ t₀, (s.axS a).startAt = some t₀ → t₀.toNat ≤ s.time.toNat → exec (.profileTick a) s = .next (s.modAx a fun x => { x with
        tickAt := s.time, startAt := none, waking := false, v := s.vStart a * 1000000, acc := 0, accAt := s.time })) ∧
      ((s.axS a).startAt = none → (s.axS a).ramp = none →
        (∀ r, (s.axS a).decel = false → r = ((s.axS a).target - s.axPos a).toInt.natAbs →
          s.stopDist a ((s.axS a).v / 1000000) + 2 < r → (s.axS a).v < s.vBrk a * 1000000 → s.vBrk a ≤ s.vMax a →
          Gives (.profileTick a) s fun t => SameMem s t ∧ t.regs = s.regs ∧ t.pages = s.pages ∧ (∀ b, b ≠ a → t.axS b = s.axS b) ∧
            (t.axS a).v = min ((s.axS a).v + s.act F.AXn_ACC1_A a.val) (s.vBrk a * 1000000) ∧ (t.axS a).decel = false ∧
            (t.axS a).acc = (s.axS a).acc + (s.axS a).v * s.since (s.axS a).accAt ∧ (t.axS a).accAt = s.time) ∧
        ((s.axS a).decel = true → (s.axS a).v ≤ s.vBrk a * 1000000 →
          Gives (.profileTick a) s fun t => SameMem s t ∧ t.regs = s.regs ∧ t.pages = s.pages ∧ (∀ b, b ≠ a → t.axS b = s.axS b) ∧
            (t.axS a).v = (if (s.axS a).v ≤ s.vStop a * 1000000 then (s.axS a).v
              else max ((s.axS a).v - s.act F.AXn_DEC1_A a.val) (s.vStop a * 1000000)) ∧ (t.axS a).decel = true))) ∧
    (∀ a, s.working (Pg.ax a) = true → (s.axS a).act = .move → (s.axS a).stop = none → (s.axS a).cut = none → (s.axS a).job = none →
      (s.axS a).waiting = [] → (s.axS a).v ≠ 0 → s.MedStill a → 100000000000000 ≤ (s.axS a).accNow s.time → (∀ b : AxNum, s.fld F.AXn_GEAR_SRC b.val ≠ 8 + a.val) →
      (s.since (s.axS a).dirAt < s.tDir a → exec (.stepEmit a) s = .next s) ∧
      (s.tDir a ≤ s.since (s.axS a).dirAt → Gives (.stepEmit a) s fun t =>
        SameMem s t ∧ SameRegsBut [R.AXn_POS.addr a.val 0] s t ∧
        t.axPos a = (if (s.axS a).neg = true then s.axPos a - 1 else s.axPos a + 1) ∧
        (t.axPos a ≠ (s.axS a).target → t.pages = s.pages ∧ t.ax = s.ax.set a { s.axS a with
          acc := (s.axS a).accNow s.time - 100000000000000, accAt := s.time, lastStep := some s.time, standSince := s.time
          stepGap := match (s.axS a).lastStep with
            | some t₀ => s.since t₀
            | none => 100000001 }) ∧
        (t.axPos a = (s.axS a).target → (s.axS a).inAdv = false →
          (t.axS a).v = 0 ∧ (t.axS a).act = .idle ∧
          t.page (Pg.ax a) = { s.page (Pg.ax a) with irqStat := (s.page (Pg.ax a)).irqStat ||| 16 }))) ∧
    (∀ (p : Port) (a : AxNum), (s.hpP p).advDue ≠ 0 → s.fld F.HPn_PACE_AXIS p.val = a.val →
      (s.advancing a p = true → (s.page (Pg.ax a)).pend = false → (s.axS a).held = false →
        (s.axS a).budget + s.lpitch a ≤ s.fld F.AXn_LAG_LAGMAX a.val * 65536 → exec (.lineAdvance p) s =
          .next ((s.modHp p fun h => { h with advDue := h.advDue - 1 }).modAx a fun x => { x with
            budget := x.budget + s.lpitch a, lagArmed := true })) ∧
      (s.advancing a p = false → Gives (.lineAdvance p) s fun t =>
        SameMem s t ∧ t.ax = s.ax ∧ SameRegsBut [R.MOC_ADVDISC.addr 0 0] s t ∧ t.rd R.MOC_ADVDISC = satStep (s.rd R.MOC_ADVDISC))) ∧
    (∀ a, s.axIdle a = true → (s.axS a).ired = false → s.fld F.AXn_ISTBY_TSTBY a.val ≠ 0 → s.working (Pg.ax a) = true →
      s.fld F.AXn_ISTBY_TSTBY a.val * 100000 ≤ s.since (s.axS a).standSince →
      exec (.currentStandby a) s = .next (s.modAx a fun x => { x with ired := true })) ∧
    (∀ a τ, (s.axS a).below = some τ → s.working (Pg.ax a) = true → s.encOn a = true → (s.axS a).v ≠ 0 → s.fld F.AXn_EDEC_A a.val ≠ 0 →
      max 1 (s.fld F.AXn_ENC_STALLT a.val) * 10000 ≤ s.since τ → Gives (.stall a) s fun t =>
        SameMem s t ∧ SameRegsBut [R.AXn_STALLS.addr a.val 0] s t ∧ t.rd R.AXn_STALLS a.val = satStep (s.rd R.AXn_STALLS a.val) ∧
        (t.axS a).stop = some true ∧ (t.axS a).stalled = true ∧ (t.axS a).pRef = s.axPos a ∧ (t.axS a).eRef = s.encPos a ∧
        t.reports = s.reports ++ [{ page := Pg.ax a, k := 0, at_ := s.time }] ∧
        t.page (Pg.ax a) = { s.page (Pg.ax a) with irqStat := (s.page (Pg.ax a)).irqStat ||| 32 }) ∧
    (∀ (e : QeNum) (n : Word), s.running (Pg.qe e) = true →
      (s.fld F.QEn_CFG_FILT e.val + 1 ≤ n.toNat →
        (∀ la lb a b a₀ b₀, (∀ x : AxNum, s.fld F.AXn_GEAR_SRC x.val ≠ e.val) → (∀ p : Port, s.fld F.HPn_PACE_QE p.val ≠ e.val) →
          s.qeIn e la lb = (a, b) → s.qeIn e (s.qeS e).a (s.qeS e).b = (a₀, b₀) →
          (∀ up : Bool, (a ≠ a₀ ∧ b = b₀ ∧ (s.fld F.QEn_CFG_MODE e.val < 2 ∨ a = true) ∧ up = (a != b)) ∨
              (a = a₀ ∧ b ≠ b₀ ∧ s.fld F.QEn_CFG_MODE e.val = 0 ∧ up = (a == b)) → Gives (.qeCount e la lb n) s fun t =>
            let pos := fun u : State => (u.rd R.QEn_POS_HI e.val).toNat * 4294967296 + (u.rd R.QEn_POS_LO e.val).toNat
            SameMem s t ∧ t.pages = s.pages ∧ SameRegsBut [R.QEn_POS_LO.addr e.val 0, R.QEn_POS_HI.addr e.val 0] s t ∧
            pos t = (if up = true then pos s + 1 else pos s + 281474976710655) % 281474976710656 ∧
            t.qe = s.qe.set e { s.qeS e with a := la, b := lb }) ∧
          ((a = a₀ ∧ (b = b₀ ∨ s.fld F.QEn_CFG_MODE e.val ≠ 0)) ∨
              (a ≠ a₀ ∧ b = b₀ ∧ 2 ≤ s.fld F.QEn_CFG_MODE e.val ∧ a = false) →
            exec (.qeCount e la lb n) s = .next (s.modQe e fun y => { y with a := la, b := lb }))) ∧
        (∀ la lb a₀ b₀, s.fld F.QEn_CFG_MODE e.val < 3 → s.qeIn e (s.qeS e).a (s.qeS e).b = (a₀, b₀) →
          s.qeIn e la lb = (!a₀, !b₀) → Gives (.invalidTransition e la lb n) s fun t =>
            SameMem s t ∧ SameRegsBut [R.QEn_QERR.addr e.val 0] s t ∧ t.rd R.QEn_QERR e.val = satStep (s.rd R.QEn_QERR e.val) ∧
            t.reports = s.reports ++ [{ page := Pg.qe e, k := 0, at_ := s.time }] ∧
            t.page (Pg.qe e) = { s.page (Pg.qe e) with irqStat := (s.page (Pg.qe e)).irqStat ||| 32 }) ∧
        (∀ level, (s.qeS e).i = s.flag F.QEn_CFG_INVI e.val → level ≠ s.flag F.QEn_CFG_INVI e.val → Gives (.qeIndex e level n) s fun t =>
          SameMem s t ∧ SameRegsBut [R.QEn_IDX.addr e.val 0, R.QEn_IDXCNT.addr e.val 0] s t ∧
          t.rd R.QEn_IDX e.val = s.rd R.QEn_POS_LO e.val ∧
          t.fld F.QEn_IDXCNT_COUNT e.val = (s.fld F.QEn_IDXCNT_COUNT e.val + 1) % 65536 ∧
          t.qe = s.qe.set e { s.qeS e with i := level } ∧
          t.page (Pg.qe e) = { s.page (Pg.qe e) with irqStat := (s.page (Pg.qe e)).irqStat ||| 16 }) ∧
        (∀ level, (s.qeS e).i ≠ s.flag F.QEn_CFG_INVI e.val ∨ level = s.flag F.QEn_CFG_INVI e.val →
          exec (.qeIndex e level n) s = .next (s.modQe e fun y => { y with i := level }))) ∧
      (n.toNat < s.fld F.QEn_CFG_FILT e.val + 1 → ∀ la lb,
        exec (.qeCount e la lb n) s = .next s ∧ exec (.invalidTransition e la lb n) s = .next s ∧
        exec (.qeIndex e la n) s = .next s) ∧
      (102400 ≤ s.since (s.qeS e).windowAt → Gives (.qeRateWindow e) s fun t =>
        SameMem s t ∧ t.pages = s.pages ∧ SameRegsBut [R.QEn_RATE.addr e.val 0] s t ∧
        t.rd R.QEn_RATE e.val = s.rd R.QEn_POS_LO e.val - (s.qeS e).rateBase ∧
        t.qe = s.qe.set e { s.qeS e with rateBase := s.rd R.QEn_POS_LO e.val, windowAt := s.time }))

/-- ADC_START with software scans holds a start. A scan that is due starts with its number, and every free slice with
an entry due begins that entry's visit; a software scan that has lasted its period ends with its event. The oldest
pending background visit begins on the lowest slice that takes it; a burst request pends, or is refused and counted
where no entry serves it. A word of an entry with FIFO = 1 that ends goes to the FIFO with its metadata, or is
dropped, counted and reported where the FIFO is full; a settled one of any entry goes to the latest results of its
channel, to EHM's slot of its visit and to the units of MED that take the channel (here: units whose filter is not
full yet, in a MED to which nothing else is new); the last word of a visit ends it. A read of ADC_FIFO_LO takes the
oldest result. The model's choices are named: which word is the one in progress and what its code is are the command's
(log entries 140, 63, 67), which slice a background visit may begin on is log entries 64 and 65, and that the
measurement slot of a refused burst is discarded, and counted by EHM, is log entry 66. -/
def Obligations.ConverterScans : Prop :=
  ∀ (s : State),
    (s.Open Pg.adc → s.actFlag F.ADC_CTRL_MODE = true → s.running Pg.adc = true →
      exec .adcStart s = .next { s with adc := { s.adc with startHeld := true } }) ∧
    (s.Up → s.scanDue = true → (s.page Pg.adc).pend = false → Gives .scanStart s fun t =>
      SameMem s t ∧ t.rd R.ADC_SCANS = (if s.adc.freshSet then 0 else s.rd R.ADC_SCANS + 1) ∧ t.adc.scanning = true ∧
      t.adc.startHeld = false ∧ t.adc.freshSet = false ∧
      t.adc.scanAt = (if s.adc.scanning then s.adc.scanAt + s.per' else s.mclk) ∧
      ∀ l e rest, (s.slice l).visit = none → s.assignedDue l (t.rd R.ADC_SCANS).toNat = e :: rest →
        (t.slice l).visit.map (fun v => (v.entry, v.start)) = some (e, t.adc.scanAt) ∧ (t.slice l).due = rest) ∧
    (s.Up → s.actFlag F.ADC_CTRL_MODE = true → s.adc.scanning = true → s.adc.bgLeft = [] → s.adc.scanAt + s.per' ≤ s.mclk →
      s.running Pg.adc = true → exec .scanEnd s = .next ({ s with adc := { s.adc with scanning := false } }.irq Pg.adc 6)) ∧
    (∀ b l, s.Up → s.adcReady = true → s.adc.pendBg = [b] → s.burstHeld b = false → (s.slice l).swapNext = false →
      (List.finRange 8).find? (fun k => s.takesBg k b.entry s.mclk) = some l → Gives .backgroundVisitStart s fun t =>
        SameMem s t ∧ t.regs = s.regs ∧ t.adc.pendBg = [] ∧ (∀ k, k ≠ l → t.slice k = s.slice k) ∧
        (t.slice l).visit.map (fun v => (v.entry, v.s, v.done, v.start, v.port)) =
          some (b.entry, (s.adt b.entry).s, 0, s.mclk, b.port)) ∧
    (∀ p, s.Up → s.scanMay p = true → s.measuring p = false → s.burstPending p = false →
      (∀ e, (enabledEntries s.adt).find? (fun e => e.2.burst && e.2.ch == s.fld F.EHM_Pp_MCFG_SCH p.val) = some e →
        s.adc.scanning = true → s.actFlag F.ADC_CTRL_LP = false → exec (.burstRequest p) s =
          .next { s with adc := { s.adc with pendBg := s.adc.pendBg ++ [BgPend.mk e.1 s.mclk (some p)] } }) ∧
      ((enabledEntries s.adt).find? (fun e => e.2.burst && e.2.ch == s.fld F.EHM_Pp_MCFG_SCH p.val) = none →
        Gives (.burstRequest p) s fun t => SameMem s t ∧ t.adc = s.adc ∧
          t.rd R.ADC_BREFUSE = satStep (s.rd R.ADC_BREFUSE) ∧ t.rd R.EHM_Pp_DISC p.val = satStep (s.rd R.EHM_Pp_DISC p.val))) ∧
    (∀ l v e x (raw : BitVec 24) w, s.Up → (s.slice l).visit = some v → (s.slice l).swapNext = false → e = s.adt v.entry →
      s.running Pg.adc = true → v.start + (v.done + 1) * e.osr ≤ s.mclk → s.fifoTurn l = true →
      v.total ≠ some (v.done + 1) ∨ (v.port = none ∧ (s.slice l).due = []) →
      x = correct (s.calOf ((s.slice l).phys.getD 0) e.gain) raw.toInt → s.flag F.ADC_FMT_ALIGN = false →
      (v.s ≤ v.done → (∀ p, (s.hheP p).mode ≠ .holdVh) ∧ e.ch < 40 ∧ s.MedCalm e.ch) →
      w = (BitVec.ofInt 32 x, metaWord (s.page Pg.adc).actTag e.ch (decide (v.s ≤ v.done)) (v.s - v.done) v.swap
        (x == limHi || x == limLo) s.time) →
      Gives (.adcWordEnd l raw) s fun t => SameMem s t ∧
        SameRegsBut [R.ADC_LASTc_LO.addr e.ch 0, R.ADC_LASTc_HI.addr e.ch 0, R.ADC_FIFO_OVF.addr 0 0] s t ∧
        (if e.fifo = true ∧ (v.s ≤ v.done ∨ s.actFlag F.ADC_CTRL_SKIPU = false) then
          if s.adc.fifo.length < 256 then
            t.adc.fifo = s.adc.fifo ++ [w] ∧ t.rd R.ADC_FIFO_OVF = s.rd R.ADC_FIFO_OVF ∧ t.reports = s.reports
          else t.adc.fifo = s.adc.fifo ∧ t.rd R.ADC_FIFO_OVF = satStep (s.rd R.ADC_FIFO_OVF) ∧
            t.reports = s.reports ++ [{ page := Pg.adc, k := 2, at_ := s.time }] ∧
            t.page Pg.adc = { s.page Pg.adc with irqStat := (s.page Pg.adc).irqStat ||| 32 }
        else t.adc.fifo = s.adc.fifo ∧ t.rd R.ADC_FIFO_OVF = s.rd R.ADC_FIFO_OVF ∧ t.reports = s.reports) ∧
        (v.s ≤ v.done → t.rd R.ADC_LASTc_LO e.ch = w.1 ∧ t.rd R.ADC_LASTc_HI e.ch = w.2 ∧
          t.adc.lastValid[e.ch]? = some (some ⟨x, s.time⟩)) ∧
        (v.done < v.s → t.rd R.ADC_LASTc_LO e.ch = s.rd R.ADC_LASTc_LO e.ch ∧
          t.rd R.ADC_LASTc_HI e.ch = s.rd R.ADC_LASTc_HI e.ch ∧ t.adc.lastValid = s.adc.lastValid) ∧
        (∀ u : UnitNum, t.unit u =
          if v.s ≤ v.done ∧ s.running Pg.med = true ∧ s.unitOn u = true ∧ s.fld F.MED_Uu_CFG_CH u.val = e.ch then
            { s.unit u with lastWord := s.time, ys := (x / 256) :: (s.unit u).ys }
          else s.unit u) ∧
        (∀ p, (t.ehmP p).slot = if v.s ≤ v.done ∧ v.taken = true ∧ v.port = some p
          then (s.ehmP p).slot.map (fun m => { m with words := some x :: m.words }) else (s.ehmP p).slot) ∧
        (t.slice l).visit = (if v.total = some (v.done + 1) then none else some { v with done := v.done + 1, swap := false }) ∧
        ∀ k, k ≠ l → t.slice k = s.slice k) ∧
    (∀ rq w rest, s.Up → s.ReadsAt rq (wordAt R.ADC_FIFO_LO) → s.adc.fifo = w :: rest → Gives (.adcFifoRead rq) s fun t =>
        SameMem s t ∧ t.regs = s.regs ∧ t.adc = { s.adc with fifo := rest } ∧
        (t.bus.answers.head?.map fun y => (y.rq, y.val, y.err)) = some (rq, w.1, false) ∧
        t.snapOf rq = some (.hi (R.ADC_FIFO_LO.addr 0 0 + 4) w.2))

/-- The initial calibration of nine good slices maps L0 to L7 to S0 to S7 with S8 the spare, ready at once, and sets
its event. The spare's calibration stores its results and makes it ready, or fails the slice with its report. A ready
spare takes over at once the idle slice whose calibration is the oldest, which becomes the spare, after INT ms since
the last handover; a slice that is busy takes it at its next visit or word boundary. Which slice counts as the oldest
among equals is the model's choice (log entry 41), as are the map of slices (42) and the codes that a calibration
command brings (141). Memory stays as it was. -/
def Obligations.ConverterCalibrates : Prop :=
  ∀ (s : State), s.Up → s.running Pg.adc = true →
    (∀ codes, s.adc.calInit = true → s.adc.failed = 0 → s.calTicks ≤ s.since s.adc.base →
      (∀ k < 9, ∃ r, calResults s.calGains (codes.getD k []) = some (some r)) → Gives (.initialCalibrationDone codes) s fun t =>
        SameMem s t ∧ t.regs = s.regs ∧ t.reports = s.reports ∧ t.adc.calInit = false ∧ t.adc.failed = 0 ∧
        t.adc.spare = some 8 ∧ (∀ l : UnitNum, (t.slice l).phys = some l.val) ∧ t.adc.spareReady = some s.time ∧
        t.adc.base = s.time ∧ t.adc.lastHandover = s.time ∧ t.page Pg.adc = { s.page Pg.adc with irqStat := (s.page Pg.adc).irqStat ||| 512 }) ∧
    (∀ codes k, s.adc.spare = some k → s.adc.calInit = false → s.flag F.ADC_CAL_EN = true → s.adc.spareReady = none →
      s.calTicks ≤ s.since s.adc.lastHandover →
      (∀ r, calResults s.calGains codes = some (some r) → Gives (.spareCalibrate codes) s fun t =>
        SameMem s t ∧ t.regs = s.regs ∧ t.pages = s.pages ∧ t.adc.spareReady = some s.time ∧ t.adc.spare = some k ∧
        (∀ g c, (g, c) ∈ r → (8 * k + g, c) ∈ t.adc.cal) ∧ t.adc.slices = s.adc.slices) ∧
      (calResults s.calGains codes = some none → Gives (.spareCalibrate codes) s fun t =>
        SameMem s t ∧ t.regs = s.regs ∧ t.adc = { s.adc with spare := none, failed := s.adc.failed ||| BitVec.ofNat 9 (2 ^ k) } ∧
        t.reports = s.reports ++ [{ page := Pg.adc, k := 0, at_ := s.time }])) ∧
    (∀ l τ, s.adc.spareReady = some τ → s.adc.calInit = false → s.flag F.ADC_CAL_EN = true →
      (s.slice l).phys.isSome = true → s.oldestCal l = true →
      max 1 (s.fld F.ADC_CAL_INT) * 100000 ≤ s.since s.adc.lastHandover →
      ((s.slice l).visit = none → (s.slice l).due = [] → Gives (.spareHandover l) s fun t =>
        SameMem s t ∧ (t.slice l).phys = s.adc.spare ∧ (t.slice l).swapped = true ∧ t.adc.spare = (s.slice l).phys ∧ t.adc.spareReady = none ∧
        t.adc.lastHandover = s.time ∧ (∀ k, k ≠ l → t.slice k = { s.slice k with swapNext := false }) ∧
        SameRegsBut [R.ADC_HANDOVERS.addr 0 0] s t ∧ t.rd R.ADC_HANDOVERS = s.rd R.ADC_HANDOVERS + 1 ∧
        t.page Pg.adc = { s.page Pg.adc with irqStat := (s.page Pg.adc).irqStat ||| 128 }) ∧
      ((s.slice l).visit ≠ none ∨ (s.slice l).due ≠ [] → Gives (.spareHandover l) s fun t =>
        t = { s with adc := { s.adc with slices := t.adc.slices } } ∧
        ∀ k, t.slice k = { s.slice k with swapNext := k == l }))

/-- An FS opens its enabled channel with the channel's configuration, and a pipeline that is free for it takes the
frame; a packet for a channel that is off is counted, and an uncorrectable header damages what is open and has the
rest of its transmission discarded. A row that fits is stored, another damages the frame. An FE hands a good frame's
rows to its pipeline and drops a damaged frame whole. A sequence error damages every open frame. When results are
final they are displayed, or wait while HOLD is 1 until its release. SNAPDATA gives four bytes and steps its address.
Turn, evaluation and frame-loss times end as their registers say; a frame loss is reported for the port of its
context, in round mode for the ports of both that have lost theirs. Each row shows in CSI_STAT whether its
transmission goes on. The model's choices are named: that state of the lanes is log entry 43, which rows belong to a
discarded transmission is log entry 158, and that an FE of a channel that is off counts as a dropped packet is log
entry 73. -/
def Obligations.CameraFrames : Prop :=
  ∀ (s : State) (v : VpNum) (vc : Fin 4) (x : CsiVc) (last : Bool), s.Up → x = s.cam.vc[vc] →
    (s.running Pg.csi = true → s.cam.skip = true → ∀ dt l e, ∀ c ∈ [Instr.csiFrameStart vc 0 e false last,
        .csiFrameEnd vc e false last, .csiLongPacket vc dt l e false last], exec c s = .next (s.lanesAt last)) ∧
    (∀ first : Bool, s.running Pg.csi = true → (s.cam.skip = true → first = true) →
      (∀ fnum, s.flag F.CSI_VCv_CFG_EN vc.val = true → x.isOpen = false → (∀ w, w ≠ v → s.running (Pg.vp w) = false) →
        (s.running (Pg.vp v) = false → Gives (.csiFrameStart vc fnum .good first last) s fun t =>
          SameMem s t ∧ t.cam.skip = false ∧ t.cam.lanes = some (!last) ∧ t.cam.vp = s.cam.vp ∧ t.cam.vc = s.cam.vc.set vc { isOpen := true, cfg := s.rd R.CSI_VCv_CFG vc.val } ∧
          SameRegsBut [R.CSI_VCv_FRM.addr vc.val 0] s t ∧ t.fld F.CSI_VCv_FRM_FNUM vc.val = fnum.toNat ∧
          t.fld F.CSI_VCv_FRM_COUNT vc.val = s.fld F.CSI_VCv_FRM_COUNT vc.val) ∧
        (s.running (Pg.vp v) = true → s.rounds v = false → s.flag F.VPn_Cx_CFG_EN v.val 0 = true → s.fld F.VPn_Cx_CFG_VC v.val 0 = vc.val →
          (s.vp v).frame = none → (s.vp v).accepted = none → (s.page (Pg.vp v)).pend = false → (s.vctx v 0).caps = [] →
          (∀ p, s.win p = none) → Gives (.csiFrameStart vc fnum .good first last) s fun t =>
            SameMem s t ∧ (t.vp v).accepted = some vc ∧ (t.vp v).armed = false ∧ (∀ w, w ≠ v → t.vp w = s.vp w) ∧
            (t.vp v).frame.map (fun f => (f.ctx, f.vc, f.fnum, f.tag, f.snap, f.rows)) =
              some (0, vc, fnum, (s.page (Pg.vp v)).actTag, (s.vp v).armed, none))) ∧
      (s.flag F.CSI_VCv_CFG_EN vc.val = false → x.isOpen = false → ∀ dt l, ∀ c ∈ [Instr.csiFrameStart vc 0 .good first last,
          .csiFrameEnd vc .good first last, .csiLongPacket vc dt l .good first last],
        Gives c s fun t => SameMem s t ∧ t.cam = { s.cam with skip := false, lanes := some (!last) } ∧ SameRegsBut [R.CSI_DROPPKT.addr 0 0] s t ∧
          t.rd R.CSI_DROPPKT = satStep (s.rd R.CSI_DROPPKT)) ∧
      (∀ dt l, ∀ c ∈ [Instr.csiFrameStart vc 0 .uncorrectable first last, .csiFrameEnd vc .uncorrectable first last,
          .csiLongPacket vc dt l .uncorrectable first last], Gives c s fun t =>
          SameMem s t ∧ t.cam.skip = true ∧ t.cam.lanes = some (!last) ∧ SameRegsBut [R.CSI_ECCERR.addr 0 0] s t ∧ t.rd R.CSI_ECCERR = satStep (s.rd R.CSI_ECCERR) ∧
          t.reports = s.reports ++ [{ page := Pg.csi, k := 0, at_ := s.time }] ∧
          ∀ o : Fin 4, t.cam.vc[o] = { s.cam.vc[o] with damaged := s.cam.vc[o].damaged || s.cam.vc[o].isOpen }) ∧
      Gives (.csiSotError last) s (fun t => SameMem s t ∧ t.cam.skip = true ∧ t.cam.lanes = some (!last) ∧ SameRegsBut [R.CSI_SOTERR.addr 0 0] s t ∧
        t.rd R.CSI_SOTERR = satStep (s.rd R.CSI_SOTERR) ∧ t.reports = s.reports ++ [{ page := Pg.csi, k := 1, at_ := s.time }] ∧
        ∀ o : Fin 4, t.cam.vc[o] = { s.cam.vc[o] with damaged := s.cam.vc[o].damaged || s.cam.vc[o].isOpen }) ∧
      (∀ (dt : BitVec 6) l, x.isOpen = true → 0x2A ≤ dt.toNat → dt.toNat ≤ 0x2C →
        (∀ w, (s.vp w).frame = none) → exec (.csiLongPacket vc dt l .good first last) s = .next (((s.lanesAt last).skipRest false).modVc vc fun y =>
          if dt.toNat = cfgDt x.cfg ∧ l.length = cfgWidth x.cfg ∧
              x.rows.length < cfgHeight x.cfg * (if cfgMerge x.cfg = true then 2 else 1) then { y with rows := l :: y.rows }
          else { y with damaged := true })) ∧
      (∀ f, x.isOpen = true → x.rows ≠ [] → (cfgMerge x.cfg = true → x.rows.length % 2 = 0) →
        s.rounds v = false → (s.vp v).frame = some f → f.vc = vc → f.rows = none → (s.vp v).accepted = some vc →
        (∀ w, w ≠ v → (s.vp w).frame = none ∧ (s.vp w).accepted = none) → (∀ k : Fin 2, s.cam.ic[k].pend = false) →
        Gives (.csiFrameEnd vc .good first last) s fun t => SameMem s t ∧ t.cam.lanes = some (!last) ∧
          t.cam.vc = s.cam.vc.set vc { x with isOpen := false, damaged := false, rows := [] } ∧
          t.fld F.CSI_VCv_FRM_COUNT vc.val = (s.fld F.CSI_VCv_FRM_COUNT vc.val + 1) % 65536 ∧ (t.vp v).accepted = none ∧
          (x.damaged = false → SameRegsBut [R.CSI_VCv_FRM.addr vc.val 0] s t ∧
            (t.vp v).frame = some { f with rows := some x.rows.reverse, endTime := s.time }) ∧
          (x.damaged = true → (t.vp v).frame = none ∧ t.rd R.CSI_FMTERR = satStep (s.rd R.CSI_FMTERR) ∧
            t.rd R.VPn_DROP v.val = satStep (s.rd R.VPn_DROP v.val) ∧ t.rd R.VPn_DROPR v.val = BitVec.ofNat 32 (f.ctx.val * 256 + 3) ∧
            (t.vctx v f.ctx).caps = (s.vctx v f.ctx).caps.map fun l => { l with row := none }))) ∧
    ((s.page (Pg.vp v)).st ≠ .resetting →
      exec (.snapArm v) s = .next (s.modVp v fun y => { y with armed := true }) ∧
      (s.flag F.VPn_STATCTL_HOLD v.val = true → Gives (.statsHoldRelease v) s fun t =>
        SameMem s t ∧ t.flag F.VPn_STATCTL_HOLD v.val = false ∧ (t.vp v).waiting = none ∧
        (∀ w, (s.vp v).waiting = some w → t.rd R.VPn_SFRM v.val = w.sfrm ∧ t.rd R.VPn_SINFO v.val = w.sinfo ∧
          t.rd R.VPn_STIME v.val = w.stime ∧ t.rd R.VPn_SMEAN0 v.val = w.mean0 ∧ t.rd R.VPn_SMEAN1 v.val = w.mean1 ∧
          t.page (Pg.vp v) = { s.page (Pg.vp v) with irqStat := (s.page (Pg.vp v)).irqStat ||| 16 }) ∧
        ((s.vp v).waiting = none → SameRegsBut [R.VPn_STATCTL.addr v.val 0] s t ∧ t.pages = s.pages))) ∧
    (∀ rq, s.ReadsAt rq (wordAt R.VPn_SNAPDATA v.val) → Gives (.snapdataRead rq v) s fun t =>
      SameMem s t ∧ t.cam = s.cam ∧ SameRegsBut [R.VPn_SNAPADDR.addr v.val 0] s t ∧
      t.fld F.VPn_SNAPADDR_ADDR v.val = (s.fld F.VPn_SNAPADDR_ADDR v.val + 4) % 32768 ∧
      (t.bus.answers.head?.map fun y => (y.rq, y.err)) = some (rq, false) ∧
      ∀ k < 4, (t.bus.answers.head?.map fun y => wbits y.val (8 * k) 8) =
        some ((s.vp v).snapRam.getD ((s.fld F.VPn_SNAPADDR_ADDR v.val + k) % 32768) 0).toNat) ∧
    (∀ f rows, s.working (Pg.vp v) = true → (s.vp v).frame = some f → f.rows = some rows → f.snap = false →
      (s.vctx v f.ctx).caps = [] → (∀ p, s.win p = none) → Gives (.frameResultsFinal v) s fun t =>
        let sfrm := BitVec.ofNat 32 (f.tag.toNat * 16777216 + f.itag.toNat * 65536 + f.fnum.toNat)
        SameMem s t ∧ (t.vp v).frame = none ∧ t.rd R.VPn_FRAMES v.val = s.rd R.VPn_FRAMES v.val + 1 ∧
        (t.vctx v f.ctx).lastFrame = s.time ∧ (t.vp v).snapRam = (s.vp v).snapRam ∧
        (s.flag F.VPn_STATCTL_HOLD v.val = true → SameRegsBut [R.VPn_FRAMES.addr v.val 0] s t ∧
          (t.vp v).waiting.map (fun w => (w.sfrm, w.stime)) = some (sfrm, f.endTime.setWidth 32)) ∧
        (s.flag F.VPn_STATCTL_HOLD v.val = false → t.rd R.VPn_SFRM v.val = sfrm ∧ t.rd R.VPn_STIME v.val = f.endTime.setWidth 32 ∧
          (t.rd R.VPn_SINFO v.val).getLsbD 31 = decide (f.ctx = 1) ∧
          t.page (Pg.vp v) = { s.page (Pg.vp v) with irqStat := (s.page (Pg.vp v)).irqStat ||| 16 })) ∧
    (s.running (Pg.vp v) = true → s.rounds v = true → (s.vp v).accepted = none →
      s.fld F.VPn_BIND_RTMO v.val * 100000 ≤ s.since (s.vp v).turnSince →
      exec (.roundTurnTimeout v) s = .next (s.modVp v fun y => { y with turn := y.turn + 1, turnSince := s.time })) ∧
    (∀ l pos τ, s.working (Pg.vp v) = true → (s.vctx v 0).caps = [l] → (s.vctx v 1).caps = [] → l.start = some (pos, τ) →
      s.fld F.VPn_TMO_EVTMO v.val * 100000 ≤ s.since τ → (∀ p, s.win p = none) → Gives (.lineEvalTimeout v) s fun t =>
        SameMem s t ∧ SameRegsBut [R.VPn_UNSEEN.addr v.val 0, R.VPn_WCNT.addr v.val 0] s t ∧
        t.rd R.VPn_UNSEEN v.val = satStep (s.rd R.VPn_UNSEEN v.val) ∧
        t.vctx v 0 = { s.vctx v 0 with caps := [], unseen := (s.vctx v 0).unseen + 1 }) ∧
    (∀ c w, s.running (Pg.vp v) = true → s.flag F.VPn_Cx_CFG_EN v.val c.val = true →
      s.win (s.ctxPort v c) = some w → (s.vctx v c).lossGiven = false →
      s.fld F.VPn_TMO_FLTMO v.val * 100000 ≤ s.since (s.vctx v c).lastFrame → Gives (.frameloss v c) s fun t =>
        SameMem s t ∧ t.regs = s.regs ∧ t.vctx v c = { s.vctx v c with lossGiven := true } ∧
        t.vctx v (c + 1) = { s.vctx v (c + 1) with
          lossGiven := (s.vctx v (c + 1)).lossGiven || (s.rounds v && s.frameLost v (c + 1)) } ∧
        t.reports = s.reports ++ [{ page := Pg.vp v, k := 0, at_ := s.time
                                    ports := if s.rounds v = true ∧ s.frameLost v (c + 1) = true ∧ s.ctxPort v (c + 1) ≠ s.ctxPort v c
                                      then [s.ctxPort v c, s.ctxPort v (c + 1)] else [s.ctxPort v c] }] ∧
        t.page (Pg.vp v) = { s.page (Pg.vp v) with irqStat := (s.page (Pg.vp v)).irqStat ||| 512 })

/-- A level shows in RAW at once; one held for the debounce time replaces the input's bit and sets its event where
asked; a unit without words for its time is STALE, with its report; calibration starts for each named unit that is on.
An accepted I²C transaction is pending or busy, with the bytes it sends (none while ENA is 0); one that comes while
another runs or waits, one of more than 16 bytes and one outside RUN is rejected, and its end leaves the result, the
tag, the frame number, the bytes read and the event. The model's choices are named: what GPI_DEBOUNCE brings is log
entry 50, that a unit that is off takes no calibration start is entry 46, what a stretch up to its limit and an end
bring is entry 74, that ENA = 0 sends nothing is entry 184, and which transactions beside R330's are rejected is entry
185. -/
def Obligations.SensorsAndI2c : Prop :=
  ∀ (s : State), s.Up →
    (∀ (i : Fin 16) level u (us : Word), 100 * max 1 (s.fld F.MED_GPIDEB_DEB) ≤ us.toNat → s.bitOf F.MED_GPI_LEVEL i.val ≠ level → s.med.waits = [] →
      (∀ a : AxNum, s.fld F.AXn_HOME_IN a.val ≠ i.val) → u = (s.putBit F.MED_GPI_RAW i.val level).putBit F.MED_GPI_LEVEL i.val level →
      (∀ p : Port, u.paperIn p = s.med.paper[p] ∧ u.headShut p = s.med.head[p]) →
      exec (.gpiDebounce i level us) s = .next
        (if s.running Pg.med = true ∧ s.bitOf (if level = true then F.MED_GPIIRQ_RISE else F.MED_GPIIRQ_FALL) i.val = true
          then u.irq Pg.med 12 else u)) ∧
    (∀ (i : Fin 16) level (us : Word), s.bitOf F.MED_GPI_LEVEL i.val = level ∨ us.toNat < 100 * max 1 (s.fld F.MED_GPIDEB_DEB) →
      exec (.gpiDebounce i level us) s = .next (s.putBit F.MED_GPI_RAW i.val level)) ∧
    (∀ u w, s.running Pg.med = true → s.unitOn u = true → (s.unit u).stale = false →
      max 1 (s.fld F.MED_STALE_T) * 100000 ≤ s.since (s.unit u).lastWord → s.med.waits = [] →
      w = s.modUnit u (fun x => { x with stale := true }) →
      (∀ p : Port, w.paperIn p = s.med.paper[p] ∧ w.headShut p = s.med.head[p]) → Gives (.unitStale u) s fun t =>
        SameMem s t ∧ t.regs = s.regs ∧ t.med = w.med ∧ t.queues = s.queues ∧
        t.reports = s.reports ++ [{ page := Pg.med, k := Fin.ofNat 32 (8 + u.val), at_ := s.time }] ∧
        t.page Pg.med = { s.page Pg.med with irqStat := (s.page Pg.med).irqStat ||| 1024 }) ∧
    (∀ units : BitVec 8, s.running Pg.med = true → Gives (.medCalstart units) s fun t =>
      t = { s with med := { s.med with units := t.med.units } } ∧ ∀ u : UnitNum, t.unit u =
        if units.getLsbD u.val = true ∧ s.unitOn u = true then { s.unit u with cal := some (s.unitPos u, none) } else s.unit u) ∧
    (∀ (k : Fin 2) cmd, s.running Pg.ic = true →
      ((s.icS k).busy = false → (s.icS k).pend = false → wbits cmd 15 5 ≤ 16 → wbits cmd 10 5 ≤ 16 →
        exec (.i2cTransaction k cmd) s =
          .next (s.modIc k fun _ => { cmd := cmd, pend := cmd.getLsbD 22, busy := !cmd.getLsbD 22
                                      sends := if cmd.getLsbD 22 = true then [] else s.i2cSends k cmd }))) ∧
    (∀ (k : Fin 2) cmd, (s.page Pg.ic).st ≠ .resetting →
      ((s.icS k).busy = true ∨ (s.icS k).pend = true ∨ 16 < wbits cmd 15 5 ∨ 16 < wbits cmd 10 5 ∨ s.running Pg.ic = false →
        Gives (.i2cTransaction k cmd) s fun t => SameMem s t ∧ t.cam = s.cam ∧ SameRegsBut [R.ICk_STAT.addr k.val 0] s t ∧ t.flag F.ICk_STAT_REJ k.val = true)) ∧
    (∀ (k : Fin 2) (us : Word) sdaLow stuck, us.toNat ≤ 1000 * max 1 (s.fld F.ICk_CFG_STMO k.val) →
      exec (.i2cStretchTimeout k sdaLow stuck us) s = .next s) ∧
    (∀ (k : Fin 2) (us : Word) (stuck : Bool), s.running Pg.ic = true → (s.icS k).busy = true →
      1000 * max 1 (s.fld F.ICk_CFG_STMO k.val) < us.toNat →
      ∀ c ∈ [(1, Instr.i2cTransactionEnd k .ok []), (2, .i2cTransactionEnd k .nackAddr []), (3, .i2cTransactionEnd k .nackData []),
          (4, .i2cStretchTimeout k false stuck us), (5, .i2cStretchTimeout k true stuck us), (5, .i2cTransactionEnd k (.busErr stuck) [])],
        (c.1 = 1 → wbits (s.icS k).cmd 15 5 = 0) → Gives c.2 s fun t =>
          SameMem s t ∧ t.cam = { s.cam with ic := s.cam.ic.set k { s.icS k with busy := false } } ∧
          SameRegsBut [R.ICk_STAT.addr k.val 0, R.ICk_LFRM.addr k.val 0, R.ICk_NACKS.addr k.val 0] s t ∧
          t.fld F.ICk_STAT_RESULT k.val = c.1 ∧
          t.fld F.ICk_STAT_LTAG k.val = (if (s.icS k).cmd.getLsbD 23 = true then wbits (s.icS k).cmd 24 8 else s.fld F.ICk_STAT_LTAG k.val) ∧
          t.fld F.ICk_LFRM_FRAME k.val = s.fld F.CSI_VCv_FRM_COUNT (wbits (s.icS k).cmd 20 2) ∧
          t.rd R.ICk_NACKS k.val = (if c.1 = 2 ∨ c.1 = 3 then satStep (s.rd R.ICk_NACKS k.val) else s.rd R.ICk_NACKS k.val) ∧
          t.reports = s.reports ++ (if c.1 = 5 ∧ stuck = true then [{ page := Pg.ic, k := Fin.ofNat 32 k.val, at_ := s.time }] else []) ∧
          (t.page Pg.ic).irqStat.getLsbD (4 + k.val) = true) ∧
    (∀ (k : Fin 2) rx, s.running Pg.ic = true → (s.icS k).busy = true → rx.length = wbits (s.icS k).cmd 15 5 → rx.length ≤ 16 →
      Gives (.i2cTransactionEnd k .ok rx) s fun t =>
        t.fld F.ICk_STAT_RESULT k.val = 1 ∧ ∀ i < rx.length,
          wbits (t.rd R.ICk_RXi k.val (i / 4)) (8 * (i % 4)) 8 = (rx.getD i 0).toNat)

/-- A command that keeps every condition of the table starts its operation on its bank and target: FLC_CMD holds it,
memory stays as it was, PROGRAM, PROGRAM_PAGE and OTP_PROGRAM copy the write buffer into the latches and clear it, and
buffered lines of the bank are invalidated but by the check commands. A command is refused with the reason of the
first condition it breaks, and nothing starts. The model's choices are named: the order of the conditions is log entry
9, which commands a protected region refuses is entry 10, and that each requester, and each thread, owns the write
buffer for itself is entry 103. -/
def Obligations.FlashCommands : Prop :=
  ∀ (s : State) (rq : Requester) (w : Word) (f : FlcCmd), s.Open Pg.flc → s.WritesAt rq (wordAt R.FLC_CMD) → f = FlcCmd.ofWord w →
    (∀ c ∈ [(1, Instr.flcProgram rq w), (2, .flcErase rq w), (3, .flcEraseBank rq w), (4, .flcBlank rq w), (5, .flcMargin rq w),
        (6, .flcEraseBlock rq w), (7, .flcProgramPage rq w), (8, .flcOtpProgram rq w)], wbits w 28 4 = c.1 →
      (s.flc.op ≠ none → Gives c.2 s (FlcRefused 1 s)) ∧
      (s.flc.op = none → s.chip.lcs = none →
        (f.badArg = true → Gives c.2 s (FlcRefused 2 s)) ∧
        (f.badArg = false → flcStores c.1 = true → s.rangeProtected (f.lo / 4096) ((f.hi - 1) / 4096) = true →
          Gives c.2 s (FlcRefused 3 s)) ∧
        (f.badArg = false → (flcStores c.1 = true → s.rangeProtected (f.lo / 4096) ((f.hi - 1) / 4096) = false) →
          (s.flcWrongMode f = true → Gives c.2 s (FlcRefused 4 s)) ∧
          (s.flcWrongMode f = false →
            (flcTakes c.1 = true → s.flc.owner ≠ some rq → Gives c.2 s (FlcRefused 5 s)) ∧
            ((flcTakes c.1 = true → s.flc.owner = some rq) →
              (c.1 = 7 → f.lo % 0x10000 / 512 < s.nextPageOf (f.lo / 0x10000) → Gives c.2 s (FlcRefused 6 s)) ∧
              (c.1 = 8 → (∃ k < f.count, otpLocked (s.fld F.LCS_STATE_STATE) (8 * (f.waddr + k)) = true) → Gives c.2 s (FlcRefused 7 s)) ∧
              ((c.1 = 7 → s.nextPageOf (f.lo / 0x10000) ≤ f.lo % 0x10000 / 512) →
                (c.1 = 8 → ∀ k < f.count, otpLocked (s.fld F.LCS_STATE_STATE) (8 * (f.waddr + k)) = false) →
                (s.running Pg.flc = false → Gives c.2 s (FlcRefused 8 s)) ∧
                (s.running Pg.flc = true → Gives c.2 s fun t =>
                  SameMem s t ∧ t.pages = s.pages ∧ t.rd R.FLC_CMD = w &&& 0xFFDFFFFF ∧
                  t.flc.op.map (fun o => (o.cmd, o.bank, o.lo, o.hi)) = some (c.1, f.bank, f.lo, f.hi) ∧
                  t.flc.op.map (fun o => (o.suspSince, o.runSince, o.latches)) =
                    some (none, s.time, if flcTakes c.1 = true then (List.range f.count).map s.wbuf64 else []) ∧
                  (flcTakes c.1 = true → t.flc.owner = none ∧ ∀ j < 128, t.rd R.FLC_WBUFj j = 0xFFFFFFFF) ∧
                  (c.1 ≠ 4 → c.1 ≠ 5 → ∀ (k : Fin 3), ∀ l ∈ t.flc.bufs[k], flashBank l.addr ≠ f.bank))))))) ∧
      (c.1 = 2 → f.lo = 8 * wbits w 0 21 ∧ f.hi = f.lo + 4096 ∧ f.bank = wbits w 20 1)) ∧
    (wbits w 28 4 = 0 ∨ 8 < wbits w 28 4 → Gives (.flcUnknownCmd rq w) s (FlcRefused 9 s))

/-- A PROGRAM or PROGRAM_PAGE of blank words that verifies leaves every word as its latch and nothing else changed;
one with a word that is not blank ends NOT_ERASED. An erase that verifies leaves its target all-ones; in a bank that
cast-on marked failed, of which no word reads blank, it ends ERS_FAIL after 8 pulses with the first word of its target
in FLC_FADDR. BLANK counts the words that are not blank. MARGIN ends OK and counts, in a sector of which no word reads
with an error, what the margins find. An OTP_PROGRAM that verifies leaves each of its words as it was or-ed with its
latch and nothing else changed. A host read of a busy bank gets the status line, sets its HSUB bit and asks for a
suspend; of an idle bank, the bytes. A prefetch brings the first of the following lines that is missing. A requested
suspend comes after 250 µs of run and ends after RESQ of quiet. What an erase does whose first pulse has begun, a
suspend stores in the cycle counts. Only the owner fills the write buffer. The right password unlocks, a wrong one
counts and the third blocks; PROT regions take writes unless locked. The model's choices are named: that each
requester, and each thread, owns the write buffer for itself is log entry 103, what MARGIN may find is entry 177, that
a suspend stores the cycle counts is entry 187, and that an erase of a failed bank ends so, an inference from R473's
uncorrectable reads, is entry 191. -/
def Obligations.FlashOperations : Prop :=
  ∀ (s : State), s.Up →
    (∀ o out w, s.flc.op = some o → o.suspSince = none → w = { s with flc := { s.flc with op := none } } →
      (o.cmd = 1 ∨ o.cmd = 7 → o.lo % 8 = 0 → o.lo + 8 * o.latches.length ≤ 0x1000000 →
        (∀ a, o.lo ≤ a → a < o.lo + 8 * o.latches.length → a % 8 = 0 → w.blankWord a = true) →
        o.targets ≠ [] → s.fld F.FLC_CFG_PMAX ≠ 0 → out.pulsesNeeded ≤ s.fld F.FLC_CFG_PMAX → Gives (.flashOperationDone out) s fun t =>
          t.flc.op = none ∧ SameMemBut o.lo (8 * o.latches.length) s t ∧
          (∀ k (h : k < o.latches.length), t.cell64 (o.lo + 8 * k) = o.latches[k]) ∧ t.fld F.FLC_RES_RESULT = 1 ∧
          t.fld F.FLC_RES_PULSES = max 1 out.pulsesNeeded ∧ (t.page Pg.flc).irqStat.getLsbD 4 = true) ∧
      (∀ e, o.cmd = 1 ∨ o.cmd = 7 → o.targets.find? (fun x => !w.blankWord x.1) = some e → Gives (.flashOperationDone out) s fun t =>
        t.flc.op = none ∧ SameMem s t ∧ SameRegsBut [R.FLC_RES.addr 0 0, R.FLC_FADDR.addr 0 0] s t ∧ t.fld F.FLC_RES_RESULT = 2 ∧
        t.fld F.FLC_RES_PULSES = 0 ∧ t.rd R.FLC_FADDR = BitVec.ofNat 32 e.1) ∧
      ((o.cmd = 2 ∨ o.cmd = 3 ∨ o.cmd = 6) → w.blankRange o.lo o.hi = false → s.bankFailed o.bank = true →
        Gives (.flashOperationDone out) s fun t => t.flc.op = none ∧ SameMemBut o.lo (o.hi - o.lo) s t ∧
          t.fld F.FLC_RES_RESULT = 4 ∧ t.fld F.FLC_RES_PULSES = 8 ∧
          (o.lo ≤ o.hi → t.rd R.FLC_FADDR = BitVec.ofNat 32 o.lo) ∧ (t.page Pg.flc).irqStat.getLsbD 4 = true) ∧
      ((o.cmd = 2 ∨ o.cmd = 3 ∨ o.cmd = 6) → w.blankRange o.lo o.hi = false → s.bankFailed o.bank = false →
        o.hi ≤ 0x1000000 → out.pulsesNeeded ≤ 8 → Gives (.flashOperationDone out) s fun t =>
          t.flc.op = none ∧ SameMemBut o.lo (o.hi - o.lo) s t ∧ (∀ a, o.lo ≤ a → a < o.hi → t.cell a = 0xFF ∧ sget 0 a t.flc.ecc = 0) ∧
          t.fld F.FLC_RES_RESULT = 1 ∧ t.fld F.FLC_RES_PULSES = max 1 out.pulsesNeeded ∧ (t.page Pg.flc).irqStat.getLsbD 4 = true) ∧
      (o.cmd = 4 → Gives (.flashOperationDone out) s fun t =>
        let n := ((wordsOf o.lo o.hi).filter fun a => !w.blankWord a).length
        t.flc.op = none ∧ SameMem s t ∧ t.fld F.FLC_CNT_NB = n % 2 ^ F.FLC_CNT_NB.width ∧ t.fld F.FLC_RES_RESULT = (if n = 0 then 1 else 5)) ∧
      (o.cmd = 5 → s.flc.ecc = [] → s.flc.undef = [] → (∀ a, o.lo ≤ a → a < o.hi → s.bankFailed (a / 0x800000) = false) →
        Gives (.flashOperationDone out) s fun t =>
          let n := (o.hi - o.lo) / 8
          t.flc.op = none ∧ SameMem s t ∧ t.fld F.FLC_RES_RESULT = 1 ∧ t.fld F.FLC_RES_PULSES = 0 ∧
          t.fld F.FLC_CNT_CORR = min out.corrected n % 65536 ∧ t.fld F.FLC_CNT_NB = min out.uncorrectable n % 65536) ∧
      (o.cmd = 8 → o.lo % 8 = 0 → out.failing = [] → Gives (.flashOperationDone out) s fun t =>
        t.flc.op = none ∧ SameMemBut o.lo (8 * o.latches.length) s t ∧ t.fld F.FLC_RES_RESULT = 1 ∧
        (∀ k (h : k < o.latches.length), t.cell64 (o.lo + 8 * k) = w.cell64 (o.lo + 8 * k) ||| o.latches[k]) ∧
        (t.page Pg.flc).irqStat.getLsbD 4 = true)) ∧
    (∀ addr, addr.toNat < 0x1000000 → addr.toNat % 4 = 0 → s.hostReadBarred addr.toNat = false → s.bus.posted = [] →
      (s.page Pg.flc).st ≠ .resetting →
      (s.bankBusy (flashBank addr.toNat) = true → Gives (.flashDemandRead .csl addr) s fun t =>
        SameMem s t ∧ SameRegsBut [R.FLC_HSUB.addr 0 0] s t ∧ t.rd R.FLC_HSUB = s.rd R.FLC_HSUB ||| 2 ∧
        (t.bus.answers.head?.map fun y => (y.rq, y.val.getLsbD 31, y.err)) = some (.csl, true, false) ∧
        t.flc = { s.flc with op := s.flc.op.map fun o => { o with spend := true } }) ∧
      (s.flc.op = none → s.flc.undef = [] → s.flc.ecc = [] → s.bankFailed (flashBank addr.toNat) = false →
        s.flc.bufs[(2 : Fin 3)] = [] → Gives (.flashDemandRead .csl addr) s fun t =>
          SameMem s t ∧ t.regs = s.regs ∧ (t.bus.answers.head?.map fun y => (y.rq, y.val, y.err)) =
            some (.csl, s.byte (addr.toNat + 3) ++ s.byte (addr.toNat + 2) ++ s.byte (addr.toNat + 1) ++ s.byte addr.toNat, false) ∧
          t.flc.bufs[(2 : Fin 3)] = [⟨addr.toNat / 32 * 32, 0⟩])) ∧
    (∀ la, s.flc.lastDem[(0 : Fin 3)] = some la → s.fld F.FLC_CFG_PFDIS % 2 = 0 → (s.page Pg.flc).st ≠ .resetting →
      flashBank (la + 32) = flashBank la → (∀ l ∈ s.flc.bufs[(0 : Fin 3)], l.addr ≠ la + 32) → s.flc.op = none → s.flc.undef = [] →
      s.flc.ecc = [] → la + 32 < 0x1000000 → s.bankFailed (flashBank la) = false → Gives (.flashPrefetch .seq) s fun t =>
        SameMem s t ∧ t.regs = s.regs ∧ BufLine.mk (la + 32) 0 ∈ t.flc.bufs[(0 : Fin 3)] ∧ t.flc.bufs[(0 : Fin 3)].length ≤ 4) ∧
    (∀ o, s.flc.op = some o →
      (o.spend = true → o.suspSince = none → o.bank ≠ 2 → 25000 ≤ s.since o.runSince → Gives .flashSuspend s fun t =>
        SameMem s t ∧ SameRegsBut [R.FLC_SUSCNT.addr 0 0] s t ∧ t.rd R.FLC_SUSCNT = satStep (s.rd R.FLC_SUSCNT) ∧
        t.flc = { s.flc with
          op := some { o with spend := false, suspSince := some s.time, lastDemand := s.time
                              pulseAt := if o.pulsing s.time then none else o.pulseAt }
          cycles := t.flc.cycles } ∧ (o.pulsing s.time = false → t.flc.cycles = s.flc.cycles)) ∧
      (∀ τ, o.suspSince = some τ → (max 1 (s.fld F.FLC_SUSP_RESQ) * 100 ≤ s.since o.lastDemand ∨
          max 1 (s.fld F.FLC_SUSP_SMAX) * 100 ≤ s.since τ) → exec .flashResume s =
        .next { s with flc := { s.flc with op := some { o with suspSince := none, runSince := s.time } } })) ∧
    ((s.page Pg.flc).st ≠ .resetting →
      (∀ rq (j : Fin 128) v, s.WritesAt rq (wordAt R.FLC_WBUFj j.val) → (s.flc.owner = none ∨ s.flc.owner = some rq → Gives (.wbufWrite rq j v) s fun t =>
          SameMem s t ∧ SameRegsBut [R.FLC_WBUFj.addr j.val 0] s t ∧ t.rd R.FLC_WBUFj j.val = v ∧ t.flc = { s.flc with owner := some rq }) ∧
        (∀ o, s.flc.owner = some o → o ≠ rq → Gives (.wbufWrite rq j v) s fun t =>
          SameMem s t ∧ t.flc = s.flc ∧ SameRegsBut [R.FLC_WDISC.addr 0 0] s t ∧ t.rd R.FLC_WDISC = satStep (s.rd R.FLC_WDISC))) ∧
      Gives .wbufClear s (fun t => SameMem s t ∧ t.flc = { s.flc with owner := none } ∧ ∀ j < 128, t.rd R.FLC_WBUFj j = 0xFFFFFFFF) ∧
      (∀ lo hi, s.flc.blocked = false → Gives (.passwordCheck lo hi) s fun t =>
        SameMem s t ∧ SameRegsBut [R.FLC_PWD_LO.addr 0 0, R.FLC_PWD_HI.addr 0 0] s t ∧
        if s.cell64 0x30000028 ≠ 0 ∧ hi ++ lo = s.cell64 0x30000028 then t.flc = { s.flc with unlocked := true } ∧ t.pages = s.pages
        else t.flc = { s.flc with fails := s.flc.fails + 1, blocked := decide (3 ≤ s.flc.fails + 1) } ∧
          t.page Pg.flc = { s.page Pg.flc with irqStat := (s.page Pg.flc).irqStat ||| 256 }) ∧
      exec .passwordRelock s = .next { s with flc := { s.flc with unlocked := false } } ∧
      (∀ (r : Fin 8) v, Gives (.protWrite r v) s fun t => SameMem s t ∧ t.flc = s.flc ∧ SameRegsBut [R.FLC_PROTr.addr r.val 0] s t ∧
        t.rd R.FLC_PROTr r.val = (if (s.rd R.FLC_PROTr r.val).getLsbD 27 = true ∨
            ((s.rd R.FLC_PROTr r.val).getLsbD 28 = true ∧ s.flc.unlocked = false) then s.rd R.FLC_PROTr r.val else v &&& 0xF8FFFFFF)))

/-- A request that the device takes is executed, counted and stored with its reply, which waits for the slot: POLL
answers the status, REG_RD a register, MEM_RD and BULK_RD the bytes; REG_WR to a page, MEM_WR and BULK_WR post their
writes and are acknowledged, a REG_WR to no page with ACCESS and nothing posted; ENQ stores its entry in the ring and
moves TAIL, or is turned away on a disabled or full queue; KREG_WR whose check holds posts its write keyed, and one
whose check fails is acknowledged AUTH_FAIL with nothing posted; a KREG_WR whose check runs past the slot, or waits
for checks that SEC makes first, goes on executing. A duplicate is answered from the stored reply and not executed
again. The model's choices are named: that a keyed request runs past its slot where its row says so, and otherwise
executes at once, is log entry 80, which checks SEC makes first is log entry 188, what of several faults of a REG_WR
is acknowledged is log entry 116, when the doorbell of an ENQ takes effect is log entry 114, and the order of the
tests on a request is log entry 115. -/
def Obligations.LinkRequests : Prop :=
  ∀ (s : State) (adr : Byte) (l : List Byte),
    (s.LinkTakes ⟨adr, 1, []⟩ → Gives (.poll adr []) s fun t => SameMem s t ∧ LinkCounted s t ∧ t.queues = s.queues ∧
      t.csl = { s.csl with lastFrame := s.time, lost := false, rx := false, lineEnd := some s.time
                           slot := some ⟨s.time + 200, some (s.statusReply (s.irqSum 0 32) (s.irqSum 32 12) s.haltedWord s.cmplPend
                             ((List.finRange 16).map s.credit)), adr.getLsbD 7⟩ }) ∧
    (s.LinkTakes ⟨adr, 0x10, natBytes 4 0x40006040 ++ [1, 0, 0, 0]⟩ → s.bus.posted = [] →
      Gives (.regRd adr (natBytes 4 0x40006040 ++ [1, 0, 0, 0])) s fun t => SameMem s t ∧ LinkCounted s t ∧
        LinkAnswered ⟨adr, 0x10, natBytes 4 0x40006040 ++ [1, 0, 0, 0]⟩
          ⟨0x82, [0, 0, 0, 0] ++ natBytes 4 (s.rd R.SKN_AGE).toNat⟩ s t) ∧
    (∀ ar, l.length = 8 → areaOf (payWord l 0).toNat = some ar → reach .csl true ar = true → sizeOk ar 4 (payWord l 0).toNat = true →
      (s.LinkTakes ⟨adr, 0x11, l⟩ → (pageOf (payWord l 0).toNat).isSome = true → Gives (.regWr adr l) s fun t => SameMem s t ∧ LinkCounted s t ∧
        t.bus = { s.bus with posted := s.bus.posted ++ [Posted.mk .csl (payWord l 0) (payWord l 1) 4 false] } ∧
        LinkAnswered ⟨adr, 0x11, l⟩ (s.ack (if kwBits (payWord l 0).toNat = 0 then .ok else .kwDisc)) s t) ∧
      (∀ c ∈ [((0x21 : Byte), Instr.memWr adr l), (0x30, .bulkWr adr l)], memRange (payWord l 0).toNat 4 = true →
        s.LinkTakes ⟨adr, c.1, l⟩ → Gives c.2 s fun t => SameMem s t ∧ LinkCounted s t ∧
          t.bus = { s.bus with posted := s.bus.posted ++ [Posted.mk .csl (payWord l 0) (payWord l 1) 4 false] } ∧
          LinkAnswered ⟨adr, c.1, l⟩ (s.ack .ok) s t)) ∧
    (s.LinkTakes ⟨adr, 0x11, l⟩ → l.length = 8 → pageOf (payWord l 0).toNat = none → Gives (.regWr adr l) s fun t =>
      SameMem s t ∧ t.bus = s.bus ∧ LinkAnswered ⟨adr, 0x11, l⟩ (s.ack .access) s t) ∧
    (∀ c ∈ [((0x22 : Byte), (0x83 : Byte), Instr.memRd adr l), (0x31, 0x84, .bulkRd adr l)], s.LinkTakes ⟨adr, c.1, l⟩ →
      s.bus.posted = [] → l.length = 8 → l.drop 4 = [4, 0, 0, 0] → memRange (payWord l 0).toNat 4 = true →
      areaOf (payWord l 0).toNat = some .wram → Gives c.2.2 s fun t => SameMem s t ∧ LinkCounted s t ∧
        LinkAnswered ⟨adr, c.1, l⟩ ⟨c.2.1, [0, 0, 0, 0] ++ s.bytes (payWord l 0).toNat 4⟩ s t) ∧
    (∀ q : QNum, s.LinkTakes ⟨adr, 0x20, l⟩ → l.length = 20 → l.take 4 = [BitVec.ofNat 8 q.val, 1, 0, 0] →
      s.bus.posted = [] → s.running Pg.qmg = true →
      ((s.q q).mode = .off → Gives (.enq adr l) s fun t => SameMem s t ∧ t.queues = s.queues ∧ LinkCounted s t ∧
        LinkAnswered ⟨adr, 0x20, l⟩ (s.ack .qRefused 0 (s.credit q)) s t) ∧
      ((s.q q).mode = .run → s.credit q = 0 → Gives (.enq adr l) s fun t => SameMem s t ∧ t.queues = s.queues ∧ LinkCounted s t ∧
        LinkAnswered ⟨adr, 0x20, l⟩ (s.ack .qFull) s t) ∧
      ((s.q q).mode = .run → (s.q q).recov = none → 1 ≤ s.credit q → s.qSize q ≤ 32768 →
        s.ringAddr q (s.q q).tail % 4 = 0 → (∀ k < 4, areaOf (s.ringAddr q (s.q q).tail + 4 * k) = some .wram) →
        Gives (.enq adr l) s fun t => SameMemBut (s.ringAddr q (s.q q).tail) 16 s t ∧ LinkCounted s t ∧ t.bus.posted = [] ∧
          t.ringEntry q (s.q q).tail = payEntry l 1 ∧
          t.queues = s.queues.set q { s.q q with tail := (s.q q).tail + 1, pres := (s.q q).tail + 1 } ∧
          LinkAnswered ⟨adr, 0x20, l⟩ (s.ack .ok 0 (t.credit q)) s t)) ∧
    (∀ (i : SlotNum) e, s.LinkTakes ⟨adr, 0x12, l⟩ → l.length = 32 → l.take 4 = [BitVec.ofNat 8 i.val, 0, 0, 0] → e = payEntry l 4 →
      e.carriedBad = none → e.w3 = 0xFFFFFFFF → e.flags % 2 = 0 → s.secFree .csl = true →
      (∀ ar, areaOf e.w1.toNat = some ar → reach .csl true ar = true → sizeOk ar 4 e.w1.toNat = true →
        s.keyedReason .csl i (payWord l 1) ((l.drop 8).take 8) e.bytes (makerReg e.w1.toNat) = none →
        Gives (.kregWr adr l) s fun t => SameMem s t ∧
          t.bus = { s.bus with posted := s.bus.posted ++ [Posted.mk .csl e.w1 e.w2 4 true] } ∧
          (t.sess i).last = payWord l 1 ∧ (t.sess i).run = 0 ∧ (∀ o, o ≠ i → t.sess o = s.sess o) ∧
          LinkAnswered ⟨adr, 0x12, l⟩ (s.ack .ok) s t) ∧
      (∀ r, s.keyedReason .csl i (payWord l 1) ((l.drop 8).take 8) e.bytes (makerReg e.w1.toNat) = some r → r ≠ .maker → r.counts = false →
        Gives (.kregWr adr l) s fun t => SameMem s t ∧ t.bus = s.bus ∧ t.sec = s.sec ∧
          t.rd R.SEC_LASTFAIL = BitVec.ofNat 32 (r.code * 16777216 + i.val * 65536 + 1) ∧
          LinkAnswered ⟨adr, 0x12, l⟩ (s.ack .authFail) s t)) ∧
    (∀ e, s.LinkTakes ⟨adr, 0x12, l⟩ → l.length = 32 → (l.getD 0 0).toNat < 8 → (l.drop 1).take 3 = [0, 0, 0] → e = payEntry l 4 →
      e.carriedBad = none → ∀ slow, slow = true ∨ s.secFree .csl = false → Gives (.kregWr adr l slow) s fun t =>
        SameMem s t ∧ LinkCounted s t ∧ t.bus = s.bus ∧
        t.sec = { s.sec with checks := if s.running Pg.sec = true
          then s.sec.checks.takeWhile (s.checkAhead .csl) ++ (.csl, s.time) :: s.sec.checks.dropWhile (s.checkAhead .csl)
          else s.sec.checks } ∧
        t.csl = { s.csl with lastFrame := s.time, lost := false, rx := false, lineEnd := some s.time
                             slot := some ⟨s.time + 200, none, adr.getLsbD 7⟩
                             exec := some { req := ⟨adr, 0x12, l⟩, addr := 0, left := 0, tried := s.time, keyed := true } }) ∧
    (∀ c ∈ [((0x10 : Byte), Instr.regRd adr l), (0x11, .regWr adr l), (0x12, .kregWr adr l), (0x20, .enq adr l), (0x21, .memWr adr l),
        (0x22, .memRd adr l), (0x30, .bulkWr adr l), (0x31, .bulkRd adr l)], ∀ p, s.Up → s.linkHears (frameBits c.1.toNat l.length) = true →
      s.frameFor adr = .unicast → s.csl.stored = some ⟨adr, c.1, l⟩ → s.csl.reply = some p → Gives c.2 s fun t =>
        SameMem s t ∧ t.bus = s.bus ∧ t.queues = s.queues ∧ SameRegsBut [R.CSL_DUP.addr 0 0] s t ∧
        t.rd R.CSL_DUP = satStep (s.rd R.CSL_DUP) ∧
        t.csl = { s.csl with lastFrame := s.time, lost := false, rx := false, lineEnd := some s.time
                             slot := some ⟨s.time + 200, some p, adr.getLsbD 7⟩ })

/-- In its slot the waiting reply is sent as a frame with its check sums, and a STATUS clears what it told; a request
still executing is answered PENDING, and its real reply later replaces that; a keyed request whose check ends, which
is the next that SEC makes (the model's order is log entry 188), then posts its write; a read-back that differs ends
the reply as a collision; a line that left idle gets none. The guard, the break, the dead and the restored line, the
silent host, the rate and the address change as their rules say. A read that met a busy bank goes on. A frame with a
bad header is counted and not answered, one with a bad payload is counted and answered, and one that CSL does not hear
changes nothing but that the line was in use. The model's choices are named: the ADDR byte of a reply is log entry
179, what BAD_FRAME brings is log entries 31 and 78, which frames CSL hears is log entries 147 and 178, what a reply
slot does with an unfinished request is log entry 77, and a restored line is log entry 79. -/
def Obligations.LinkEvents : Prop :=
  ∀ (s : State), s.Up →
    (∀ x r, s.csl.slot = some x → x.due.toNat ≤ s.time.toNat → x.reply = some r →
      exec (.replySlot true none) s = .next (s.modCsl fun c => { c with slot := none, rx := s.running Pg.csl }) ∧
      (s.cslAtWork = true → s.csl.txoff = false → s.linkAddr ≠ 63 →
        exec (.replySlot false none) s = .next (s.modCsl fun c => { c with
          slot := none, txEnd := s.time + BitVec.ofNat 64 (s.txTicks r none), txStart := s.time + BitVec.ofNat 64 s.tde, rx := false
          wire := s.frameOf x.seq r, sent := some r, fresh := c.fresh && r.typ != 0x81, lostSince := c.lostSince && r.typ != 0x81
          lineEnd := some (s.time + BitVec.ofNat 64 s.tde + BitVec.ofNat 64 (frameBits r.typ.toNat r.payload.length * s.bitTicks)) }) ∧
        ∀ k n, n = min (k + 1) (frameBits r.typ.toNat r.payload.length) →
          exec (.replySlot false (some k)) s = .next (((s.modCsl fun c => { c with
            slot := none, txEnd := s.time + BitVec.ofNat 64 (s.txTicks r (some k)), txStart := s.time + BitVec.ofNat 64 s.tde, rx := false
            wire := (s.frameOf x.seq r).take ((n + 7) / 8)
            lineEnd := some (s.time + BitVec.ofNat 64 s.tde + BitVec.ofNat 64 (n * s.bitTicks)) }).count R.CSL_COLL).irq Pg.csl 10))) ∧
    (∀ x e, s.csl.slot = some x → x.due.toNat ≤ s.time.toNat → x.reply = none → s.csl.exec = some e → s.cslAtWork = true →
      s.csl.txoff = false → s.linkAddr ≠ 63 → Gives (.replySlot false none) s fun t => t = { s with csl := t.csl } ∧
        t.csl.slot = none ∧ t.csl.sent = some (s.ack .pending) ∧ t.csl.reply = some (s.ack .pending) ∧ t.csl.stored = some e.req ∧
        t.csl.exec = some { e with pending := true } ∧ t.csl.wire = s.frameOf x.seq (s.ack .pending) ∧
        t.csl.txEnd = s.time + BitVec.ofNat 64 (s.txTicks (s.ack .pending) none)) ∧
    (∀ e r, s.csl.exec = some e → e.done = some r →
      (e.pending = true → exec .requestFinish s = .next (s.modCsl fun c => { c with reply := some r, exec := none })) ∧
      (e.pending = false → exec .requestFinish s = .next (s.modCsl fun c => { c with
        stored := some e.req, reply := some r, exec := none
        slot := c.slot.map fun y => { y with reply := some (y.reply.getD r) } }))) ∧
    (∀ e i w ar, s.csl.exec = some e → e.done = none → e.keyed = true → s.secTurn .csl = true → e.req.typ = 0x12 → i = e.req.slot → w = payEntry e.req.payload 4 →
      w.w3 = 0xFFFFFFFF → w.flags % 2 = 0 → areaOf w.w1.toNat = some ar → reach .csl true ar = true → sizeOk ar 4 w.w1.toNat = true →
      s.keyedReason .csl i (payWord e.req.payload 1) ((e.req.payload.drop 8).take 8) w.bytes (makerReg w.w1.toNat) = none →
      Gives .requestFinish s fun t => SameMem s t ∧
        t.bus = { s.bus with posted := s.bus.posted ++ [Posted.mk .csl w.w1 w.w2 4 true] } ∧
        (t.sess i).last = payWord e.req.payload 1 ∧ t.sec.checks = s.sec.checks.filter (fun y => y.1 != .csl) ∧
        t.csl.exec = none ∧ t.csl.reply = some (s.ack .ok)) ∧
    (∀ n : Word, s.csl.txoff = false → exec (.txguard n) s = .next (if n.toNat < s.guardTicks then s
      else ((s.modCsl fun c => { c with txoff := true, txEnd := s.time }).irq Pg.csl 9).raise Pg.csl 1)) ∧
    (s.running Pg.csl = true →
      (∀ n : Word, s.csl.line = 0 → s.transmitting = false → exec (.lineBreak n) s = .next (if n.toNat < s.frameTicks then s
        else ((s.modCsl fun c => { c with line := 3, rx := false }).count R.CSL_BREAKS).irq Pg.csl 4)) ∧
      (∀ n : Word, s.csl.line = 3 → exec (.lineDead n) s = .next (if n.toNat < max 1 (s.fld F.CSL_TIMING_DEADT) * s.frameTicks then s
        else (s.modCsl fun c => { c with line := 4 }).raise Pg.csl 0)) ∧
      (∀ n : Word, s.csl.line ≠ 0 → exec (.lineRestored n) s = .next (if n.toNat < s.frameTicks then s
        else (s.modCsl fun c => { c with line := 0 }).irq Pg.csl 5)) ∧
      (s.fld F.CSL_HTMO_HTMO ≠ 0 → s.csl.lost = false → s.fld F.CSL_HTMO_HTMO * 100000 ≤ s.since s.csl.lastFrame →
        exec .hostlost s = .next (((s.modCsl fun c => { c with lost := true, lostSince := true }).irq Pg.csl 6).raise Pg.csl 3))) ∧
    (∀ v via, s.csl.rate = some (v, via) → (via = true → s.csl.slot = none) → (via = false → s.csl.line = 0 ∧ s.csl.rx = false) → s.transmitting = false → Gives .cslRateChange s fun t =>
      SameMem s t ∧ SameRegsBut [R.CSL_RATE.addr 0 0] s t ∧ t.fld F.CSL_RATE_RATE = v.toNat ∧ t.csl = { s.csl with rate := none }) ∧
    (∀ rq v, (s.page Pg.csl).st ≠ .resetting → s.WritesAt rq (wordAt R.CSL_ADDR) → (rq = .csl → exec (.cslAddrWrite rq v) s = .next s) ∧
      (rq ≠ .csl → Gives (.cslAddrWrite rq v) s fun t => SameMem s t ∧ SameRegsBut [R.CSL_ADDR.addr 0 0] s t ∧
        t.fld F.CSL_ADDR_ADDR = wbits v 0 6 ∧ t.csl = s.csl)) ∧
    (∀ x, s.csl.exec = some x → x.left = 1 → 100 ≤ s.since x.tried → x.addr < 0x1000000 → x.addr % 4 = 0 → s.hostReadBarred x.addr = false →
      s.bus.posted = [] → (s.page Pg.flc).st ≠ .resetting →
      (s.bankBusy (flashBank x.addr) = true → Gives .cslFlashRetry s fun t =>
        SameMem s t ∧ t.csl = { s.csl with exec := some { x with tried := s.time } } ∧
        SameRegsBut [R.FLC_HSUB.addr 0 0] s t ∧ (t.rd R.FLC_HSUB).getLsbD 1 = false) ∧
      (s.flc.op = none → s.flc.undef = [] → s.flc.ecc = [] → s.bankFailed (flashBank x.addr) = false → s.flc.bufs[(2 : Fin 3)] = [] →
        x.pending = true → Gives .cslFlashRetry s fun t =>
          SameMem s t ∧ t.regs = s.regs ∧ (t.csl.exec.bind fun y => y.done) = some (dataReply (if x.req.typ = 0x31 then 0x84 else 0x83) x.bad
            (x.data ++ s.bytes x.addr 4)) ∧ t.csl.stored = s.csl.stored)) ∧
    (∀ l damaged, exec (.badFrame false l damaged) s = .next s.frameIn ∧
      (∀ pre, exec (.badFrame pre l damaged true) s =
        .next (if s.linkHears (8 * (l.length + if pre = true then 5 else 0)) = true then s.modCsl fun c => { c with rx := true } else s)) ∧
      (s.linkHears (8 * (l.length + 5)) = false → exec (.badFrame true l damaged) s = .next s.frameIn) ∧
      (s.linkHears (8 * (l.length + 5)) = true → 6 ≤ l.length → leNat ((l.drop 4).take 2) ≠ crc16 (l.take 4) →
        exec (.badFrame true l damaged) s = .next ((s.frameIn.count R.CSL_HCRC).irq Pg.csl 8)) ∧
      (s.linkHears (8 * (l.length + 5)) = true → 6 ≤ l.length → leNat ((l.drop 4).take 2) = crc16 (l.take 4) → s.frameFor (l.getD 0 0) = .unicast →
        leNat ((l.drop 2).take 2) ≤ 256 → l.length = 10 + leNat ((l.drop 2).take 2) → (l.getD 1 0).toNat ∉ bulkTypes →
        leNat (l.drop (6 + leNat ((l.drop 2).take 2))) ≠ crc32 (l.take (6 + leNat ((l.drop 2).take 2))) →
        Gives (.badFrame true l false) s fun t => SameMem s t ∧ t.queues = s.queues ∧ SameRegsBut [R.CSL_PCRC.addr 0 0] s t ∧
          t.rd R.CSL_PCRC = satStep (s.rd R.CSL_PCRC) ∧
          t.csl = { s.csl with lastFrame := s.time, lost := false, rx := false, lineEnd := some s.time
                               slot := some ⟨s.time + 200, some (s.ack .pcrc), (l.getD 0 0).getLsbD 7⟩ }))

/-- A slot that is still PENDING when SEC_TMO.OPENT ms (0 acts as 1) have passed since its OPEN becomes FREE while SEC
is in RUN, and nothing else changes; before that, or in any other state, the slot stays as it is. (Outside RUN the
slots keep their state, R423.) -/
def Obligations.PendingSlotTimesOut : Prop :=
  ∀ (s : State) (i : SlotNum), s.Up → s.running Pg.sec = true →
    ((s.sess i).st = .pending → max 1 (s.fld F.SEC_TMO_OPENT) * 100000 ≤ s.since (s.sess i).since →
      exec (.openTimeout i) s = .next { s with sec := { s.sec with slots := s.sec.slots.set i {} } }) ∧
    ((s.sess i).st ≠ .pending ∨ s.since (s.sess i).since < max 1 (s.fld F.SEC_TMO_OPENT) * 100000 →
      exec (.openTimeout i) s = .next s)

/-- OPEN, by mailbox or link, puts the lowest free slot into PENDING with its owner, kind, nonces and key, and answers
the slot and the device's nonce; with no free slot it answers FULL and is counted. PROVE of the owner with the right
proof opens the slot and answers the device's proof; a wrong one frees it, with AUTH_FAIL. A keyed CLOSE that passes
its check frees the slot, a TOUCH keeps its counter and restarts its idle time, and a mailbox WRITE posts its write
keyed (the model's choice, log entry 112: from a restricted Transom to another page than LCS and SEC it makes no
access and ends ACCESS); one that fails is recorded in SEC_LASTFAIL and answered AUTH_FAIL; each waits for its turn
among the checks that SEC makes one after another (the model's order is log entry 188). An idle slot closes, but not
while a check that names it runs; outside RUN no timer closes a slot (R423; that the timers wait is the model's
reading, log entry 180). BOOTEND ends the boot session. -/
def Obligations.SessionCommands : Prop :=
  ∀ (s : State) (m : Fin 2) (nd : BitVec 128) (i : SlotNum), s.Up →
    (s.mailboxRuns m 1 = true → s.running Pg.sec = true →
      (s.freeSlot = some i → s.keyPresent (s.flag F.SEC_MBm_CTL_KSEL m.val) = true → Gives (.secOpen (.mailbox m) nd) s fun t =>
        SameMem s t ∧ (∀ o, o ≠ i → t.sess o = s.sess o) ∧ t.sess i = {
          st := .pending, owner := if m = 0 then .spt else .transom, maker := s.flag F.SEC_MBm_CTL_KSEL m.val, since := s.time
          ks := sessionKey (s.otpKey (s.flag F.SEC_MBm_CTL_KSEL m.val)) i (if s.flag F.SEC_MBm_CTL_KSEL m.val = true then 1 else 0)
            (s.mailboxData m) (natBytes 16 nd.toNat), nh := s.mailboxData m, nd := natBytes 16 nd.toNat } ∧
        t.mailboxData m = natBytes 16 nd.toNat ∧ t.fld F.SEC_MBm_CTL_SESS m.val = i.val ∧ t.fld F.SEC_MBm_CTL_STATUS m.val = 0 ∧
        t.flag F.SEC_MBm_CTL_BUSY m.val = false ∧ (t.page Pg.sec).irqStat.getLsbD (8 + m.val) = true) ∧
      (s.freeSlot = none → Gives (.secOpen (.mailbox m) nd) s fun t => SameMem s t ∧ t.sec.slots = s.sec.slots ∧
        t.rd R.SEC_OPENREF = satStep (s.rd R.SEC_OPENREF) ∧ t.fld F.SEC_MBm_CTL_STATUS m.val = 1)) ∧
    (∀ adr l, s.LinkTakes ⟨adr, 0x40, l⟩ → s.running Pg.sec = true → l.length = 24 → l.take 8 = [1, 0, 0, 0, 0, 0, 0, 0] →
      s.freeSlot = some i → s.keyPresent false = true → Gives (.secOpen (.link adr l) nd) s fun t =>
        SameMem s t ∧ ((t.sess i).st, (t.sess i).owner, (t.sess i).maker) = (.pending, .csl, false) ∧
        LinkAnswered ⟨adr, 0x40, l⟩ ⟨0x85, [1, 0, BitVec.ofNat 8 i.val, 0] ++ natBytes 16 nd.toNat⟩ s t) ∧
    (s.mailboxRuns m 2 = true → s.running Pg.sec = true → s.mailboxSlot m = i → (s.sess i).st = .pending →
      (s.sess i).owner = (if m = 0 then .spt else .transom) →
      let x := s.sess i
      if s.mailboxTag m = (cmac x.ks (hprfBytes ++ [BitVec.ofNat 8 i.val] ++ x.nd ++ x.nh)).take 8 then
        Gives (.secProve (.mailbox m)) s fun t => SameMem s t ∧ t.sess i = { x with st := .opened, last := 0, run := 0, since := s.time } ∧
          (∀ o, o ≠ i → t.sess o = s.sess o) ∧ t.fld F.SEC_MBm_CTL_STATUS m.val = 0 ∧ t.flag F.SEC_MBm_CTL_BUSY m.val = false ∧
          t.mailboxTag m = (cmac x.ks (dprfBytes ++ [BitVec.ofNat 8 i.val] ++ x.nh ++ x.nd)).take 8
      else Gives (.secProve (.mailbox m)) s fun t => SameMem s t ∧ t.sess i = {} ∧ (∀ o, o ≠ i → t.sess o = s.sess o) ∧
        t.fld F.SEC_MBm_CTL_STATUS m.val = 4 ∧ t.rd R.SEC_AUTHFAIL = satStep (s.rd R.SEC_AUTHFAIL)) ∧
    (∀ c ∈ [((3 : Nat), (3 : Byte), Instr.secClose (.mailbox m)), (4, 4, .secTouch (.mailbox m))], s.mailboxRuns m c.1 = true →
      (s.secTurn (mailboxRq m) = false → exec c.2.2 s = .next s) ∧ (s.secTurn (mailboxRq m) = true →
      s.mailboxSlot m = i →
      (s.keyedReason (mailboxBy m) i (s.mailboxCtr m) (s.mailboxTag m) (c.2.1 :: List.replicate 15 0) false = none → Gives c.2.2 s fun t =>
        SameMem s t ∧ (∀ o, o ≠ i → t.sess o = s.sess o) ∧ t.fld F.SEC_MBm_CTL_STATUS m.val = 0 ∧
        t.flag F.SEC_MBm_CTL_BUSY m.val = false ∧ t.rd R.SEC_SSs_OK i.val = satStep (s.rd R.SEC_SSs_OK i.val) ∧
        t.sess i = if c.1 = 3 then {} else { s.sess i with last := s.mailboxCtr m, run := 0, since := s.time }) ∧
      (s.keyedReason (mailboxBy m) i (s.mailboxCtr m) (s.mailboxTag m) (c.2.1 :: List.replicate 15 0) false = some .check →
        (s.sess i).run < 7 → Gives c.2.2 s fun t =>
          SameMem s t ∧ (∀ o, o ≠ i → t.sess o = s.sess o) ∧ t.fld F.SEC_MBm_CTL_STATUS m.val = 4 ∧
          t.sess i = { s.sess i with run := (s.sess i).run + 1 } ∧ t.rd R.SEC_AUTHFAIL = satStep (s.rd R.SEC_AUTHFAIL) ∧
          t.rd R.SEC_LASTFAIL = BitVec.ofNat 32 (4 * 16777216 + i.val * 65536 + (if m = 0 then 0 else 3)) ∧
          t.reports = s.reports ++ [{ page := Pg.sec, k := 0, at_ := s.time }]))) ∧
    (s.mailboxRuns m 5 = true → s.secTurn (mailboxRq m) = false → exec (.mailboxWrite m) s = .next s) ∧
    (∀ e ar, s.mailboxRuns m 5 = true → s.secTurn (mailboxRq m) = true → s.mailboxSlot m = i → e = Entry.mk (s.rd R.SEC_MBm_DATAi m.val 0) (s.rd R.SEC_MBm_DATAi m.val 1)
        (s.rd R.SEC_MBm_DATAi m.val 2) (s.rd R.SEC_MBm_DATAi m.val 3) → e.carriedBad = none → e.w3 = 0xFFFFFFFF → e.flags % 2 = 0 →
      s.keyedReason (mailboxBy m) i (s.mailboxCtr m) (s.mailboxTag m) e.bytes (makerReg e.w1.toNat) = none →
      areaOf e.w1.toNat = some ar → reach (if m = 0 then .spt else .transom) true ar = true → sizeOk ar 4 e.w1.toNat = true →
      if m = 1 ∧ s.transomRestricted = true ∧ restrictedReach e.w1.toNat = false then
        Gives (.mailboxWrite m) s fun t => SameMem s t ∧ t.fld F.SEC_MBm_CTL_STATUS m.val = 6 ∧
          t.flag F.SEC_MBm_CTL_BUSY m.val = false ∧ (t.sess i).last = s.mailboxCtr m ∧ t.bus = s.bus
      else Gives (.mailboxWrite m) s fun t => SameMem s t ∧ t.fld F.SEC_MBm_CTL_STATUS m.val = 0 ∧ t.flag F.SEC_MBm_CTL_BUSY m.val = false ∧
        (t.sess i).last = s.mailboxCtr m ∧
        t.bus = { s.bus with posted := s.bus.posted ++ [Posted.mk (if m = 0 then .spt else .transom) e.w1 e.w2 4 true] }) ∧
    (s.running Pg.sec = false ∨ s.checkOn i = true → exec (.sessionIdleClose i) s = .next s) ∧
    (s.running Pg.sec = false → exec (.openTimeout i) s = .next s) ∧
    ((s.sess i).st = .opened → s.fld F.SEC_TMO_IDLE ≠ 0 → s.fld F.SEC_TMO_IDLE * 100000000 ≤ s.since (s.sess i).since →
      s.running Pg.sec = true → s.checkOn i = false →
      exec (.sessionIdleClose i) s = .next ({ s with sec := { s.sec with slots := s.sec.slots.set i {} } }.irq Pg.sec 7)) ∧
    ((s.page Pg.sec).st ≠ .resetting →
      exec .bootend s = .next (if (s.sess 7).st = .boot then { s with sec := { s.sec with slots := s.sec.slots.set 7 {} } } else s))

/-- A received character whose start was detected after a high sample and whose start bit is low, on a line that is
neither LOW nor DEAD and not stripped as flow control, enters the receive FIFO of 64 entries; with the FIFO full it is
dropped, what is held stays, and the drop is counted and requests RXDROP. (Here: a character that is not the zeros of
a break, of which SerialCommands speaks.) A read of UAn_DATA removes the oldest character; on an empty FIFO it returns
EMPTY = 1 and changes nothing. The model's choices are named: that a read may bring the RXTHR event is log entry 81,
and which levels and samples of the line a start is found by is log entry 83. -/
def Obligations.ReceiveFifo : Prop :=
  ∀ (s : State) (u : UaNum), s.Up →
    (∀ samples low rose d ferr, s.uaHears u = true → s.uaArmed u rose = true → s.uaSampled u samples = true → (samples.map bitOf).headD true = false →
      d = bitsNat (((samples.map bitOf).drop 1).take (s.uaData u)) → ferr = !(samples.map bitOf).getLastD true →
      ¬ (low = true ∧ ferr = true ∧ d = 0) → ¬ (s.uaInband u = true ∧ s.flag F.UAn_CFG_XSTRIP u.val = true ∧ ferr = false ∧
        (d = s.fld F.UAn_XCH_XOFF u.val ∨ d = s.fld F.UAn_XCH_XON u.val)) →
        Gives (.uartCharReceived u samples low rose) s fun t =>
        SameMem s t ∧ (∀ o, o ≠ u → t.ua o = s.ua o) ∧ SameRegsBut [R.UAn_RXDROP.addr u.val 0, R.UAn_FERRS.addr u.val 0] s t ∧
        t.rd R.UAn_FERRS u.val = (if ferr = true then satStep (s.rd R.UAn_FERRS u.val) else s.rd R.UAn_FERRS u.val) ∧
        ((s.ua u).rx.length < 64 → (t.ua u).rx = (s.ua u).rx ++ [BitVec.ofNat 9 (d + if ferr = true then 256 else 0)] ∧
          t.rd R.UAn_RXDROP u.val = s.rd R.UAn_RXDROP u.val) ∧
        (64 ≤ (s.ua u).rx.length → (t.ua u).rx = (s.ua u).rx ∧ t.rd R.UAn_RXDROP u.val = satStep (s.rd R.UAn_RXDROP u.val) ∧
          t.page (Pg.ua u) = { s.page (Pg.ua u) with irqStat := (s.page (Pg.ua u)).irqStat ||| 64 })) ∧
    (∀ rq, s.ReadsAt rq (wordAt R.UAn_DATA u.val) →
      (∀ c l, s.flag F.UAn_CFG_FEED u.val = false → (s.ua u).rx = c :: l → Gives (.uartDataRead rq u) s fun t =>
        SameMem s t ∧ t.regs = s.regs ∧ (t.ua u).rx = l ∧ (∀ o, o ≠ Pg.ua u → t.page o = s.page o) ∧
        t.page (Pg.ua u) = (if max 1 (s.fld F.UAn_IRQTHR_RXTHR u.val) ≤ l.length then
          { s.page (Pg.ua u) with irqStat := (s.page (Pg.ua u)).irqStat ||| 16 } else s.page (Pg.ua u)) ∧ (∀ o, o ≠ u → t.ua o = s.ua o) ∧
        (t.bus.answers.head?.map fun y => (y.rq, y.val, y.err)) = some (rq, c.setWidth 32, false)) ∧
      ((s.ua u).rx = [] → exec (.uartDataRead rq u) s = .next
        (s.answer { rq := rq, addr := BitVec.ofNat 32 (R.UAn_DATA.addr u.val 0), val := 0x80000000 })))

/-- A written character joins the transmit FIFO, or is discarded and counted when it is full; at a character boundary
the oldest one is sent, bit by bit, unless COLL or CTS holds it, and a single-wire mismatch ends it with the colliding
bit, is recorded and stops the transmitter until COLL is cleared. Break, dead and restored line act once each, and the
character of zeros that a break begins with is none. With FEED, sixteen received bytes become the ring entry at TAIL,
and a partial one is discarded after its gap. The SPI target posts whole words, answers reads with marked words after
its wait markers, loses the value of a read that nCS cuts, drives its status byte until nCS rises and the chip
identifier, and records unknown commands, misaligned addresses and cut words. The model's choices are named: the
character of a break (log entry 83), the levels that TXTHR and RTS follow (log entries 81 and 82), the place of a fed
entry (84), generated bytes (85), what a transaction brings (117) and the WIP bit (118). -/
def Obligations.SerialCommands : Prop :=
  ∀ (s : State), s.Up →
    (∀ (u : UaNum),
      (∀ rq v, (s.page (Pg.ua u)).st ≠ .resetting → s.WritesAt rq (wordAt R.UAn_DATA u.val) → s.uaEchoes u = false →
        exec (.uartDataWrite rq u v) s = .next
          (let t := s.modUa u fun x => { x with tx := x.tx ++ [v.setWidth 8] }
           if 64 ≤ (s.ua u).tx.length then s.count R.UAn_TXDROP u.val
           else if (s.ua u).tx.length + 1 ≤ s.fld F.UAn_IRQTHR_TXTHR u.val then t.irq (Pg.ua u) 5 else t)) ∧
      (∀ cts send ball, send = (cts != s.flag F.UAn_CFG_CTSPOL u.val) → s.running (Pg.ua u) = true →
        (s.flag F.UAn_ERR_COLL u.val = true ∨ (s.uaHw u = true ∧ send = false) ∨ s.uaTxBusy u = true →
          exec (.uartTxChar u cts ball) s = .next (s.modUa u fun x => { x with cts := send })) ∧
        (∀ c l, s.flag F.UAn_ERR_COLL u.val = false → s.fld F.UAn_CFG_FLOW u.val = 0 → (s.ua u).tx = c :: l →
          s.uaEchoes u = false → s.uaTxBusy u = false →
          (s.flag F.UAn_CFG_HALF u.val = false ∨ (s.flag F.UAn_CFG_ECHO u.val = false ∧ ∀ x ∈ (s.uaFrame u c).zip ball, x.1 = x.2) →
            Gives (.uartTxChar u cts ball) s fun t =>
            SameMem s t ∧ t.regs = s.regs ∧ t.uas = s.uas.set u { s.ua u with
              cts := send, tx := l, sent := some (BitVec.ofNat 8 (c.toNat % 2 ^ s.uaData u)), wire := s.uaFrame u c
              txEnd := s.time + BitVec.ofNat 64 (s.uaBitTicks u (s.uaFrame u c).length) } ∧
            t.page (Pg.ua u) = (if l.length ≤ s.fld F.UAn_IRQTHR_TXTHR u.val then
              { s.page (Pg.ua u) with irqStat := (s.page (Pg.ua u)).irqStat ||| 32 } else s.page (Pg.ua u))) ∧
          (∀ j, s.flag F.UAn_CFG_HALF u.val = true → ((s.uaFrame u c).zip ball).findIdx? (fun x => x.1 != x.2) = some j →
            Gives (.uartTxChar u cts ball) s fun t => SameMem s t ∧ t.uas = s.uas.set u { s.ua u with
              cts := send, tx := l, wire := (s.uaFrame u c).take (j + 1)
              txEnd := s.time + BitVec.ofNat 64 (s.uaBitTicks u ((s.uaFrame u c).take (j + 1)).length) } ∧
            t.flag F.UAn_ERR_COLL u.val = true ∧ t.fld F.UAn_COLLCH_CH u.val = c.toNat ∧
            t.rd R.UAn_COLLS u.val = satStep (s.rd R.UAn_COLLS u.val) ∧ (t.page (Pg.ua u)).irqStat.getLsbD 9 = true))) ∧
      ((s.page (Pg.ua u)).st ≠ .resetting → Gives (.uartCollClear u) s fun t =>
        SameMem s t ∧ t.uas = s.uas ∧ SameRegsBut [R.UAn_ERR.addr u.val 0] s t ∧ t.flag F.UAn_ERR_COLL u.val = false) ∧
      (s.running (Pg.ua u) = true →
        (∀ samples rose, (s.ua u).line = 0 → s.uaArmed u rose = true → s.uaSampled u samples = true →
          (samples.map bitOf).headD true = false → (samples.map bitOf).getLastD true = false →
          bitsNat (((samples.map bitOf).drop 1).take (s.uaData u)) = 0 → exec (.uartCharReceived u samples true rose) s = .next
            (s.modUa u fun x => { x with lastChar := s.time, rxing := false, low := true })) ∧
        (∀ n : BitVec 64, (s.ua u).line = 0 → exec (.uartBreak u n) s = .next (if s.uaChars u 1 n.toNat = true then
          ((s.modUa u fun x => { x with line := 2, low := true, rxing := false }).count R.UAn_BREAKS u.val).irq (Pg.ua u) 7 else s)) ∧
        (∀ n : BitVec 64, (s.ua u).line = 2 → exec (.uartLineDead u n) s = .next
          (if s.uaChars u (max 1 (s.fld F.UAn_LDT_LDT u.val)) n.toNat = true
          then (s.modUa u fun x => { x with line := 3 }).raise (Pg.ua u) 0 else s)) ∧
        (∀ n : BitVec 64, (s.ua u).line ≠ 0 → exec (.uartLineRestored u n) s = .next (if s.uaChars u 1 n.toNat = true then
          (s.modUa u fun x => { x with line := 0, low := false }).irq (Pg.ua u) 8 else s)) ∧
        (∀ q, s.flag F.UAn_CFG_FEED u.val = true → s.fld F.UAn_CFG_FLOW u.val = 0 → s.uaQueue u = q → 16 ≤ (s.ua u).rx.length →
          (s.q q).mode = .run → (s.q q).recov = none → 1 ≤ s.credit q → s.qSize q ≤ 32768 → s.running Pg.qmg = true →
          Gives (.uartFeedEnqueue u) s fun t => SameMemBut (s.ringAddr q (s.q q).tail) 16 s t ∧ t.regs = s.regs ∧
            t.queues = s.queues.set q { s.q q with tail := (s.q q).tail + 1, pres := (s.q q).tail + 1 } ∧
            (t.ua u).rx = (s.ua u).rx.drop 16 ∧
            ∀ k < 16, t.byte (s.ringAddr q (s.q q).tail + k) = ((s.ua u).rx.getD k 0).setWidth 8) ∧
        (s.flag F.UAn_CFG_FEED u.val = true → s.fld F.UAn_CFG_FLOW u.val = 0 → (s.ua u).rx.length % 16 ≠ 0 →
          s.uaChars u (max 1 (s.fld F.UAn_LDT_FGAP u.val)) (s.since (s.ua u).lastChar) = true → Gives (.feedGapDiscard u) s fun t =>
            SameMem s t ∧ (t.ua u).rx = (s.ua u).rx.take ((s.ua u).rx.length / 16 * 16) ∧ (∀ o, o ≠ u → t.ua o = s.ua o) ∧
            SameRegsBut [R.UAn_FEEDDISC.addr u.val 0] s t ∧
            t.rd R.UAn_FEEDDISC u.val = satStep (s.rd R.UAn_FEEDDISC u.val)))) ∧
    (∀ (mode3 : Bool) (a : Word), s.running Pg.spt = true →
      (∀ l ar part, ∀ c ∈ [(false, Instr.sptWrite mode3 a l part), (true, .sptQwrite mode3 a l part)], a.toNat % 4 = 0 → 4 ≤ l.length →
        l.length < 8 → areaOf a.toNat = some ar → reach .spt true ar = true → sizeOk ar 4 a.toNat = true → Gives c.2 s fun t =>
          SameMem s t ∧ t.bus = { s.bus with posted := s.bus.posted ++ [Posted.mk .spt a (payWord l 0) 4 false] } ∧
          t.spt = { mode3 := mode3, out := [], quad := c.1, clocks := 8 + sptBits c.1 (32 + 8 * l.length + part) } ∧
          (l.length = 4 ∧ part = 0 → t.regs = s.regs ∧ t.pages = s.pages) ∧
          (l.length ≠ 4 ∨ part ≠ 0 → t.flag F.SPT_ERR_TRUNC = true ∧ t.rd R.SPT_TRUNC = satStep (s.rd R.SPT_TRUNC) ∧
            t.page Pg.spt = { s.page Pg.spt with irqStat := (s.page Pg.spt).irqStat ||| 32 })) ∧
      (∀ n waits part w, ∀ c ∈ [(false, Instr.sptRead mode3 a n waits part), (true, .sptQread mode3 a n waits part)],
        a.toNat % 4 = 0 → areaOf a.toNat = some .wram → sizeOk .wram 4 a.toNat = true → s.bus.posted = [] → w = waits.getD 0 0 →
        (n = 1 ∧ waits.length ≤ 1) ∨ (n = 0 ∧ waits.length = 1) → Gives c.2 s fun t =>
          SameMem s t ∧ SameRegsBut [R.SPT_WAITS.addr 0 0] s t ∧ t.rd R.SPT_WAITS = satAdd (s.rd R.SPT_WAITS) w ∧
          t.spt.mode3 = mode3 ∧ t.spt.active = false ∧ t.spt.quad = c.1 ∧ t.spt.clocks = s.sptReadClocks c.1 n waits part ∧
          t.spt.out = (List.replicate w 0xFF ++ (0xA5 : Byte) :: s.bytes a.toNat 4).take (if n = 1 then w + 5 else w + part / 8)) ∧
      (∀ l n w part cmd, ∀ c ∈ [Instr.sptWrite mode3 a l part, .sptQwrite mode3 a l part, .sptRead mode3 a n w part,
          .sptQread mode3 a n w part, .sptUnknownCmd mode3 cmd], a.toNat % 4 ≠ 0 → sptCommand cmd = none → Gives c s fun t =>
            SameMem s t ∧ t.bus = s.bus ∧ SameRegsBut [R.SPT_ERR.addr 0 0] s t ∧
            t.flag F.SPT_ERR_CMDERR = true ∧ t.page Pg.spt = { s.page Pg.spt with irqStat := (s.page Pg.spt).irqStat ||| 64 } ∧
            t.spt.mode3 = mode3 ∧ t.spt.out = []) ∧
      (∀ wips, exec (.sptRdsr mode3 wips) s = .next { s with spt := {
        mode3 := mode3, clocks := 8 + 8 * wips.length, out := wips.map fun w => BitVec.ofNat 8
          ((w && s.bus.posted.any fun x => x.rq == .spt).toNat + (s.flag F.SPT_ERR_AERR).toNat * 2 + s.hirq.toNat * 4 +
            ((s.rd R.FLC_HSUB).getLsbD 0).toNat * 8) } }) ∧
      exec (.sptRdid mode3) s = .next { s with spt := { mode3 := mode3, clocks := 40, out := natBytes 4 (s.rd R.SYS_CHIP_ID).toNat } })

/-- The one report that waits is taken: one that entered after its group's path broke is dropped, under an open shadow
it is counted as suppressed, and otherwise it is counted, marks its source REAL or INJ, fills an empty first-error
latch, and raises its interrupt and its chip reset where its configuration says so; an identifier of class F also
marks the chip FATAL and shuts every port with cause FAULT, and a head-related one of class U shuts its own port so.
EPIN stops ALIVE. TRAP makes the trap list of each affected queue due, or counts what it finds disabled. BRST resets
the reporting block and opens its shadow for the reports that come later, or within FCC_ESC.T of the last one reports
ESCALATED instead. (That reports of the same clock escape that shadow is the model's choice, log entry 92.) A written
one of FCC_PEND clears the pending bits of its identifier, and the FAULT cause of a port of which then nothing head-
related is pending; FCC_FER is cleared by its own identifier only; a broken path, a lost clock, the end of a shadow
and the edges and stop of ALIVE do what their rules say; a SYS clock that stops stops FCC. The model's choices are
named: which of several reports comes first is log entry 92, what a broken path takes from its group is entry 93, and
what a lost clock stops is entry 127. -/
def Obligations.FaultCollection : Prop :=
  ∀ (s : State), s.Up →
    (s.chip.sysStopped = true → ∀ j bits v pg k n w, ∀ c ∈ [Instr.faultReport, .pendClear j bits, .ferClear v, .faultInject j bits,
      .pathbrk pg k n, .crstReaction w], exec c s = .next s) ∧
    (∀ r id cfg, s.chip.sysStopped = false → s.reports = [r] → faultId r.page r.k.val = some id → cfg = s.rd R.FCC_RCFGi id →
      (∀ τ, s.fcc.broken[r.page] = some τ → τ.toNat < r.at_.toNat → exec .faultReport s = .next { s with reports := [] }) ∧
      ((∀ τ, s.fcc.broken[r.page] = some τ → r.at_.toNat ≤ τ.toNat) →
        (s.held r id = true → Gives .faultReport s fun t => SameMem s t ∧ t.reports = [] ∧ t.fcc = s.fcc ∧
          SameRegsBut [R.FCC_SUPPR.addr 0 0, R.FCC_SUPPRLAST.addr 0 0] s t ∧ t.rd R.FCC_SUPPR = satStep (s.rd R.FCC_SUPPR) ∧
          t.fld F.FCC_SUPPRLAST_ID = id ∧ t.page Pg.fcc = { s.page Pg.fcc with irqStat := (s.page Pg.fcc).irqStat ||| 64 }) ∧
        (s.held r id = false → faultClass id ≠ 3 → (faultHead id = true → faultClass id ≠ 2) →
          cfg.getLsbD 1 = false → cfg.getLsbD 2 = false → cfg.getLsbD 4 = false → Gives .faultReport s fun t =>
            SameMem s t ∧ t.reports = [] ∧ t.queues = s.queues ∧ t.rd R.FCC_REPORTS = satStep (s.rd R.FCC_REPORTS) ∧
            t.fcc.real[r.page] = (if r.inj = true then s.fcc.real[r.page] else s.fcc.real[r.page] ||| BitVec.ofNat 32 (2 ^ r.k.val)) ∧
            t.fcc.inj[r.page] = (if r.inj = true then s.fcc.inj[r.page] ||| BitVec.ofNat 32 (2 ^ r.k.val) else s.fcc.inj[r.page]) ∧
            (s.flag F.FCC_FER_VALID = false → r.named = none → t.rd R.FCC_FER = BitVec.ofNat 32
                (2 ^ 31 + r.inj.toNat * 2 ^ 30 + faultClass id * 2 ^ 28 + id * 2 ^ 16 + r.page.val * 2 ^ 8 + r.k.val) ∧
              t.rd R.FCC_FER_TIME_LO = s.time.setWidth 32 ∧ t.rd R.FCC_FER_TIME_HI = (s.time >>> 32).setWidth 32) ∧
            (s.flag F.FCC_FER_VALID = true → t.rd R.FCC_FER = s.rd R.FCC_FER ∧ t.flag F.FCC_STAT_OVF = true) ∧
            (cfg.getLsbD 0 = true → (t.page r.page).irqStat.getLsbD 2 = true ∧ (t.page Pg.fcc).irqStat.getLsbD 4 = true) ∧
            t.fcc.crst = (if cfg.getLsbD 3 = true then some (s.fcc.crst.getD s.time) else s.fcc.crst) ∧ (cfg.getLsbD 3 = true → t.fld F.FCC_CRSTREC_ID = id)) ∧
        (s.held r id = false → cfg.getLsbD 1 = false → cfg.getLsbD 2 = false → Gives .faultReport s fun t =>
          ((∀ p c, (s.hpP p).cur = some c → c.data.isSome = true) → SameMem s t ∧ t.reports = []) ∧
          t.rd R.FCC_REPORTS = satStep (s.rd R.FCC_REPORTS) ∧ (t.fcc.real[r.page] ||| t.fcc.inj[r.page]).getLsbD r.k.val = true ∧
          (cfg.getLsbD 4 = true → t.fcc.alive = false ∧ t.fcc.stopped = true ∧ t.flag F.FCC_ALIVE_STOPPED = true ∧
            t.flag F.FCC_STAT_ALIVESTOP = true) ∧
          (cfg.getLsbD 4 = false → t.fcc.alive = s.fcc.alive ∧ t.fcc.stopped = s.fcc.stopped) ∧
          (faultClass id = 3 → t.flag F.FCC_STAT_FATAL = true) ∧
          ∀ p : Port, if faultClass id = 3 ∨ (faultClass id = 2 ∧ faultHead id = true ∧ sourcePort r.page r.k.val = some p) then
              (t.hpP p).causes = { (s.hpP p).causes with fault := true } ∧ t.shut p = true ∧ (t.hpP p).cur = none ∧
              (s.running (Pg.hp p) = true → (t.hpP p).hold.isSome = true)
            else (t.hpP p).causes = (s.hpP p).causes) ∧
        (s.held r id = false → faultClass id ≠ 3 → (faultHead id = true → faultClass id ≠ 2) → cfg.getLsbD 1 = true → cfg.getLsbD 2 = false →
          (∀ q, s.trapOwn r = [q] → s.qEn q = true → Gives .faultReport s fun t =>
            SameMem s t ∧ t.queues = s.queues ∧ t.reports = [] ∧ (∀ o, o ≠ q → t.thr o = s.thr o) ∧
            t.rd R.SEQ_Tn_TRAPCNT q.val = satStep (s.rd R.SEQ_Tn_TRAPCNT q.val) ∧
            if s.flag F.SEQ_Tn_TRAP_EN q.val = true ∧ s.running Pg.seq = true then
              t.thr q = (if (s.thr q).trap.isSome = true ∨ (s.thr q).trapDue = true then { s.thr q with trapPend := true }
                else { s.thr q with trapDue := true })
            else t.thr q = s.thr q ∧ t.rd R.SEQ_Tn_MISSED q.val = satStep (s.rd R.SEQ_Tn_MISSED q.val)) ∧
          (s.trapOwn r = [] → (∀ q : QNum, (s.rd R.FCC_TRAPQ).getLsbD q.val = true → s.qEn q = false) → Gives .faultReport s fun t =>
            SameMem s t ∧ t.queues = s.queues ∧ t.seq = s.seq ∧ t.rd R.FCC_TRAPLOST = satStep (s.rd R.FCC_TRAPLOST) ∧
            (t.page Pg.fcc).irqStat.getLsbD 8 = true)) ∧
        (s.held r id = false → cfg.getLsbD 1 = false → cfg.getLsbD 2 = true → blk r.page ≠ .fixed →
          (s.brstSoon r.page = false → Gives .faultReport s fun t =>
            (t.page r.page).st = .resetting ∧ t.fcc.lastBrst[r.page] = some s.time ∧
            ((s.page r.page).st ≠ .resetting → t.fcc.shadow[r.page] = some none ∧
              (s.shadowed r.page = false → t.fcc.shadowAt[r.page] = r.at_ + 1))) ∧
          (s.brstSoon r.page = true → faultClass id ≠ 3 → (faultHead id = true → faultClass id ≠ 2) → Gives .faultReport s fun t =>
            SameMem s t ∧ t.queues = s.queues ∧ (t.page r.page).st = (s.page r.page).st ∧ t.fcc.lastBrst = s.fcc.lastBrst ∧
            t.reports = [{ page := Pg.fcc, k := 1, at_ := s.time, named := some (r.page, 1) }] ∧
            (t.page Pg.fcc).irqStat.getLsbD 7 = true)))) ∧
    (∀ (j : Fin 4) bits p, s.chip.sysStopped = false → s.flag F.FCC_STAT_FATAL = false → (s.hpP p).causes.fault = true →
      (∀ id ∈ headIds p, s.idPend id = true → id / 32 = j.val ∧ bits.getLsbD (id % 32) = true) → Gives (.pendClear j bits) s fun t =>
        (t.hpP p).causes = { (s.hpP p).causes with fault := false }) ∧
    (∀ (j : Fin 4) bits, s.chip.sysStopped = false → s.flag F.FCC_STAT_FATAL = true ∨ (∀ p : Port, (s.hpP p).causes.fault = false) → Gives (.pendClear j bits) s fun t =>
      t = { s with fcc := t.fcc } ∧ (∀ b < 32, bits.getLsbD b = true → t.idPend (32 * j.val + b) = false) ∧
      ∀ id, (id / 32 ≠ j.val ∨ bits.getLsbD (id % 32) = false) → id < 120 → t.idPend id = s.idPend id) ∧
    (∀ v, (s.chip.sysStopped = false → s.flag F.FCC_FER_VALID = true → s.fld F.FCC_FER_ID = wbits v 0 7 → Gives (.ferClear v) s fun t =>
        SameMem s t ∧ SameRegsBut [R.FCC_FER.addr 0 0, R.FCC_FER_TIME_LO.addr 0 0, R.FCC_FER_TIME_HI.addr 0 0, R.FCC_STAT.addr 0 0] s t ∧
        t.rd R.FCC_FER = 0 ∧ t.flag F.FCC_STAT_OVF = false ∧ t.fcc = s.fcc) ∧
      (s.fld F.FCC_FER_ID ≠ wbits v 0 7 → exec (.ferClear v) s = .next s)) ∧
    (∀ pg (k : Fin 32) (n : Word), (n.toNat ≤ 2 → exec (.pathbrk pg k n) s = .next s) ∧
      (s.chip.sysStopped = false → (faultId pg k.val).isSome = true → s.fcc.broken[pg] = none → 2 < n.toNat → Gives (.pathbrk pg k n) s fun t =>
        SameMem s t ∧ t.regs = s.regs ∧ t.fcc = { s.fcc with broken := s.fcc.broken.set pg (some s.time) } ∧
        t.reports = s.reports ++ [{ page := Pg.fcc, k := 0, at_ := s.time, named := some (pg, k) }])) ∧
    (∀ (isl : Fin 11) (n : Word) stopped, (n.toNat < 100 → exec (.clkloss isl n stopped) s = .next s) ∧
      (100 ≤ n.toNat → exec (.clkloss isl n stopped) s =
        .next ({ s with chip := { s.chip with
          noClk := s.chip.noClk ||| BitVec.ofNat 11 (2 ^ isl.val)
          sysStopped := s.chip.sysStopped || (stopped && decide (isl = 0)) } }.raise Pg.sys 1))) ∧
    (∀ n : Word, (n.toNat < 200 → exec (.sysclkLossAliveStop n) s = .next s) ∧
      (200 ≤ n.toNat → Gives (.sysclkLossAliveStop n) s fun t =>
        SameMem s t ∧ SameRegsBut [R.FCC_ALIVE.addr 0 0, R.FCC_STAT.addr 0 0] s t ∧
        t.fcc = { s.fcc with alive := false, stopped := true } ∧
        t.chip = { s.chip with noClk := s.chip.noClk ||| 1, sysStopped := true } ∧ t.flag F.FCC_ALIVE_STOPPED = true ∧ t.flag F.FCC_STAT_ALIVESTOP = true)) ∧
    (s.fcc.stopped = false → s.fcc.half ≤ s.since s.fcc.edgeAt → exec .aliveEdge s = .next { s with fcc := { s.fcc with
      alive := !s.fcc.alive, edgeAt := s.fcc.edgeAt + BitVec.ofNat 64 s.fcc.half
      half := 4 * (if s.fld F.FCC_ALIVE_DIV < 1250 then 1250 else if s.fld F.FCC_ALIVE_DIV > 125000 then 125000 else s.fld F.FCC_ALIVE_DIV) } }) ∧
    (s.fcc.stopped = true → exec .aliveEdge s = .next s) ∧
    (∀ pg τ, s.fcc.shadow[pg] = some (some τ) → τ.toNat ≤ s.time.toNat →
      exec (.shadowEnd pg) s = .next { s with fcc := { s.fcc with shadow := s.fcc.shadow.set pg none } })

/-- A power-on with its supplies in range, an nRESET of 10 µs or more, a chip-reset reaction, SYS_SWRST with its key
and a PLL that loses lock each run cast-on: SYS_RST_CAUSE names the highest of the causes that arrive together, queues
are off, nothing is posted or reported, working RAM reads its default, flash keeps its bytes, and the chip is up at
the timestamp of step 8, or has failed after three attempts to lock, or waits for a crystal that gives no clean
cycles. A power-on takes the modes of the I/O banks from their supplies, and no other reset changes them. A power-on
with a supply below its rising threshold holds everything; a dip too slight or too short, and an nRESET shorter than 1
µs or not taken, change nothing. No boot list runs, nothing was being programmed and the unit is not returned. EXTEST,
CLAMP and HIGHZ hold the islands in reset; the other instructions disturb nothing; a scan of the boundary register
captures the balls' levels; and when another becomes current the chip casts on with cause PIN. The model's choices are
named: what a power-on reset brings and which thresholds hold it are log entries 155 and 181, which causes arrive
together is 128, the outcomes of cast-on are 89, and what the boundary cells capture is 124. -/
def Obligations.ChipResets : Prop :=
  ∀ (s : State) (w : CastOnWorld) (bits : BitVec 547) (board : BitVec 217) (ns : Nat), s.flc.op = none → s.chip.lcs = none → s.bootEn = false → (lifeOf s.lifeSteps).state ≠ 4 →
    (∀ c ∈ [(0, Instr.powerOnReset w), (1, .nreset ns false w), (2, .crstReaction w), (3, .sysSwrst 0xA5 w), (4, .pllLockLoss w),
        (1, .bscanResetRelease w)],
      (c.2 = .bscanResetRelease w → s.chip.phase = .held ∧ s.chip.tap.holds = false) → (c.2 = .nreset ns false w → 10000 ≤ ns ∧ s.chip.phase ≠ .held ∧ s.chip.phase ≠ .noSupply) → (c.1 = 0 → supplyLow w = false) →
      (2 ≤ c.1 → s.Up) → (c.1 = 2 → s.chip.sysStopped = false ∧ ∃ τ, s.fcc.crst = some τ ∧ 100 ≤ s.since τ) → Gives c.2 s fun t =>
        t.rd R.SYS_RST_CAUSE = BitVec.ofNat 32 (highest (s.resetCauses c.1 w)) ∧ t.pending = s.pending ∧ t.bus.posted = [] ∧
        t.reports = [] ∧ (∀ q : QNum, (t.q q).mode = .off ∧ (t.q q).cmds = []) ∧ (∀ a < 0x1000000, t.byte a = s.byte a) ∧
        (∀ a, 0x10000000 ≤ a → a < 0x30000000 → t.byte a = memDefault a) ∧
        ((s.resetCauses c.1 w).getLsbD 2 = true → t.rd R.FCC_CRSTREC = s.rd R.FCC_CRSTREC) ∧
        (c.1 = 0 → t.chip.bankA = decide (2500 < w.vioA) ∧ t.chip.bankB = decide (2500 < w.vioB) ∧ t.chip.tap = .idcode) ∧
        (c.1 ≠ 0 → t.chip.bankA = s.chip.bankA ∧ t.chip.bankB = s.chip.bankB ∧ t.chip.tap = s.chip.tap) ∧
        if w.noCrystal = true ∧ c.1 < 2 ∧ c.2 ≠ .bscanResetRelease w then t.chip.phase = .noCrystal ∧ t.fcc.alive = false
        else (w.pllTries < 3 → t.Up ∧ t.time = w.ticks) ∧ (3 ≤ w.pllTries → t.chip.phase = .failed)) ∧
    (supplyLow w = true → Gives (.powerOnReset w) s fun t => t.chip.phase = .noSupply ∧ t.fcc.alive = false ∧ t.chip.tap = .idcode ∧
      t.pending = s.pending ∧ t.bus.posted = [] ∧ t.reports = [] ∧ (∀ q : QNum, (t.q q).mode = .off ∧ (t.q q).cmds = []) ∧
      ∀ a < 0x1000000, t.byte a = s.byte a) ∧
    (∀ d, dipResets d = false → exec (.powerOnReset w (some d)) s = .next s) ∧
    (∀ taken, ns < 1000 ∨ (ns < 10000 ∧ taken = false) ∨ s.chip.phase = .noSupply → exec (.nreset ns taken w) s = .next s) ∧
    (s.chip.phase = .noSupply → ∀ c ∈ [Instr.bscanExtest bits board, .bscanClamp, .bscanHighz, .bscanSamplePreload bits board,
      .bscanIdcode false, .bscanBypass, .bscanTransom], exec c s = .next s) ∧
    (s.chip.phase ≠ .noSupply →
     (∀ c ∈ [(TapInstr.clamp, Instr.bscanClamp), (.highz, .bscanHighz)], s.chip.phase = .held →
       exec c.2 s = .next { s with chip := { s.chip with tap := c.1 } }) ∧
     (s.chip.phase = .held → exec (.bscanExtest bits board) s = .next { s with chip := { s.chip with
       tap := .extest, boundary := bits, captured := { s with chip := { s.chip with tap := .extest } }.captured board } }) ∧
     (∀ c ∈ [(TapInstr.extest, Instr.bscanExtest bits board, bits), (.clamp, .bscanClamp, s.chip.boundary),
         (.highz, .bscanHighz, s.chip.boundary)], s.chip.phase ≠ .held → Gives c.2.1 s fun t => t.chip.phase = .held ∧ t.chip.tap = c.1 ∧ t.chip.boundary = c.2.2 ∧
        t.pending = s.pending ∧ t.bus.posted = [] ∧ (∀ q : QNum, (t.q q).mode = .off) ∧ t.fcc.alive = false ∧
        ∀ a < 0x1000000, t.byte a = s.byte a) ∧
     exec (.bscanSamplePreload bits board) s = .next { s with chip := { s.chip with
       tap := .samplePreload, boundary := bits, captured := { s with chip := { s.chip with tap := .samplePreload } }.captured board } } ∧
     (∀ tlr, exec (.bscanIdcode tlr) s = .next { s with chip := { s.chip with
       tap := .idcode, boundary := if tlr = true then controlsOff s.chip.boundary else s.chip.boundary } }) ∧
     (∀ code, exec (.bscanBypass code) s = .next (if tapInstr code = .bypass then { s with chip := { s.chip with tap := .bypass } } else s)) ∧
     exec .bscanTransom s = .next { s with chip := { s.chip with tap := .transom } })

/-- A transition with CONFIRM 0x5A from a state that allows it, with its key present and within the limit, starts
programming the next step of the record; any other is refused with its reason; a missing CONFIRM is reported before
ORDER, NOKEY and LIMIT (the model's order, log entry 174). When programming ends unverified a transition is refused,
and one that verified resets the chip by software. A key that the Transom programs in BLANK starts, and at its end its
OTP words hold it and the key data are cleared (what a write of LCS_KEYPROG without GO does is log entry 148; bits
left by programming that fails are entry 60). The Transom, while it is the current instruction and no access of it
runs, reads and writes where the state lets it, and says why not elsewhere (how long an access runs is a free value,
log entry 189). -/
def Obligations.LifeCycleAndTransom : Prop :=
  ∀ (s : State), s.Up →
    (∀ c ∈ [(1, Instr.transMakerTest), (2, .transProvisioned), (3, .transField), (4, .transReturned), (5, .transScrapped)],
      ∀ (own : Bool) (confirm : Byte) (st : Nat), st = s.fld F.LCS_STATE_STATE →
      (s.chip.lcs ≠ none → Gives (c.2 own confirm) s fun t => SameMem s t ∧ t.chip = s.chip ∧ SameRegsBut [R.LCS_TRES.addr 0 0] s t ∧
        t.fld F.LCS_TRES_TARGET = c.1 ∧ t.fld F.LCS_TRES_RESULT = 1) ∧
      (s.chip.lcs = none →
        let from_ := (c.1 = 1 ∧ own = false ∧ st = 0) ∨ (c.1 = 2 ∧ own = false ∧ (st = 1 ∨ (st = 4 ∧ s.flag F.LCS_STATE_ERASED = true))) ∨
          (c.1 = 3 ∧ st = 2) ∨ (c.1 = 4 ∧ own = false ∧ st = 3) ∨ (c.1 = 5 ∧ own = true ∧ st = 3) ∨ (c.1 = 5 ∧ own = false ∧ st ≠ 5)
        let key := (c.1 = 1 → s.flag F.LCS_STATE_KMP = true) ∧ (c.1 = 2 → st = 1 → s.flag F.LCS_STATE_KDP = true)
        if confirm = 0x5A ∧ from_ ∧ key ∧ (c.1 = 2 → st = 4 → s.fld F.LCS_STATE_REPROV < 3) then
          exec (c.2 own confirm) s = .next { s with chip := { s.chip with lcs := some ⟨s.transWords c.1, s.time, true, c.1⟩ } }
        else Gives (c.2 own confirm) s fun t => SameMem s t ∧ t.chip = s.chip ∧ SameRegsBut [R.LCS_TRES.addr 0 0] s t ∧
          t.fld F.LCS_TRES_TARGET = c.1 ∧ (t.page Pg.lcs).irqStat.getLsbD 5 = true ∧
          (confirm ≠ 0x5A → t.fld F.LCS_TRES_RESULT = 5) ∧ (confirm = 0x5A → ¬ from_ → t.fld F.LCS_TRES_RESULT = 2) ∧
          (confirm = 0x5A → from_ → ¬ key → t.fld F.LCS_TRES_RESULT = 3) ∧
          (confirm = 0x5A → from_ → key → t.fld F.LCS_TRES_RESULT = 4))) ∧
    (∀ l w u, s.chip.lcs = some l → s.flc.op = none → 5100 * l.words.length ≤ s.since l.since →
      (l.trans = true → Gives (.lcsProgrammingEnd false w) s fun t => SameMem s t ∧ t.chip.lcs = none ∧ t.fld F.LCS_TRES_TARGET = l.target % 8 ∧
        t.fld F.LCS_TRES_RESULT = 6) ∧
      (l.trans = true → 5100 * l.words.length + 100 ≤ s.since l.since → u = l.words.foldl (fun (s : State) x => s.orWord x.1 x.2) { s with chip := { s.chip with lcs := none } } →
        u.bootEn = false → Gives (.lcsProgrammingEnd true w) s fun t => t.rd R.SYS_RST_CAUSE = BitVec.ofNat 32 (highest (s.resetCauses 3 w)) ∧ t.pending = s.pending ∧
          t.chip.lcs = none ∧ (w.pllTries < 3 → t.Up)) ∧
      (∀ a v v', l.trans = false → l.words = [(a, v), (a + 8, v')] → a = 0x30000080 ∨ a = 0x30000090 → Gives (.lcsProgrammingEnd true w) s fun t =>
        SameMemBut a 16 s t ∧ t.cell64 a = s.cell64 a ||| v ∧ t.cell64 (a + 8) = s.cell64 (a + 8) ||| v' ∧ t.chip.lcs = none ∧
        t.fld F.LCS_KEYPROG_RESULT = 1 ∧ t.flag F.LCS_KEYPROG_BUSY = false ∧ (∀ i < 4, t.rd R.LCS_KEYDATAi i = 0) ∧
        (t.page Pg.lcs).irqStat.getLsbD 4 = true)) ∧
    (∀ rq (sel : Bool) a, (s.page Pg.lcs).st ≠ .resetting → s.WritesAt rq (wordAt R.LCS_KEYPROG) → s.chip.lcs = none → a = (if sel = true then 0x30000090 else 0x30000080) →
      (rq ≠ .transom → Gives (.keyProgram rq sel) s fun t => SameMem s t ∧ t.chip = s.chip ∧ SameRegsBut [R.LCS_KEYPROG.addr 0 0] s t ∧
        t.fld F.LCS_KEYPROG_RESULT = 6) ∧
      (rq = .transom → s.fld F.LCS_STATE_STATE ≠ 0 → Gives (.keyProgram rq sel) s fun t => SameMem s t ∧ t.chip = s.chip ∧ t.fld F.LCS_KEYPROG_RESULT = 2) ∧
      (rq = .transom → s.fld F.LCS_STATE_STATE = 0 → s.cell64 a = 0 → s.cell64 (a + 8) = 0 → (s.keyWord 0 ≠ 0 ∨ s.keyWord 1 ≠ 0) →
        Gives (.keyProgram rq sel) s fun t =>
        SameMem s t ∧ SameRegsBut [R.LCS_KEYPROG.addr 0 0] s t ∧ t.flag F.LCS_KEYPROG_BUSY = true ∧
        t.chip = { s.chip with lcs := some ⟨[(a, s.keyWord 0), (a + 8, s.keyWord 1)], s.time, false, 0⟩ })) ∧
    (∀ a v, s.chip.tap ≠ .transom ∨ s.transomBusy = true → exec (.transomRead a) s = .next s ∧ exec (.transomWrite a v) s = .next s) ∧
    (∀ a v, s.chip.tap = .transom → s.transomBusy = false → areaOf a.toNat = some .wram → sizeOk .wram 4 a.toNat = true →
      (s.transomRestricted = false → s.transomOpen = true → s.bus.posted = [] → Gives (.transomRead a) s fun t =>
        SameMem s t ∧ t.regs = s.regs ∧ t.chip.tres = 0 ∧ t.chip.tdata = BitVec.ofNat 32 (leNat (s.bytes a.toNat 4))) ∧
      (s.transomRestricted = false → s.transomOpen = true → Gives (.transomWrite a v) s fun t =>
        SameMem s t ∧ t.regs = s.regs ∧ t.chip.tres = 0 ∧
        t.bus = { s.bus with posted := s.bus.posted ++ [Posted.mk .transom a v 4 false] }) ∧
      (∀ c ∈ [Instr.transomRead a, .transomWrite a v],
        (s.transomRestricted = true → exec c s = .next { s with chip := { s.chip with tres := 2 } }) ∧
        (s.transomRestricted = false → s.transomOpen = false → exec c s = .next { s with chip := { s.chip with tres := 3 } })))
end

