-- ==== Sys2Proof/Laws/State.lean ====
section
/-! SUPPORT. One lemma per field per update: what each named update of a part of State leaves as it was, and what it
writes. -/

namespace Sys2Proof.Machine

variable (s : State)

@[simp] theorem State.wr_pending (r : Reg) (v : Word) (i j : Nat) : (s.wr r v i j).pending = s.pending := rfl
@[simp] theorem State.wr_time (r : Reg) (v : Word) (i j : Nat) : (s.wr r v i j).time = s.time := rfl
@[simp] theorem State.wr_regs (r : Reg) (v : Word) (i j : Nat) : (s.wr r v i j).regs = sput (r.resetAt i j) (r.addr i j) v s.regs := rfl
@[simp] theorem State.wr_active (r : Reg) (v : Word) (i j : Nat) : (s.wr r v i j).active = s.active := rfl
@[simp] theorem State.wr_pendSet (r : Reg) (v : Word) (i j : Nat) : (s.wr r v i j).pendSet = s.pendSet := rfl
@[simp] theorem State.wr_mem (r : Reg) (v : Word) (i j : Nat) : (s.wr r v i j).mem = s.mem := rfl
@[simp] theorem State.wr_pages (r : Reg) (v : Word) (i j : Nat) : (s.wr r v i j).pages = s.pages := rfl
@[simp] theorem State.wr_bus (r : Reg) (v : Word) (i j : Nat) : (s.wr r v i j).bus = s.bus := rfl
@[simp] theorem State.wr_reports (r : Reg) (v : Word) (i j : Nat) : (s.wr r v i j).reports = s.reports := rfl
@[simp] theorem State.wr_queues (r : Reg) (v : Word) (i j : Nat) : (s.wr r v i j).queues = s.queues := rfl
@[simp] theorem State.wr_nextUid (r : Reg) (v : Word) (i j : Nat) : (s.wr r v i j).nextUid = s.nextUid := rfl
@[simp] theorem State.wr_seq (r : Reg) (v : Word) (i j : Nat) : (s.wr r v i j).seq = s.seq := rfl
@[simp] theorem State.wr_rnd (r : Reg) (v : Word) (i j : Nat) : (s.wr r v i j).rnd = s.rnd := rfl
@[simp] theorem State.wr_skn (r : Reg) (v : Word) (i j : Nat) : (s.wr r v i j).skn = s.skn := rfl
@[simp] theorem State.wr_hhe (r : Reg) (v : Word) (i j : Nat) : (s.wr r v i j).hhe = s.hhe := rfl
@[simp] theorem State.wr_hp (r : Reg) (v : Word) (i j : Nat) : (s.wr r v i j).hp = s.hp := rfl
@[simp] theorem State.wr_sba (r : Reg) (v : Word) (i j : Nat) : (s.wr r v i j).sba = s.sba := rfl
@[simp] theorem State.wr_hheLog (r : Reg) (v : Word) (i j : Nat) : (s.wr r v i j).hheLog = s.hheLog := rfl
@[simp] theorem State.wr_ax (r : Reg) (v : Word) (i j : Nat) : (s.wr r v i j).ax = s.ax := rfl
@[simp] theorem State.wr_qe (r : Reg) (v : Word) (i j : Nat) : (s.wr r v i j).qe = s.qe := rfl
@[simp] theorem State.wr_ehm (r : Reg) (v : Word) (i j : Nat) : (s.wr r v i j).ehm = s.ehm := rfl
@[simp] theorem State.wr_adc (r : Reg) (v : Word) (i j : Nat) : (s.wr r v i j).adc = s.adc := rfl
@[simp] theorem State.wr_med (r : Reg) (v : Word) (i j : Nat) : (s.wr r v i j).med = s.med := rfl
@[simp] theorem State.wr_cam (r : Reg) (v : Word) (i j : Nat) : (s.wr r v i j).cam = s.cam := rfl
@[simp] theorem State.wr_flc (r : Reg) (v : Word) (i j : Nat) : (s.wr r v i j).flc = s.flc := rfl
@[simp] theorem State.wr_csl (r : Reg) (v : Word) (i j : Nat) : (s.wr r v i j).csl = s.csl := rfl
@[simp] theorem State.wr_sec (r : Reg) (v : Word) (i j : Nat) : (s.wr r v i j).sec = s.sec := rfl
@[simp] theorem State.wr_uas (r : Reg) (v : Word) (i j : Nat) : (s.wr r v i j).uas = s.uas := rfl
@[simp] theorem State.wr_spt (r : Reg) (v : Word) (i j : Nat) : (s.wr r v i j).spt = s.spt := rfl
@[simp] theorem State.wr_fcc (r : Reg) (v : Word) (i j : Nat) : (s.wr r v i j).fcc = s.fcc := rfl
@[simp] theorem State.wr_chip (r : Reg) (v : Word) (i j : Nat) : (s.wr r v i j).chip = s.chip := rfl
@[simp] theorem State.wr_freeCtr (r : Reg) (v : Word) (i j : Nat) : (s.wr r v i j).freeCtr = s.freeCtr := rfl

@[simp] theorem State.setFld_pending (f : Fld) (v i j : Nat) : (s.setFld f v i j).pending = s.pending := rfl
@[simp] theorem State.setFld_time (f : Fld) (v i j : Nat) : (s.setFld f v i j).time = s.time := rfl
@[simp] theorem State.setFld_active (f : Fld) (v i j : Nat) : (s.setFld f v i j).active = s.active := rfl
@[simp] theorem State.setFld_pendSet (f : Fld) (v i j : Nat) : (s.setFld f v i j).pendSet = s.pendSet := rfl
@[simp] theorem State.setFld_mem (f : Fld) (v i j : Nat) : (s.setFld f v i j).mem = s.mem := rfl
@[simp] theorem State.setFld_pages (f : Fld) (v i j : Nat) : (s.setFld f v i j).pages = s.pages := rfl
@[simp] theorem State.setFld_bus (f : Fld) (v i j : Nat) : (s.setFld f v i j).bus = s.bus := rfl
@[simp] theorem State.setFld_reports (f : Fld) (v i j : Nat) : (s.setFld f v i j).reports = s.reports := rfl
@[simp] theorem State.setFld_queues (f : Fld) (v i j : Nat) : (s.setFld f v i j).queues = s.queues := rfl
@[simp] theorem State.setFld_nextUid (f : Fld) (v i j : Nat) : (s.setFld f v i j).nextUid = s.nextUid := rfl
@[simp] theorem State.setFld_seq (f : Fld) (v i j : Nat) : (s.setFld f v i j).seq = s.seq := rfl
@[simp] theorem State.setFld_rnd (f : Fld) (v i j : Nat) : (s.setFld f v i j).rnd = s.rnd := rfl
@[simp] theorem State.setFld_skn (f : Fld) (v i j : Nat) : (s.setFld f v i j).skn = s.skn := rfl
@[simp] theorem State.setFld_hhe (f : Fld) (v i j : Nat) : (s.setFld f v i j).hhe = s.hhe := rfl
@[simp] theorem State.setFld_hp (f : Fld) (v i j : Nat) : (s.setFld f v i j).hp = s.hp := rfl
@[simp] theorem State.setFld_sba (f : Fld) (v i j : Nat) : (s.setFld f v i j).sba = s.sba := rfl
@[simp] theorem State.setFld_hheLog (f : Fld) (v i j : Nat) : (s.setFld f v i j).hheLog = s.hheLog := rfl
@[simp] theorem State.setFld_ax (f : Fld) (v i j : Nat) : (s.setFld f v i j).ax = s.ax := rfl
@[simp] theorem State.setFld_qe (f : Fld) (v i j : Nat) : (s.setFld f v i j).qe = s.qe := rfl
@[simp] theorem State.setFld_ehm (f : Fld) (v i j : Nat) : (s.setFld f v i j).ehm = s.ehm := rfl
@[simp] theorem State.setFld_adc (f : Fld) (v i j : Nat) : (s.setFld f v i j).adc = s.adc := rfl
@[simp] theorem State.setFld_med (f : Fld) (v i j : Nat) : (s.setFld f v i j).med = s.med := rfl
@[simp] theorem State.setFld_cam (f : Fld) (v i j : Nat) : (s.setFld f v i j).cam = s.cam := rfl
@[simp] theorem State.setFld_flc (f : Fld) (v i j : Nat) : (s.setFld f v i j).flc = s.flc := rfl
@[simp] theorem State.setFld_csl (f : Fld) (v i j : Nat) : (s.setFld f v i j).csl = s.csl := rfl
@[simp] theorem State.setFld_sec (f : Fld) (v i j : Nat) : (s.setFld f v i j).sec = s.sec := rfl
@[simp] theorem State.setFld_uas (f : Fld) (v i j : Nat) : (s.setFld f v i j).uas = s.uas := rfl
@[simp] theorem State.setFld_spt (f : Fld) (v i j : Nat) : (s.setFld f v i j).spt = s.spt := rfl
@[simp] theorem State.setFld_fcc (f : Fld) (v i j : Nat) : (s.setFld f v i j).fcc = s.fcc := rfl
@[simp] theorem State.setFld_chip (f : Fld) (v i j : Nat) : (s.setFld f v i j).chip = s.chip := rfl
@[simp] theorem State.setFld_freeCtr (f : Fld) (v i j : Nat) : (s.setFld f v i j).freeCtr = s.freeCtr := rfl

@[simp] theorem State.setBit_pending (f : Fld) (b : Bool) (i j : Nat) : (s.setBit f b i j).pending = s.pending := rfl
@[simp] theorem State.setBit_time (f : Fld) (b : Bool) (i j : Nat) : (s.setBit f b i j).time = s.time := rfl
@[simp] theorem State.setBit_active (f : Fld) (b : Bool) (i j : Nat) : (s.setBit f b i j).active = s.active := rfl
@[simp] theorem State.setBit_pendSet (f : Fld) (b : Bool) (i j : Nat) : (s.setBit f b i j).pendSet = s.pendSet := rfl
@[simp] theorem State.setBit_mem (f : Fld) (b : Bool) (i j : Nat) : (s.setBit f b i j).mem = s.mem := rfl
@[simp] theorem State.setBit_pages (f : Fld) (b : Bool) (i j : Nat) : (s.setBit f b i j).pages = s.pages := rfl
@[simp] theorem State.setBit_bus (f : Fld) (b : Bool) (i j : Nat) : (s.setBit f b i j).bus = s.bus := rfl
@[simp] theorem State.setBit_reports (f : Fld) (b : Bool) (i j : Nat) : (s.setBit f b i j).reports = s.reports := rfl
@[simp] theorem State.setBit_queues (f : Fld) (b : Bool) (i j : Nat) : (s.setBit f b i j).queues = s.queues := rfl
@[simp] theorem State.setBit_nextUid (f : Fld) (b : Bool) (i j : Nat) : (s.setBit f b i j).nextUid = s.nextUid := rfl
@[simp] theorem State.setBit_seq (f : Fld) (b : Bool) (i j : Nat) : (s.setBit f b i j).seq = s.seq := rfl
@[simp] theorem State.setBit_rnd (f : Fld) (b : Bool) (i j : Nat) : (s.setBit f b i j).rnd = s.rnd := rfl
@[simp] theorem State.setBit_skn (f : Fld) (b : Bool) (i j : Nat) : (s.setBit f b i j).skn = s.skn := rfl
@[simp] theorem State.setBit_hhe (f : Fld) (b : Bool) (i j : Nat) : (s.setBit f b i j).hhe = s.hhe := rfl
@[simp] theorem State.setBit_hp (f : Fld) (b : Bool) (i j : Nat) : (s.setBit f b i j).hp = s.hp := rfl
@[simp] theorem State.setBit_sba (f : Fld) (b : Bool) (i j : Nat) : (s.setBit f b i j).sba = s.sba := rfl
@[simp] theorem State.setBit_hheLog (f : Fld) (b : Bool) (i j : Nat) : (s.setBit f b i j).hheLog = s.hheLog := rfl
@[simp] theorem State.setBit_ax (f : Fld) (b : Bool) (i j : Nat) : (s.setBit f b i j).ax = s.ax := rfl
@[simp] theorem State.setBit_qe (f : Fld) (b : Bool) (i j : Nat) : (s.setBit f b i j).qe = s.qe := rfl
@[simp] theorem State.setBit_ehm (f : Fld) (b : Bool) (i j : Nat) : (s.setBit f b i j).ehm = s.ehm := rfl
@[simp] theorem State.setBit_adc (f : Fld) (b : Bool) (i j : Nat) : (s.setBit f b i j).adc = s.adc := rfl
@[simp] theorem State.setBit_med (f : Fld) (b : Bool) (i j : Nat) : (s.setBit f b i j).med = s.med := rfl
@[simp] theorem State.setBit_cam (f : Fld) (b : Bool) (i j : Nat) : (s.setBit f b i j).cam = s.cam := rfl
@[simp] theorem State.setBit_flc (f : Fld) (b : Bool) (i j : Nat) : (s.setBit f b i j).flc = s.flc := rfl
@[simp] theorem State.setBit_csl (f : Fld) (b : Bool) (i j : Nat) : (s.setBit f b i j).csl = s.csl := rfl
@[simp] theorem State.setBit_sec (f : Fld) (b : Bool) (i j : Nat) : (s.setBit f b i j).sec = s.sec := rfl
@[simp] theorem State.setBit_uas (f : Fld) (b : Bool) (i j : Nat) : (s.setBit f b i j).uas = s.uas := rfl
@[simp] theorem State.setBit_spt (f : Fld) (b : Bool) (i j : Nat) : (s.setBit f b i j).spt = s.spt := rfl
@[simp] theorem State.setBit_fcc (f : Fld) (b : Bool) (i j : Nat) : (s.setBit f b i j).fcc = s.fcc := rfl
@[simp] theorem State.setBit_chip (f : Fld) (b : Bool) (i j : Nat) : (s.setBit f b i j).chip = s.chip := rfl
@[simp] theorem State.setBit_freeCtr (f : Fld) (b : Bool) (i j : Nat) : (s.setBit f b i j).freeCtr = s.freeCtr := rfl

@[simp] theorem State.count_pending (r : Reg) (i j : Nat) : (s.count r i j).pending = s.pending := rfl
@[simp] theorem State.count_time (r : Reg) (i j : Nat) : (s.count r i j).time = s.time := rfl
@[simp] theorem State.count_active (r : Reg) (i j : Nat) : (s.count r i j).active = s.active := rfl
@[simp] theorem State.count_pendSet (r : Reg) (i j : Nat) : (s.count r i j).pendSet = s.pendSet := rfl
@[simp] theorem State.count_mem (r : Reg) (i j : Nat) : (s.count r i j).mem = s.mem := rfl
@[simp] theorem State.count_pages (r : Reg) (i j : Nat) : (s.count r i j).pages = s.pages := rfl
@[simp] theorem State.count_bus (r : Reg) (i j : Nat) : (s.count r i j).bus = s.bus := rfl
@[simp] theorem State.count_reports (r : Reg) (i j : Nat) : (s.count r i j).reports = s.reports := rfl
@[simp] theorem State.count_queues (r : Reg) (i j : Nat) : (s.count r i j).queues = s.queues := rfl
@[simp] theorem State.count_nextUid (r : Reg) (i j : Nat) : (s.count r i j).nextUid = s.nextUid := rfl
@[simp] theorem State.count_seq (r : Reg) (i j : Nat) : (s.count r i j).seq = s.seq := rfl
@[simp] theorem State.count_rnd (r : Reg) (i j : Nat) : (s.count r i j).rnd = s.rnd := rfl
@[simp] theorem State.count_skn (r : Reg) (i j : Nat) : (s.count r i j).skn = s.skn := rfl
@[simp] theorem State.count_hhe (r : Reg) (i j : Nat) : (s.count r i j).hhe = s.hhe := rfl
@[simp] theorem State.count_hp (r : Reg) (i j : Nat) : (s.count r i j).hp = s.hp := rfl
@[simp] theorem State.count_sba (r : Reg) (i j : Nat) : (s.count r i j).sba = s.sba := rfl
@[simp] theorem State.count_hheLog (r : Reg) (i j : Nat) : (s.count r i j).hheLog = s.hheLog := rfl
@[simp] theorem State.count_ax (r : Reg) (i j : Nat) : (s.count r i j).ax = s.ax := rfl
@[simp] theorem State.count_qe (r : Reg) (i j : Nat) : (s.count r i j).qe = s.qe := rfl
@[simp] theorem State.count_ehm (r : Reg) (i j : Nat) : (s.count r i j).ehm = s.ehm := rfl
@[simp] theorem State.count_adc (r : Reg) (i j : Nat) : (s.count r i j).adc = s.adc := rfl
@[simp] theorem State.count_med (r : Reg) (i j : Nat) : (s.count r i j).med = s.med := rfl
@[simp] theorem State.count_cam (r : Reg) (i j : Nat) : (s.count r i j).cam = s.cam := rfl
@[simp] theorem State.count_flc (r : Reg) (i j : Nat) : (s.count r i j).flc = s.flc := rfl
@[simp] theorem State.count_csl (r : Reg) (i j : Nat) : (s.count r i j).csl = s.csl := rfl
@[simp] theorem State.count_sec (r : Reg) (i j : Nat) : (s.count r i j).sec = s.sec := rfl
@[simp] theorem State.count_uas (r : Reg) (i j : Nat) : (s.count r i j).uas = s.uas := rfl
@[simp] theorem State.count_spt (r : Reg) (i j : Nat) : (s.count r i j).spt = s.spt := rfl
@[simp] theorem State.count_fcc (r : Reg) (i j : Nat) : (s.count r i j).fcc = s.fcc := rfl
@[simp] theorem State.count_chip (r : Reg) (i j : Nat) : (s.count r i j).chip = s.chip := rfl
@[simp] theorem State.count_freeCtr (r : Reg) (i j : Nat) : (s.count r i j).freeCtr = s.freeCtr := rfl

@[simp] theorem State.wrapStep_pending (r : Reg) (i j : Nat) : (s.wrapStep r i j).pending = s.pending := rfl
@[simp] theorem State.wrapStep_time (r : Reg) (i j : Nat) : (s.wrapStep r i j).time = s.time := rfl
@[simp] theorem State.wrapStep_active (r : Reg) (i j : Nat) : (s.wrapStep r i j).active = s.active := rfl
@[simp] theorem State.wrapStep_pendSet (r : Reg) (i j : Nat) : (s.wrapStep r i j).pendSet = s.pendSet := rfl
@[simp] theorem State.wrapStep_mem (r : Reg) (i j : Nat) : (s.wrapStep r i j).mem = s.mem := rfl
@[simp] theorem State.wrapStep_pages (r : Reg) (i j : Nat) : (s.wrapStep r i j).pages = s.pages := rfl
@[simp] theorem State.wrapStep_bus (r : Reg) (i j : Nat) : (s.wrapStep r i j).bus = s.bus := rfl
@[simp] theorem State.wrapStep_reports (r : Reg) (i j : Nat) : (s.wrapStep r i j).reports = s.reports := rfl
@[simp] theorem State.wrapStep_queues (r : Reg) (i j : Nat) : (s.wrapStep r i j).queues = s.queues := rfl
@[simp] theorem State.wrapStep_nextUid (r : Reg) (i j : Nat) : (s.wrapStep r i j).nextUid = s.nextUid := rfl
@[simp] theorem State.wrapStep_seq (r : Reg) (i j : Nat) : (s.wrapStep r i j).seq = s.seq := rfl
@[simp] theorem State.wrapStep_rnd (r : Reg) (i j : Nat) : (s.wrapStep r i j).rnd = s.rnd := rfl
@[simp] theorem State.wrapStep_skn (r : Reg) (i j : Nat) : (s.wrapStep r i j).skn = s.skn := rfl
@[simp] theorem State.wrapStep_hhe (r : Reg) (i j : Nat) : (s.wrapStep r i j).hhe = s.hhe := rfl
@[simp] theorem State.wrapStep_hp (r : Reg) (i j : Nat) : (s.wrapStep r i j).hp = s.hp := rfl
@[simp] theorem State.wrapStep_sba (r : Reg) (i j : Nat) : (s.wrapStep r i j).sba = s.sba := rfl
@[simp] theorem State.wrapStep_hheLog (r : Reg) (i j : Nat) : (s.wrapStep r i j).hheLog = s.hheLog := rfl
@[simp] theorem State.wrapStep_ax (r : Reg) (i j : Nat) : (s.wrapStep r i j).ax = s.ax := rfl
@[simp] theorem State.wrapStep_qe (r : Reg) (i j : Nat) : (s.wrapStep r i j).qe = s.qe := rfl
@[simp] theorem State.wrapStep_ehm (r : Reg) (i j : Nat) : (s.wrapStep r i j).ehm = s.ehm := rfl
@[simp] theorem State.wrapStep_adc (r : Reg) (i j : Nat) : (s.wrapStep r i j).adc = s.adc := rfl
@[simp] theorem State.wrapStep_med (r : Reg) (i j : Nat) : (s.wrapStep r i j).med = s.med := rfl
@[simp] theorem State.wrapStep_cam (r : Reg) (i j : Nat) : (s.wrapStep r i j).cam = s.cam := rfl
@[simp] theorem State.wrapStep_flc (r : Reg) (i j : Nat) : (s.wrapStep r i j).flc = s.flc := rfl
@[simp] theorem State.wrapStep_csl (r : Reg) (i j : Nat) : (s.wrapStep r i j).csl = s.csl := rfl
@[simp] theorem State.wrapStep_sec (r : Reg) (i j : Nat) : (s.wrapStep r i j).sec = s.sec := rfl
@[simp] theorem State.wrapStep_uas (r : Reg) (i j : Nat) : (s.wrapStep r i j).uas = s.uas := rfl
@[simp] theorem State.wrapStep_spt (r : Reg) (i j : Nat) : (s.wrapStep r i j).spt = s.spt := rfl
@[simp] theorem State.wrapStep_fcc (r : Reg) (i j : Nat) : (s.wrapStep r i j).fcc = s.fcc := rfl
@[simp] theorem State.wrapStep_chip (r : Reg) (i j : Nat) : (s.wrapStep r i j).chip = s.chip := rfl
@[simp] theorem State.wrapStep_freeCtr (r : Reg) (i j : Nat) : (s.wrapStep r i j).freeCtr = s.freeCtr := rfl

@[simp] theorem State.countAdd_pending (r : Reg) (i n : Nat) : (s.countAdd r i n).pending = s.pending := rfl
@[simp] theorem State.countAdd_time (r : Reg) (i n : Nat) : (s.countAdd r i n).time = s.time := rfl
@[simp] theorem State.countAdd_active (r : Reg) (i n : Nat) : (s.countAdd r i n).active = s.active := rfl
@[simp] theorem State.countAdd_pendSet (r : Reg) (i n : Nat) : (s.countAdd r i n).pendSet = s.pendSet := rfl
@[simp] theorem State.countAdd_mem (r : Reg) (i n : Nat) : (s.countAdd r i n).mem = s.mem := rfl
@[simp] theorem State.countAdd_pages (r : Reg) (i n : Nat) : (s.countAdd r i n).pages = s.pages := rfl
@[simp] theorem State.countAdd_bus (r : Reg) (i n : Nat) : (s.countAdd r i n).bus = s.bus := rfl
@[simp] theorem State.countAdd_reports (r : Reg) (i n : Nat) : (s.countAdd r i n).reports = s.reports := rfl
@[simp] theorem State.countAdd_queues (r : Reg) (i n : Nat) : (s.countAdd r i n).queues = s.queues := rfl
@[simp] theorem State.countAdd_nextUid (r : Reg) (i n : Nat) : (s.countAdd r i n).nextUid = s.nextUid := rfl
@[simp] theorem State.countAdd_seq (r : Reg) (i n : Nat) : (s.countAdd r i n).seq = s.seq := rfl
@[simp] theorem State.countAdd_rnd (r : Reg) (i n : Nat) : (s.countAdd r i n).rnd = s.rnd := rfl
@[simp] theorem State.countAdd_skn (r : Reg) (i n : Nat) : (s.countAdd r i n).skn = s.skn := rfl
@[simp] theorem State.countAdd_hhe (r : Reg) (i n : Nat) : (s.countAdd r i n).hhe = s.hhe := rfl
@[simp] theorem State.countAdd_hp (r : Reg) (i n : Nat) : (s.countAdd r i n).hp = s.hp := rfl
@[simp] theorem State.countAdd_sba (r : Reg) (i n : Nat) : (s.countAdd r i n).sba = s.sba := rfl
@[simp] theorem State.countAdd_hheLog (r : Reg) (i n : Nat) : (s.countAdd r i n).hheLog = s.hheLog := rfl
@[simp] theorem State.countAdd_ax (r : Reg) (i n : Nat) : (s.countAdd r i n).ax = s.ax := rfl
@[simp] theorem State.countAdd_qe (r : Reg) (i n : Nat) : (s.countAdd r i n).qe = s.qe := rfl
@[simp] theorem State.countAdd_ehm (r : Reg) (i n : Nat) : (s.countAdd r i n).ehm = s.ehm := rfl
@[simp] theorem State.countAdd_adc (r : Reg) (i n : Nat) : (s.countAdd r i n).adc = s.adc := rfl
@[simp] theorem State.countAdd_med (r : Reg) (i n : Nat) : (s.countAdd r i n).med = s.med := rfl
@[simp] theorem State.countAdd_cam (r : Reg) (i n : Nat) : (s.countAdd r i n).cam = s.cam := rfl
@[simp] theorem State.countAdd_flc (r : Reg) (i n : Nat) : (s.countAdd r i n).flc = s.flc := rfl
@[simp] theorem State.countAdd_csl (r : Reg) (i n : Nat) : (s.countAdd r i n).csl = s.csl := rfl
@[simp] theorem State.countAdd_sec (r : Reg) (i n : Nat) : (s.countAdd r i n).sec = s.sec := rfl
@[simp] theorem State.countAdd_uas (r : Reg) (i n : Nat) : (s.countAdd r i n).uas = s.uas := rfl
@[simp] theorem State.countAdd_spt (r : Reg) (i n : Nat) : (s.countAdd r i n).spt = s.spt := rfl
@[simp] theorem State.countAdd_fcc (r : Reg) (i n : Nat) : (s.countAdd r i n).fcc = s.fcc := rfl
@[simp] theorem State.countAdd_chip (r : Reg) (i n : Nat) : (s.countAdd r i n).chip = s.chip := rfl
@[simp] theorem State.countAdd_freeCtr (r : Reg) (i n : Nat) : (s.countAdd r i n).freeCtr = s.freeCtr := rfl

@[simp] theorem State.setByte_pending (a : Nat) (v : Byte) : (s.setByte a v).pending = s.pending := rfl
@[simp] theorem State.setByte_time (a : Nat) (v : Byte) : (s.setByte a v).time = s.time := rfl
@[simp] theorem State.setByte_regs (a : Nat) (v : Byte) : (s.setByte a v).regs = s.regs := rfl
@[simp] theorem State.setByte_active (a : Nat) (v : Byte) : (s.setByte a v).active = s.active := rfl
@[simp] theorem State.setByte_pendSet (a : Nat) (v : Byte) : (s.setByte a v).pendSet = s.pendSet := rfl
@[simp] theorem State.setByte_mem (a : Nat) (v : Byte) : (s.setByte a v).mem = sput (memDefault a) a v s.mem := rfl
@[simp] theorem State.setByte_pages (a : Nat) (v : Byte) : (s.setByte a v).pages = s.pages := rfl
@[simp] theorem State.setByte_bus (a : Nat) (v : Byte) : (s.setByte a v).bus = s.bus := rfl
@[simp] theorem State.setByte_reports (a : Nat) (v : Byte) : (s.setByte a v).reports = s.reports := rfl
@[simp] theorem State.setByte_queues (a : Nat) (v : Byte) : (s.setByte a v).queues = s.queues := rfl
@[simp] theorem State.setByte_nextUid (a : Nat) (v : Byte) : (s.setByte a v).nextUid = s.nextUid := rfl
@[simp] theorem State.setByte_seq (a : Nat) (v : Byte) : (s.setByte a v).seq = s.seq := rfl
@[simp] theorem State.setByte_rnd (a : Nat) (v : Byte) : (s.setByte a v).rnd = s.rnd := rfl
@[simp] theorem State.setByte_skn (a : Nat) (v : Byte) : (s.setByte a v).skn = s.skn := rfl
@[simp] theorem State.setByte_hhe (a : Nat) (v : Byte) : (s.setByte a v).hhe = s.hhe := rfl
@[simp] theorem State.setByte_hp (a : Nat) (v : Byte) : (s.setByte a v).hp = s.hp := rfl
@[simp] theorem State.setByte_sba (a : Nat) (v : Byte) : (s.setByte a v).sba = s.sba := rfl
@[simp] theorem State.setByte_hheLog (a : Nat) (v : Byte) : (s.setByte a v).hheLog = s.hheLog := rfl
@[simp] theorem State.setByte_ax (a : Nat) (v : Byte) : (s.setByte a v).ax = s.ax := rfl
@[simp] theorem State.setByte_qe (a : Nat) (v : Byte) : (s.setByte a v).qe = s.qe := rfl
@[simp] theorem State.setByte_ehm (a : Nat) (v : Byte) : (s.setByte a v).ehm = s.ehm := rfl
@[simp] theorem State.setByte_adc (a : Nat) (v : Byte) : (s.setByte a v).adc = s.adc := rfl
@[simp] theorem State.setByte_med (a : Nat) (v : Byte) : (s.setByte a v).med = s.med := rfl
@[simp] theorem State.setByte_cam (a : Nat) (v : Byte) : (s.setByte a v).cam = s.cam := rfl
@[simp] theorem State.setByte_flc (a : Nat) (v : Byte) : (s.setByte a v).flc = s.flc := rfl
@[simp] theorem State.setByte_csl (a : Nat) (v : Byte) : (s.setByte a v).csl = s.csl := rfl
@[simp] theorem State.setByte_sec (a : Nat) (v : Byte) : (s.setByte a v).sec = s.sec := rfl
@[simp] theorem State.setByte_uas (a : Nat) (v : Byte) : (s.setByte a v).uas = s.uas := rfl
@[simp] theorem State.setByte_spt (a : Nat) (v : Byte) : (s.setByte a v).spt = s.spt := rfl
@[simp] theorem State.setByte_fcc (a : Nat) (v : Byte) : (s.setByte a v).fcc = s.fcc := rfl
@[simp] theorem State.setByte_chip (a : Nat) (v : Byte) : (s.setByte a v).chip = s.chip := rfl
@[simp] theorem State.setByte_freeCtr (a : Nat) (v : Byte) : (s.setByte a v).freeCtr = s.freeCtr := rfl

@[simp] theorem State.modPage_pending (i : PageIx) (f : PageSt → PageSt) : (s.modPage i f).pending = s.pending := rfl
@[simp] theorem State.modPage_time (i : PageIx) (f : PageSt → PageSt) : (s.modPage i f).time = s.time := rfl
@[simp] theorem State.modPage_regs (i : PageIx) (f : PageSt → PageSt) : (s.modPage i f).regs = s.regs := rfl
@[simp] theorem State.modPage_active (i : PageIx) (f : PageSt → PageSt) : (s.modPage i f).active = s.active := rfl
@[simp] theorem State.modPage_pendSet (i : PageIx) (f : PageSt → PageSt) : (s.modPage i f).pendSet = s.pendSet := rfl
@[simp] theorem State.modPage_mem (i : PageIx) (f : PageSt → PageSt) : (s.modPage i f).mem = s.mem := rfl
@[simp] theorem State.modPage_pages (i : PageIx) (f : PageSt → PageSt) : (s.modPage i f).pages = s.pages.set i (f s.pages[i]) := rfl
@[simp] theorem State.modPage_bus (i : PageIx) (f : PageSt → PageSt) : (s.modPage i f).bus = s.bus := rfl
@[simp] theorem State.modPage_reports (i : PageIx) (f : PageSt → PageSt) : (s.modPage i f).reports = s.reports := rfl
@[simp] theorem State.modPage_queues (i : PageIx) (f : PageSt → PageSt) : (s.modPage i f).queues = s.queues := rfl
@[simp] theorem State.modPage_nextUid (i : PageIx) (f : PageSt → PageSt) : (s.modPage i f).nextUid = s.nextUid := rfl
@[simp] theorem State.modPage_seq (i : PageIx) (f : PageSt → PageSt) : (s.modPage i f).seq = s.seq := rfl
@[simp] theorem State.modPage_rnd (i : PageIx) (f : PageSt → PageSt) : (s.modPage i f).rnd = s.rnd := rfl
@[simp] theorem State.modPage_skn (i : PageIx) (f : PageSt → PageSt) : (s.modPage i f).skn = s.skn := rfl
@[simp] theorem State.modPage_hhe (i : PageIx) (f : PageSt → PageSt) : (s.modPage i f).hhe = s.hhe := rfl
@[simp] theorem State.modPage_hp (i : PageIx) (f : PageSt → PageSt) : (s.modPage i f).hp = s.hp := rfl
@[simp] theorem State.modPage_sba (i : PageIx) (f : PageSt → PageSt) : (s.modPage i f).sba = s.sba := rfl
@[simp] theorem State.modPage_hheLog (i : PageIx) (f : PageSt → PageSt) : (s.modPage i f).hheLog = s.hheLog := rfl
@[simp] theorem State.modPage_ax (i : PageIx) (f : PageSt → PageSt) : (s.modPage i f).ax = s.ax := rfl
@[simp] theorem State.modPage_qe (i : PageIx) (f : PageSt → PageSt) : (s.modPage i f).qe = s.qe := rfl
@[simp] theorem State.modPage_ehm (i : PageIx) (f : PageSt → PageSt) : (s.modPage i f).ehm = s.ehm := rfl
@[simp] theorem State.modPage_adc (i : PageIx) (f : PageSt → PageSt) : (s.modPage i f).adc = s.adc := rfl
@[simp] theorem State.modPage_med (i : PageIx) (f : PageSt → PageSt) : (s.modPage i f).med = s.med := rfl
@[simp] theorem State.modPage_cam (i : PageIx) (f : PageSt → PageSt) : (s.modPage i f).cam = s.cam := rfl
@[simp] theorem State.modPage_flc (i : PageIx) (f : PageSt → PageSt) : (s.modPage i f).flc = s.flc := rfl
@[simp] theorem State.modPage_csl (i : PageIx) (f : PageSt → PageSt) : (s.modPage i f).csl = s.csl := rfl
@[simp] theorem State.modPage_sec (i : PageIx) (f : PageSt → PageSt) : (s.modPage i f).sec = s.sec := rfl
@[simp] theorem State.modPage_uas (i : PageIx) (f : PageSt → PageSt) : (s.modPage i f).uas = s.uas := rfl
@[simp] theorem State.modPage_spt (i : PageIx) (f : PageSt → PageSt) : (s.modPage i f).spt = s.spt := rfl
@[simp] theorem State.modPage_fcc (i : PageIx) (f : PageSt → PageSt) : (s.modPage i f).fcc = s.fcc := rfl
@[simp] theorem State.modPage_chip (i : PageIx) (f : PageSt → PageSt) : (s.modPage i f).chip = s.chip := rfl
@[simp] theorem State.modPage_freeCtr (i : PageIx) (f : PageSt → PageSt) : (s.modPage i f).freeCtr = s.freeCtr := rfl

@[simp] theorem State.irq_pending (i : PageIx) (b : Nat) : (s.irq i b).pending = s.pending := rfl
@[simp] theorem State.irq_time (i : PageIx) (b : Nat) : (s.irq i b).time = s.time := rfl
@[simp] theorem State.irq_regs (i : PageIx) (b : Nat) : (s.irq i b).regs = s.regs := rfl
@[simp] theorem State.irq_active (i : PageIx) (b : Nat) : (s.irq i b).active = s.active := rfl
@[simp] theorem State.irq_pendSet (i : PageIx) (b : Nat) : (s.irq i b).pendSet = s.pendSet := rfl
@[simp] theorem State.irq_mem (i : PageIx) (b : Nat) : (s.irq i b).mem = s.mem := rfl
@[simp] theorem State.irq_bus (i : PageIx) (b : Nat) : (s.irq i b).bus = s.bus := rfl
@[simp] theorem State.irq_reports (i : PageIx) (b : Nat) : (s.irq i b).reports = s.reports := rfl
@[simp] theorem State.irq_queues (i : PageIx) (b : Nat) : (s.irq i b).queues = s.queues := rfl
@[simp] theorem State.irq_nextUid (i : PageIx) (b : Nat) : (s.irq i b).nextUid = s.nextUid := rfl
@[simp] theorem State.irq_seq (i : PageIx) (b : Nat) : (s.irq i b).seq = s.seq := rfl
@[simp] theorem State.irq_rnd (i : PageIx) (b : Nat) : (s.irq i b).rnd = s.rnd := rfl
@[simp] theorem State.irq_skn (i : PageIx) (b : Nat) : (s.irq i b).skn = s.skn := rfl
@[simp] theorem State.irq_hhe (i : PageIx) (b : Nat) : (s.irq i b).hhe = s.hhe := rfl
@[simp] theorem State.irq_hp (i : PageIx) (b : Nat) : (s.irq i b).hp = s.hp := rfl
@[simp] theorem State.irq_sba (i : PageIx) (b : Nat) : (s.irq i b).sba = s.sba := rfl
@[simp] theorem State.irq_hheLog (i : PageIx) (b : Nat) : (s.irq i b).hheLog = s.hheLog := rfl
@[simp] theorem State.irq_ax (i : PageIx) (b : Nat) : (s.irq i b).ax = s.ax := rfl
@[simp] theorem State.irq_qe (i : PageIx) (b : Nat) : (s.irq i b).qe = s.qe := rfl
@[simp] theorem State.irq_ehm (i : PageIx) (b : Nat) : (s.irq i b).ehm = s.ehm := rfl
@[simp] theorem State.irq_adc (i : PageIx) (b : Nat) : (s.irq i b).adc = s.adc := rfl
@[simp] theorem State.irq_med (i : PageIx) (b : Nat) : (s.irq i b).med = s.med := rfl
@[simp] theorem State.irq_cam (i : PageIx) (b : Nat) : (s.irq i b).cam = s.cam := rfl
@[simp] theorem State.irq_flc (i : PageIx) (b : Nat) : (s.irq i b).flc = s.flc := rfl
@[simp] theorem State.irq_csl (i : PageIx) (b : Nat) : (s.irq i b).csl = s.csl := rfl
@[simp] theorem State.irq_sec (i : PageIx) (b : Nat) : (s.irq i b).sec = s.sec := rfl
@[simp] theorem State.irq_uas (i : PageIx) (b : Nat) : (s.irq i b).uas = s.uas := rfl
@[simp] theorem State.irq_spt (i : PageIx) (b : Nat) : (s.irq i b).spt = s.spt := rfl
@[simp] theorem State.irq_fcc (i : PageIx) (b : Nat) : (s.irq i b).fcc = s.fcc := rfl
@[simp] theorem State.irq_chip (i : PageIx) (b : Nat) : (s.irq i b).chip = s.chip := rfl
@[simp] theorem State.irq_freeCtr (i : PageIx) (b : Nat) : (s.irq i b).freeCtr = s.freeCtr := rfl

@[simp] theorem State.raise_pending (pg : PageIx) (k : Nat) (ports : List Port) : (s.raise pg k ports).pending = s.pending := rfl
@[simp] theorem State.raise_time (pg : PageIx) (k : Nat) (ports : List Port) : (s.raise pg k ports).time = s.time := rfl
@[simp] theorem State.raise_regs (pg : PageIx) (k : Nat) (ports : List Port) : (s.raise pg k ports).regs = s.regs := rfl
@[simp] theorem State.raise_active (pg : PageIx) (k : Nat) (ports : List Port) : (s.raise pg k ports).active = s.active := rfl
@[simp] theorem State.raise_pendSet (pg : PageIx) (k : Nat) (ports : List Port) : (s.raise pg k ports).pendSet = s.pendSet := rfl
@[simp] theorem State.raise_mem (pg : PageIx) (k : Nat) (ports : List Port) : (s.raise pg k ports).mem = s.mem := rfl
@[simp] theorem State.raise_pages (pg : PageIx) (k : Nat) (ports : List Port) : (s.raise pg k ports).pages = s.pages := rfl
@[simp] theorem State.raise_bus (pg : PageIx) (k : Nat) (ports : List Port) : (s.raise pg k ports).bus = s.bus := rfl
@[simp] theorem State.raise_reports (pg : PageIx) (k : Nat) (ports : List Port) : (s.raise pg k ports).reports = s.reports ++ [{ page := pg, k := Fin.ofNat 32 k, at_ := s.time, ports := ports }] := rfl
@[simp] theorem State.raise_queues (pg : PageIx) (k : Nat) (ports : List Port) : (s.raise pg k ports).queues = s.queues := rfl
@[simp] theorem State.raise_nextUid (pg : PageIx) (k : Nat) (ports : List Port) : (s.raise pg k ports).nextUid = s.nextUid := rfl
@[simp] theorem State.raise_seq (pg : PageIx) (k : Nat) (ports : List Port) : (s.raise pg k ports).seq = s.seq := rfl
@[simp] theorem State.raise_rnd (pg : PageIx) (k : Nat) (ports : List Port) : (s.raise pg k ports).rnd = s.rnd := rfl
@[simp] theorem State.raise_skn (pg : PageIx) (k : Nat) (ports : List Port) : (s.raise pg k ports).skn = s.skn := rfl
@[simp] theorem State.raise_hhe (pg : PageIx) (k : Nat) (ports : List Port) : (s.raise pg k ports).hhe = s.hhe := rfl
@[simp] theorem State.raise_hp (pg : PageIx) (k : Nat) (ports : List Port) : (s.raise pg k ports).hp = s.hp := rfl
@[simp] theorem State.raise_sba (pg : PageIx) (k : Nat) (ports : List Port) : (s.raise pg k ports).sba = s.sba := rfl
@[simp] theorem State.raise_hheLog (pg : PageIx) (k : Nat) (ports : List Port) : (s.raise pg k ports).hheLog = s.hheLog := rfl
@[simp] theorem State.raise_ax (pg : PageIx) (k : Nat) (ports : List Port) : (s.raise pg k ports).ax = s.ax := rfl
@[simp] theorem State.raise_qe (pg : PageIx) (k : Nat) (ports : List Port) : (s.raise pg k ports).qe = s.qe := rfl
@[simp] theorem State.raise_ehm (pg : PageIx) (k : Nat) (ports : List Port) : (s.raise pg k ports).ehm = s.ehm := rfl
@[simp] theorem State.raise_adc (pg : PageIx) (k : Nat) (ports : List Port) : (s.raise pg k ports).adc = s.adc := rfl
@[simp] theorem State.raise_med (pg : PageIx) (k : Nat) (ports : List Port) : (s.raise pg k ports).med = s.med := rfl
@[simp] theorem State.raise_cam (pg : PageIx) (k : Nat) (ports : List Port) : (s.raise pg k ports).cam = s.cam := rfl
@[simp] theorem State.raise_flc (pg : PageIx) (k : Nat) (ports : List Port) : (s.raise pg k ports).flc = s.flc := rfl
@[simp] theorem State.raise_csl (pg : PageIx) (k : Nat) (ports : List Port) : (s.raise pg k ports).csl = s.csl := rfl
@[simp] theorem State.raise_sec (pg : PageIx) (k : Nat) (ports : List Port) : (s.raise pg k ports).sec = s.sec := rfl
@[simp] theorem State.raise_uas (pg : PageIx) (k : Nat) (ports : List Port) : (s.raise pg k ports).uas = s.uas := rfl
@[simp] theorem State.raise_spt (pg : PageIx) (k : Nat) (ports : List Port) : (s.raise pg k ports).spt = s.spt := rfl
@[simp] theorem State.raise_fcc (pg : PageIx) (k : Nat) (ports : List Port) : (s.raise pg k ports).fcc = s.fcc := rfl
@[simp] theorem State.raise_chip (pg : PageIx) (k : Nat) (ports : List Port) : (s.raise pg k ports).chip = s.chip := rfl
@[simp] theorem State.raise_freeCtr (pg : PageIx) (k : Nat) (ports : List Port) : (s.raise pg k ports).freeCtr = s.freeCtr := rfl

@[simp] theorem State.modQ_pending (n : QNum) (f : Queue → Queue) : (s.modQ n f).pending = s.pending := rfl
@[simp] theorem State.modQ_time (n : QNum) (f : Queue → Queue) : (s.modQ n f).time = s.time := rfl
@[simp] theorem State.modQ_regs (n : QNum) (f : Queue → Queue) : (s.modQ n f).regs = s.regs := rfl
@[simp] theorem State.modQ_active (n : QNum) (f : Queue → Queue) : (s.modQ n f).active = s.active := rfl
@[simp] theorem State.modQ_pendSet (n : QNum) (f : Queue → Queue) : (s.modQ n f).pendSet = s.pendSet := rfl
@[simp] theorem State.modQ_mem (n : QNum) (f : Queue → Queue) : (s.modQ n f).mem = s.mem := rfl
@[simp] theorem State.modQ_pages (n : QNum) (f : Queue → Queue) : (s.modQ n f).pages = s.pages := rfl
@[simp] theorem State.modQ_bus (n : QNum) (f : Queue → Queue) : (s.modQ n f).bus = s.bus := rfl
@[simp] theorem State.modQ_reports (n : QNum) (f : Queue → Queue) : (s.modQ n f).reports = s.reports := rfl
@[simp] theorem State.modQ_queues (n : QNum) (f : Queue → Queue) : (s.modQ n f).queues = s.queues.set n (f s.queues[n]) := rfl
@[simp] theorem State.modQ_nextUid (n : QNum) (f : Queue → Queue) : (s.modQ n f).nextUid = s.nextUid := rfl
@[simp] theorem State.modQ_seq (n : QNum) (f : Queue → Queue) : (s.modQ n f).seq = s.seq := rfl
@[simp] theorem State.modQ_rnd (n : QNum) (f : Queue → Queue) : (s.modQ n f).rnd = s.rnd := rfl
@[simp] theorem State.modQ_skn (n : QNum) (f : Queue → Queue) : (s.modQ n f).skn = s.skn := rfl
@[simp] theorem State.modQ_hhe (n : QNum) (f : Queue → Queue) : (s.modQ n f).hhe = s.hhe := rfl
@[simp] theorem State.modQ_hp (n : QNum) (f : Queue → Queue) : (s.modQ n f).hp = s.hp := rfl
@[simp] theorem State.modQ_sba (n : QNum) (f : Queue → Queue) : (s.modQ n f).sba = s.sba := rfl
@[simp] theorem State.modQ_hheLog (n : QNum) (f : Queue → Queue) : (s.modQ n f).hheLog = s.hheLog := rfl
@[simp] theorem State.modQ_ax (n : QNum) (f : Queue → Queue) : (s.modQ n f).ax = s.ax := rfl
@[simp] theorem State.modQ_qe (n : QNum) (f : Queue → Queue) : (s.modQ n f).qe = s.qe := rfl
@[simp] theorem State.modQ_ehm (n : QNum) (f : Queue → Queue) : (s.modQ n f).ehm = s.ehm := rfl
@[simp] theorem State.modQ_adc (n : QNum) (f : Queue → Queue) : (s.modQ n f).adc = s.adc := rfl
@[simp] theorem State.modQ_med (n : QNum) (f : Queue → Queue) : (s.modQ n f).med = s.med := rfl
@[simp] theorem State.modQ_cam (n : QNum) (f : Queue → Queue) : (s.modQ n f).cam = s.cam := rfl
@[simp] theorem State.modQ_flc (n : QNum) (f : Queue → Queue) : (s.modQ n f).flc = s.flc := rfl
@[simp] theorem State.modQ_csl (n : QNum) (f : Queue → Queue) : (s.modQ n f).csl = s.csl := rfl
@[simp] theorem State.modQ_sec (n : QNum) (f : Queue → Queue) : (s.modQ n f).sec = s.sec := rfl
@[simp] theorem State.modQ_uas (n : QNum) (f : Queue → Queue) : (s.modQ n f).uas = s.uas := rfl
@[simp] theorem State.modQ_spt (n : QNum) (f : Queue → Queue) : (s.modQ n f).spt = s.spt := rfl
@[simp] theorem State.modQ_fcc (n : QNum) (f : Queue → Queue) : (s.modQ n f).fcc = s.fcc := rfl
@[simp] theorem State.modQ_chip (n : QNum) (f : Queue → Queue) : (s.modQ n f).chip = s.chip := rfl
@[simp] theorem State.modQ_freeCtr (n : QNum) (f : Queue → Queue) : (s.modQ n f).freeCtr = s.freeCtr := rfl

@[simp] theorem State.modThr_pending (n : QNum) (f : Thread → Thread) : (s.modThr n f).pending = s.pending := rfl
@[simp] theorem State.modThr_time (n : QNum) (f : Thread → Thread) : (s.modThr n f).time = s.time := rfl
@[simp] theorem State.modThr_regs (n : QNum) (f : Thread → Thread) : (s.modThr n f).regs = s.regs := rfl
@[simp] theorem State.modThr_active (n : QNum) (f : Thread → Thread) : (s.modThr n f).active = s.active := rfl
@[simp] theorem State.modThr_pendSet (n : QNum) (f : Thread → Thread) : (s.modThr n f).pendSet = s.pendSet := rfl
@[simp] theorem State.modThr_mem (n : QNum) (f : Thread → Thread) : (s.modThr n f).mem = s.mem := rfl
@[simp] theorem State.modThr_pages (n : QNum) (f : Thread → Thread) : (s.modThr n f).pages = s.pages := rfl
@[simp] theorem State.modThr_bus (n : QNum) (f : Thread → Thread) : (s.modThr n f).bus = s.bus := rfl
@[simp] theorem State.modThr_reports (n : QNum) (f : Thread → Thread) : (s.modThr n f).reports = s.reports := rfl
@[simp] theorem State.modThr_queues (n : QNum) (f : Thread → Thread) : (s.modThr n f).queues = s.queues := rfl
@[simp] theorem State.modThr_nextUid (n : QNum) (f : Thread → Thread) : (s.modThr n f).nextUid = s.nextUid := rfl
@[simp] theorem State.modThr_seq (n : QNum) (f : Thread → Thread) : (s.modThr n f).seq = { s.seq with threads := s.seq.threads.set n (f s.seq.threads[n]) } := rfl
@[simp] theorem State.modThr_rnd (n : QNum) (f : Thread → Thread) : (s.modThr n f).rnd = s.rnd := rfl
@[simp] theorem State.modThr_skn (n : QNum) (f : Thread → Thread) : (s.modThr n f).skn = s.skn := rfl
@[simp] theorem State.modThr_hhe (n : QNum) (f : Thread → Thread) : (s.modThr n f).hhe = s.hhe := rfl
@[simp] theorem State.modThr_hp (n : QNum) (f : Thread → Thread) : (s.modThr n f).hp = s.hp := rfl
@[simp] theorem State.modThr_sba (n : QNum) (f : Thread → Thread) : (s.modThr n f).sba = s.sba := rfl
@[simp] theorem State.modThr_hheLog (n : QNum) (f : Thread → Thread) : (s.modThr n f).hheLog = s.hheLog := rfl
@[simp] theorem State.modThr_ax (n : QNum) (f : Thread → Thread) : (s.modThr n f).ax = s.ax := rfl
@[simp] theorem State.modThr_qe (n : QNum) (f : Thread → Thread) : (s.modThr n f).qe = s.qe := rfl
@[simp] theorem State.modThr_ehm (n : QNum) (f : Thread → Thread) : (s.modThr n f).ehm = s.ehm := rfl
@[simp] theorem State.modThr_adc (n : QNum) (f : Thread → Thread) : (s.modThr n f).adc = s.adc := rfl
@[simp] theorem State.modThr_med (n : QNum) (f : Thread → Thread) : (s.modThr n f).med = s.med := rfl
@[simp] theorem State.modThr_cam (n : QNum) (f : Thread → Thread) : (s.modThr n f).cam = s.cam := rfl
@[simp] theorem State.modThr_flc (n : QNum) (f : Thread → Thread) : (s.modThr n f).flc = s.flc := rfl
@[simp] theorem State.modThr_csl (n : QNum) (f : Thread → Thread) : (s.modThr n f).csl = s.csl := rfl
@[simp] theorem State.modThr_sec (n : QNum) (f : Thread → Thread) : (s.modThr n f).sec = s.sec := rfl
@[simp] theorem State.modThr_uas (n : QNum) (f : Thread → Thread) : (s.modThr n f).uas = s.uas := rfl
@[simp] theorem State.modThr_spt (n : QNum) (f : Thread → Thread) : (s.modThr n f).spt = s.spt := rfl
@[simp] theorem State.modThr_fcc (n : QNum) (f : Thread → Thread) : (s.modThr n f).fcc = s.fcc := rfl
@[simp] theorem State.modThr_chip (n : QNum) (f : Thread → Thread) : (s.modThr n f).chip = s.chip := rfl
@[simp] theorem State.modThr_freeCtr (n : QNum) (f : Thread → Thread) : (s.modThr n f).freeCtr = s.freeCtr := rfl

@[simp] theorem State.modBand_pending (b : Fin 128) (f : Band → Band) : (s.modBand b f).pending = s.pending := rfl
@[simp] theorem State.modBand_time (b : Fin 128) (f : Band → Band) : (s.modBand b f).time = s.time := rfl
@[simp] theorem State.modBand_regs (b : Fin 128) (f : Band → Band) : (s.modBand b f).regs = s.regs := rfl
@[simp] theorem State.modBand_active (b : Fin 128) (f : Band → Band) : (s.modBand b f).active = s.active := rfl
@[simp] theorem State.modBand_pendSet (b : Fin 128) (f : Band → Band) : (s.modBand b f).pendSet = s.pendSet := rfl
@[simp] theorem State.modBand_mem (b : Fin 128) (f : Band → Band) : (s.modBand b f).mem = s.mem := rfl
@[simp] theorem State.modBand_pages (b : Fin 128) (f : Band → Band) : (s.modBand b f).pages = s.pages := rfl
@[simp] theorem State.modBand_bus (b : Fin 128) (f : Band → Band) : (s.modBand b f).bus = s.bus := rfl
@[simp] theorem State.modBand_reports (b : Fin 128) (f : Band → Band) : (s.modBand b f).reports = s.reports := rfl
@[simp] theorem State.modBand_queues (b : Fin 128) (f : Band → Band) : (s.modBand b f).queues = s.queues := rfl
@[simp] theorem State.modBand_nextUid (b : Fin 128) (f : Band → Band) : (s.modBand b f).nextUid = s.nextUid := rfl
@[simp] theorem State.modBand_seq (b : Fin 128) (f : Band → Band) : (s.modBand b f).seq = s.seq := rfl
@[simp] theorem State.modBand_rnd (b : Fin 128) (f : Band → Band) : (s.modBand b f).rnd = s.rnd := rfl
@[simp] theorem State.modBand_skn (b : Fin 128) (f : Band → Band) : (s.modBand b f).skn = { s.skn with bands := s.skn.bands.set b (f s.skn.bands[b]) } := rfl
@[simp] theorem State.modBand_hhe (b : Fin 128) (f : Band → Band) : (s.modBand b f).hhe = s.hhe := rfl
@[simp] theorem State.modBand_hp (b : Fin 128) (f : Band → Band) : (s.modBand b f).hp = s.hp := rfl
@[simp] theorem State.modBand_sba (b : Fin 128) (f : Band → Band) : (s.modBand b f).sba = s.sba := rfl
@[simp] theorem State.modBand_hheLog (b : Fin 128) (f : Band → Band) : (s.modBand b f).hheLog = s.hheLog := rfl
@[simp] theorem State.modBand_ax (b : Fin 128) (f : Band → Band) : (s.modBand b f).ax = s.ax := rfl
@[simp] theorem State.modBand_qe (b : Fin 128) (f : Band → Band) : (s.modBand b f).qe = s.qe := rfl
@[simp] theorem State.modBand_ehm (b : Fin 128) (f : Band → Band) : (s.modBand b f).ehm = s.ehm := rfl
@[simp] theorem State.modBand_adc (b : Fin 128) (f : Band → Band) : (s.modBand b f).adc = s.adc := rfl
@[simp] theorem State.modBand_med (b : Fin 128) (f : Band → Band) : (s.modBand b f).med = s.med := rfl
@[simp] theorem State.modBand_cam (b : Fin 128) (f : Band → Band) : (s.modBand b f).cam = s.cam := rfl
@[simp] theorem State.modBand_flc (b : Fin 128) (f : Band → Band) : (s.modBand b f).flc = s.flc := rfl
@[simp] theorem State.modBand_csl (b : Fin 128) (f : Band → Band) : (s.modBand b f).csl = s.csl := rfl
@[simp] theorem State.modBand_sec (b : Fin 128) (f : Band → Band) : (s.modBand b f).sec = s.sec := rfl
@[simp] theorem State.modBand_uas (b : Fin 128) (f : Band → Band) : (s.modBand b f).uas = s.uas := rfl
@[simp] theorem State.modBand_spt (b : Fin 128) (f : Band → Band) : (s.modBand b f).spt = s.spt := rfl
@[simp] theorem State.modBand_fcc (b : Fin 128) (f : Band → Band) : (s.modBand b f).fcc = s.fcc := rfl
@[simp] theorem State.modBand_chip (b : Fin 128) (f : Band → Band) : (s.modBand b f).chip = s.chip := rfl
@[simp] theorem State.modBand_freeCtr (b : Fin 128) (f : Band → Band) : (s.modBand b f).freeCtr = s.freeCtr := rfl

@[simp] theorem State.setLines_pending (p : Port) (l : List Line) : (s.setLines p l).pending = s.pending := rfl
@[simp] theorem State.setLines_time (p : Port) (l : List Line) : (s.setLines p l).time = s.time := rfl
@[simp] theorem State.setLines_regs (p : Port) (l : List Line) : (s.setLines p l).regs = s.regs := rfl
@[simp] theorem State.setLines_active (p : Port) (l : List Line) : (s.setLines p l).active = s.active := rfl
@[simp] theorem State.setLines_pendSet (p : Port) (l : List Line) : (s.setLines p l).pendSet = s.pendSet := rfl
@[simp] theorem State.setLines_mem (p : Port) (l : List Line) : (s.setLines p l).mem = s.mem := rfl
@[simp] theorem State.setLines_pages (p : Port) (l : List Line) : (s.setLines p l).pages = s.pages := rfl
@[simp] theorem State.setLines_bus (p : Port) (l : List Line) : (s.setLines p l).bus = s.bus := rfl
@[simp] theorem State.setLines_reports (p : Port) (l : List Line) : (s.setLines p l).reports = s.reports := rfl
@[simp] theorem State.setLines_queues (p : Port) (l : List Line) : (s.setLines p l).queues = s.queues := rfl
@[simp] theorem State.setLines_nextUid (p : Port) (l : List Line) : (s.setLines p l).nextUid = s.nextUid := rfl
@[simp] theorem State.setLines_seq (p : Port) (l : List Line) : (s.setLines p l).seq = s.seq := rfl
@[simp] theorem State.setLines_rnd (p : Port) (l : List Line) : (s.setLines p l).rnd = s.rnd := rfl
@[simp] theorem State.setLines_skn (p : Port) (l : List Line) : (s.setLines p l).skn = { s.skn with lines := s.skn.lines.set p l } := rfl
@[simp] theorem State.setLines_hhe (p : Port) (l : List Line) : (s.setLines p l).hhe = s.hhe := rfl
@[simp] theorem State.setLines_hp (p : Port) (l : List Line) : (s.setLines p l).hp = s.hp := rfl
@[simp] theorem State.setLines_sba (p : Port) (l : List Line) : (s.setLines p l).sba = s.sba := rfl
@[simp] theorem State.setLines_hheLog (p : Port) (l : List Line) : (s.setLines p l).hheLog = s.hheLog := rfl
@[simp] theorem State.setLines_ax (p : Port) (l : List Line) : (s.setLines p l).ax = s.ax := rfl
@[simp] theorem State.setLines_qe (p : Port) (l : List Line) : (s.setLines p l).qe = s.qe := rfl
@[simp] theorem State.setLines_ehm (p : Port) (l : List Line) : (s.setLines p l).ehm = s.ehm := rfl
@[simp] theorem State.setLines_adc (p : Port) (l : List Line) : (s.setLines p l).adc = s.adc := rfl
@[simp] theorem State.setLines_med (p : Port) (l : List Line) : (s.setLines p l).med = s.med := rfl
@[simp] theorem State.setLines_cam (p : Port) (l : List Line) : (s.setLines p l).cam = s.cam := rfl
@[simp] theorem State.setLines_flc (p : Port) (l : List Line) : (s.setLines p l).flc = s.flc := rfl
@[simp] theorem State.setLines_csl (p : Port) (l : List Line) : (s.setLines p l).csl = s.csl := rfl
@[simp] theorem State.setLines_sec (p : Port) (l : List Line) : (s.setLines p l).sec = s.sec := rfl
@[simp] theorem State.setLines_uas (p : Port) (l : List Line) : (s.setLines p l).uas = s.uas := rfl
@[simp] theorem State.setLines_spt (p : Port) (l : List Line) : (s.setLines p l).spt = s.spt := rfl
@[simp] theorem State.setLines_fcc (p : Port) (l : List Line) : (s.setLines p l).fcc = s.fcc := rfl
@[simp] theorem State.setLines_chip (p : Port) (l : List Line) : (s.setLines p l).chip = s.chip := rfl
@[simp] theorem State.setLines_freeCtr (p : Port) (l : List Line) : (s.setLines p l).freeCtr = s.freeCtr := rfl

@[simp] theorem State.setSteps_pending (p : Port) (l : List Step) : (s.setSteps p l).pending = s.pending := rfl
@[simp] theorem State.setSteps_time (p : Port) (l : List Step) : (s.setSteps p l).time = s.time := rfl
@[simp] theorem State.setSteps_regs (p : Port) (l : List Step) : (s.setSteps p l).regs = s.regs := rfl
@[simp] theorem State.setSteps_active (p : Port) (l : List Step) : (s.setSteps p l).active = s.active := rfl
@[simp] theorem State.setSteps_pendSet (p : Port) (l : List Step) : (s.setSteps p l).pendSet = s.pendSet := rfl
@[simp] theorem State.setSteps_mem (p : Port) (l : List Step) : (s.setSteps p l).mem = s.mem := rfl
@[simp] theorem State.setSteps_pages (p : Port) (l : List Step) : (s.setSteps p l).pages = s.pages := rfl
@[simp] theorem State.setSteps_bus (p : Port) (l : List Step) : (s.setSteps p l).bus = s.bus := rfl
@[simp] theorem State.setSteps_reports (p : Port) (l : List Step) : (s.setSteps p l).reports = s.reports := rfl
@[simp] theorem State.setSteps_queues (p : Port) (l : List Step) : (s.setSteps p l).queues = s.queues := rfl
@[simp] theorem State.setSteps_nextUid (p : Port) (l : List Step) : (s.setSteps p l).nextUid = s.nextUid := rfl
@[simp] theorem State.setSteps_seq (p : Port) (l : List Step) : (s.setSteps p l).seq = s.seq := rfl
@[simp] theorem State.setSteps_rnd (p : Port) (l : List Step) : (s.setSteps p l).rnd = { s.rnd with steps := s.rnd.steps.set p l } := rfl
@[simp] theorem State.setSteps_skn (p : Port) (l : List Step) : (s.setSteps p l).skn = s.skn := rfl
@[simp] theorem State.setSteps_hhe (p : Port) (l : List Step) : (s.setSteps p l).hhe = s.hhe := rfl
@[simp] theorem State.setSteps_hp (p : Port) (l : List Step) : (s.setSteps p l).hp = s.hp := rfl
@[simp] theorem State.setSteps_sba (p : Port) (l : List Step) : (s.setSteps p l).sba = s.sba := rfl
@[simp] theorem State.setSteps_hheLog (p : Port) (l : List Step) : (s.setSteps p l).hheLog = s.hheLog := rfl
@[simp] theorem State.setSteps_ax (p : Port) (l : List Step) : (s.setSteps p l).ax = s.ax := rfl
@[simp] theorem State.setSteps_qe (p : Port) (l : List Step) : (s.setSteps p l).qe = s.qe := rfl
@[simp] theorem State.setSteps_ehm (p : Port) (l : List Step) : (s.setSteps p l).ehm = s.ehm := rfl
@[simp] theorem State.setSteps_adc (p : Port) (l : List Step) : (s.setSteps p l).adc = s.adc := rfl
@[simp] theorem State.setSteps_med (p : Port) (l : List Step) : (s.setSteps p l).med = s.med := rfl
@[simp] theorem State.setSteps_cam (p : Port) (l : List Step) : (s.setSteps p l).cam = s.cam := rfl
@[simp] theorem State.setSteps_flc (p : Port) (l : List Step) : (s.setSteps p l).flc = s.flc := rfl
@[simp] theorem State.setSteps_csl (p : Port) (l : List Step) : (s.setSteps p l).csl = s.csl := rfl
@[simp] theorem State.setSteps_sec (p : Port) (l : List Step) : (s.setSteps p l).sec = s.sec := rfl
@[simp] theorem State.setSteps_uas (p : Port) (l : List Step) : (s.setSteps p l).uas = s.uas := rfl
@[simp] theorem State.setSteps_spt (p : Port) (l : List Step) : (s.setSteps p l).spt = s.spt := rfl
@[simp] theorem State.setSteps_fcc (p : Port) (l : List Step) : (s.setSteps p l).fcc = s.fcc := rfl
@[simp] theorem State.setSteps_chip (p : Port) (l : List Step) : (s.setSteps p l).chip = s.chip := rfl
@[simp] theorem State.setSteps_freeCtr (p : Port) (l : List Step) : (s.setSteps p l).freeCtr = s.freeCtr := rfl

@[simp] theorem State.modHp_pending (p : Port) (f : HpSt → HpSt) : (s.modHp p f).pending = s.pending := rfl
@[simp] theorem State.modHp_time (p : Port) (f : HpSt → HpSt) : (s.modHp p f).time = s.time := rfl
@[simp] theorem State.modHp_regs (p : Port) (f : HpSt → HpSt) : (s.modHp p f).regs = s.regs := rfl
@[simp] theorem State.modHp_active (p : Port) (f : HpSt → HpSt) : (s.modHp p f).active = s.active := rfl
@[simp] theorem State.modHp_pendSet (p : Port) (f : HpSt → HpSt) : (s.modHp p f).pendSet = s.pendSet := rfl
@[simp] theorem State.modHp_mem (p : Port) (f : HpSt → HpSt) : (s.modHp p f).mem = s.mem := rfl
@[simp] theorem State.modHp_pages (p : Port) (f : HpSt → HpSt) : (s.modHp p f).pages = s.pages := rfl
@[simp] theorem State.modHp_bus (p : Port) (f : HpSt → HpSt) : (s.modHp p f).bus = s.bus := rfl
@[simp] theorem State.modHp_reports (p : Port) (f : HpSt → HpSt) : (s.modHp p f).reports = s.reports := rfl
@[simp] theorem State.modHp_queues (p : Port) (f : HpSt → HpSt) : (s.modHp p f).queues = s.queues := rfl
@[simp] theorem State.modHp_nextUid (p : Port) (f : HpSt → HpSt) : (s.modHp p f).nextUid = s.nextUid := rfl
@[simp] theorem State.modHp_seq (p : Port) (f : HpSt → HpSt) : (s.modHp p f).seq = s.seq := rfl
@[simp] theorem State.modHp_rnd (p : Port) (f : HpSt → HpSt) : (s.modHp p f).rnd = s.rnd := rfl
@[simp] theorem State.modHp_skn (p : Port) (f : HpSt → HpSt) : (s.modHp p f).skn = s.skn := rfl
@[simp] theorem State.modHp_hhe (p : Port) (f : HpSt → HpSt) : (s.modHp p f).hhe = s.hhe := rfl
@[simp] theorem State.modHp_hp (p : Port) (f : HpSt → HpSt) : (s.modHp p f).hp = s.hp.set p (f s.hp[p]) := rfl
@[simp] theorem State.modHp_sba (p : Port) (f : HpSt → HpSt) : (s.modHp p f).sba = s.sba := rfl
@[simp] theorem State.modHp_hheLog (p : Port) (f : HpSt → HpSt) : (s.modHp p f).hheLog = s.hheLog := rfl
@[simp] theorem State.modHp_ax (p : Port) (f : HpSt → HpSt) : (s.modHp p f).ax = s.ax := rfl
@[simp] theorem State.modHp_qe (p : Port) (f : HpSt → HpSt) : (s.modHp p f).qe = s.qe := rfl
@[simp] theorem State.modHp_ehm (p : Port) (f : HpSt → HpSt) : (s.modHp p f).ehm = s.ehm := rfl
@[simp] theorem State.modHp_adc (p : Port) (f : HpSt → HpSt) : (s.modHp p f).adc = s.adc := rfl
@[simp] theorem State.modHp_med (p : Port) (f : HpSt → HpSt) : (s.modHp p f).med = s.med := rfl
@[simp] theorem State.modHp_cam (p : Port) (f : HpSt → HpSt) : (s.modHp p f).cam = s.cam := rfl
@[simp] theorem State.modHp_flc (p : Port) (f : HpSt → HpSt) : (s.modHp p f).flc = s.flc := rfl
@[simp] theorem State.modHp_csl (p : Port) (f : HpSt → HpSt) : (s.modHp p f).csl = s.csl := rfl
@[simp] theorem State.modHp_sec (p : Port) (f : HpSt → HpSt) : (s.modHp p f).sec = s.sec := rfl
@[simp] theorem State.modHp_uas (p : Port) (f : HpSt → HpSt) : (s.modHp p f).uas = s.uas := rfl
@[simp] theorem State.modHp_spt (p : Port) (f : HpSt → HpSt) : (s.modHp p f).spt = s.spt := rfl
@[simp] theorem State.modHp_fcc (p : Port) (f : HpSt → HpSt) : (s.modHp p f).fcc = s.fcc := rfl
@[simp] theorem State.modHp_chip (p : Port) (f : HpSt → HpSt) : (s.modHp p f).chip = s.chip := rfl
@[simp] theorem State.modHp_freeCtr (p : Port) (f : HpSt → HpSt) : (s.modHp p f).freeCtr = s.freeCtr := rfl

@[simp] theorem State.modHhe_pending (p : Port) (f : HhePort → HhePort) : (s.modHhe p f).pending = s.pending := rfl
@[simp] theorem State.modHhe_time (p : Port) (f : HhePort → HhePort) : (s.modHhe p f).time = s.time := rfl
@[simp] theorem State.modHhe_regs (p : Port) (f : HhePort → HhePort) : (s.modHhe p f).regs = s.regs := rfl
@[simp] theorem State.modHhe_active (p : Port) (f : HhePort → HhePort) : (s.modHhe p f).active = s.active := rfl
@[simp] theorem State.modHhe_pendSet (p : Port) (f : HhePort → HhePort) : (s.modHhe p f).pendSet = s.pendSet := rfl
@[simp] theorem State.modHhe_mem (p : Port) (f : HhePort → HhePort) : (s.modHhe p f).mem = s.mem := rfl
@[simp] theorem State.modHhe_pages (p : Port) (f : HhePort → HhePort) : (s.modHhe p f).pages = s.pages := rfl
@[simp] theorem State.modHhe_bus (p : Port) (f : HhePort → HhePort) : (s.modHhe p f).bus = s.bus := rfl
@[simp] theorem State.modHhe_reports (p : Port) (f : HhePort → HhePort) : (s.modHhe p f).reports = s.reports := rfl
@[simp] theorem State.modHhe_queues (p : Port) (f : HhePort → HhePort) : (s.modHhe p f).queues = s.queues := rfl
@[simp] theorem State.modHhe_nextUid (p : Port) (f : HhePort → HhePort) : (s.modHhe p f).nextUid = s.nextUid := rfl
@[simp] theorem State.modHhe_seq (p : Port) (f : HhePort → HhePort) : (s.modHhe p f).seq = s.seq := rfl
@[simp] theorem State.modHhe_rnd (p : Port) (f : HhePort → HhePort) : (s.modHhe p f).rnd = s.rnd := rfl
@[simp] theorem State.modHhe_skn (p : Port) (f : HhePort → HhePort) : (s.modHhe p f).skn = s.skn := rfl
@[simp] theorem State.modHhe_hhe (p : Port) (f : HhePort → HhePort) : (s.modHhe p f).hhe = s.hhe.set p (f s.hhe[p]) := rfl
@[simp] theorem State.modHhe_hp (p : Port) (f : HhePort → HhePort) : (s.modHhe p f).hp = s.hp := rfl
@[simp] theorem State.modHhe_sba (p : Port) (f : HhePort → HhePort) : (s.modHhe p f).sba = s.sba := rfl
@[simp] theorem State.modHhe_hheLog (p : Port) (f : HhePort → HhePort) : (s.modHhe p f).hheLog = s.hheLog := rfl
@[simp] theorem State.modHhe_ax (p : Port) (f : HhePort → HhePort) : (s.modHhe p f).ax = s.ax := rfl
@[simp] theorem State.modHhe_qe (p : Port) (f : HhePort → HhePort) : (s.modHhe p f).qe = s.qe := rfl
@[simp] theorem State.modHhe_ehm (p : Port) (f : HhePort → HhePort) : (s.modHhe p f).ehm = s.ehm := rfl
@[simp] theorem State.modHhe_adc (p : Port) (f : HhePort → HhePort) : (s.modHhe p f).adc = s.adc := rfl
@[simp] theorem State.modHhe_med (p : Port) (f : HhePort → HhePort) : (s.modHhe p f).med = s.med := rfl
@[simp] theorem State.modHhe_cam (p : Port) (f : HhePort → HhePort) : (s.modHhe p f).cam = s.cam := rfl
@[simp] theorem State.modHhe_flc (p : Port) (f : HhePort → HhePort) : (s.modHhe p f).flc = s.flc := rfl
@[simp] theorem State.modHhe_csl (p : Port) (f : HhePort → HhePort) : (s.modHhe p f).csl = s.csl := rfl
@[simp] theorem State.modHhe_sec (p : Port) (f : HhePort → HhePort) : (s.modHhe p f).sec = s.sec := rfl
@[simp] theorem State.modHhe_uas (p : Port) (f : HhePort → HhePort) : (s.modHhe p f).uas = s.uas := rfl
@[simp] theorem State.modHhe_spt (p : Port) (f : HhePort → HhePort) : (s.modHhe p f).spt = s.spt := rfl
@[simp] theorem State.modHhe_fcc (p : Port) (f : HhePort → HhePort) : (s.modHhe p f).fcc = s.fcc := rfl
@[simp] theorem State.modHhe_chip (p : Port) (f : HhePort → HhePort) : (s.modHhe p f).chip = s.chip := rfl
@[simp] theorem State.modHhe_freeCtr (p : Port) (f : HhePort → HhePort) : (s.modHhe p f).freeCtr = s.freeCtr := rfl

@[simp] theorem State.modSba_pending (p : Port) (f : SbaPort → SbaPort) : (s.modSba p f).pending = s.pending := rfl
@[simp] theorem State.modSba_time (p : Port) (f : SbaPort → SbaPort) : (s.modSba p f).time = s.time := rfl
@[simp] theorem State.modSba_regs (p : Port) (f : SbaPort → SbaPort) : (s.modSba p f).regs = s.regs := rfl
@[simp] theorem State.modSba_active (p : Port) (f : SbaPort → SbaPort) : (s.modSba p f).active = s.active := rfl
@[simp] theorem State.modSba_pendSet (p : Port) (f : SbaPort → SbaPort) : (s.modSba p f).pendSet = s.pendSet := rfl
@[simp] theorem State.modSba_mem (p : Port) (f : SbaPort → SbaPort) : (s.modSba p f).mem = s.mem := rfl
@[simp] theorem State.modSba_pages (p : Port) (f : SbaPort → SbaPort) : (s.modSba p f).pages = s.pages := rfl
@[simp] theorem State.modSba_bus (p : Port) (f : SbaPort → SbaPort) : (s.modSba p f).bus = s.bus := rfl
@[simp] theorem State.modSba_reports (p : Port) (f : SbaPort → SbaPort) : (s.modSba p f).reports = s.reports := rfl
@[simp] theorem State.modSba_queues (p : Port) (f : SbaPort → SbaPort) : (s.modSba p f).queues = s.queues := rfl
@[simp] theorem State.modSba_nextUid (p : Port) (f : SbaPort → SbaPort) : (s.modSba p f).nextUid = s.nextUid := rfl
@[simp] theorem State.modSba_seq (p : Port) (f : SbaPort → SbaPort) : (s.modSba p f).seq = s.seq := rfl
@[simp] theorem State.modSba_rnd (p : Port) (f : SbaPort → SbaPort) : (s.modSba p f).rnd = s.rnd := rfl
@[simp] theorem State.modSba_skn (p : Port) (f : SbaPort → SbaPort) : (s.modSba p f).skn = s.skn := rfl
@[simp] theorem State.modSba_hhe (p : Port) (f : SbaPort → SbaPort) : (s.modSba p f).hhe = s.hhe := rfl
@[simp] theorem State.modSba_hp (p : Port) (f : SbaPort → SbaPort) : (s.modSba p f).hp = s.hp := rfl
@[simp] theorem State.modSba_sba (p : Port) (f : SbaPort → SbaPort) : (s.modSba p f).sba = { s.sba with ports := s.sba.ports.set p (f s.sba.ports[p]) } := rfl
@[simp] theorem State.modSba_hheLog (p : Port) (f : SbaPort → SbaPort) : (s.modSba p f).hheLog = s.hheLog := rfl
@[simp] theorem State.modSba_ax (p : Port) (f : SbaPort → SbaPort) : (s.modSba p f).ax = s.ax := rfl
@[simp] theorem State.modSba_qe (p : Port) (f : SbaPort → SbaPort) : (s.modSba p f).qe = s.qe := rfl
@[simp] theorem State.modSba_ehm (p : Port) (f : SbaPort → SbaPort) : (s.modSba p f).ehm = s.ehm := rfl
@[simp] theorem State.modSba_adc (p : Port) (f : SbaPort → SbaPort) : (s.modSba p f).adc = s.adc := rfl
@[simp] theorem State.modSba_med (p : Port) (f : SbaPort → SbaPort) : (s.modSba p f).med = s.med := rfl
@[simp] theorem State.modSba_cam (p : Port) (f : SbaPort → SbaPort) : (s.modSba p f).cam = s.cam := rfl
@[simp] theorem State.modSba_flc (p : Port) (f : SbaPort → SbaPort) : (s.modSba p f).flc = s.flc := rfl
@[simp] theorem State.modSba_csl (p : Port) (f : SbaPort → SbaPort) : (s.modSba p f).csl = s.csl := rfl
@[simp] theorem State.modSba_sec (p : Port) (f : SbaPort → SbaPort) : (s.modSba p f).sec = s.sec := rfl
@[simp] theorem State.modSba_uas (p : Port) (f : SbaPort → SbaPort) : (s.modSba p f).uas = s.uas := rfl
@[simp] theorem State.modSba_spt (p : Port) (f : SbaPort → SbaPort) : (s.modSba p f).spt = s.spt := rfl
@[simp] theorem State.modSba_fcc (p : Port) (f : SbaPort → SbaPort) : (s.modSba p f).fcc = s.fcc := rfl
@[simp] theorem State.modSba_chip (p : Port) (f : SbaPort → SbaPort) : (s.modSba p f).chip = s.chip := rfl
@[simp] theorem State.modSba_freeCtr (p : Port) (f : SbaPort → SbaPort) : (s.modSba p f).freeCtr = s.freeCtr := rfl

@[simp] theorem State.modAx_pending (a : AxNum) (f : AxSt → AxSt) : (s.modAx a f).pending = s.pending := rfl
@[simp] theorem State.modAx_time (a : AxNum) (f : AxSt → AxSt) : (s.modAx a f).time = s.time := rfl
@[simp] theorem State.modAx_regs (a : AxNum) (f : AxSt → AxSt) : (s.modAx a f).regs = s.regs := rfl
@[simp] theorem State.modAx_active (a : AxNum) (f : AxSt → AxSt) : (s.modAx a f).active = s.active := rfl
@[simp] theorem State.modAx_pendSet (a : AxNum) (f : AxSt → AxSt) : (s.modAx a f).pendSet = s.pendSet := rfl
@[simp] theorem State.modAx_mem (a : AxNum) (f : AxSt → AxSt) : (s.modAx a f).mem = s.mem := rfl
@[simp] theorem State.modAx_pages (a : AxNum) (f : AxSt → AxSt) : (s.modAx a f).pages = s.pages := rfl
@[simp] theorem State.modAx_bus (a : AxNum) (f : AxSt → AxSt) : (s.modAx a f).bus = s.bus := rfl
@[simp] theorem State.modAx_reports (a : AxNum) (f : AxSt → AxSt) : (s.modAx a f).reports = s.reports := rfl
@[simp] theorem State.modAx_queues (a : AxNum) (f : AxSt → AxSt) : (s.modAx a f).queues = s.queues := rfl
@[simp] theorem State.modAx_nextUid (a : AxNum) (f : AxSt → AxSt) : (s.modAx a f).nextUid = s.nextUid := rfl
@[simp] theorem State.modAx_seq (a : AxNum) (f : AxSt → AxSt) : (s.modAx a f).seq = s.seq := rfl
@[simp] theorem State.modAx_rnd (a : AxNum) (f : AxSt → AxSt) : (s.modAx a f).rnd = s.rnd := rfl
@[simp] theorem State.modAx_skn (a : AxNum) (f : AxSt → AxSt) : (s.modAx a f).skn = s.skn := rfl
@[simp] theorem State.modAx_hhe (a : AxNum) (f : AxSt → AxSt) : (s.modAx a f).hhe = s.hhe := rfl
@[simp] theorem State.modAx_hp (a : AxNum) (f : AxSt → AxSt) : (s.modAx a f).hp = s.hp := rfl
@[simp] theorem State.modAx_sba (a : AxNum) (f : AxSt → AxSt) : (s.modAx a f).sba = s.sba := rfl
@[simp] theorem State.modAx_hheLog (a : AxNum) (f : AxSt → AxSt) : (s.modAx a f).hheLog = s.hheLog := rfl
@[simp] theorem State.modAx_ax (a : AxNum) (f : AxSt → AxSt) : (s.modAx a f).ax = s.ax.set a (f s.ax[a]) := rfl
@[simp] theorem State.modAx_qe (a : AxNum) (f : AxSt → AxSt) : (s.modAx a f).qe = s.qe := rfl
@[simp] theorem State.modAx_ehm (a : AxNum) (f : AxSt → AxSt) : (s.modAx a f).ehm = s.ehm := rfl
@[simp] theorem State.modAx_adc (a : AxNum) (f : AxSt → AxSt) : (s.modAx a f).adc = s.adc := rfl
@[simp] theorem State.modAx_med (a : AxNum) (f : AxSt → AxSt) : (s.modAx a f).med = s.med := rfl
@[simp] theorem State.modAx_cam (a : AxNum) (f : AxSt → AxSt) : (s.modAx a f).cam = s.cam := rfl
@[simp] theorem State.modAx_flc (a : AxNum) (f : AxSt → AxSt) : (s.modAx a f).flc = s.flc := rfl
@[simp] theorem State.modAx_csl (a : AxNum) (f : AxSt → AxSt) : (s.modAx a f).csl = s.csl := rfl
@[simp] theorem State.modAx_sec (a : AxNum) (f : AxSt → AxSt) : (s.modAx a f).sec = s.sec := rfl
@[simp] theorem State.modAx_uas (a : AxNum) (f : AxSt → AxSt) : (s.modAx a f).uas = s.uas := rfl
@[simp] theorem State.modAx_spt (a : AxNum) (f : AxSt → AxSt) : (s.modAx a f).spt = s.spt := rfl
@[simp] theorem State.modAx_fcc (a : AxNum) (f : AxSt → AxSt) : (s.modAx a f).fcc = s.fcc := rfl
@[simp] theorem State.modAx_chip (a : AxNum) (f : AxSt → AxSt) : (s.modAx a f).chip = s.chip := rfl
@[simp] theorem State.modAx_freeCtr (a : AxNum) (f : AxSt → AxSt) : (s.modAx a f).freeCtr = s.freeCtr := rfl

@[simp] theorem State.modQe_pending (e : QeNum) (f : QeSt → QeSt) : (s.modQe e f).pending = s.pending := rfl
@[simp] theorem State.modQe_time (e : QeNum) (f : QeSt → QeSt) : (s.modQe e f).time = s.time := rfl
@[simp] theorem State.modQe_regs (e : QeNum) (f : QeSt → QeSt) : (s.modQe e f).regs = s.regs := rfl
@[simp] theorem State.modQe_active (e : QeNum) (f : QeSt → QeSt) : (s.modQe e f).active = s.active := rfl
@[simp] theorem State.modQe_pendSet (e : QeNum) (f : QeSt → QeSt) : (s.modQe e f).pendSet = s.pendSet := rfl
@[simp] theorem State.modQe_mem (e : QeNum) (f : QeSt → QeSt) : (s.modQe e f).mem = s.mem := rfl
@[simp] theorem State.modQe_pages (e : QeNum) (f : QeSt → QeSt) : (s.modQe e f).pages = s.pages := rfl
@[simp] theorem State.modQe_bus (e : QeNum) (f : QeSt → QeSt) : (s.modQe e f).bus = s.bus := rfl
@[simp] theorem State.modQe_reports (e : QeNum) (f : QeSt → QeSt) : (s.modQe e f).reports = s.reports := rfl
@[simp] theorem State.modQe_queues (e : QeNum) (f : QeSt → QeSt) : (s.modQe e f).queues = s.queues := rfl
@[simp] theorem State.modQe_nextUid (e : QeNum) (f : QeSt → QeSt) : (s.modQe e f).nextUid = s.nextUid := rfl
@[simp] theorem State.modQe_seq (e : QeNum) (f : QeSt → QeSt) : (s.modQe e f).seq = s.seq := rfl
@[simp] theorem State.modQe_rnd (e : QeNum) (f : QeSt → QeSt) : (s.modQe e f).rnd = s.rnd := rfl
@[simp] theorem State.modQe_skn (e : QeNum) (f : QeSt → QeSt) : (s.modQe e f).skn = s.skn := rfl
@[simp] theorem State.modQe_hhe (e : QeNum) (f : QeSt → QeSt) : (s.modQe e f).hhe = s.hhe := rfl
@[simp] theorem State.modQe_hp (e : QeNum) (f : QeSt → QeSt) : (s.modQe e f).hp = s.hp := rfl
@[simp] theorem State.modQe_sba (e : QeNum) (f : QeSt → QeSt) : (s.modQe e f).sba = s.sba := rfl
@[simp] theorem State.modQe_hheLog (e : QeNum) (f : QeSt → QeSt) : (s.modQe e f).hheLog = s.hheLog := rfl
@[simp] theorem State.modQe_ax (e : QeNum) (f : QeSt → QeSt) : (s.modQe e f).ax = s.ax := rfl
@[simp] theorem State.modQe_qe (e : QeNum) (f : QeSt → QeSt) : (s.modQe e f).qe = s.qe.set e (f s.qe[e]) := rfl
@[simp] theorem State.modQe_ehm (e : QeNum) (f : QeSt → QeSt) : (s.modQe e f).ehm = s.ehm := rfl
@[simp] theorem State.modQe_adc (e : QeNum) (f : QeSt → QeSt) : (s.modQe e f).adc = s.adc := rfl
@[simp] theorem State.modQe_med (e : QeNum) (f : QeSt → QeSt) : (s.modQe e f).med = s.med := rfl
@[simp] theorem State.modQe_cam (e : QeNum) (f : QeSt → QeSt) : (s.modQe e f).cam = s.cam := rfl
@[simp] theorem State.modQe_flc (e : QeNum) (f : QeSt → QeSt) : (s.modQe e f).flc = s.flc := rfl
@[simp] theorem State.modQe_csl (e : QeNum) (f : QeSt → QeSt) : (s.modQe e f).csl = s.csl := rfl
@[simp] theorem State.modQe_sec (e : QeNum) (f : QeSt → QeSt) : (s.modQe e f).sec = s.sec := rfl
@[simp] theorem State.modQe_uas (e : QeNum) (f : QeSt → QeSt) : (s.modQe e f).uas = s.uas := rfl
@[simp] theorem State.modQe_spt (e : QeNum) (f : QeSt → QeSt) : (s.modQe e f).spt = s.spt := rfl
@[simp] theorem State.modQe_fcc (e : QeNum) (f : QeSt → QeSt) : (s.modQe e f).fcc = s.fcc := rfl
@[simp] theorem State.modQe_chip (e : QeNum) (f : QeSt → QeSt) : (s.modQe e f).chip = s.chip := rfl
@[simp] theorem State.modQe_freeCtr (e : QeNum) (f : QeSt → QeSt) : (s.modQe e f).freeCtr = s.freeCtr := rfl

@[simp] theorem State.modEhm_pending (p : Port) (f : EhmPort → EhmPort) : (s.modEhm p f).pending = s.pending := rfl
@[simp] theorem State.modEhm_time (p : Port) (f : EhmPort → EhmPort) : (s.modEhm p f).time = s.time := rfl
@[simp] theorem State.modEhm_regs (p : Port) (f : EhmPort → EhmPort) : (s.modEhm p f).regs = s.regs := rfl
@[simp] theorem State.modEhm_active (p : Port) (f : EhmPort → EhmPort) : (s.modEhm p f).active = s.active := rfl
@[simp] theorem State.modEhm_pendSet (p : Port) (f : EhmPort → EhmPort) : (s.modEhm p f).pendSet = s.pendSet := rfl
@[simp] theorem State.modEhm_mem (p : Port) (f : EhmPort → EhmPort) : (s.modEhm p f).mem = s.mem := rfl
@[simp] theorem State.modEhm_pages (p : Port) (f : EhmPort → EhmPort) : (s.modEhm p f).pages = s.pages := rfl
@[simp] theorem State.modEhm_bus (p : Port) (f : EhmPort → EhmPort) : (s.modEhm p f).bus = s.bus := rfl
@[simp] theorem State.modEhm_reports (p : Port) (f : EhmPort → EhmPort) : (s.modEhm p f).reports = s.reports := rfl
@[simp] theorem State.modEhm_queues (p : Port) (f : EhmPort → EhmPort) : (s.modEhm p f).queues = s.queues := rfl
@[simp] theorem State.modEhm_nextUid (p : Port) (f : EhmPort → EhmPort) : (s.modEhm p f).nextUid = s.nextUid := rfl
@[simp] theorem State.modEhm_seq (p : Port) (f : EhmPort → EhmPort) : (s.modEhm p f).seq = s.seq := rfl
@[simp] theorem State.modEhm_rnd (p : Port) (f : EhmPort → EhmPort) : (s.modEhm p f).rnd = s.rnd := rfl
@[simp] theorem State.modEhm_skn (p : Port) (f : EhmPort → EhmPort) : (s.modEhm p f).skn = s.skn := rfl
@[simp] theorem State.modEhm_hhe (p : Port) (f : EhmPort → EhmPort) : (s.modEhm p f).hhe = s.hhe := rfl
@[simp] theorem State.modEhm_hp (p : Port) (f : EhmPort → EhmPort) : (s.modEhm p f).hp = s.hp := rfl
@[simp] theorem State.modEhm_sba (p : Port) (f : EhmPort → EhmPort) : (s.modEhm p f).sba = s.sba := rfl
@[simp] theorem State.modEhm_hheLog (p : Port) (f : EhmPort → EhmPort) : (s.modEhm p f).hheLog = s.hheLog := rfl
@[simp] theorem State.modEhm_ax (p : Port) (f : EhmPort → EhmPort) : (s.modEhm p f).ax = s.ax := rfl
@[simp] theorem State.modEhm_qe (p : Port) (f : EhmPort → EhmPort) : (s.modEhm p f).qe = s.qe := rfl
@[simp] theorem State.modEhm_ehm (p : Port) (f : EhmPort → EhmPort) : (s.modEhm p f).ehm = { s.ehm with ports := s.ehm.ports.set p (f s.ehm.ports[p]) } := rfl
@[simp] theorem State.modEhm_adc (p : Port) (f : EhmPort → EhmPort) : (s.modEhm p f).adc = s.adc := rfl
@[simp] theorem State.modEhm_med (p : Port) (f : EhmPort → EhmPort) : (s.modEhm p f).med = s.med := rfl
@[simp] theorem State.modEhm_cam (p : Port) (f : EhmPort → EhmPort) : (s.modEhm p f).cam = s.cam := rfl
@[simp] theorem State.modEhm_flc (p : Port) (f : EhmPort → EhmPort) : (s.modEhm p f).flc = s.flc := rfl
@[simp] theorem State.modEhm_csl (p : Port) (f : EhmPort → EhmPort) : (s.modEhm p f).csl = s.csl := rfl
@[simp] theorem State.modEhm_sec (p : Port) (f : EhmPort → EhmPort) : (s.modEhm p f).sec = s.sec := rfl
@[simp] theorem State.modEhm_uas (p : Port) (f : EhmPort → EhmPort) : (s.modEhm p f).uas = s.uas := rfl
@[simp] theorem State.modEhm_spt (p : Port) (f : EhmPort → EhmPort) : (s.modEhm p f).spt = s.spt := rfl
@[simp] theorem State.modEhm_fcc (p : Port) (f : EhmPort → EhmPort) : (s.modEhm p f).fcc = s.fcc := rfl
@[simp] theorem State.modEhm_chip (p : Port) (f : EhmPort → EhmPort) : (s.modEhm p f).chip = s.chip := rfl
@[simp] theorem State.modEhm_freeCtr (p : Port) (f : EhmPort → EhmPort) : (s.modEhm p f).freeCtr = s.freeCtr := rfl

@[simp] theorem State.modSlice_pending (l : UnitNum) (f : Slice → Slice) : (s.modSlice l f).pending = s.pending := rfl
@[simp] theorem State.modSlice_time (l : UnitNum) (f : Slice → Slice) : (s.modSlice l f).time = s.time := rfl
@[simp] theorem State.modSlice_regs (l : UnitNum) (f : Slice → Slice) : (s.modSlice l f).regs = s.regs := rfl
@[simp] theorem State.modSlice_active (l : UnitNum) (f : Slice → Slice) : (s.modSlice l f).active = s.active := rfl
@[simp] theorem State.modSlice_pendSet (l : UnitNum) (f : Slice → Slice) : (s.modSlice l f).pendSet = s.pendSet := rfl
@[simp] theorem State.modSlice_mem (l : UnitNum) (f : Slice → Slice) : (s.modSlice l f).mem = s.mem := rfl
@[simp] theorem State.modSlice_pages (l : UnitNum) (f : Slice → Slice) : (s.modSlice l f).pages = s.pages := rfl
@[simp] theorem State.modSlice_bus (l : UnitNum) (f : Slice → Slice) : (s.modSlice l f).bus = s.bus := rfl
@[simp] theorem State.modSlice_reports (l : UnitNum) (f : Slice → Slice) : (s.modSlice l f).reports = s.reports := rfl
@[simp] theorem State.modSlice_queues (l : UnitNum) (f : Slice → Slice) : (s.modSlice l f).queues = s.queues := rfl
@[simp] theorem State.modSlice_nextUid (l : UnitNum) (f : Slice → Slice) : (s.modSlice l f).nextUid = s.nextUid := rfl
@[simp] theorem State.modSlice_seq (l : UnitNum) (f : Slice → Slice) : (s.modSlice l f).seq = s.seq := rfl
@[simp] theorem State.modSlice_rnd (l : UnitNum) (f : Slice → Slice) : (s.modSlice l f).rnd = s.rnd := rfl
@[simp] theorem State.modSlice_skn (l : UnitNum) (f : Slice → Slice) : (s.modSlice l f).skn = s.skn := rfl
@[simp] theorem State.modSlice_hhe (l : UnitNum) (f : Slice → Slice) : (s.modSlice l f).hhe = s.hhe := rfl
@[simp] theorem State.modSlice_hp (l : UnitNum) (f : Slice → Slice) : (s.modSlice l f).hp = s.hp := rfl
@[simp] theorem State.modSlice_sba (l : UnitNum) (f : Slice → Slice) : (s.modSlice l f).sba = s.sba := rfl
@[simp] theorem State.modSlice_hheLog (l : UnitNum) (f : Slice → Slice) : (s.modSlice l f).hheLog = s.hheLog := rfl
@[simp] theorem State.modSlice_ax (l : UnitNum) (f : Slice → Slice) : (s.modSlice l f).ax = s.ax := rfl
@[simp] theorem State.modSlice_qe (l : UnitNum) (f : Slice → Slice) : (s.modSlice l f).qe = s.qe := rfl
@[simp] theorem State.modSlice_ehm (l : UnitNum) (f : Slice → Slice) : (s.modSlice l f).ehm = s.ehm := rfl
@[simp] theorem State.modSlice_adc (l : UnitNum) (f : Slice → Slice) : (s.modSlice l f).adc = { s.adc with slices := s.adc.slices.set l (f s.adc.slices[l]) } := rfl
@[simp] theorem State.modSlice_med (l : UnitNum) (f : Slice → Slice) : (s.modSlice l f).med = s.med := rfl
@[simp] theorem State.modSlice_cam (l : UnitNum) (f : Slice → Slice) : (s.modSlice l f).cam = s.cam := rfl
@[simp] theorem State.modSlice_flc (l : UnitNum) (f : Slice → Slice) : (s.modSlice l f).flc = s.flc := rfl
@[simp] theorem State.modSlice_csl (l : UnitNum) (f : Slice → Slice) : (s.modSlice l f).csl = s.csl := rfl
@[simp] theorem State.modSlice_sec (l : UnitNum) (f : Slice → Slice) : (s.modSlice l f).sec = s.sec := rfl
@[simp] theorem State.modSlice_uas (l : UnitNum) (f : Slice → Slice) : (s.modSlice l f).uas = s.uas := rfl
@[simp] theorem State.modSlice_spt (l : UnitNum) (f : Slice → Slice) : (s.modSlice l f).spt = s.spt := rfl
@[simp] theorem State.modSlice_fcc (l : UnitNum) (f : Slice → Slice) : (s.modSlice l f).fcc = s.fcc := rfl
@[simp] theorem State.modSlice_chip (l : UnitNum) (f : Slice → Slice) : (s.modSlice l f).chip = s.chip := rfl
@[simp] theorem State.modSlice_freeCtr (l : UnitNum) (f : Slice → Slice) : (s.modSlice l f).freeCtr = s.freeCtr := rfl

@[simp] theorem State.modUnit_pending (u : UnitNum) (f : MedUnit → MedUnit) : (s.modUnit u f).pending = s.pending := rfl
@[simp] theorem State.modUnit_time (u : UnitNum) (f : MedUnit → MedUnit) : (s.modUnit u f).time = s.time := rfl
@[simp] theorem State.modUnit_regs (u : UnitNum) (f : MedUnit → MedUnit) : (s.modUnit u f).regs = s.regs := rfl
@[simp] theorem State.modUnit_active (u : UnitNum) (f : MedUnit → MedUnit) : (s.modUnit u f).active = s.active := rfl
@[simp] theorem State.modUnit_pendSet (u : UnitNum) (f : MedUnit → MedUnit) : (s.modUnit u f).pendSet = s.pendSet := rfl
@[simp] theorem State.modUnit_mem (u : UnitNum) (f : MedUnit → MedUnit) : (s.modUnit u f).mem = s.mem := rfl
@[simp] theorem State.modUnit_pages (u : UnitNum) (f : MedUnit → MedUnit) : (s.modUnit u f).pages = s.pages := rfl
@[simp] theorem State.modUnit_bus (u : UnitNum) (f : MedUnit → MedUnit) : (s.modUnit u f).bus = s.bus := rfl
@[simp] theorem State.modUnit_reports (u : UnitNum) (f : MedUnit → MedUnit) : (s.modUnit u f).reports = s.reports := rfl
@[simp] theorem State.modUnit_queues (u : UnitNum) (f : MedUnit → MedUnit) : (s.modUnit u f).queues = s.queues := rfl
@[simp] theorem State.modUnit_nextUid (u : UnitNum) (f : MedUnit → MedUnit) : (s.modUnit u f).nextUid = s.nextUid := rfl
@[simp] theorem State.modUnit_seq (u : UnitNum) (f : MedUnit → MedUnit) : (s.modUnit u f).seq = s.seq := rfl
@[simp] theorem State.modUnit_rnd (u : UnitNum) (f : MedUnit → MedUnit) : (s.modUnit u f).rnd = s.rnd := rfl
@[simp] theorem State.modUnit_skn (u : UnitNum) (f : MedUnit → MedUnit) : (s.modUnit u f).skn = s.skn := rfl
@[simp] theorem State.modUnit_hhe (u : UnitNum) (f : MedUnit → MedUnit) : (s.modUnit u f).hhe = s.hhe := rfl
@[simp] theorem State.modUnit_hp (u : UnitNum) (f : MedUnit → MedUnit) : (s.modUnit u f).hp = s.hp := rfl
@[simp] theorem State.modUnit_sba (u : UnitNum) (f : MedUnit → MedUnit) : (s.modUnit u f).sba = s.sba := rfl
@[simp] theorem State.modUnit_hheLog (u : UnitNum) (f : MedUnit → MedUnit) : (s.modUnit u f).hheLog = s.hheLog := rfl
@[simp] theorem State.modUnit_ax (u : UnitNum) (f : MedUnit → MedUnit) : (s.modUnit u f).ax = s.ax := rfl
@[simp] theorem State.modUnit_qe (u : UnitNum) (f : MedUnit → MedUnit) : (s.modUnit u f).qe = s.qe := rfl
@[simp] theorem State.modUnit_ehm (u : UnitNum) (f : MedUnit → MedUnit) : (s.modUnit u f).ehm = s.ehm := rfl
@[simp] theorem State.modUnit_adc (u : UnitNum) (f : MedUnit → MedUnit) : (s.modUnit u f).adc = s.adc := rfl
@[simp] theorem State.modUnit_med (u : UnitNum) (f : MedUnit → MedUnit) : (s.modUnit u f).med = { s.med with units := s.med.units.set u (f s.med.units[u]) } := rfl
@[simp] theorem State.modUnit_cam (u : UnitNum) (f : MedUnit → MedUnit) : (s.modUnit u f).cam = s.cam := rfl
@[simp] theorem State.modUnit_flc (u : UnitNum) (f : MedUnit → MedUnit) : (s.modUnit u f).flc = s.flc := rfl
@[simp] theorem State.modUnit_csl (u : UnitNum) (f : MedUnit → MedUnit) : (s.modUnit u f).csl = s.csl := rfl
@[simp] theorem State.modUnit_sec (u : UnitNum) (f : MedUnit → MedUnit) : (s.modUnit u f).sec = s.sec := rfl
@[simp] theorem State.modUnit_uas (u : UnitNum) (f : MedUnit → MedUnit) : (s.modUnit u f).uas = s.uas := rfl
@[simp] theorem State.modUnit_spt (u : UnitNum) (f : MedUnit → MedUnit) : (s.modUnit u f).spt = s.spt := rfl
@[simp] theorem State.modUnit_fcc (u : UnitNum) (f : MedUnit → MedUnit) : (s.modUnit u f).fcc = s.fcc := rfl
@[simp] theorem State.modUnit_chip (u : UnitNum) (f : MedUnit → MedUnit) : (s.modUnit u f).chip = s.chip := rfl
@[simp] theorem State.modUnit_freeCtr (u : UnitNum) (f : MedUnit → MedUnit) : (s.modUnit u f).freeCtr = s.freeCtr := rfl

@[simp] theorem State.modVc_pending (v : Fin 4) (f : CsiVc → CsiVc) : (s.modVc v f).pending = s.pending := rfl
@[simp] theorem State.modVc_time (v : Fin 4) (f : CsiVc → CsiVc) : (s.modVc v f).time = s.time := rfl
@[simp] theorem State.modVc_regs (v : Fin 4) (f : CsiVc → CsiVc) : (s.modVc v f).regs = s.regs := rfl
@[simp] theorem State.modVc_active (v : Fin 4) (f : CsiVc → CsiVc) : (s.modVc v f).active = s.active := rfl
@[simp] theorem State.modVc_pendSet (v : Fin 4) (f : CsiVc → CsiVc) : (s.modVc v f).pendSet = s.pendSet := rfl
@[simp] theorem State.modVc_mem (v : Fin 4) (f : CsiVc → CsiVc) : (s.modVc v f).mem = s.mem := rfl
@[simp] theorem State.modVc_pages (v : Fin 4) (f : CsiVc → CsiVc) : (s.modVc v f).pages = s.pages := rfl
@[simp] theorem State.modVc_bus (v : Fin 4) (f : CsiVc → CsiVc) : (s.modVc v f).bus = s.bus := rfl
@[simp] theorem State.modVc_reports (v : Fin 4) (f : CsiVc → CsiVc) : (s.modVc v f).reports = s.reports := rfl
@[simp] theorem State.modVc_queues (v : Fin 4) (f : CsiVc → CsiVc) : (s.modVc v f).queues = s.queues := rfl
@[simp] theorem State.modVc_nextUid (v : Fin 4) (f : CsiVc → CsiVc) : (s.modVc v f).nextUid = s.nextUid := rfl
@[simp] theorem State.modVc_seq (v : Fin 4) (f : CsiVc → CsiVc) : (s.modVc v f).seq = s.seq := rfl
@[simp] theorem State.modVc_rnd (v : Fin 4) (f : CsiVc → CsiVc) : (s.modVc v f).rnd = s.rnd := rfl
@[simp] theorem State.modVc_skn (v : Fin 4) (f : CsiVc → CsiVc) : (s.modVc v f).skn = s.skn := rfl
@[simp] theorem State.modVc_hhe (v : Fin 4) (f : CsiVc → CsiVc) : (s.modVc v f).hhe = s.hhe := rfl
@[simp] theorem State.modVc_hp (v : Fin 4) (f : CsiVc → CsiVc) : (s.modVc v f).hp = s.hp := rfl
@[simp] theorem State.modVc_sba (v : Fin 4) (f : CsiVc → CsiVc) : (s.modVc v f).sba = s.sba := rfl
@[simp] theorem State.modVc_hheLog (v : Fin 4) (f : CsiVc → CsiVc) : (s.modVc v f).hheLog = s.hheLog := rfl
@[simp] theorem State.modVc_ax (v : Fin 4) (f : CsiVc → CsiVc) : (s.modVc v f).ax = s.ax := rfl
@[simp] theorem State.modVc_qe (v : Fin 4) (f : CsiVc → CsiVc) : (s.modVc v f).qe = s.qe := rfl
@[simp] theorem State.modVc_ehm (v : Fin 4) (f : CsiVc → CsiVc) : (s.modVc v f).ehm = s.ehm := rfl
@[simp] theorem State.modVc_adc (v : Fin 4) (f : CsiVc → CsiVc) : (s.modVc v f).adc = s.adc := rfl
@[simp] theorem State.modVc_med (v : Fin 4) (f : CsiVc → CsiVc) : (s.modVc v f).med = s.med := rfl
@[simp] theorem State.modVc_cam (v : Fin 4) (f : CsiVc → CsiVc) : (s.modVc v f).cam = { s.cam with vc := s.cam.vc.set v (f s.cam.vc[v]) } := rfl
@[simp] theorem State.modVc_flc (v : Fin 4) (f : CsiVc → CsiVc) : (s.modVc v f).flc = s.flc := rfl
@[simp] theorem State.modVc_csl (v : Fin 4) (f : CsiVc → CsiVc) : (s.modVc v f).csl = s.csl := rfl
@[simp] theorem State.modVc_sec (v : Fin 4) (f : CsiVc → CsiVc) : (s.modVc v f).sec = s.sec := rfl
@[simp] theorem State.modVc_uas (v : Fin 4) (f : CsiVc → CsiVc) : (s.modVc v f).uas = s.uas := rfl
@[simp] theorem State.modVc_spt (v : Fin 4) (f : CsiVc → CsiVc) : (s.modVc v f).spt = s.spt := rfl
@[simp] theorem State.modVc_fcc (v : Fin 4) (f : CsiVc → CsiVc) : (s.modVc v f).fcc = s.fcc := rfl
@[simp] theorem State.modVc_chip (v : Fin 4) (f : CsiVc → CsiVc) : (s.modVc v f).chip = s.chip := rfl
@[simp] theorem State.modVc_freeCtr (v : Fin 4) (f : CsiVc → CsiVc) : (s.modVc v f).freeCtr = s.freeCtr := rfl

@[simp] theorem State.modVp_pending (v : VpNum) (f : VpSt → VpSt) : (s.modVp v f).pending = s.pending := rfl
@[simp] theorem State.modVp_time (v : VpNum) (f : VpSt → VpSt) : (s.modVp v f).time = s.time := rfl
@[simp] theorem State.modVp_regs (v : VpNum) (f : VpSt → VpSt) : (s.modVp v f).regs = s.regs := rfl
@[simp] theorem State.modVp_active (v : VpNum) (f : VpSt → VpSt) : (s.modVp v f).active = s.active := rfl
@[simp] theorem State.modVp_pendSet (v : VpNum) (f : VpSt → VpSt) : (s.modVp v f).pendSet = s.pendSet := rfl
@[simp] theorem State.modVp_mem (v : VpNum) (f : VpSt → VpSt) : (s.modVp v f).mem = s.mem := rfl
@[simp] theorem State.modVp_pages (v : VpNum) (f : VpSt → VpSt) : (s.modVp v f).pages = s.pages := rfl
@[simp] theorem State.modVp_bus (v : VpNum) (f : VpSt → VpSt) : (s.modVp v f).bus = s.bus := rfl
@[simp] theorem State.modVp_reports (v : VpNum) (f : VpSt → VpSt) : (s.modVp v f).reports = s.reports := rfl
@[simp] theorem State.modVp_queues (v : VpNum) (f : VpSt → VpSt) : (s.modVp v f).queues = s.queues := rfl
@[simp] theorem State.modVp_nextUid (v : VpNum) (f : VpSt → VpSt) : (s.modVp v f).nextUid = s.nextUid := rfl
@[simp] theorem State.modVp_seq (v : VpNum) (f : VpSt → VpSt) : (s.modVp v f).seq = s.seq := rfl
@[simp] theorem State.modVp_rnd (v : VpNum) (f : VpSt → VpSt) : (s.modVp v f).rnd = s.rnd := rfl
@[simp] theorem State.modVp_skn (v : VpNum) (f : VpSt → VpSt) : (s.modVp v f).skn = s.skn := rfl
@[simp] theorem State.modVp_hhe (v : VpNum) (f : VpSt → VpSt) : (s.modVp v f).hhe = s.hhe := rfl
@[simp] theorem State.modVp_hp (v : VpNum) (f : VpSt → VpSt) : (s.modVp v f).hp = s.hp := rfl
@[simp] theorem State.modVp_sba (v : VpNum) (f : VpSt → VpSt) : (s.modVp v f).sba = s.sba := rfl
@[simp] theorem State.modVp_hheLog (v : VpNum) (f : VpSt → VpSt) : (s.modVp v f).hheLog = s.hheLog := rfl
@[simp] theorem State.modVp_ax (v : VpNum) (f : VpSt → VpSt) : (s.modVp v f).ax = s.ax := rfl
@[simp] theorem State.modVp_qe (v : VpNum) (f : VpSt → VpSt) : (s.modVp v f).qe = s.qe := rfl
@[simp] theorem State.modVp_ehm (v : VpNum) (f : VpSt → VpSt) : (s.modVp v f).ehm = s.ehm := rfl
@[simp] theorem State.modVp_adc (v : VpNum) (f : VpSt → VpSt) : (s.modVp v f).adc = s.adc := rfl
@[simp] theorem State.modVp_med (v : VpNum) (f : VpSt → VpSt) : (s.modVp v f).med = s.med := rfl
@[simp] theorem State.modVp_cam (v : VpNum) (f : VpSt → VpSt) : (s.modVp v f).cam = { s.cam with vp := s.cam.vp.set v (f s.cam.vp[v]) } := rfl
@[simp] theorem State.modVp_flc (v : VpNum) (f : VpSt → VpSt) : (s.modVp v f).flc = s.flc := rfl
@[simp] theorem State.modVp_csl (v : VpNum) (f : VpSt → VpSt) : (s.modVp v f).csl = s.csl := rfl
@[simp] theorem State.modVp_sec (v : VpNum) (f : VpSt → VpSt) : (s.modVp v f).sec = s.sec := rfl
@[simp] theorem State.modVp_uas (v : VpNum) (f : VpSt → VpSt) : (s.modVp v f).uas = s.uas := rfl
@[simp] theorem State.modVp_spt (v : VpNum) (f : VpSt → VpSt) : (s.modVp v f).spt = s.spt := rfl
@[simp] theorem State.modVp_fcc (v : VpNum) (f : VpSt → VpSt) : (s.modVp v f).fcc = s.fcc := rfl
@[simp] theorem State.modVp_chip (v : VpNum) (f : VpSt → VpSt) : (s.modVp v f).chip = s.chip := rfl
@[simp] theorem State.modVp_freeCtr (v : VpNum) (f : VpSt → VpSt) : (s.modVp v f).freeCtr = s.freeCtr := rfl

@[simp] theorem State.modCtx_pending (v : VpNum) (x : Fin 2) (f : VpCtx → VpCtx) : (s.modCtx v x f).pending = s.pending := rfl
@[simp] theorem State.modCtx_time (v : VpNum) (x : Fin 2) (f : VpCtx → VpCtx) : (s.modCtx v x f).time = s.time := rfl
@[simp] theorem State.modCtx_regs (v : VpNum) (x : Fin 2) (f : VpCtx → VpCtx) : (s.modCtx v x f).regs = s.regs := rfl
@[simp] theorem State.modCtx_active (v : VpNum) (x : Fin 2) (f : VpCtx → VpCtx) : (s.modCtx v x f).active = s.active := rfl
@[simp] theorem State.modCtx_pendSet (v : VpNum) (x : Fin 2) (f : VpCtx → VpCtx) : (s.modCtx v x f).pendSet = s.pendSet := rfl
@[simp] theorem State.modCtx_mem (v : VpNum) (x : Fin 2) (f : VpCtx → VpCtx) : (s.modCtx v x f).mem = s.mem := rfl
@[simp] theorem State.modCtx_pages (v : VpNum) (x : Fin 2) (f : VpCtx → VpCtx) : (s.modCtx v x f).pages = s.pages := rfl
@[simp] theorem State.modCtx_bus (v : VpNum) (x : Fin 2) (f : VpCtx → VpCtx) : (s.modCtx v x f).bus = s.bus := rfl
@[simp] theorem State.modCtx_reports (v : VpNum) (x : Fin 2) (f : VpCtx → VpCtx) : (s.modCtx v x f).reports = s.reports := rfl
@[simp] theorem State.modCtx_queues (v : VpNum) (x : Fin 2) (f : VpCtx → VpCtx) : (s.modCtx v x f).queues = s.queues := rfl
@[simp] theorem State.modCtx_nextUid (v : VpNum) (x : Fin 2) (f : VpCtx → VpCtx) : (s.modCtx v x f).nextUid = s.nextUid := rfl
@[simp] theorem State.modCtx_seq (v : VpNum) (x : Fin 2) (f : VpCtx → VpCtx) : (s.modCtx v x f).seq = s.seq := rfl
@[simp] theorem State.modCtx_rnd (v : VpNum) (x : Fin 2) (f : VpCtx → VpCtx) : (s.modCtx v x f).rnd = s.rnd := rfl
@[simp] theorem State.modCtx_skn (v : VpNum) (x : Fin 2) (f : VpCtx → VpCtx) : (s.modCtx v x f).skn = s.skn := rfl
@[simp] theorem State.modCtx_hhe (v : VpNum) (x : Fin 2) (f : VpCtx → VpCtx) : (s.modCtx v x f).hhe = s.hhe := rfl
@[simp] theorem State.modCtx_hp (v : VpNum) (x : Fin 2) (f : VpCtx → VpCtx) : (s.modCtx v x f).hp = s.hp := rfl
@[simp] theorem State.modCtx_sba (v : VpNum) (x : Fin 2) (f : VpCtx → VpCtx) : (s.modCtx v x f).sba = s.sba := rfl
@[simp] theorem State.modCtx_hheLog (v : VpNum) (x : Fin 2) (f : VpCtx → VpCtx) : (s.modCtx v x f).hheLog = s.hheLog := rfl
@[simp] theorem State.modCtx_ax (v : VpNum) (x : Fin 2) (f : VpCtx → VpCtx) : (s.modCtx v x f).ax = s.ax := rfl
@[simp] theorem State.modCtx_qe (v : VpNum) (x : Fin 2) (f : VpCtx → VpCtx) : (s.modCtx v x f).qe = s.qe := rfl
@[simp] theorem State.modCtx_ehm (v : VpNum) (x : Fin 2) (f : VpCtx → VpCtx) : (s.modCtx v x f).ehm = s.ehm := rfl
@[simp] theorem State.modCtx_adc (v : VpNum) (x : Fin 2) (f : VpCtx → VpCtx) : (s.modCtx v x f).adc = s.adc := rfl
@[simp] theorem State.modCtx_med (v : VpNum) (x : Fin 2) (f : VpCtx → VpCtx) : (s.modCtx v x f).med = s.med := rfl
@[simp] theorem State.modCtx_flc (v : VpNum) (x : Fin 2) (f : VpCtx → VpCtx) : (s.modCtx v x f).flc = s.flc := rfl
@[simp] theorem State.modCtx_csl (v : VpNum) (x : Fin 2) (f : VpCtx → VpCtx) : (s.modCtx v x f).csl = s.csl := rfl
@[simp] theorem State.modCtx_sec (v : VpNum) (x : Fin 2) (f : VpCtx → VpCtx) : (s.modCtx v x f).sec = s.sec := rfl
@[simp] theorem State.modCtx_uas (v : VpNum) (x : Fin 2) (f : VpCtx → VpCtx) : (s.modCtx v x f).uas = s.uas := rfl
@[simp] theorem State.modCtx_spt (v : VpNum) (x : Fin 2) (f : VpCtx → VpCtx) : (s.modCtx v x f).spt = s.spt := rfl
@[simp] theorem State.modCtx_fcc (v : VpNum) (x : Fin 2) (f : VpCtx → VpCtx) : (s.modCtx v x f).fcc = s.fcc := rfl
@[simp] theorem State.modCtx_chip (v : VpNum) (x : Fin 2) (f : VpCtx → VpCtx) : (s.modCtx v x f).chip = s.chip := rfl
@[simp] theorem State.modCtx_freeCtr (v : VpNum) (x : Fin 2) (f : VpCtx → VpCtx) : (s.modCtx v x f).freeCtr = s.freeCtr := rfl

@[simp] theorem State.modIc_pending (k : Fin 2) (f : IcSt → IcSt) : (s.modIc k f).pending = s.pending := rfl
@[simp] theorem State.modIc_time (k : Fin 2) (f : IcSt → IcSt) : (s.modIc k f).time = s.time := rfl
@[simp] theorem State.modIc_regs (k : Fin 2) (f : IcSt → IcSt) : (s.modIc k f).regs = s.regs := rfl
@[simp] theorem State.modIc_active (k : Fin 2) (f : IcSt → IcSt) : (s.modIc k f).active = s.active := rfl
@[simp] theorem State.modIc_pendSet (k : Fin 2) (f : IcSt → IcSt) : (s.modIc k f).pendSet = s.pendSet := rfl
@[simp] theorem State.modIc_mem (k : Fin 2) (f : IcSt → IcSt) : (s.modIc k f).mem = s.mem := rfl
@[simp] theorem State.modIc_pages (k : Fin 2) (f : IcSt → IcSt) : (s.modIc k f).pages = s.pages := rfl
@[simp] theorem State.modIc_bus (k : Fin 2) (f : IcSt → IcSt) : (s.modIc k f).bus = s.bus := rfl
@[simp] theorem State.modIc_reports (k : Fin 2) (f : IcSt → IcSt) : (s.modIc k f).reports = s.reports := rfl
@[simp] theorem State.modIc_queues (k : Fin 2) (f : IcSt → IcSt) : (s.modIc k f).queues = s.queues := rfl
@[simp] theorem State.modIc_nextUid (k : Fin 2) (f : IcSt → IcSt) : (s.modIc k f).nextUid = s.nextUid := rfl
@[simp] theorem State.modIc_seq (k : Fin 2) (f : IcSt → IcSt) : (s.modIc k f).seq = s.seq := rfl
@[simp] theorem State.modIc_rnd (k : Fin 2) (f : IcSt → IcSt) : (s.modIc k f).rnd = s.rnd := rfl
@[simp] theorem State.modIc_skn (k : Fin 2) (f : IcSt → IcSt) : (s.modIc k f).skn = s.skn := rfl
@[simp] theorem State.modIc_hhe (k : Fin 2) (f : IcSt → IcSt) : (s.modIc k f).hhe = s.hhe := rfl
@[simp] theorem State.modIc_hp (k : Fin 2) (f : IcSt → IcSt) : (s.modIc k f).hp = s.hp := rfl
@[simp] theorem State.modIc_sba (k : Fin 2) (f : IcSt → IcSt) : (s.modIc k f).sba = s.sba := rfl
@[simp] theorem State.modIc_hheLog (k : Fin 2) (f : IcSt → IcSt) : (s.modIc k f).hheLog = s.hheLog := rfl
@[simp] theorem State.modIc_ax (k : Fin 2) (f : IcSt → IcSt) : (s.modIc k f).ax = s.ax := rfl
@[simp] theorem State.modIc_qe (k : Fin 2) (f : IcSt → IcSt) : (s.modIc k f).qe = s.qe := rfl
@[simp] theorem State.modIc_ehm (k : Fin 2) (f : IcSt → IcSt) : (s.modIc k f).ehm = s.ehm := rfl
@[simp] theorem State.modIc_adc (k : Fin 2) (f : IcSt → IcSt) : (s.modIc k f).adc = s.adc := rfl
@[simp] theorem State.modIc_med (k : Fin 2) (f : IcSt → IcSt) : (s.modIc k f).med = s.med := rfl
@[simp] theorem State.modIc_cam (k : Fin 2) (f : IcSt → IcSt) : (s.modIc k f).cam = { s.cam with ic := s.cam.ic.set k (f s.cam.ic[k]) } := rfl
@[simp] theorem State.modIc_flc (k : Fin 2) (f : IcSt → IcSt) : (s.modIc k f).flc = s.flc := rfl
@[simp] theorem State.modIc_csl (k : Fin 2) (f : IcSt → IcSt) : (s.modIc k f).csl = s.csl := rfl
@[simp] theorem State.modIc_sec (k : Fin 2) (f : IcSt → IcSt) : (s.modIc k f).sec = s.sec := rfl
@[simp] theorem State.modIc_uas (k : Fin 2) (f : IcSt → IcSt) : (s.modIc k f).uas = s.uas := rfl
@[simp] theorem State.modIc_spt (k : Fin 2) (f : IcSt → IcSt) : (s.modIc k f).spt = s.spt := rfl
@[simp] theorem State.modIc_fcc (k : Fin 2) (f : IcSt → IcSt) : (s.modIc k f).fcc = s.fcc := rfl
@[simp] theorem State.modIc_chip (k : Fin 2) (f : IcSt → IcSt) : (s.modIc k f).chip = s.chip := rfl
@[simp] theorem State.modIc_freeCtr (k : Fin 2) (f : IcSt → IcSt) : (s.modIc k f).freeCtr = s.freeCtr := rfl

@[simp] theorem State.setWin_pending (p : Port) (w : Option Win) : (s.setWin p w).pending = s.pending := rfl
@[simp] theorem State.setWin_time (p : Port) (w : Option Win) : (s.setWin p w).time = s.time := rfl
@[simp] theorem State.setWin_regs (p : Port) (w : Option Win) : (s.setWin p w).regs = s.regs := rfl
@[simp] theorem State.setWin_active (p : Port) (w : Option Win) : (s.setWin p w).active = s.active := rfl
@[simp] theorem State.setWin_pendSet (p : Port) (w : Option Win) : (s.setWin p w).pendSet = s.pendSet := rfl
@[simp] theorem State.setWin_mem (p : Port) (w : Option Win) : (s.setWin p w).mem = s.mem := rfl
@[simp] theorem State.setWin_pages (p : Port) (w : Option Win) : (s.setWin p w).pages = s.pages := rfl
@[simp] theorem State.setWin_bus (p : Port) (w : Option Win) : (s.setWin p w).bus = s.bus := rfl
@[simp] theorem State.setWin_reports (p : Port) (w : Option Win) : (s.setWin p w).reports = s.reports := rfl
@[simp] theorem State.setWin_queues (p : Port) (w : Option Win) : (s.setWin p w).queues = s.queues := rfl
@[simp] theorem State.setWin_nextUid (p : Port) (w : Option Win) : (s.setWin p w).nextUid = s.nextUid := rfl
@[simp] theorem State.setWin_seq (p : Port) (w : Option Win) : (s.setWin p w).seq = s.seq := rfl
@[simp] theorem State.setWin_rnd (p : Port) (w : Option Win) : (s.setWin p w).rnd = s.rnd := rfl
@[simp] theorem State.setWin_skn (p : Port) (w : Option Win) : (s.setWin p w).skn = s.skn := rfl
@[simp] theorem State.setWin_hhe (p : Port) (w : Option Win) : (s.setWin p w).hhe = s.hhe := rfl
@[simp] theorem State.setWin_hp (p : Port) (w : Option Win) : (s.setWin p w).hp = s.hp := rfl
@[simp] theorem State.setWin_sba (p : Port) (w : Option Win) : (s.setWin p w).sba = s.sba := rfl
@[simp] theorem State.setWin_hheLog (p : Port) (w : Option Win) : (s.setWin p w).hheLog = s.hheLog := rfl
@[simp] theorem State.setWin_ax (p : Port) (w : Option Win) : (s.setWin p w).ax = s.ax := rfl
@[simp] theorem State.setWin_qe (p : Port) (w : Option Win) : (s.setWin p w).qe = s.qe := rfl
@[simp] theorem State.setWin_ehm (p : Port) (w : Option Win) : (s.setWin p w).ehm = s.ehm := rfl
@[simp] theorem State.setWin_adc (p : Port) (w : Option Win) : (s.setWin p w).adc = s.adc := rfl
@[simp] theorem State.setWin_med (p : Port) (w : Option Win) : (s.setWin p w).med = s.med := rfl
@[simp] theorem State.setWin_cam (p : Port) (w : Option Win) : (s.setWin p w).cam = { s.cam with wins := s.cam.wins.set p w } := rfl
@[simp] theorem State.setWin_flc (p : Port) (w : Option Win) : (s.setWin p w).flc = s.flc := rfl
@[simp] theorem State.setWin_csl (p : Port) (w : Option Win) : (s.setWin p w).csl = s.csl := rfl
@[simp] theorem State.setWin_sec (p : Port) (w : Option Win) : (s.setWin p w).sec = s.sec := rfl
@[simp] theorem State.setWin_uas (p : Port) (w : Option Win) : (s.setWin p w).uas = s.uas := rfl
@[simp] theorem State.setWin_spt (p : Port) (w : Option Win) : (s.setWin p w).spt = s.spt := rfl
@[simp] theorem State.setWin_fcc (p : Port) (w : Option Win) : (s.setWin p w).fcc = s.fcc := rfl
@[simp] theorem State.setWin_chip (p : Port) (w : Option Win) : (s.setWin p w).chip = s.chip := rfl
@[simp] theorem State.setWin_freeCtr (p : Port) (w : Option Win) : (s.setWin p w).freeCtr = s.freeCtr := rfl

@[simp] theorem State.modCsl_pending (f : CslSt → CslSt) : (s.modCsl f).pending = s.pending := rfl
@[simp] theorem State.modCsl_time (f : CslSt → CslSt) : (s.modCsl f).time = s.time := rfl
@[simp] theorem State.modCsl_regs (f : CslSt → CslSt) : (s.modCsl f).regs = s.regs := rfl
@[simp] theorem State.modCsl_active (f : CslSt → CslSt) : (s.modCsl f).active = s.active := rfl
@[simp] theorem State.modCsl_pendSet (f : CslSt → CslSt) : (s.modCsl f).pendSet = s.pendSet := rfl
@[simp] theorem State.modCsl_mem (f : CslSt → CslSt) : (s.modCsl f).mem = s.mem := rfl
@[simp] theorem State.modCsl_pages (f : CslSt → CslSt) : (s.modCsl f).pages = s.pages := rfl
@[simp] theorem State.modCsl_bus (f : CslSt → CslSt) : (s.modCsl f).bus = s.bus := rfl
@[simp] theorem State.modCsl_reports (f : CslSt → CslSt) : (s.modCsl f).reports = s.reports := rfl
@[simp] theorem State.modCsl_queues (f : CslSt → CslSt) : (s.modCsl f).queues = s.queues := rfl
@[simp] theorem State.modCsl_nextUid (f : CslSt → CslSt) : (s.modCsl f).nextUid = s.nextUid := rfl
@[simp] theorem State.modCsl_seq (f : CslSt → CslSt) : (s.modCsl f).seq = s.seq := rfl
@[simp] theorem State.modCsl_rnd (f : CslSt → CslSt) : (s.modCsl f).rnd = s.rnd := rfl
@[simp] theorem State.modCsl_skn (f : CslSt → CslSt) : (s.modCsl f).skn = s.skn := rfl
@[simp] theorem State.modCsl_hhe (f : CslSt → CslSt) : (s.modCsl f).hhe = s.hhe := rfl
@[simp] theorem State.modCsl_hp (f : CslSt → CslSt) : (s.modCsl f).hp = s.hp := rfl
@[simp] theorem State.modCsl_sba (f : CslSt → CslSt) : (s.modCsl f).sba = s.sba := rfl
@[simp] theorem State.modCsl_hheLog (f : CslSt → CslSt) : (s.modCsl f).hheLog = s.hheLog := rfl
@[simp] theorem State.modCsl_ax (f : CslSt → CslSt) : (s.modCsl f).ax = s.ax := rfl
@[simp] theorem State.modCsl_qe (f : CslSt → CslSt) : (s.modCsl f).qe = s.qe := rfl
@[simp] theorem State.modCsl_ehm (f : CslSt → CslSt) : (s.modCsl f).ehm = s.ehm := rfl
@[simp] theorem State.modCsl_adc (f : CslSt → CslSt) : (s.modCsl f).adc = s.adc := rfl
@[simp] theorem State.modCsl_med (f : CslSt → CslSt) : (s.modCsl f).med = s.med := rfl
@[simp] theorem State.modCsl_cam (f : CslSt → CslSt) : (s.modCsl f).cam = s.cam := rfl
@[simp] theorem State.modCsl_flc (f : CslSt → CslSt) : (s.modCsl f).flc = s.flc := rfl
@[simp] theorem State.modCsl_csl (f : CslSt → CslSt) : (s.modCsl f).csl = f s.csl := rfl
@[simp] theorem State.modCsl_sec (f : CslSt → CslSt) : (s.modCsl f).sec = s.sec := rfl
@[simp] theorem State.modCsl_uas (f : CslSt → CslSt) : (s.modCsl f).uas = s.uas := rfl
@[simp] theorem State.modCsl_spt (f : CslSt → CslSt) : (s.modCsl f).spt = s.spt := rfl
@[simp] theorem State.modCsl_fcc (f : CslSt → CslSt) : (s.modCsl f).fcc = s.fcc := rfl
@[simp] theorem State.modCsl_chip (f : CslSt → CslSt) : (s.modCsl f).chip = s.chip := rfl
@[simp] theorem State.modCsl_freeCtr (f : CslSt → CslSt) : (s.modCsl f).freeCtr = s.freeCtr := rfl

@[simp] theorem State.modSess_pending (i : SlotNum) (f : SecSlot → SecSlot) : (s.modSess i f).pending = s.pending := rfl
@[simp] theorem State.modSess_time (i : SlotNum) (f : SecSlot → SecSlot) : (s.modSess i f).time = s.time := rfl
@[simp] theorem State.modSess_regs (i : SlotNum) (f : SecSlot → SecSlot) : (s.modSess i f).regs = s.regs := rfl
@[simp] theorem State.modSess_active (i : SlotNum) (f : SecSlot → SecSlot) : (s.modSess i f).active = s.active := rfl
@[simp] theorem State.modSess_pendSet (i : SlotNum) (f : SecSlot → SecSlot) : (s.modSess i f).pendSet = s.pendSet := rfl
@[simp] theorem State.modSess_mem (i : SlotNum) (f : SecSlot → SecSlot) : (s.modSess i f).mem = s.mem := rfl
@[simp] theorem State.modSess_pages (i : SlotNum) (f : SecSlot → SecSlot) : (s.modSess i f).pages = s.pages := rfl
@[simp] theorem State.modSess_bus (i : SlotNum) (f : SecSlot → SecSlot) : (s.modSess i f).bus = s.bus := rfl
@[simp] theorem State.modSess_reports (i : SlotNum) (f : SecSlot → SecSlot) : (s.modSess i f).reports = s.reports := rfl
@[simp] theorem State.modSess_queues (i : SlotNum) (f : SecSlot → SecSlot) : (s.modSess i f).queues = s.queues := rfl
@[simp] theorem State.modSess_nextUid (i : SlotNum) (f : SecSlot → SecSlot) : (s.modSess i f).nextUid = s.nextUid := rfl
@[simp] theorem State.modSess_seq (i : SlotNum) (f : SecSlot → SecSlot) : (s.modSess i f).seq = s.seq := rfl
@[simp] theorem State.modSess_rnd (i : SlotNum) (f : SecSlot → SecSlot) : (s.modSess i f).rnd = s.rnd := rfl
@[simp] theorem State.modSess_skn (i : SlotNum) (f : SecSlot → SecSlot) : (s.modSess i f).skn = s.skn := rfl
@[simp] theorem State.modSess_hhe (i : SlotNum) (f : SecSlot → SecSlot) : (s.modSess i f).hhe = s.hhe := rfl
@[simp] theorem State.modSess_hp (i : SlotNum) (f : SecSlot → SecSlot) : (s.modSess i f).hp = s.hp := rfl
@[simp] theorem State.modSess_sba (i : SlotNum) (f : SecSlot → SecSlot) : (s.modSess i f).sba = s.sba := rfl
@[simp] theorem State.modSess_hheLog (i : SlotNum) (f : SecSlot → SecSlot) : (s.modSess i f).hheLog = s.hheLog := rfl
@[simp] theorem State.modSess_ax (i : SlotNum) (f : SecSlot → SecSlot) : (s.modSess i f).ax = s.ax := rfl
@[simp] theorem State.modSess_qe (i : SlotNum) (f : SecSlot → SecSlot) : (s.modSess i f).qe = s.qe := rfl
@[simp] theorem State.modSess_ehm (i : SlotNum) (f : SecSlot → SecSlot) : (s.modSess i f).ehm = s.ehm := rfl
@[simp] theorem State.modSess_adc (i : SlotNum) (f : SecSlot → SecSlot) : (s.modSess i f).adc = s.adc := rfl
@[simp] theorem State.modSess_med (i : SlotNum) (f : SecSlot → SecSlot) : (s.modSess i f).med = s.med := rfl
@[simp] theorem State.modSess_cam (i : SlotNum) (f : SecSlot → SecSlot) : (s.modSess i f).cam = s.cam := rfl
@[simp] theorem State.modSess_flc (i : SlotNum) (f : SecSlot → SecSlot) : (s.modSess i f).flc = s.flc := rfl
@[simp] theorem State.modSess_csl (i : SlotNum) (f : SecSlot → SecSlot) : (s.modSess i f).csl = s.csl := rfl
@[simp] theorem State.modSess_sec (i : SlotNum) (f : SecSlot → SecSlot) : (s.modSess i f).sec = { s.sec with slots := s.sec.slots.set i (f s.sec.slots[i]) } := rfl
@[simp] theorem State.modSess_uas (i : SlotNum) (f : SecSlot → SecSlot) : (s.modSess i f).uas = s.uas := rfl
@[simp] theorem State.modSess_spt (i : SlotNum) (f : SecSlot → SecSlot) : (s.modSess i f).spt = s.spt := rfl
@[simp] theorem State.modSess_fcc (i : SlotNum) (f : SecSlot → SecSlot) : (s.modSess i f).fcc = s.fcc := rfl
@[simp] theorem State.modSess_chip (i : SlotNum) (f : SecSlot → SecSlot) : (s.modSess i f).chip = s.chip := rfl
@[simp] theorem State.modSess_freeCtr (i : SlotNum) (f : SecSlot → SecSlot) : (s.modSess i f).freeCtr = s.freeCtr := rfl

@[simp] theorem State.modUa_pending (u : UaNum) (f : UaSt → UaSt) : (s.modUa u f).pending = s.pending := rfl
@[simp] theorem State.modUa_time (u : UaNum) (f : UaSt → UaSt) : (s.modUa u f).time = s.time := rfl
@[simp] theorem State.modUa_regs (u : UaNum) (f : UaSt → UaSt) : (s.modUa u f).regs = s.regs := rfl
@[simp] theorem State.modUa_active (u : UaNum) (f : UaSt → UaSt) : (s.modUa u f).active = s.active := rfl
@[simp] theorem State.modUa_pendSet (u : UaNum) (f : UaSt → UaSt) : (s.modUa u f).pendSet = s.pendSet := rfl
@[simp] theorem State.modUa_mem (u : UaNum) (f : UaSt → UaSt) : (s.modUa u f).mem = s.mem := rfl
@[simp] theorem State.modUa_pages (u : UaNum) (f : UaSt → UaSt) : (s.modUa u f).pages = s.pages := rfl
@[simp] theorem State.modUa_bus (u : UaNum) (f : UaSt → UaSt) : (s.modUa u f).bus = s.bus := rfl
@[simp] theorem State.modUa_reports (u : UaNum) (f : UaSt → UaSt) : (s.modUa u f).reports = s.reports := rfl
@[simp] theorem State.modUa_queues (u : UaNum) (f : UaSt → UaSt) : (s.modUa u f).queues = s.queues := rfl
@[simp] theorem State.modUa_nextUid (u : UaNum) (f : UaSt → UaSt) : (s.modUa u f).nextUid = s.nextUid := rfl
@[simp] theorem State.modUa_seq (u : UaNum) (f : UaSt → UaSt) : (s.modUa u f).seq = s.seq := rfl
@[simp] theorem State.modUa_rnd (u : UaNum) (f : UaSt → UaSt) : (s.modUa u f).rnd = s.rnd := rfl
@[simp] theorem State.modUa_skn (u : UaNum) (f : UaSt → UaSt) : (s.modUa u f).skn = s.skn := rfl
@[simp] theorem State.modUa_hhe (u : UaNum) (f : UaSt → UaSt) : (s.modUa u f).hhe = s.hhe := rfl
@[simp] theorem State.modUa_hp (u : UaNum) (f : UaSt → UaSt) : (s.modUa u f).hp = s.hp := rfl
@[simp] theorem State.modUa_sba (u : UaNum) (f : UaSt → UaSt) : (s.modUa u f).sba = s.sba := rfl
@[simp] theorem State.modUa_hheLog (u : UaNum) (f : UaSt → UaSt) : (s.modUa u f).hheLog = s.hheLog := rfl
@[simp] theorem State.modUa_ax (u : UaNum) (f : UaSt → UaSt) : (s.modUa u f).ax = s.ax := rfl
@[simp] theorem State.modUa_qe (u : UaNum) (f : UaSt → UaSt) : (s.modUa u f).qe = s.qe := rfl
@[simp] theorem State.modUa_ehm (u : UaNum) (f : UaSt → UaSt) : (s.modUa u f).ehm = s.ehm := rfl
@[simp] theorem State.modUa_adc (u : UaNum) (f : UaSt → UaSt) : (s.modUa u f).adc = s.adc := rfl
@[simp] theorem State.modUa_med (u : UaNum) (f : UaSt → UaSt) : (s.modUa u f).med = s.med := rfl
@[simp] theorem State.modUa_cam (u : UaNum) (f : UaSt → UaSt) : (s.modUa u f).cam = s.cam := rfl
@[simp] theorem State.modUa_flc (u : UaNum) (f : UaSt → UaSt) : (s.modUa u f).flc = s.flc := rfl
@[simp] theorem State.modUa_csl (u : UaNum) (f : UaSt → UaSt) : (s.modUa u f).csl = s.csl := rfl
@[simp] theorem State.modUa_sec (u : UaNum) (f : UaSt → UaSt) : (s.modUa u f).sec = s.sec := rfl
@[simp] theorem State.modUa_uas (u : UaNum) (f : UaSt → UaSt) : (s.modUa u f).uas = s.uas.set u (f s.uas[u]) := rfl
@[simp] theorem State.modUa_spt (u : UaNum) (f : UaSt → UaSt) : (s.modUa u f).spt = s.spt := rfl
@[simp] theorem State.modUa_fcc (u : UaNum) (f : UaSt → UaSt) : (s.modUa u f).fcc = s.fcc := rfl
@[simp] theorem State.modUa_chip (u : UaNum) (f : UaSt → UaSt) : (s.modUa u f).chip = s.chip := rfl
@[simp] theorem State.modUa_freeCtr (u : UaNum) (f : UaSt → UaSt) : (s.modUa u f).freeCtr = s.freeCtr := rfl

@[simp] theorem State.modFcc_pending (f : FccSt → FccSt) : (s.modFcc f).pending = s.pending := rfl
@[simp] theorem State.modFcc_time (f : FccSt → FccSt) : (s.modFcc f).time = s.time := rfl
@[simp] theorem State.modFcc_regs (f : FccSt → FccSt) : (s.modFcc f).regs = s.regs := rfl
@[simp] theorem State.modFcc_active (f : FccSt → FccSt) : (s.modFcc f).active = s.active := rfl
@[simp] theorem State.modFcc_pendSet (f : FccSt → FccSt) : (s.modFcc f).pendSet = s.pendSet := rfl
@[simp] theorem State.modFcc_mem (f : FccSt → FccSt) : (s.modFcc f).mem = s.mem := rfl
@[simp] theorem State.modFcc_pages (f : FccSt → FccSt) : (s.modFcc f).pages = s.pages := rfl
@[simp] theorem State.modFcc_bus (f : FccSt → FccSt) : (s.modFcc f).bus = s.bus := rfl
@[simp] theorem State.modFcc_reports (f : FccSt → FccSt) : (s.modFcc f).reports = s.reports := rfl
@[simp] theorem State.modFcc_queues (f : FccSt → FccSt) : (s.modFcc f).queues = s.queues := rfl
@[simp] theorem State.modFcc_nextUid (f : FccSt → FccSt) : (s.modFcc f).nextUid = s.nextUid := rfl
@[simp] theorem State.modFcc_seq (f : FccSt → FccSt) : (s.modFcc f).seq = s.seq := rfl
@[simp] theorem State.modFcc_rnd (f : FccSt → FccSt) : (s.modFcc f).rnd = s.rnd := rfl
@[simp] theorem State.modFcc_skn (f : FccSt → FccSt) : (s.modFcc f).skn = s.skn := rfl
@[simp] theorem State.modFcc_hhe (f : FccSt → FccSt) : (s.modFcc f).hhe = s.hhe := rfl
@[simp] theorem State.modFcc_hp (f : FccSt → FccSt) : (s.modFcc f).hp = s.hp := rfl
@[simp] theorem State.modFcc_sba (f : FccSt → FccSt) : (s.modFcc f).sba = s.sba := rfl
@[simp] theorem State.modFcc_hheLog (f : FccSt → FccSt) : (s.modFcc f).hheLog = s.hheLog := rfl
@[simp] theorem State.modFcc_ax (f : FccSt → FccSt) : (s.modFcc f).ax = s.ax := rfl
@[simp] theorem State.modFcc_qe (f : FccSt → FccSt) : (s.modFcc f).qe = s.qe := rfl
@[simp] theorem State.modFcc_ehm (f : FccSt → FccSt) : (s.modFcc f).ehm = s.ehm := rfl
@[simp] theorem State.modFcc_adc (f : FccSt → FccSt) : (s.modFcc f).adc = s.adc := rfl
@[simp] theorem State.modFcc_med (f : FccSt → FccSt) : (s.modFcc f).med = s.med := rfl
@[simp] theorem State.modFcc_cam (f : FccSt → FccSt) : (s.modFcc f).cam = s.cam := rfl
@[simp] theorem State.modFcc_flc (f : FccSt → FccSt) : (s.modFcc f).flc = s.flc := rfl
@[simp] theorem State.modFcc_csl (f : FccSt → FccSt) : (s.modFcc f).csl = s.csl := rfl
@[simp] theorem State.modFcc_sec (f : FccSt → FccSt) : (s.modFcc f).sec = s.sec := rfl
@[simp] theorem State.modFcc_uas (f : FccSt → FccSt) : (s.modFcc f).uas = s.uas := rfl
@[simp] theorem State.modFcc_spt (f : FccSt → FccSt) : (s.modFcc f).spt = s.spt := rfl
@[simp] theorem State.modFcc_fcc (f : FccSt → FccSt) : (s.modFcc f).fcc = f s.fcc := rfl
@[simp] theorem State.modFcc_chip (f : FccSt → FccSt) : (s.modFcc f).chip = s.chip := rfl
@[simp] theorem State.modFcc_freeCtr (f : FccSt → FccSt) : (s.modFcc f).freeCtr = s.freeCtr := rfl

@[simp] theorem State.setEvent_pending (v : Word) : (s.setEvent v).pending = s.pending := rfl
@[simp] theorem State.setEvent_time (v : Word) : (s.setEvent v).time = s.time := rfl
@[simp] theorem State.setEvent_regs (v : Word) : (s.setEvent v).regs = s.regs := rfl
@[simp] theorem State.setEvent_active (v : Word) : (s.setEvent v).active = s.active := rfl
@[simp] theorem State.setEvent_pendSet (v : Word) : (s.setEvent v).pendSet = s.pendSet := rfl
@[simp] theorem State.setEvent_mem (v : Word) : (s.setEvent v).mem = s.mem := rfl
@[simp] theorem State.setEvent_pages (v : Word) : (s.setEvent v).pages = s.pages := rfl
@[simp] theorem State.setEvent_bus (v : Word) : (s.setEvent v).bus = s.bus := rfl
@[simp] theorem State.setEvent_reports (v : Word) : (s.setEvent v).reports = s.reports := rfl
@[simp] theorem State.setEvent_queues (v : Word) : (s.setEvent v).queues = s.queues := rfl
@[simp] theorem State.setEvent_nextUid (v : Word) : (s.setEvent v).nextUid = s.nextUid := rfl
@[simp] theorem State.setEvent_seq (v : Word) : (s.setEvent v).seq = { s.seq with event := v } := rfl
@[simp] theorem State.setEvent_rnd (v : Word) : (s.setEvent v).rnd = s.rnd := rfl
@[simp] theorem State.setEvent_skn (v : Word) : (s.setEvent v).skn = s.skn := rfl
@[simp] theorem State.setEvent_hhe (v : Word) : (s.setEvent v).hhe = s.hhe := rfl
@[simp] theorem State.setEvent_hp (v : Word) : (s.setEvent v).hp = s.hp := rfl
@[simp] theorem State.setEvent_sba (v : Word) : (s.setEvent v).sba = s.sba := rfl
@[simp] theorem State.setEvent_hheLog (v : Word) : (s.setEvent v).hheLog = s.hheLog := rfl
@[simp] theorem State.setEvent_ax (v : Word) : (s.setEvent v).ax = s.ax := rfl
@[simp] theorem State.setEvent_qe (v : Word) : (s.setEvent v).qe = s.qe := rfl
@[simp] theorem State.setEvent_ehm (v : Word) : (s.setEvent v).ehm = s.ehm := rfl
@[simp] theorem State.setEvent_adc (v : Word) : (s.setEvent v).adc = s.adc := rfl
@[simp] theorem State.setEvent_med (v : Word) : (s.setEvent v).med = s.med := rfl
@[simp] theorem State.setEvent_cam (v : Word) : (s.setEvent v).cam = s.cam := rfl
@[simp] theorem State.setEvent_flc (v : Word) : (s.setEvent v).flc = s.flc := rfl
@[simp] theorem State.setEvent_csl (v : Word) : (s.setEvent v).csl = s.csl := rfl
@[simp] theorem State.setEvent_sec (v : Word) : (s.setEvent v).sec = s.sec := rfl
@[simp] theorem State.setEvent_uas (v : Word) : (s.setEvent v).uas = s.uas := rfl
@[simp] theorem State.setEvent_spt (v : Word) : (s.setEvent v).spt = s.spt := rfl
@[simp] theorem State.setEvent_fcc (v : Word) : (s.setEvent v).fcc = s.fcc := rfl
@[simp] theorem State.setEvent_chip (v : Word) : (s.setEvent v).chip = s.chip := rfl
@[simp] theorem State.setEvent_freeCtr (v : Word) : (s.setEvent v).freeCtr = s.freeCtr := rfl

@[simp] theorem State.btcEmpty_pending : (s.btcEmpty).pending = s.pending := rfl
@[simp] theorem State.btcEmpty_time : (s.btcEmpty).time = s.time := rfl
@[simp] theorem State.btcEmpty_regs : (s.btcEmpty).regs = s.regs := rfl
@[simp] theorem State.btcEmpty_active : (s.btcEmpty).active = s.active := rfl
@[simp] theorem State.btcEmpty_pendSet : (s.btcEmpty).pendSet = s.pendSet := rfl
@[simp] theorem State.btcEmpty_mem : (s.btcEmpty).mem = s.mem := rfl
@[simp] theorem State.btcEmpty_pages : (s.btcEmpty).pages = s.pages := rfl
@[simp] theorem State.btcEmpty_bus : (s.btcEmpty).bus = s.bus := rfl
@[simp] theorem State.btcEmpty_reports : (s.btcEmpty).reports = s.reports := rfl
@[simp] theorem State.btcEmpty_queues : (s.btcEmpty).queues = s.queues := rfl
@[simp] theorem State.btcEmpty_nextUid : (s.btcEmpty).nextUid = s.nextUid := rfl
@[simp] theorem State.btcEmpty_seq : (s.btcEmpty).seq = { s.seq with btc := [] } := rfl
@[simp] theorem State.btcEmpty_rnd : (s.btcEmpty).rnd = s.rnd := rfl
@[simp] theorem State.btcEmpty_skn : (s.btcEmpty).skn = s.skn := rfl
@[simp] theorem State.btcEmpty_hhe : (s.btcEmpty).hhe = s.hhe := rfl
@[simp] theorem State.btcEmpty_hp : (s.btcEmpty).hp = s.hp := rfl
@[simp] theorem State.btcEmpty_sba : (s.btcEmpty).sba = s.sba := rfl
@[simp] theorem State.btcEmpty_hheLog : (s.btcEmpty).hheLog = s.hheLog := rfl
@[simp] theorem State.btcEmpty_ax : (s.btcEmpty).ax = s.ax := rfl
@[simp] theorem State.btcEmpty_qe : (s.btcEmpty).qe = s.qe := rfl
@[simp] theorem State.btcEmpty_ehm : (s.btcEmpty).ehm = s.ehm := rfl
@[simp] theorem State.btcEmpty_adc : (s.btcEmpty).adc = s.adc := rfl
@[simp] theorem State.btcEmpty_med : (s.btcEmpty).med = s.med := rfl
@[simp] theorem State.btcEmpty_cam : (s.btcEmpty).cam = s.cam := rfl
@[simp] theorem State.btcEmpty_flc : (s.btcEmpty).flc = s.flc := rfl
@[simp] theorem State.btcEmpty_csl : (s.btcEmpty).csl = s.csl := rfl
@[simp] theorem State.btcEmpty_sec : (s.btcEmpty).sec = s.sec := rfl
@[simp] theorem State.btcEmpty_uas : (s.btcEmpty).uas = s.uas := rfl
@[simp] theorem State.btcEmpty_spt : (s.btcEmpty).spt = s.spt := rfl
@[simp] theorem State.btcEmpty_fcc : (s.btcEmpty).fcc = s.fcc := rfl
@[simp] theorem State.btcEmpty_chip : (s.btcEmpty).chip = s.chip := rfl
@[simp] theorem State.btcEmpty_freeCtr : (s.btcEmpty).freeCtr = s.freeCtr := rfl

@[simp] theorem State.answer_pending (x : Answer) : (s.answer x).pending = s.pending := rfl
@[simp] theorem State.answer_time (x : Answer) : (s.answer x).time = s.time := rfl
@[simp] theorem State.answer_regs (x : Answer) : (s.answer x).regs = s.regs := rfl
@[simp] theorem State.answer_active (x : Answer) : (s.answer x).active = s.active := rfl
@[simp] theorem State.answer_pendSet (x : Answer) : (s.answer x).pendSet = s.pendSet := rfl
@[simp] theorem State.answer_mem (x : Answer) : (s.answer x).mem = s.mem := rfl
@[simp] theorem State.answer_pages (x : Answer) : (s.answer x).pages = s.pages := rfl
@[simp] theorem State.answer_reports (x : Answer) : (s.answer x).reports = s.reports := rfl
@[simp] theorem State.answer_queues (x : Answer) : (s.answer x).queues = s.queues := rfl
@[simp] theorem State.answer_nextUid (x : Answer) : (s.answer x).nextUid = s.nextUid := rfl
@[simp] theorem State.answer_seq (x : Answer) : (s.answer x).seq = s.seq := rfl
@[simp] theorem State.answer_rnd (x : Answer) : (s.answer x).rnd = s.rnd := rfl
@[simp] theorem State.answer_skn (x : Answer) : (s.answer x).skn = s.skn := rfl
@[simp] theorem State.answer_hhe (x : Answer) : (s.answer x).hhe = s.hhe := rfl
@[simp] theorem State.answer_hp (x : Answer) : (s.answer x).hp = s.hp := rfl
@[simp] theorem State.answer_sba (x : Answer) : (s.answer x).sba = s.sba := rfl
@[simp] theorem State.answer_hheLog (x : Answer) : (s.answer x).hheLog = s.hheLog := rfl
@[simp] theorem State.answer_ax (x : Answer) : (s.answer x).ax = s.ax := rfl
@[simp] theorem State.answer_qe (x : Answer) : (s.answer x).qe = s.qe := rfl
@[simp] theorem State.answer_ehm (x : Answer) : (s.answer x).ehm = s.ehm := rfl
@[simp] theorem State.answer_adc (x : Answer) : (s.answer x).adc = s.adc := rfl
@[simp] theorem State.answer_med (x : Answer) : (s.answer x).med = s.med := rfl
@[simp] theorem State.answer_cam (x : Answer) : (s.answer x).cam = s.cam := rfl
@[simp] theorem State.answer_flc (x : Answer) : (s.answer x).flc = s.flc := rfl
@[simp] theorem State.answer_csl (x : Answer) : (s.answer x).csl = s.csl := rfl
@[simp] theorem State.answer_sec (x : Answer) : (s.answer x).sec = s.sec := rfl
@[simp] theorem State.answer_uas (x : Answer) : (s.answer x).uas = s.uas := rfl
@[simp] theorem State.answer_spt (x : Answer) : (s.answer x).spt = s.spt := rfl
@[simp] theorem State.answer_fcc (x : Answer) : (s.answer x).fcc = s.fcc := rfl
@[simp] theorem State.answer_chip (x : Answer) : (s.answer x).chip = s.chip := rfl
@[simp] theorem State.answer_freeCtr (x : Answer) : (s.answer x).freeCtr = s.freeCtr := rfl

@[simp] theorem State.setSnap_pending (rq : Requester) (x : Option Snap) : (s.setSnap rq x).pending = s.pending := rfl
@[simp] theorem State.setSnap_time (rq : Requester) (x : Option Snap) : (s.setSnap rq x).time = s.time := rfl
@[simp] theorem State.setSnap_regs (rq : Requester) (x : Option Snap) : (s.setSnap rq x).regs = s.regs := rfl
@[simp] theorem State.setSnap_active (rq : Requester) (x : Option Snap) : (s.setSnap rq x).active = s.active := rfl
@[simp] theorem State.setSnap_pendSet (rq : Requester) (x : Option Snap) : (s.setSnap rq x).pendSet = s.pendSet := rfl
@[simp] theorem State.setSnap_mem (rq : Requester) (x : Option Snap) : (s.setSnap rq x).mem = s.mem := rfl
@[simp] theorem State.setSnap_pages (rq : Requester) (x : Option Snap) : (s.setSnap rq x).pages = s.pages := rfl
@[simp] theorem State.setSnap_reports (rq : Requester) (x : Option Snap) : (s.setSnap rq x).reports = s.reports := rfl
@[simp] theorem State.setSnap_queues (rq : Requester) (x : Option Snap) : (s.setSnap rq x).queues = s.queues := rfl
@[simp] theorem State.setSnap_nextUid (rq : Requester) (x : Option Snap) : (s.setSnap rq x).nextUid = s.nextUid := rfl
@[simp] theorem State.setSnap_seq (rq : Requester) (x : Option Snap) : (s.setSnap rq x).seq = s.seq := rfl
@[simp] theorem State.setSnap_rnd (rq : Requester) (x : Option Snap) : (s.setSnap rq x).rnd = s.rnd := rfl
@[simp] theorem State.setSnap_skn (rq : Requester) (x : Option Snap) : (s.setSnap rq x).skn = s.skn := rfl
@[simp] theorem State.setSnap_hhe (rq : Requester) (x : Option Snap) : (s.setSnap rq x).hhe = s.hhe := rfl
@[simp] theorem State.setSnap_hp (rq : Requester) (x : Option Snap) : (s.setSnap rq x).hp = s.hp := rfl
@[simp] theorem State.setSnap_sba (rq : Requester) (x : Option Snap) : (s.setSnap rq x).sba = s.sba := rfl
@[simp] theorem State.setSnap_hheLog (rq : Requester) (x : Option Snap) : (s.setSnap rq x).hheLog = s.hheLog := rfl
@[simp] theorem State.setSnap_ax (rq : Requester) (x : Option Snap) : (s.setSnap rq x).ax = s.ax := rfl
@[simp] theorem State.setSnap_qe (rq : Requester) (x : Option Snap) : (s.setSnap rq x).qe = s.qe := rfl
@[simp] theorem State.setSnap_ehm (rq : Requester) (x : Option Snap) : (s.setSnap rq x).ehm = s.ehm := rfl
@[simp] theorem State.setSnap_adc (rq : Requester) (x : Option Snap) : (s.setSnap rq x).adc = s.adc := rfl
@[simp] theorem State.setSnap_med (rq : Requester) (x : Option Snap) : (s.setSnap rq x).med = s.med := rfl
@[simp] theorem State.setSnap_cam (rq : Requester) (x : Option Snap) : (s.setSnap rq x).cam = s.cam := rfl
@[simp] theorem State.setSnap_flc (rq : Requester) (x : Option Snap) : (s.setSnap rq x).flc = s.flc := rfl
@[simp] theorem State.setSnap_csl (rq : Requester) (x : Option Snap) : (s.setSnap rq x).csl = s.csl := rfl
@[simp] theorem State.setSnap_sec (rq : Requester) (x : Option Snap) : (s.setSnap rq x).sec = s.sec := rfl
@[simp] theorem State.setSnap_uas (rq : Requester) (x : Option Snap) : (s.setSnap rq x).uas = s.uas := rfl
@[simp] theorem State.setSnap_spt (rq : Requester) (x : Option Snap) : (s.setSnap rq x).spt = s.spt := rfl
@[simp] theorem State.setSnap_fcc (rq : Requester) (x : Option Snap) : (s.setSnap rq x).fcc = s.fcc := rfl
@[simp] theorem State.setSnap_chip (rq : Requester) (x : Option Snap) : (s.setSnap rq x).chip = s.chip := rfl
@[simp] theorem State.setSnap_freeCtr (rq : Requester) (x : Option Snap) : (s.setSnap rq x).freeCtr = s.freeCtr := rfl

end Sys2Proof.Machine
end

