-- ==== Sys2Proof/Laws/Store.lean ====
section
/-! SUPPORT. Laws of the sparse stores: a read after a write, and the canonical form. -/

namespace Sys2Proof.Machine

variable {β : Type}

theorem sget_sins_same (d v : β) (k : Nat) (l : List (Nat × β)) : sget d k (sins k v l) = v := by
  induction l with
  | nil => simp [sins, sget]
  | cons e l ih =>
    obtain ⟨k', v'⟩ := e
    unfold sins
    split
    · next h => simp [sget, ih, Nat.ne_of_lt h]
    · split <;> simp [sget]

theorem sget_sins_ne (d v : β) {k j : Nat} (h : j ≠ k) (l : List (Nat × β)) : sget d j (sins k v l) = sget d j l := by
  induction l with
  | nil => simp [sins, sget, h.symm]
  | cons e l ih =>
    obtain ⟨k', v'⟩ := e
    unfold sins
    split
    · simp [sget, ih]
    · split
      · next hk => subst hk; simp [sget, h.symm]
      · simp [sget, h.symm]

theorem sget_filter_same (d : β) (k : Nat) (l : List (Nat × β)) : sget d k (l.filter fun e => e.1 != k) = d := by
  induction l with
  | nil => rfl
  | cons e l ih =>
    obtain ⟨k', v'⟩ := e
    by_cases h : k' = k <;> simp_all [List.filter_cons, sget]

theorem sget_filter_ne (d : β) {k j : Nat} (h : j ≠ k) (l : List (Nat × β)) :
    sget d j (l.filter fun e => e.1 != k) = sget d j l := by
  induction l with
  | nil => rfl
  | cons e l ih =>
    obtain ⟨k', v'⟩ := e
    by_cases hk : k' = k
    · subst hk
      simp_all [List.filter_cons, sget, h.symm]
    · simp_all [List.filter_cons, sget]

variable [DecidableEq β]

/-- A read after a write of the same key gives what was written. -/
@[simp] theorem sget_sput_same (d v : β) (k : Nat) (l : List (Nat × β)) : sget d k (sput d k v l) = v := by
  unfold sput
  split
  · next h => rw [sget_filter_same, h]
  · exact sget_sins_same d v k l

/-- A write leaves every other key alone, whatever that key's default. -/
theorem sget_sput_ne (d d' v : β) {k j : Nat} (h : j ≠ k) (l : List (Nat × β)) :
    sget d j (sput d' k v l) = sget d j l := by
  unfold sput
  split
  · exact sget_filter_ne d h l
  · exact sget_sins_ne d v h l

/-- Every key is above `k`. -/
def above (k : Nat) (l : List (Nat × β)) : Bool := l.all fun e => k < e.1

theorem ssorted_cons (e : Nat × β) (l : List (Nat × β)) : ssorted (e :: l) = (above e.1 l && ssorted l) := by
  induction l generalizing e with
  | nil => simp [ssorted, above]
  | cons a l ih =>
    rw [ssorted, ih, Bool.eq_iff_iff]
    simp only [above, List.all_cons, Bool.and_eq_true, decide_eq_true_eq, List.all_eq_true]
    constructor
    · rintro ⟨h1, h2, h3⟩
      exact ⟨⟨h1, fun x hx => Nat.lt_trans h1 (h2 x hx)⟩, h2, h3⟩
    · rintro ⟨⟨h1, _⟩, h2, h3⟩
      exact ⟨h1, h2, h3⟩

theorem above_sins {k j : Nat} (v : β) (l : List (Nat × β)) (h : j < k) (ha : above j l = true) :
    above j (sins k v l) = true := by
  induction l with
  | nil => simp [sins, above, h]
  | cons e l ih =>
    simp only [above, List.all_cons, Bool.and_eq_true, decide_eq_true_eq] at ha ih ⊢
    unfold sins
    split
    · simp [ha.1, ih ha.2]
    · split
      · simp [h, ha.2]
      · simp [h, ha.1, ha.2]

theorem ssorted_sins (k : Nat) (v : β) (l : List (Nat × β)) (h : ssorted l = true) : ssorted (sins k v l) = true := by
  induction l with
  | nil => rfl
  | cons e l ih =>
    rw [ssorted_cons, Bool.and_eq_true] at h
    unfold sins
    split
    · next hk => rw [ssorted_cons, Bool.and_eq_true]; exact ⟨above_sins v l hk h.1, ih h.2⟩
    · split
      · next hk => rw [ssorted_cons, Bool.and_eq_true]; exact ⟨hk ▸ h.1, h.2⟩
      · next h1 h2 =>
        have hk : k < e.1 := by omega
        rw [ssorted_cons, ssorted_cons, Bool.and_eq_true, Bool.and_eq_true]
        refine ⟨?_, h.1, h.2⟩
        simp only [above, List.all_cons, Bool.and_eq_true, decide_eq_true_eq, List.all_eq_true] at h ⊢
        exact ⟨hk, fun x hx => Nat.lt_trans hk (h.1 x hx)⟩

theorem above_filter (k : Nat) (p : Nat × β → Bool) (l : List (Nat × β)) (h : above k l = true) :
    above k (l.filter p) = true := by
  simp only [above, List.all_eq_true, List.mem_filter] at h ⊢
  exact fun x hx => h x hx.1

theorem ssorted_filter (p : Nat × β → Bool) (l : List (Nat × β)) (h : ssorted l = true) :
    ssorted (l.filter p) = true := by
  induction l with
  | nil => rfl
  | cons e l ih =>
    rw [ssorted_cons, Bool.and_eq_true] at h
    rw [List.filter_cons]
    split
    · rw [ssorted_cons, Bool.and_eq_true]; exact ⟨above_filter e.1 p l h.1, ih h.2⟩
    · exact ih h.2

theorem ssorted_sput (d v : β) (k : Nat) (l : List (Nat × β)) (h : ssorted l = true) :
    ssorted (sput d k v l) = true := by
  unfold sput
  split
  · exact ssorted_filter _ l h
  · exact ssorted_sins k v l h

theorem mem_sins {k : Nat} {v : β} {l : List (Nat × β)} {e : Nat × β} (h : e ∈ sins k v l) : e = (k, v) ∨ e ∈ l := by
  induction l with
  | nil => simpa [sins] using h
  | cons a l ih =>
    unfold sins at h
    split at h
    · rcases List.mem_cons.1 h with rfl | h
      · simp
      · rcases ih h with h | h <;> simp [h]
    · split at h <;> rcases List.mem_cons.1 h with h | h <;> simp [h]

/-- A byte written keeps memory in its canonical form. -/
theorem wf_sput (a : Nat) (v : Byte) (m : List Host.Cell) (h : Memory.wf m = true) :
    Memory.wf (sput (memDefault a) a v m) = true := by
  simp only [Memory.wf, Bool.and_eq_true, List.all_eq_true] at h ⊢
  refine ⟨ssorted_sput _ v a m h.1, ?_⟩
  unfold sput
  split
  · intro x hx
    exact h.2 x (List.mem_filter.1 hx).1
  · next hv =>
    intro x hx
    rcases mem_sins hx with rfl | hx
    · simpa using hv
    · exact h.2 x hx

theorem wf_filter (p : Host.Cell → Bool) (m : List Host.Cell) (h : Memory.wf m = true) :
    Memory.wf (m.filter p) = true := by
  simp only [Memory.wf, Bool.and_eq_true, List.all_eq_true] at h ⊢
  exact ⟨ssorted_filter p m h.1, fun x hx => h.2 x (List.mem_filter.1 hx).1⟩

end Sys2Proof.Machine
end

