-- ==== Sys2Proof/Laws/Base.lean ====
section
/-! SUPPORT. Laws of the shared operations: registers, fields, memory, and the guards of the meanings. -/

namespace Sys2Proof.Machine

-- guards

theorem keepOuter_eq {s t : State} (hp : t.pending = s.pending) (ht : t.chip.tap = s.chip.tap) :
    s.keepOuter t = t := by
  obtain ⟨⟩ := t
  simp only [State.keepOuter] at *
  subst hp
  rw [← ht]

@[simp] theorem keepOuter_self (s : State) : s.keepOuter s = s := rfl

/-- A command that needs the chip up runs, and neither the queue nor the TAP's instruction changes. -/
theorem whenUp_up {s : State} (h : s.Up) (f : State → State) : whenUp s f = .next (s.keepOuter (f s)) := by
  unfold whenUp
  rw [if_pos (show s.chip.phase = .up from h)]

/-- With the chip not up, it finds nothing to act on. -/
theorem whenUp_down {s : State} (h : ¬ s.Up) (f : State → State) : whenUp s f = .next s := by
  unfold whenUp
  rw [if_neg (show ¬ s.chip.phase = .up from h)]

theorem whenPage_open {pg : PageIx} {s : State} (h : s.Open pg) (f : State → State) :
    whenPage pg s f = .next (s.keepOuter (f s)) := by
  unfold whenPage
  rw [whenUp_up h.1, if_neg h.2]

theorem whenIf_true {b : State → Bool} {s : State} (h : s.Up) (hb : b s = true) (f : State → State) :
    whenIf b s f = .next (s.keepOuter (f s)) := by
  unfold whenIf
  rw [whenUp_up h, if_pos hb]

/-- Whatever the state, a guarded command answers a next state with the same queue and TAP instruction. -/
theorem whenUp_outer (s : State) (f : State → State) :
    ∃ t, whenUp s f = .next t ∧ t.pending = s.pending ∧ t.chip.tap = s.chip.tap := by
  unfold whenUp
  split <;> exact ⟨_, rfl, rfl, rfl⟩

-- registers

@[simp] theorem rd_wr_same (s : State) (r : Reg) (v : Word) (i j : Nat) : (s.wr r v i j).rd r i j = v := by
  simp [State.rd]

theorem rd_wr_ne (s : State) {r q : Reg} {i j k l : Nat} (v : Word) (h : q.addr k l ≠ r.addr i j) :
    (s.wr r v i j).rd q k l = s.rd q k l := by
  simp only [State.rd, State.wr_regs]
  exact sget_sput_ne _ _ _ h _

theorem byte_setByte_same (s : State) (a : Nat) (v : Byte) : (s.setByte a v).byte a = v := by
  simp [State.byte]

theorem byte_setByte_ne (s : State) {a b : Nat} (v : Byte) (h : b ≠ a) : (s.setByte a v).byte b = s.byte b := by
  simp only [State.byte, State.setByte_mem]
  exact sget_sput_ne _ _ _ h _

theorem byte_setBytes_out (s : State) (a : Nat) (l : List Byte) {b : Nat} (h : b < a ∨ a + l.length ≤ b) :
    (s.setBytes a l).byte b = s.byte b := by
  induction l generalizing s a with
  | nil => rfl
  | cons x l ih =>
    simp only [List.length_cons] at h
    rw [State.setBytes, ih _ _ (by omega), byte_setByte_ne _ _ (by omega)]

theorem byte_setBytes_in (s : State) (a : Nat) (l : List Byte) {k : Nat} (h : k < l.length) :
    (s.setBytes a l).byte (a + k) = l[k] := by
  induction l generalizing s a k with
  | nil => simp at h
  | cons x l ih =>
    rw [State.setBytes]
    cases k with
    | zero => rw [byte_setBytes_out _ _ _ (by omega)]; simp [byte_setByte_same]
    | succ k =>
      have := ih (s.setByte a x) (a + 1) (k := k) (by simpa using h)
      simpa [Nat.add_assoc, Nat.add_comm 1 k] using this

/-- Stored bytes change memory alone. -/
theorem setBytes_eq (s : State) (a : Nat) (l : List Byte) : s.setBytes a l = { s with mem := (s.setBytes a l).mem } := by
  induction l generalizing s a with
  | nil => rfl
  | cons x l ih => rw [State.setBytes, ih]; rfl

/-- A register write leaves the store as it was at every other address. -/
theorem sameRegs_wr (s : State) (r : Reg) (v : Word) (i j : Nat) : SameRegsBut [r.addr i j] s (s.wr r v i j) := by
  intro a d h
  exact sget_sput_ne _ _ _ (by simpa using h) _

theorem SameRegsBut.refl (l : List Nat) (s : State) : SameRegsBut l s s := fun _ _ _ => rfl

theorem SameRegsBut.trans {l m : List Nat} {s t u : State} (h : SameRegsBut l s t) (h' : SameRegsBut m t u)
    (hl : l ⊆ m) : SameRegsBut m s u := fun a d ha => (h' a d ha).trans (h a d fun hx => ha (hl hx))

-- fields

theorem testBit_wbits (w : Word) (lo n k : Nat) : (wbits w lo n).testBit k = (decide (k < n) && w.getLsbD (lo + k)) := by
  simp [wbits, bitsN, Nat.testBit_mod_two_pow, Nat.testBit_div_two_pow, BitVec.getLsbD, Nat.add_comm]

theorem getLsbD_setBits (w : Word) (lo n v k : Nat) (hk : k < 32) :
    (setBits w lo n v).getLsbD k = if lo ≤ k ∧ k < lo + n then v.testBit (k - lo) else w.getLsbD k := by
  simp only [setBits, BitVec.getLsbD_or, BitVec.getLsbD_and, BitVec.getLsbD_not, BitVec.getLsbD_ofNat, hk, decide_true,
    Bool.true_and, Nat.testBit_mul_two_pow, Nat.testBit_two_pow_sub_one, Nat.testBit_mod_two_pow]
  split
  · next h =>
    have h1 : k - lo < n := by omega
    simp [h.1, h1]
  · next h =>
    by_cases h1 : lo ≤ k
    · have : ¬ (k - lo < n) := by omega
      simp [h1, this]
    · simp [h1]

theorem wbits_setBits_same (w : Word) (lo n v : Nat) (h : lo + n ≤ 32) : wbits (setBits w lo n v) lo n = v % 2 ^ n := by
  apply Nat.eq_of_testBit_eq
  intro k
  rw [testBit_wbits, Nat.testBit_mod_two_pow]
  by_cases hk : k < n
  · rw [getLsbD_setBits _ _ _ _ _ (by omega)]
    simp [hk]
  · simp [hk]

theorem wbits_setBits_ne (w : Word) {lo n l m : Nat} (v : Nat) (hl : l + m ≤ 32) (h : l + m ≤ lo ∨ lo + n ≤ l) :
    wbits (setBits w lo n v) l m = wbits w l m := by
  apply Nat.eq_of_testBit_eq
  intro k
  rw [testBit_wbits, testBit_wbits]
  by_cases hk : k < m
  · rw [getLsbD_setBits _ _ _ _ _ (by omega), if_neg (by omega)]
  · simp [hk]

/-- A field reads what was written to it. -/
theorem fld_setFld_same (s : State) (f : Fld) (v i j : Nat) (h : f.lo + f.width ≤ 32) :
    (s.setFld f v i j).fld f i j = v % 2 ^ f.width := by
  simp [State.fld, State.setFld, wbits_setBits_same _ _ _ _ h]

/-- A field of another register, or of another copy, reads as before. -/
theorem fld_wr_ne (s : State) (f : Fld) {r : Reg} {i j k l : Nat} (v : Word) (h : f.reg.addr k l ≠ r.addr i j) :
    (s.wr r v i j).fld f k l = s.fld f k l := by
  simp [State.fld, rd_wr_ne _ _ h]

-- memory stays in its canonical form

theorem setByte_wf {s : State} (h : Memory.wf s.mem = true) (a : Nat) (v : Byte) : Memory.wf (s.setByte a v).mem = true :=
  wf_sput a v s.mem h

theorem setBytes_wf {s : State} (h : Memory.wf s.mem = true) (a : Nat) (l : List Byte) :
    Memory.wf (s.setBytes a l).mem = true := by
  induction l generalizing s a with
  | nil => exact h
  | cons x l ih => exact ih (setByte_wf h a x) (a + 1)

theorem set64_wf {s : State} (h : Memory.wf s.mem = true) (a : Nat) (v : BitVec 64) :
    Memory.wf (s.set64 a v).mem = true := setBytes_wf h a _

theorem srange_nil_wf {m : List Host.Cell} (lo hi : Nat) (h : Memory.wf m = true) (hl : lo ≤ hi) :
    Memory.wf (srange lo hi [] m) = true := by
  have hs : srange lo hi [] m = m.filter fun e => decide (e.1 < lo) || decide (hi ≤ e.1) := by
    have h1 := ((Bool.and_eq_true _ _).mp h).1
    clear h
    induction m with
    | nil => rfl
    | cons e l ih =>
      rw [ssorted_cons, Bool.and_eq_true] at h1
      have ih := ih h1.2
      simp only [srange, List.filter_nil, List.append_nil, List.filter_cons] at ih ⊢
      by_cases ha : e.1 < lo
      · have : ¬ hi ≤ e.1 := by omega
        simp [ha, this, ih]
      · by_cases hb : hi ≤ e.1
        · have hno : l.filter (fun e => decide (e.1 < lo)) = [] := by
            rw [List.filter_eq_nil_iff]
            intro x hx
            have := (List.all_eq_true.1 h1.1) x hx
            simp only [decide_eq_true_eq] at this ⊢
            omega
          rw [hno, List.nil_append] at ih
          simp [ha, hb, hno, ih]
        · simp [ha, hb, ih]
  rw [hs]
  exact wf_filter _ m h

theorem eraseRange_wf {s : State} (h : Memory.wf s.mem = true) (lo hi : Nat) (hl : lo ≤ hi) :
    Memory.wf (s.eraseRange lo hi).mem = true := srange_nil_wf lo hi h hl

theorem unblank_wf {s : State} (h : Memory.wf s.mem = true) (b : Fin 128) (l : Nat) :
    Memory.wf (s.unblank b l).mem = true := by
  unfold State.unblank
  split
  · exact h
  · exact srange_nil_wf _ _ h (by omega)

theorem coldStart_wf {s : State} (h : Memory.wf s.mem = true) : Memory.wf s.coldStart.mem = true := wf_filter _ _ h

end Sys2Proof.Machine
end

