-- ==== Sys2Proof/Laws/Bus.lean ====
section
/-! SUPPORT. Laws of register access: what a write or read of a register page does once its register is known. -/

namespace Sys2Proof.Machine

theorem reaches_of {rq : Requester} {wr : Bool} {a : Word} {pg : PageIx} (h : areaOf a.toNat = some (.page pg))
    (h4 : a.toNat % 4 = 0) (hr : reach rq wr (.page pg) = true) : reaches rq wr a = true := by
  simp [reaches, h, h4, hr]

/-- A write of a block-specific register that is in no writable pair is the block's. -/
theorem regWrite_block {s : State} {pg : PageIx} {r : Reg} {a i j : Nat} (rq : Requester) (keyed : Bool) (v : Word)
    (hp : pageOf a = some pg) (hs : (s.page pg).st ≠ .resetting) (ho : ¬ a - pageBase pg < 0x40)
    (hf : findReg (pageRegs pg) a = some (r, i, j)) (hl : r.isPairLo = false) (hh : r.isPairHi = false) :
    s.regWrite rq keyed a v = s.blockWrite rq keyed pg r i j v := by
  simp [State.regWrite, hp, hs, ho, hf, hl, hh]

/-- A read of a block-specific register that is in no pair. -/
theorem regRead_block {s : State} {pg : PageIx} {r : Reg} {a i j : Nat} (rq : Requester)
    (hp : pageOf a = some pg) (ho : ¬ a - pageBase pg < 0x40) (hf : findReg (pageRegs pg) a = some (r, i, j))
    (hl : r.hiHalf = none) (hh : r.isHi = false) :
    s.regRead rq a = (s.readTakes pg r, s.regWord rq pg r i j) := by
  simp [State.regRead, hp, ho, hf, hl, hh]

/-- With nothing posted there is nothing to settle. -/
theorem settleWrites_nil {s : State} (h : s.bus.posted = []) (rq : Requester) (ar : Area) : s.settleWrites rq ar = s := by
  simp [State.settleWrites, h, State.takeEffects]

end Sys2Proof.Machine
end

