-- ==== Sys2Proof/Laws/Seq.lean ====
section
/-! SUPPORT. Laws of the sequencer's shared operations: readiness, taking the issue slot, starting a command, and the
outcome of the one command in flight. -/

namespace Sys2Proof.Machine

-- queues and threads by number

@[simp] theorem q_modQ_same (s : State) (q : QNum) (f : Queue → Queue) : (s.modQ q f).q q = f (s.q q) := by
  simp [State.q, State.modQ]

theorem q_modQ_ne (s : State) {q o : QNum} (f : Queue → Queue) (h : o ≠ q) : (s.modQ q f).q o = s.q o := by
  have : ¬ q.val = o.val := fun e => h (Fin.ext e.symm)
  simp [State.q, State.modQ, this]

@[simp] theorem thr_modThr_same (s : State) (q : QNum) (f : Thread → Thread) : (s.modThr q f).thr q = f (s.thr q) := by
  simp [State.thr, State.modThr]

theorem thr_modThr_ne (s : State) {q o : QNum} (f : Thread → Thread) (h : o ≠ q) : (s.modThr q f).thr o = s.thr o := by
  have : ¬ q.val = o.val := fun e => h (Fin.ext e.symm)
  simp [State.thr, State.modThr, this]

@[simp] theorem q_modThr (s : State) (q o : QNum) (f : Thread → Thread) : (s.modThr o f).q q = s.q q := rfl
@[simp] theorem thr_modQ (s : State) (q o : QNum) (f : Queue → Queue) : (s.modQ o f).thr q = s.thr q := rfl

-- the turn of a thread

/-- The thread that takes the issue slot is ready. -/
theorem ready_of_pick {s : State} {q : QNum} (h : s.seqPick = some q) : s.seqReady q = true := by
  have h1 := List.mem_of_find?_eq_some h
  unfold State.seqPool at h1
  have h2 := (List.mem_filter.1 h1).1
  split at h2
  · exact (List.mem_filter.1 h2).2
  · exact (List.mem_filter.1 (List.mem_filter.1 h2).1).2

theorem pick_of_issuing {s : State} {q : QNum} {op : Nat} {e : Entry} (h : s.issuing q op = some e) :
    s.seqPick = some q ∧ (s.thr q).trapDue = false ∧ s.nextEntry q = some e ∧ e.opc = op ∧ e.malformed = none := by
  unfold State.issuing at h
  split at h
  · rename_i h1
    split at h
    · rename_i e' he
      split at h
      · rename_i h2
        cases h
        exact ⟨h1.1, by simpa using h1.2, he, h2⟩
      · cases h
    · cases h
  · cases h

/-- In the ring a ready thread waits for nothing, and its queue runs. -/
theorem ring_ready {s : State} {q : QNum} (h : s.seqReady q = true) (hp : s.spot q = .ring)
    (ht : (s.thr q).trapDue = false) :
    s.running Pg.seq = true ∧ (s.q q).mode = .run ∧ (s.thr q).wait = .none := by
  unfold State.seqReady at h
  simp only [hp, ht, Bool.false_or, Bool.and_eq_true] at h
  obtain ⟨h0, ⟨⟨⟨⟨⟨⟨h1, h2⟩, -⟩, -⟩, -⟩, -⟩, -⟩⟩ := h
  exact ⟨h0, eq_of_beq h1, eq_of_beq h2⟩

theorem spot_ring {s : State} {q : QNum} (h : s.spot q = .ring) : (s.thr q).trap = none ∧ (s.thr q).levels = [] := by
  unfold State.spot at h
  split at h
  · cases h
  · rename_i h1
    split at h
    · rename_i h2
      exact ⟨by simpa using h1, by simpa using h2⟩
    · cases h

/-- Threads and the order of their turns may differ; every thread but `q` has at most been passed over. -/
def TurnFrame (q : QNum) (s t : State) : Prop :=
  t = { s with seq := { s.seq with threads := t.seq.threads, lastAt := t.seq.lastAt } } ∧
  ∀ o, o ≠ q → t.thr o = { s.thr o with passed := (t.thr o).passed }

theorem turn_refl (q : QNum) (s : State) : TurnFrame q s s := ⟨rfl, fun _ _ => rfl⟩

theorem turn_modThr {q : QNum} {s t : State} (h : TurnFrame q s t) (f : Thread → Thread) :
    TurnFrame q s (t.modThr q f) := by
  refine ⟨?_, fun o ho => ?_⟩
  · rw [h.1]; rfl
  · rw [thr_modThr_ne _ _ ho]; exact h.2 o ho

theorem turn_pass {q : QNum} {s t : State} (h : TurnFrame q s t) {l : List QNum} (hl : q ∉ l) :
    TurnFrame q s (l.foldl (fun s o => s.modThr o fun t => { t with passed := t.passed + 1 }) t) ∧
    (l.foldl (fun s o => s.modThr o fun t => { t with passed := t.passed + 1 }) t).thr q = t.thr q := by
  induction l generalizing t with
  | nil => exact ⟨h, rfl⟩
  | cons a l ih =>
    have ha : q ≠ a := fun e => hl (by simp [e])
    have h1 : TurnFrame q s (t.modThr a fun t => { t with passed := t.passed + 1 }) := by
      refine ⟨by rw [h.1]; rfl, fun o ho => ?_⟩
      by_cases hoa : o = a
      · subst hoa
        rw [thr_modThr_same, h.2 o ho]
      · rw [thr_modThr_ne _ _ hoa]
        exact h.2 o ho
    obtain ⟨h2, h3⟩ := ih h1 (fun e => hl (by simp [e]))
    exact ⟨h2, h3.trans (thr_modThr_ne _ _ ha)⟩

theorem turn_last {q : QNum} {s t : State} (h : TurnFrame q s t) (l : Vector (Option QNum) 4) :
    TurnFrame q s { t with seq := { t.seq with lastAt := l } } := by
  refine ⟨?_, h.2⟩
  rw [h.1]

/-- Taking the issue slot: the thread's count of slots passed over is 0 again. -/
theorem tookSlot_frame (s : State) (q : QNum) :
    TurnFrame q s (s.tookSlot q) ∧ (s.tookSlot q).thr q = { s.thr q with passed := 0 } := by
  unfold State.tookSlot
  have hq : q ∉ (List.finRange 16).filter fun o => s.seqReady o && decide ((s.seqPrio o).val < (s.seqPrio q).val) := by
    intro h
    have h2 := (List.mem_filter.1 h).2
    simp at h2
  obtain ⟨h1, h2⟩ := turn_pass (turn_refl q s) hq
  refine ⟨turn_last (turn_modThr h1 _) _, ?_⟩
  refine (thr_modThr_same _ q fun t => { t with passed := 0 }).trans ?_
  rw [h2]

-- starting a command

/-- Taking the slot and, but for control flow, clearing the count of transfers. -/
theorem slot_frame (s : State) (q : QNum) (e : Entry) :
    TurnFrame q s (if 0x40 ≤ e.opc ∧ e.opc ≤ 0x44 then s.tookSlot q
      else (s.tookSlot q).modThr q fun t => { t with transfers := 0 }) ∧
    (if 0x40 ≤ e.opc ∧ e.opc ≤ 0x44 then s.tookSlot q
      else (s.tookSlot q).modThr q fun t => { t with transfers := 0 }).thr q =
      { s.thr q with
        passed := 0, transfers := if 0x40 ≤ e.opc ∧ e.opc ≤ 0x44 then (s.thr q).transfers else 0 } := by
  obtain ⟨h1, h2⟩ := tookSlot_frame s q
  split
  · exact ⟨h1, h2⟩
  · refine ⟨turn_modThr h1 _, ?_⟩
    rw [thr_modThr_same, h2]

/-- Starting an entry of the ring of a queue with nothing else in flight. -/
theorem begin_ring {s : State} {q : QNum} (e : Entry) (hp : s.spot q = .ring) (hc : s.Clear q) :
    (s.begin q e).2 = some s.nextUid ∧ IssueFrame q s (s.begin q e).1 ∧
    (s.begin q e).1.q q =
      { s.q q with next := (s.q q).next + BitVec.ofNat 16 e.slots, cmds := [s.taken q e] } ∧
    (s.begin q e).1.thr q =
      { s.thr q with
        passed := 0, transfers := if 0x40 ≤ e.opc ∧ e.opc ≤ 0x44 then (s.thr q).transfers else 0 } := by
  obtain ⟨h1, h2⟩ := slot_frame s q e
  unfold State.begin
  simp only [hp]
  generalize hu : (if 0x40 ≤ e.opc ∧ e.opc ≤ 0x44 then s.tookSlot q
      else (s.tookSlot q).modThr q fun t => { t with transfers := 0 }) = u at h1 h2 ⊢
  have hq : u.q q = s.q q := by rw [h1.1]; rfl
  have hn : u.nextUid = s.nextUid := by rw [h1.1]
  have hr : ∀ i, u.ringEntry q i = s.ringEntry q i := fun i => by rw [h1.1]; rfl
  simp only [hn]
  refine ⟨trivial, ⟨?_, fun o ho => ?_⟩, ?_, ?_⟩
  · simp only [q_modQ_same]
    rw [h1.1]
    rfl
  · exact h1.2 o ho
  · rw [q_modQ_same]
    have hq' : ∀ x, ({ u with nextUid := s.nextUid + 1, sec := x } : State).q q = s.q q := fun _ => hq
    simp only [hq', hq, hc.1, List.nil_append, hr, State.taken]
  · exact h2

/-- A well-formed command of the ring issues and is carried out. -/
theorem issueCmd_ring {s : State} {q : QNum} {op : Nat} {e : Entry} (h : s.Issues q op e)
    (ha : allowedAt op .ring = true) (hp : needsPort op = true → (s.qPort q).isSome = true)
    (k : Entry → State → Nat → State) :
    ∃ u, s.issueCmd q op k = k e u s.nextUid ∧ IssueFrame q s u ∧
      u.q q = { s.q q with next := (s.q q).next + BitVec.ofNat 16 e.slots, cmds := [s.taken q e] } ∧
      u.thr q = { s.thr q with
        passed := 0, transfers := if 0x40 ≤ op ∧ op ≤ 0x44 then (s.thr q).transfers else 0 } ∧
      (s.q q).mode = .run ∧ (s.thr q).wait = .none ∧ (s.thr q).trap = none ∧ (s.thr q).levels = [] := by
  obtain ⟨-, hi, hs, hc⟩ := h
  obtain ⟨h1, h2, h3, h4, h5⟩ := pick_of_issuing hi
  obtain ⟨-, hm, hw⟩ := ring_ready (ready_of_pick h1) hs h2
  obtain ⟨ht, hl⟩ := spot_ring hs
  obtain ⟨b1, b2, b3, b4⟩ := begin_ring e hs hc
  rw [h4] at b4
  refine ⟨(s.begin q e).1, ?_, b2, b3, b4, hm, hw, ht, hl⟩
  have hport : (s.begin q e).1.qPort q = s.qPort q := by rw [b2.1]; rfl
  unfold State.issueCmd State.issue State.start
  simp only [hi, h4, hs, ha, not_true_eq_false, if_false, hport, b1]
  rw [if_neg]
  intro hx
  have := hp hx.1
  rw [Option.isNone_iff_eq_none] at hx
  rw [hx.2] at this
  cases this

/-- As `issueCmd_ring`, for a command that also stands in trap lists. -/
theorem issue_ring {s : State} {q : QNum} {op : Nat} {e : Entry} (h : s.Issues q op e)
    (ha : allowedAt op .ring = true) (hp : needsPort op = false) (k : Entry → State → Option Nat → State) :
    ∃ u, s.issue q op k = k e u (some s.nextUid) ∧ IssueFrame q s u ∧
      u.q q = { s.q q with next := (s.q q).next + BitVec.ofNat 16 e.slots, cmds := [s.taken q e] } ∧
      u.thr q = { s.thr q with
        passed := 0, transfers := if 0x40 ≤ op ∧ op ≤ 0x44 then (s.thr q).transfers else 0 } ∧
      (s.q q).mode = .run ∧ (s.thr q).wait = .none ∧ (s.thr q).trap = none ∧ (s.thr q).levels = [] := by
  obtain ⟨-, hi, hs, hc⟩ := h
  obtain ⟨h1, h2, h3, h4, h5⟩ := pick_of_issuing hi
  obtain ⟨-, hm, hw⟩ := ring_ready (ready_of_pick h1) hs h2
  obtain ⟨ht, hl⟩ := spot_ring hs
  obtain ⟨b1, b2, b3, b4⟩ := begin_ring e hs hc
  rw [h4] at b4
  refine ⟨(s.begin q e).1, ?_, b2, b3, b4, hm, hw, ht, hl⟩
  unfold State.issue State.start
  simp [hi, h4, hs, ha, hp, b1]

-- the outcome of the one command in flight

/-- A thread in no list leaves none. -/
theorem leaveList_id {s : State} {q : QNum} (h : (s.thr q).levels = []) : s.leaveList q = s := by
  unfold State.leaveList
  rw [if_pos (by rw [h]; rfl)]

theorem atEntry_id {s : State} {q : QNum} (h : (s.thr q).levels = []) : s.atEntry q = s := by
  unfold State.atEntry
  rw [leaveList_id h]
  split <;> rfl

/-- Setting the outcome of the one command in flight, of the ring. -/
theorem finish1_one {s : State} {q : QNum} {c : Cmd} (hc : (s.q q).cmds = [c]) (hk : (s.q q).conts = [])
    (ho : c.out = none) (hl : (s.thr q).levels = []) (st tag : Byte) (rl : Word) :
    s.finish1 q c.uid st tag rl =
      ((s.dropStep c.uid).modQ q fun x =>
        { x with cmds := [{ c with out := some st, outTime := s.timeLo, tag := tag, resume := rl }] }).modThr q
          fun t => { t with wait := t.wait.after c.uid } := by
  have hm : ∀ f, (s.dropStep c.uid).modCmd q c.uid f = (s.dropStep c.uid).modQ q fun x => { x with cmds := [f c] } := by
    intro f
    have hq : (s.dropStep c.uid).queues[q] = s.q q := rfl
    simp only [State.modCmd, State.modQ, hq, hc, hk, setCmd, List.map_cons, List.map_nil, ho, Option.isNone_none,
      and_self, if_true]
  unfold State.finish1
  simp only [hm]
  rw [atEntry_id]
  rw [thr_modThr_same]
  exact hl

theorem fenceCheck_id {s : State} {q : QNum} (h : ∀ c ∈ (s.q q).cmds, c.e.opc = 0x50 → c.out.isSome = true) :
    s.fenceCheck q = s := by
  unfold State.fenceCheck
  have : (s.q q).cmds.find? (fun c => c.e.opc == 0x50 && c.out.isNone) = none := by
    rw [List.find?_eq_none]
    intro c hc hx
    simp only [Bool.and_eq_true, beq_iff_eq] at hx
    have := h c hc hx.1
    rw [Option.isNone_iff_eq_none] at hx
    rw [hx.2] at this
    cases this
  simp only [this]

/-- With no FENCE that waits and no call to close, nothing follows. -/
theorem closeCalls_id {s : State} {q : QNum} (h : ∀ c ∈ (s.q q).cmds, c.e.opc = 0x50 → c.out.isSome = true)
    (h' : ∀ c ∈ (s.q q).cmds ++ (s.q q).conts, c.call = true → c.closed = true → c.out.isSome = true) (n : Nat) :
    s.closeCalls q n = s := by
  cases n with
  | zero => rfl
  | succ n =>
    unfold State.closeCalls
    rw [fenceCheck_id h]
    have : ((s.q q).cmds ++ (s.q q).conts).find? (fun c =>
        c.call && c.closed && c.out.isNone && ((s.q q).kids c.uid).all fun k => k.out.isSome) = none := by
      rw [List.find?_eq_none]
      intro c hc hx
      simp only [Bool.and_eq_true] at hx
      have := h' c hc hx.1.1.1 hx.1.1.2
      rw [Option.isNone_iff_eq_none] at hx
      rw [hx.1.2] at this
      cases this
    simp only [this]

/-- The one command in flight, of the ring, completes with a status that does not halt. -/
theorem finish_one {s : State} {q : QNum} {c : Cmd} (hc : (s.q q).cmds = [c]) (hk : (s.q q).conts = [])
    (ho : c.out = none) (hp : c.e.opc ≠ 0x15) (hv : (s.thr q).levels = []) (st : Byte) (hh : halting st = false) :
    s.finish q c.uid st =
      ((s.dropStep c.uid).modQ q fun x => { x with cmds := [s.done c st] }).modThr q
          fun t => { t with wait := t.wait.after c.uid } := by
  have hl : s.liveCmd q c.uid = some c := by
    simp [State.liveCmd, hc, hk, ho]
  unfold State.finish
  simp only [hl, hp, if_false, hh, Bool.false_eq_true]
  have hq : (s.dropStep c.uid).q q = s.q q := rfl
  rw [finish1_one hc hk ho hv, closeCalls_id]
  · rfl
  · simp [hq]
  · simp [hq, hk]

/-- A thread in no list that waits for nothing stays as it is when its queue is bound off. -/
theorem leaveAtBoundary_id {s : State} {q : QNum} (h : (s.thr q).levels = []) (hw : (s.thr q).wait = .none) :
    s.leaveAtBoundary q = s := by
  unfold State.leaveAtBoundary
  rw [if_pos hw, leaveList_id h]

/-- The one command in flight, of the ring, completes with a status that halts: the queue is bound off. -/
theorem finish_halt {s : State} {q : QNum} {c : Cmd} (hc : (s.q q).cmds = [c]) (hk : (s.q q).conts = [])
    (ho : c.out = none) (hp : c.e.opc ≠ 0x15) (hr : c.parent = none) (hl : (s.thr q).levels = [])
    (hw : (s.thr q).wait.after c.uid = .none) (hm : (s.q q).mode = .run) (st : Byte) (hh : halting st = true) :
    s.finish q c.uid st =
      ((s.dropStep c.uid).modQ q fun x => { x with cmds := [s.done c st], mode := .bindoff, haltGiven := false }).modThr q
          fun t => { t with wait := t.wait.after c.uid } := by
  have hlive : s.liveCmd q c.uid = some c := by
    simp [State.liveCmd, hc, hk, ho]
  have hring : c.ring = true := by simp [Cmd.ring, hr]
  unfold State.finish
  simp only [hlive, hp, if_false, hh, if_true, hring]
  rw [finish1_one hc hk ho hl]
  have hb : State.bindOff (((s.dropStep c.uid).modQ q fun x =>
        { x with cmds := [{ c with out := some st, outTime := s.timeLo, tag := c.tag, resume := c.resume }] }).modThr q
          fun t => { t with wait := t.wait.after c.uid }) q =
      ((s.dropStep c.uid).modQ q fun x => { x with cmds := [s.done c st], mode := .bindoff, haltGiven := false }).modThr q
          fun t => { t with wait := t.wait.after c.uid } := by
    unfold State.bindOff
    rw [if_pos]
    · rw [leaveAtBoundary_id]
      · simp only [State.modQ, State.modThr, State.done]
        simp
      · rw [thr_modQ, thr_modThr_same]
        exact hl
      · rw [thr_modQ, thr_modThr_same]
        exact hw
    · rw [q_modThr, q_modQ_same]
      exact hm
  rw [hb, closeCalls_id]
  · simp [State.done]
  · have : (s.dropStep c.uid).q q = s.q q := rfl
    simp [this, hk, State.done]

end Sys2Proof.Machine
end

