-- ==== Sys2Proof/WellFormed.lean ====
section
/-! DEFINITION. Which operands a command may carry: the sizes, alignments and counts that the spec gives them. Commands
that break these are still run; the meanings are total. -/

namespace Sys2Proof

/-- The operands are ones that the hardware can meet. -/
def Instr.wf : Instr → Bool
  | .crossbarAccess _ _ size _ _ beats =>  -- 02 R30, 01 R15
    ((size == 1 || size == 2 || size == 4) && beats.isEmpty) ||
      ((size == 16 || size == 32 || size == 48 || size == 64) && 4 * (beats.length + 1) == size)
  | .loReadSnapshot _ a | .hiRead _ a | .loWriteHold _ a _ | .hiWritePair _ a _
  | .counterClear _ a _ => a.toNat % 4 == 0  -- 02 R30
  | .flashDemandRead _ a => a.toNat % 4 == 0 && a.toNat < 0x1000000  -- 14 R347
  | .initialCalibrationDone means => means.length == 9  -- 11 R289
  | .csiLongPacket _ _ pixels _ _ _ => pixels.all fun x => x < 4096  -- 13 R320
  | .i2cTransactionEnd _ _ rx => rx.length ≤ 16  -- 13 R330
  | .poll _ l | .regRd _ l | .regWr _ l | .kregWr _ l _ | .enq _ l | .memWr _ l | .memRd _ l | .bulkWr _ l | .bulkRd _ l =>
    l.length ≤ 256  -- 15 R379
  | .uartCharReceived _ samples _ _ => samples.all fun b => b.length == 1 || b.length == 3  -- 17 R432
  | _ => true

end Sys2Proof
end

