-- ==== Sys2Proof/Tests/Slice0.lean ====
section
/-! SUPPORT. The modeller's own tests: ill-formed terms, single steps on small states, and for each statement a state
that meets its hypotheses. Expected results come from the rules cited; every test is one evaluation. -/

namespace Sys2Proof.Tests

open Sys2Proof.Machine

set_option Elab.async false

/-- The command answers a next state with the property. -/
def gives (c : Instr) (s : State) (p : State → Bool) : Bool :=
  match exec c s with
  | .next t => p t
  | _ => false

/-- The next state that a command answers. -/
def nextOf (c : Instr) (s : State) : State :=
  match exec c s with
  | .next t => t
  | _ => s

/-- Blocks put into RUN. -/
def runs (l : List PageIx) (s : State) : State := l.foldl (fun s p => s.modPage p fun x => { x with st := .run, en := true }) s

/-- An entry from its four words. -/
def entry (w0 w1 w2 w3 : Word) : Entry := ⟨w0, w1, w2, w3⟩

/-- Put an entry into memory. -/
def putEntry (a : Nat) (e : Entry) (s : State) : State := (((s.setWord a e.w0).setWord (a + 4) e.w1).setWord (a + 8) e.w2).setWord (a + 12) e.w3

/-- Queue 3 runs, bound to head port 0, with `n` entries presented at 0x20000000. -/
def ring (n : BitVec 16) (s : State) : State :=
  (s.wr R.QMG_Qn_CFG 0x11101 3).modQ 3 fun x => { x with mode := .run, tail := n, pres := n }

/-- SEC has the check of a command of `rq` that reached it at `t` to make. -/
def sChecking (rq : Requester) (t : BitVec 64) (s : State) : State := { s with sec := { s.sec with checks := [(rq, t)] } }
/-- Queue 3 with one entry in its ring. -/
def one (e : Entry) : State := putEntry 0x20000000 e (ring 1 State.reset)


-- ill-formed operands, one for each check of WellFormed, and the well-formed neighbour

theorem test_wf_crossbar : (Instr.crossbarAccess .spt true 3 0x20000000 0 []).wf = false ∧ (Instr.crossbarAccess .spt true 4 0x20000000 0 []).wf = true ∧
    (Instr.crossbarAccess .spt true 4 0x20000000 0 [1]).wf = false ∧ (Instr.crossbarAccess .spt true 16 0x20000000 0 [1, 2, 3]).wf = true := by decide
theorem test_wf_registers : [Instr.loReadSnapshot .spt 0x40000052, .hiRead .spt 0x40000053,
    .loWriteHold .spt 0x4005121A 0, .hiWritePair .spt 0x4005121D 0, .counterClear .spt 0x4000E04D 0].map Instr.wf = List.replicate 5 false := by decide
theorem test_wf_flash : (Instr.flashDemandRead (.seq 3) 2).wf = false ∧ (Instr.flashDemandRead (.seq 3) 0x1000000).wf = false ∧
    (Instr.flashDemandRead (.seq 3) 0xFFFFFC).wf = true := by decide
theorem test_wf_calibration : (Instr.initialCalibrationDone []).wf = false ∧ (Instr.initialCalibrationDone (List.replicate 9 [])).wf = true := by decide
theorem test_wf_csi : (Instr.csiLongPacket 0 0x2C [4096] .good true).wf = false := by decide
theorem test_wf_i2c : (Instr.i2cTransactionEnd 0 .ok (List.replicate 17 0)).wf = false := by decide +kernel
theorem test_wf_uart : (Instr.uartCharReceived 0 [[true, false]] false).wf = false ∧ (Instr.uartCharReceived 0 [[true], [true, true, false]] false).wf = true := by decide
theorem test_wf_link : (Instr.poll 0 (List.replicate 257 0)).wf = false ∧ (Instr.bulkWr 0 (List.replicate 256 0)).wf = true := by decide +kernel
theorem test_memory_wf : Memory.wf [(5, 1), (9, 0)] = true ∧ Memory.wf [(9, 0), (5, 1)] = false ∧ Memory.wf [(5, 0xFF)] = false := by decide +kernel

-- the block: pieces 00 to 03

theorem test_witness_queue : ({ State.reset with pending := [.clkloss 0 100, .scanStart] } : State).pending = [.clkloss 0 100, .scanStart] ∧
    State.reset.pending = [] ∧ State.reset.Up := by decide +kernel
theorem test_step_takes_front : (match step { State.reset with pending := [.clkloss 0 100, .scanStart] } with
    | .next t => t.pending == [.scanStart] && t.reports.length == 1
    | _ => false) = true := by decide +kernel
theorem test_step_idle : (match step State.reset with
    | .next t => t == { State.reset with time := 1 }
    | _ => false) = true := by decide +kernel
def sDown : State := { State.reset with chip := { State.reset.chip with phase := .failed } }
theorem test_witness_held : ¬ sDown.Up ∧ sDown.chip.tap.holds = false ∧ gives (.clkloss 0 100) sDown (fun t => t == sDown) = true := by decide +kernel
theorem test_reset_queue_pages : (State.reset.page Pg.spt).st = .run ∧ (State.reset.page Pg.sba).st = .off := by decide +kernel

theorem test_witness_register_write : (State.reset.settleWrites .spt (.page Pg.skn)).Open Pg.skn ∧ State.reset.Open Pg.sys ∧
    State.reset.WritesAt .spt 0x40006040 ∧ State.reset.WritesAt .transom 0x40000040 := by decide +kernel
/-- 01 R19: an earlier posted write of the page acts first. -/
theorem test_register_write_waits : gives (.registerWrite .spt 0x40006040 7)
    { State.reset with bus := { State.reset.bus with posted := [{ rq := .spt, addr := 0x40006040, val := 5, size := 4 }] } }
    (fun t => t.rd R.SKN_AGE &&& 0xFFFF == 7 && t.bus.posted == []) = true := by decide +kernel
/-- 01 R13, 02 R31: no page is there, and a misaligned register write. -/
theorem test_witness_register_refused : areaOf 0x4000F000 = none ∧ sizeOk (.page Pg.skn) 4 0x40006042 = false := by decide +kernel
theorem test_register_refused : gives (.registerWrite .spt 0x4000F000 1) State.reset (fun t => t.rd R.SYS_AERR_ADDR == 0x4000F000) = true ∧
    gives (.registerWrite .spt 0x40006042 1) State.reset (fun t => t.rd R.SYS_AERR_ADDR == 0x40006042) = true := by decide +kernel
theorem test_register_write : gives (.registerWrite .spt 0x40006040 0xFFFFFFFF) State.reset (fun t =>
    t.rd R.SKN_AGE &&& 0xFFFF == 0xFFFF && t.rd R.SKN_AGE >>> 16 == State.reset.rd R.SKN_AGE >>> 16) = true := by decide +kernel
def sCounter : State := State.reset.wr R.MOC_ADVDISC 0x80000005
theorem test_witness_counter_clear : R.MOC_ADVDISC ∈ pageRegs Pg.moc ∧ R.MOC_ADVDISC.sat = true ∧ R.MOC_ADVDISC ≠ R.SYS_AERR_INFO ∧
    pageOf (R.MOC_ADVDISC.addr 0 0) = some Pg.moc ∧ sCounter.Open Pg.moc ∧ sCounter.WritesAt .spt 0x4000E04C := by decide +kernel
/-- Every SAT counter of R48 stands on its page, and one on each page that has any. -/
theorem test_sat_counters : ((List.finRange 44).all fun pg => (pageRegs pg).all fun r => !r.sat ||
    (List.range r.c1).all fun i => (List.range r.c2).all fun j => pageOf (r.addr i j) != some pg || regIs (·.sat) (BitVec.ofNat 32 (r.addr i j))) = true ∧
    (pageRegs Pg.flc).contains R.FLC_CORR1 = true := by decide +kernel
def sWarned : State := { sCounter with flc := { FlcSt.reset with warned := Vector.replicate 4 true } }
theorem test_counter_corr : gives (.counterClear .spt (BitVec.ofNat 32 (R.FLC_CORR1.addr 0 0)) 0) (sWarned.wr R.FLC_CORR1 7) (fun t =>
    t.rd R.FLC_CORR1 == 0 && t.flc.warned.toList == [true, false, true, true]) = true := by decide +kernel
theorem test_counter_clear : gives (.counterClear .spt 0x4000E04C 0) sCounter (fun t => t.rd R.MOC_ADVDISC == 0) = true ∧
    gives (.counterClear .spt 0x4000E04C 7) sCounter (fun t => t == sCounter) = true := by decide +kernel
theorem test_witness_crossbar : areaOf 0x20000102 = some .wram ∧ reach .csl true .wram = true ∧ sizeOk .wram 2 0x20000102 = true ∧
    reach .csl false .wram = true ∧ areaOf 0x50000000 = none ∧ sizeOk .wram 4 0x20000102 = false ∧
    State.reset.mayAccess .csl 0x20000102 = true ∧ isBurst 32 = true ∧ burstOk .csl true 32 0x20000100 = true ∧ burstOk .csl true 32 0x20000108 = false ∧
    State.reset.rd R.SYS_AERR_INFO = 0 := by decide +kernel
theorem test_crossbar_refuses : gives (.crossbarAccess .csl true 4 0x50000000 9 []) State.reset (fun t =>
    t.rd R.SYS_AERR_ADDR == 0x50000000 && t.reports.map (·.page) == [Pg.sys] && t.bus.posted == []) = true ∧
    gives (.crossbarAccess .csl false 4 0x20000102 0 []) State.reset (fun t => t.bus.answers.map (·.err) == [true]) = true := by decide +kernel
/-- 01 R15: a burst of one beat posts its four words in order. -/
theorem test_burst : gives (.crossbarAccess .csl true 16 0x20000100 1 [2, 3, 4]) State.reset (fun t =>
    t.bus.posted.map (fun x => (x.addr, x.val)) == [(0x20000100, 1), (0x20000104, 2), (0x20000108, 3), (0x2000010C, 4)]) = true ∧
    gives (.crossbarAccess .csl false 16 0x20000104 0 []) State.reset (fun t => t.bus.answers.map (·.err) == [true]) = true := by decide +kernel
def sPosted : State := { State.reset with bus := { State.reset.bus with posted := [{ rq := .csl, addr := 0x20000102, val := 0xABCD1234, size := 2 }] } }
theorem test_witness_posted : sPosted.bus.posted = [{ rq := .csl, addr := 0x20000102, val := 0xABCD1234, size := 2 }] ∧ sPosted.Up := by
  decide +kernel
theorem test_posted : gives (.writeTakesEffect .csl 0x20000102) sPosted (fun t =>
    t.byte 0x20000102 == 0x34 && t.byte 0x20000103 == 0x12 && t.byte 0x20000104 == 0) = true := by decide +kernel
theorem test_wram_read : gives (.crossbarAccess .csl false 2 0x20000102 0 []) (State.reset.setWord 0x20000100 0x12345678) (fun t =>
    t.bus.answers.map (·.val) == [0x1234]) = true := by decide +kernel
def sTime : State := { State.reset with time := 0x1234567890 }
theorem test_witness_pair_read : sTime.ReadsAt .csl 0x40000050 ∧ sTime.ReadsAt .csl 0x40000054 ∧
    (nextOf (.loReadSnapshot .csl 0x40000050) sTime).snapOf .csl = some (.hi 0x40000054 0x12) := by decide +kernel
theorem test_pair_read : gives (.hiRead .csl 0x40000054) { nextOf (.loReadSnapshot .csl 0x40000050) sTime with time := 0 } (fun t =>
    (t.bus.answers.head?.map (·.val)) == some 0x12) = true := by decide +kernel
theorem test_witness_pair_write : (runs [Pg.sec] State.reset).Open Pg.sec ∧ (runs [Pg.sec] State.reset).flag F.SEC_MBm_CTL_BUSY 0 = false ∧
    (nextOf (.loWriteHold .spt 0x40051218 5) (runs [Pg.sec] State.reset)).snapOf .spt = some (.lo 0x40051218 5) ∧
    State.reset.snapOf .spt = none ∧ State.reset.bus.posted = [] := by decide +kernel

def sSpt (st : BlockSt) (en : Bool) : State := State.reset.modPage Pg.spt fun x => { x with st := st, en := en }
theorem test_witness_block_states : (∀ q : QNum, State.reset.qEn q = false ∧ (State.reset.q q).cmds = [] ∧ (State.reset.q q).conts = []) ∧
    ((sSpt .off false).page Pg.spt).st = .off ∧ ((sSpt .off false).page Pg.spt).pend = false ∧
    ((sSpt .run true).page Pg.spt).st = .run ∧ ((sSpt .draining false).page Pg.spt).en = false ∧
    ((sSpt .draining false).page Pg.spt).st = .draining ∧ ((sSpt .resetting true).page Pg.spt).st = .resetting ∧
    pageOf (0x40064040 : Word).toNat = some Pg.spt ∧ (sSpt .resetting true).WritesAt .csl 0x40064040 := by decide +kernel
theorem test_block_states : gives (.blockDrain Pg.spt) (sSpt .run true) (fun t => t == sSpt .draining false) = true ∧
    gives (.blockEnable Pg.spt) (sSpt .draining false) (fun t => t == sSpt .draining true) = true ∧
    gives (.blockEnable Pg.spt) (sSpt .resetting false) (fun t => t == sSpt .resetting false) = true := by decide +kernel
def sSba : State := (runs [Pg.sba] State.reset).wr R.SBA_PCAPp 9 0
theorem test_witness_commit : sSba.Up ∧ (sSba.page Pg.sba).st = .run ∧ ((nextOf (.pgCommit Pg.sba) sSba).page Pg.sba).pend = true := by
  decide +kernel
theorem test_commit : gives (.commitDone Pg.sba) (nextOf (.pgCommit Pg.sba) sSba) (fun t => t.rdAct R.SBA_PCAPp 0 == 9) = true := by
  decide +kernel
theorem test_witness_force : State.reset.chip.sysStopped = false ∧ State.reset.Open Pg.adc := by decide +kernel
theorem test_force : gives (.pgFltForce Pg.adc 0x80000003) State.reset (fun t => t.reports.map (fun r => (r.k.val, r.inj)) == [(0, true), (1, true)]) = true ∧
    gives (.faultInject 2 0x20000000) State.reset (fun t => t.reports.map (fun r => (r.page, r.k.val)) == [(Pg.adc, 0)]) = true := by decide +kernel
def sPages : State := runs [Pg.sba, Pg.seq, Pg.qmg, Pg.hp 0] State.reset
theorem test_witness_access_types : sPages.Open Pg.qmg ∧ sPages.WritesAt .spt 0x4000304C ∧ sPages.Open Pg.seq ∧ sPages.WritesAt .spt 0x40004044 ∧
    sPages.WritesAt .spt 0x4000C040 ∧ sPages.Open Pg.sba ∧ sPages.WritesAt .spt (BitVec.ofNat 32 (R.SBA_Pp_EST.addr 2 0)) ∧
    sPages.WritesAt .spt (BitVec.ofNat 32 (R.HPn_ESYNC.addr 0 0)) ∧ sPages.WritesAt .spt (BitVec.ofNat 32 (pageBase Pg.sba + 0xC)) ∧
    (∀ q : QNum, ¬ (sPages.thr q).awaitsEvent = true) := by decide +kernel
theorem test_access_types :
    gives (.registerWrite .spt 0x4000304C 6) (sPages.wr R.QMG_REFUSED 7) (fun t => t == sPages.wr R.QMG_REFUSED 1) = true ∧
    gives (.registerWrite .spt (BitVec.ofNat 32 (pageBase Pg.sba + 0xC)) 16) (sPages.modPage Pg.sba fun x => { x with irqStat := 48 }) (fun t =>
      t == sPages.modPage Pg.sba fun x => { x with irqStat := 32 }) = true ∧
    gives (.registerWrite .spt 0x40004044 5) sPages (fun t => t == sPages.setEvent 5) = true ∧
    gives (.registerWrite .spt 0x4000C040 5) sPages (fun t => t.rd R.SBA_GCAP == sPages.rd R.SBA_GCAP) = true ∧
    gives (.registerWrite .spt (BitVec.ofNat 32 (R.HPn_ESYNC.addr 0 0)) 5) sPages (fun t => (t.hpP 0).trigAt == 0x50000) = true := by
  decide +kernel
/-- Only the shadow set takes an RWS write (R43). -/
theorem test_shadow_write : gives (.registerWrite .spt (BitVec.ofNat 32 (R.SBA_Pp_EST.addr 2 0)) 0xFFFFFFFF) sPages (fun t =>
    t.rd R.SBA_Pp_EST 2 == (sPages.rd R.SBA_Pp_EST 2 ||| 0x3FFF) && t.active == sPages.active) = true := by decide +kernel
/-- A page in a state, nothing of it at work. -/
def sAt (pg : PageIx) (st : BlockSt) : State := State.reset.modPage pg fun x => { x with st := st, en := st == .run }
def cyclePages : List PageIx := [Pg.spt, Pg.flc, Pg.moc] ++ (List.finRange 8).map (fun (a : AxNum) => Pg.ax a) ++ (List.finRange 6).map fun (e : QeNum) => Pg.qe e
theorem test_witness_cycle_pages : cyclePages.all (fun pg => !(sAt pg .off).unitBusy pg && !((sAt pg .off).page pg).pend) = true ∧
    (∀ b : AxNum, (sAt (Pg.ax 3) .resetting).fld F.AXn_GEAR_SRC b.val ≠ 8 + (3 : AxNum).val) := by decide +kernel
theorem test_cycle_pages : gives (.blockEnable (Pg.qe 2)) { sAt (Pg.qe 2) .off with time := 7 } (fun t =>
      (t.page (Pg.qe 2)).st == .run && (t.qeS 2).windowAt == 7) = true ∧
    gives (.resetComplete (Pg.ax 3)) ((sAt (Pg.ax 3) .resetting).wr R.AXn_VMAX 5 3) (fun t =>
      (t.page (Pg.ax 3)).st == .off && t.rd R.AXn_VMAX 3 == State.reset.rd R.AXn_VMAX 3) = true := by decide +kernel
theorem test_witness_resetting : pageOf 0x40006040 = some Pg.skn ∧ (sAt Pg.skn .resetting).WritesAt .spt 0x40006040 ∧
    (sAt Pg.skn .resetting).ReadsAt .spt 0x40006040 ∧ blk Pg.skn ≠ .fixed ∧
    (sAt Pg.skn .run).WritesAt .spt (BitVec.ofNat 32 (pageBase Pg.skn + 4)) ∧ (3 : Word).getLsbD 1 = true ∧ (3 : Word).getLsbD 2 = false := by
  decide +kernel
theorem test_resetting : gives (.registerWrite .spt 0x40006040 5) (sAt Pg.skn .resetting) (fun t => t == sAt Pg.skn .resetting) = true ∧
    gives (.registerWrite .spt (BitVec.ofNat 32 (pageBase Pg.skn + 4)) 3) (sAt Pg.skn .run) (fun t => (t.page Pg.skn).st == .resetting) = true := by
  decide +kernel
theorem test_witness_commits : (State.reset.commitRefused (Pg.hp 2)).isNone = true ∧ (State.reset.commitRefused (Pg.vp 1)).isNone = true ∧
    (State.reset.commitRefused (Pg.ax 7)).isNone = true ∧ (State.reset.commitRefused Pg.sba).isNone = true ∧
    (State.reset.page (Pg.hp 2)).st = .off ∧ ((sAt (Pg.hp 2) .run).page (Pg.hp 2)).st = .run ∧
    ((sAt Pg.adc .run).wr R.ADC_SCAN 256).adcRefusal = none ∧ (((sAt Pg.adc .run).wr R.ADC_SCAN 256).page Pg.adt).st ≠ .resetting := by decide +kernel
/-- A commit to a port that is OFF is active at once; one through ADT makes the set of both pages pending (R43, R44). -/
theorem test_commits : gives (.pgCommit (Pg.hp 2)) State.reset (fun t => (t.page (Pg.hp 2)).irqStat == 2 && !(t.page (Pg.hp 2)).pend) = true ∧
    gives (.pgCommit Pg.adt) ((sAt Pg.adc .run).wr R.ADC_SCAN 256) (fun t => (t.page Pg.adc).pend && (t.page Pg.adt).pend) = true := by decide +kernel

-- chapter 03: queue 3

theorem test_witness_doorbell : (ring 1 State.reset).Open Pg.qmg ∧ ((ring 1 State.reset).q 3).recov = none ∧
    (ring 1 State.reset).qSize 3 = 16 ∧ ((16 : BitVec 16) - ((ring 1 State.reset).q 3).head).toNat = 16 ∧
    ((17 : BitVec 16) - ((ring 1 State.reset).q 3).head).toNat = 17 := by decide +kernel
theorem test_doorbell : gives (.doorbell 3 16) (ring 0 State.reset) (fun t => (t.q 3).tail == 16) = true ∧
    gives (.doorbell 3 17) (ring 0 State.reset) (fun t => (t.q 3).tail == 0 && t.rd R.QMG_DBERR == 8 && t.reports.length == 1) = true := by
  decide +kernel
theorem test_crd : gives (.crdWrite 3 1) (ring 0 State.reset) (fun t => t.rd R.QMG_REFUSED != 0) = true ∧
    gives (.crdWrite 3 0xFFFF) (ring 0 State.reset) (fun t => (t.q 3).crd == 0xFFFF) = true := by decide +kernel
def sRings (v : Word) : State := ((State.reset.wr R.QMG_Qn_RING v 3).wr R.QMG_Qn_CRING 0x20000400 3)
/-- LSIZE and LCSIZE 4, no port. -/
def cfgOn : Word := 0x11001
theorem test_witness_queue_enable : cfgOn.getLsbD 0 = true ∧ (((sRings 0x20000000).q 3).mode = .off) ∧
    ((sRings 0x20000000).cfgWrite 3 cfgOn).2 = true ∧ ((sRings 0x20000000).cfgWrite 3 cfgOn).1.qEn 3 = false ∧
    ((sRings 0x20000000).cfgWrite 3 cfgOn).1.enableOk 3 = true ∧ ((sRings 0x20000010).cfgWrite 3 cfgOn).1.enableOk 3 = false ∧
    ((sRings 0x20000010).cfgWrite 3 cfgOn).2 = true := by decide +kernel
def sOn : State := nextOf (.queueEnable 3 cfgOn) (sRings 0x20000000)
theorem test_witness_queue_disable : (sOn.q 3).mode = .run ∧ sOn.qEn 3 = true ∧ (sOn.q 3).cmds = [] ∧ (sOn.q 3).conts = [] ∧
    (sOn.q 3).flushTo = none ∧ (sOn.thr 3).levels = [] ∧ (sOn.thr 3).wait = .none ∧ (cfgOn &&& ~~~1).getLsbD 0 = false := by decide +kernel
theorem test_queue_disable : gives (.queueDisable 3 (cfgOn &&& ~~~1)) sOn (fun t => (t.q 3).mode == .off) = true := by decide +kernel
def sLeft : State := (sRings 0x20000000).modQ 3 fun x => { x with tail := 1 }
theorem test_witness_ring_moves : ((sRings 0x20000000).q 3).emptyRings = true ∧ (sLeft.q 3).mode = .off ∧ (sLeft.q 3).emptyRings = false ∧
    sLeft.rd R.QMG_Qn_RING 3 ≠ 0x20000800 ∧ (sOn.q 3).mode ≠ .off := by decide +kernel
theorem test_ring_moves : gives (.queueReconfigure 3 1 0x20000800) sLeft (fun t => t.rd R.QMG_Qn_RING 3 == 0x20000000) = true ∧
    gives (.queueReconfigure 3 1 0x20000800) (sRings 0x20000000) (fun t => t.rd R.QMG_Qn_RING 3 == 0x20000800) = true := by decide +kernel
def sHalted (job tail : BitVec 16) : State := sOn.modQ 3 fun x => { x with mode := .halted, hjob := job, tail := tail, hstat := St.aborted, autoAct := some 1 }
theorem test_witness_recovery : ((sHalted 7 2).q 3).mode = .halted ∧ ((sHalted 7 2).q 3).lost = false ∧ (sHalted 7 2).qEn 3 = true ∧
    (sHalted 7 2).qPort 3 = none ∧ ((sHalted 7 2).q 3).next ≠ ((sHalted 7 2).q 3).tail ∧ ((sHalted 7 0).q 3).next = ((sHalted 7 0).q 3).tail ∧
    ((sHalted 0xFFFF 0).q 3).hjob = 0xFFFF ∧ ((sHalted 7 0).q 3).hjob ≠ 0xFFFF ∧ (sOn.q 3).mode ≠ .halted ∧ State.reset.Open Pg.qmg := by
  decide +kernel
theorem test_flush : gives (.rcmdFlush 3) (sHalted 7 2) (fun t => (t.q 3).recov == some (.flush 2)) = true ∧
    gives (.rcmdFlush 3) (sHalted 7 0) (fun t => (t.q 3).mode == .run) = true := by decide +kernel
theorem test_skip_job : gives (.rcmdSkipJob 3) (sHalted 0xFFFF 2) (fun t => (t.q 3).mode == .run) = true := by decide +kernel
/-- A KEYED entry at index 15: HEAD moves by 2, and CWR 15 is the last slot of the ring, so PHASE changes. -/
def cDone : Cmd := { uid := 0, idx := 15, slots := 2, job := 0xFFFF, e := entry 0x61 0 0 0, e2 := entry 0 0 0 0, out := some 0 }
def sCpl : State := sOn.modQ 3 fun x => { x with cmds := [cDone], cwr := 15, crd := 15 }
theorem test_witness_completion_write : sCpl.working Pg.qmg = true ∧ (sCpl.q 3).mode = .run ∧ (sCpl.q 3).cmds = [cDone] ∧
    sCpl.echoUart 3 = none ∧ cDone.slots ≠ 0 := by decide +kernel
theorem test_completion_write : gives (.completionWrite 3) sCpl (fun t =>
    (t.q 3).cwr == 16 && (t.q 3).head == 17 && (t.q 3).phase == false && t.byte 0x200004F0 == 0xFF && t.byte 0x200004F2 == 15) = true := by
  decide +kernel
theorem test_witness_policy : ((runs [Pg.seq] (sHalted 7 0)).q 3).autoAct = some 1 ∧ ((sHalted 7 0).q 3).haltSet = [] ∧
    ((sHalted 7 0).q 3).hstat = St.aborted ∧ (runs [Pg.seq] (sHalted 7 0)).running Pg.seq = true ∧ (sOn.q 3).autoAct = none := by decide +kernel
theorem test_policy : gives (.autoRecovery 3) (runs [Pg.seq] (sHalted 7 0)) (fun t => (t.q 3).mode == .run && (t.q 3).retryUsed == 1) = true := by
  decide +kernel
/-- Queue 3, bound to head port 0, halted at `next` 0. -/
def sBound (job tail : BitVec 16) : State := (ring tail State.reset).modQ 3 fun x => { x with mode := .halted, hjob := job, hstat := St.aborted }
theorem test_witness_recovery_bound : ((sBound 7 2).q 3).mode = .halted ∧ (sBound 7 2).qEn 3 = true ∧ (sBound 7 2).qPort 3 = some 0 ∧
    ((sBound 7 2).q 3).lost = false ∧ (∀ c ∈ (sBound 7 2).continuations 3 false, c.e.opc = 0x15 → c.committed = true) ∧
    ((sBound 7 2).q 3).next ≠ ((sBound 7 2).q 3).tail ∧ ((sBound 7 0).q 3).next = ((sBound 7 0).q 3).tail := by decide +kernel
theorem test_recovery_bound : gives (.rcmdSkipJob 3) ((sBound 7 0).setLines 0 [Line.mk 4 3 0 0 0 0 none]) (fun t =>
      (t.q 3).recov == some .skip && t.lines 0 == []) = true ∧
    gives (.rcmdResume 3) ((sBound 7 0).modHp 0 fun h => { h with hold := some St.aborted }) (fun t =>
      (t.q 3).mode == .run && (t.hpP 0).hold == none) = true := by decide +kernel
/-- SKIP_JOB inside a job whose next entry is a JOB_BEGIN, a JOB_END, or another (R77). -/
def sSkipAt (e : Entry) (n : BitVec 16) : State := runs [Pg.qmg] (putEntry 0x20000000 e (sHalted 7 n))
theorem test_skip_before_job : gives (.rcmdSkipJob 3) (sSkipAt (entry 1 0 0 0) 1) (fun t => (t.q 3).mode == .run && (t.q 3).next == 0) = true ∧
    gives (.rcmdSkipJob 3) (sSkipAt (entry 2 0 0 0) 1) (fun t => (t.q 3).recov == some .skip) = true := by decide +kernel
def sSkipping : State := nextOf (.rcmdSkipJob 3) (sSkipAt (entry 2 0 0 0) 1)
theorem test_witness_cancellation : sSkipping.running Pg.qmg = true ∧ (sSkipping.q 3).mode = .recovering ∧ (sSkipping.q 3).recov = some .skip ∧
    (sSkipping.q 3).cmds = [] ∧ (sSkipping.q 3).conts = [] ∧ sSkipping.qEn 3 = true ∧ sSkipping.slotFree 3 = true ∧
    sSkipping.echoUart 3 = none ∧ (sSkipping.ringEntry 3 0).slots ≤ ((sSkipping.q 3).tail - (sSkipping.q 3).next).toNat := by decide +kernel
theorem test_cancellation : gives (.completionWrite 3) sSkipping (fun t =>
    (t.q 3).mode == .run && (t.q 3).next == 1 && t.byte (0x20000400 + 4) == St.cancelled) = true := by decide +kernel
/-- A queue that works, with `cs` in flight; a FLUSH aborts what is in flight and waits for its completion (R78). -/
def sInFlight (m : QMode) (cs : List Cmd) : State := sOn.modQ 3 fun x => { x with mode := m, tail := 2, cmds := cs }
def cWaits (e : Entry) : Cmd := { uid := 0, idx := 0, slots := 1, job := 0xFFFF, e := e, e2 := e }
def cStands : Cmd := cWaits (entry 0x15 0 0 5)
theorem test_witness_flush_works : (sInFlight .run []).Clear 3 ∧ ((sInFlight .run []).thr 3).levels = [] ∧ (sInFlight .run []).qEn 3 = true ∧
    ((sInFlight .bindoff []).q 3).mode = .bindoff ∧ ((sInFlight .run []).q 3).next ≠ ((sInFlight .run []).q 3).tail ∧
    ((sInFlight .run [cStands]).q 3).cmds = [cStands] ∧ cStands.out = none ∧ cStands.ring = true ∧ cStands.call = false := by decide +kernel
theorem test_flush_works : gives (.rcmdFlush 3) (sInFlight .run []) (fun t => (t.q 3).mode == .recovering && (t.q 3).recov == some (.flush 2)) = true ∧
    gives (.rcmdFlush 3) (sInFlight .bindoff []) (fun t => (t.q 3).recov == some (.flush 2)) = true ∧
    gives (.rcmdFlush 3) (sInFlight .run [cStands]) (fun t => (t.q 3).mode == .bindoff && (t.q 3).flushTo == some 2 &&
      (t.q 3).cmds.map (·.out) == [some St.aborted]) = true := by decide +kernel
/-- A JOB_BEGIN rung in while the skip waits for more entries ends it, and is not cancelled (R77). -/
def sSkipMeets : State := (sSkipAt (entry 1 0 0 0) 1).modQ 3 fun x => { x with mode := .recovering, recov := some .skip }
def sLost : State := (sHalted 7 2).modQ 3 fun x => { x with lost := true }
theorem test_witness_skip_meets : (sSkipMeets.ringEntry 3 0).opc = 1 ∧ (sSkipMeets.q 3).next ≠ (sSkipMeets.q 3).tail ∧ sSkipMeets.slotFree 3 = true ∧
    sSkipMeets.echoUart 3 = none ∧ (sSkipMeets.q 3).recov = some .skip ∧ (sLost.q 3).lost = true ∧ (State.reset.q 3).mode = .off := by decide +kernel
theorem test_skip_meets : gives (.completionWrite 3) sSkipMeets (fun t => (t.q 3).mode == .run && (t.q 3).next == 0 && (t.q 3).cwr == 0) = true ∧
    gives (.rcmdResume 3) sLost (fun t => t == sLost.refuse 3) = true := by decide +kernel
-- chapter 04: from the ring

/-- Queue 3 waits with its thread in the list level that the CALL it holds has entered, with `e` next at 0x20001000. -/
def theCall : Cmd :=
  { uid := 0, idx := 0, job := 0xFFFF, e := entry 0x41 0x20001000 0 0, e2 := entry 0x41 0x20001000 0 0, call := true }

def inListAt (a : Nat) (l : Level) (e : Entry) : State :=
  putEntry a e (({ ring 0 State.reset with nextUid := 1 }.modQ 3 fun x => { x with cmds := [theCall] }).modThr 3
    fun t => { t with levels := [l], pc := a })

def inList (e : Entry) : State := inListAt 0x20001000 ⟨none, 0, {}⟩ e

def eJobBegin : Entry := entry 0x00070001 0x42 0 0
def eJobEnd : Entry := entry 0x02 0 0 0
def eNop : Entry := entry 0x1234FF7F 1 2 3
def eProfile : Entry := entry 0x00050030 0 0 0
def sProfile : State :=
  { one eProfile with hhe := Vector.replicate 4 { profiles := Vector.replicate 16 { ctl := 0x80000000 } } }

theorem test_witness_job_begin : (one eJobBegin).Issues 3 0x01 eJobBegin ∧ eJobBegin.sp ≠ 0xFFFF ∧
    ((one eJobBegin).q 3).jobOpen = false := by decide +kernel
theorem test_job_begin : gives (.jobBegin 3) (one eJobBegin) (fun t =>
    (t.q 3).jobOpen && (t.q 3).jobNum == 7 && (t.q 3).policy == 0x42 && (t.q 3).next == 1) = true := by decide +kernel
theorem test_witness_job_end : (one eJobEnd).Issues 3 0x02 eJobEnd := by decide +kernel
theorem test_witness_nop : (one eNop).Issues 3 0x7F eNop := by decide +kernel
theorem test_witness_set_profile : sProfile.Issues 3 0x30 eProfile ∧ sProfile.qPort 3 = some 0 ∧
    ((sProfile.hheP 0).profiles[Fin.ofNat 16 (eProfile.sp % 16)]).valid = true := by decide +kernel
theorem test_set_profile : gives (.setProfile 3) sProfile (fun t =>
    (t.q 3).profile == 5 && (t.q 3).cmds.map (·.out) == [some 0]) = true := by decide +kernel

def eUndef : Entry := entry 0x03 0 0 0
theorem test_witness_undefined : (one eUndef).Up ∧ (one eUndef).seqPick = some 3 ∧ ((one eUndef).thr 3).trapDue = false ∧
    (one eUndef).nextEntry 3 = some eUndef ∧ eUndef.malformed = some 1 ∧ (one eUndef).spot 3 = .ring ∧
    (one eUndef).Clear 3 := by decide +kernel
theorem test_undefined : gives (.undefinedOpcode 3) (one eUndef) (fun t =>
    t.rd R.SEQ_Tn_BADCMD 3 == 0x00000301 && (t.q 3).cmds.map (·.out) == [some 9] && (t.q 3).mode == .bindoff) = true := by
  decide +kernel

-- composition and printing: queue 3, port 0 of 64 elements; RND draws an earlier step

theorem rndBusy_of {s : State} (h : (s.rnd.cur.any fun o => s.drawable o) = true) (w : ∀ o : Port, ((s.steps o).head?.all fun y =>
    y.e.opc != 0x15 || y.granted || s.skn.waits.any fun x => x.port == o) = true) : s.RndBusy := by
  constructor
  · cases hc : s.rnd.cur with
    | none => simp [hc] at h
    | some o => exact ⟨o, rfl, by simpa [hc] using h⟩
  · intro o y l hs ho
    have := w o
    rw [hs] at this
    simp [ho] at this
    simpa using this

def drawing : Step := { uid := 9, q := 3, e := entry 0x00010013 0 0 4, granted := true }
def sCompose (e : Entry) : State :=
  ({ runs [Pg.rnd, Pg.skn, Pg.hhe, Pg.sba, Pg.hp 0] (one e) with
    rnd := { State.reset.rnd with cur := some 0 } }.setFld F.HPn_CFG_NBLK 1 0).setSteps 0 [drawing]

/-- A command of the ring is ready, behind the step that is drawn. -/
abbrev Composes (op : Nat) (e : Entry) : Prop :=
  (sCompose e).qPort 3 = some 0 ∧ (sCompose e).needsMet 3 e = true ∧ (sCompose e).steps 0 ≠ [] ∧ (sCompose e).Issues 3 op e

def eRaw : Entry := entry 0x00020010 0x20002000 0 0x00040004
def eText : Entry := entry 0x00020011 0x20002000 0 0
def eLogo : Entry := entry 0x00020012 0 0 0
def eRule : Entry := entry 0x00020013 0 0x00040000 0x00010008
def eBars : Entry := entry 0x00020014 0x20002000 0 0x00010008
def ePrint : Entry := entry 0x01000015 0 0 0

theorem test_witness_rnd_busy : (sCompose eRaw).RndBusy := rndBusy_of (by decide +kernel) (by decide +kernel)
theorem test_witness_band_raw : Composes 0x10 eRaw ∧ (sCompose eRaw).compStatic 0 eRaw = none := by decide +kernel
theorem test_witness_text_run : Composes 0x11 eText ∧ (sCompose eText).compStatic 0 eText = none := by decide +kernel
theorem test_witness_logo : Composes 0x12 eLogo ∧ (sCompose eLogo).compStatic 0 eLogo = none := by decide +kernel
theorem test_witness_rule : Composes 0x13 eRule ∧ (sCompose eRule).compStatic 0 eRule = none := by decide +kernel
theorem test_witness_bars : Composes 0x14 eBars ∧ (sCompose eBars).compStatic 0 eBars = none := by decide +kernel
theorem test_witness_print : Composes 0x15 ePrint ∧ ePrint.sp ≠ 0 ∧ ePrint.sp ≤ (sCompose ePrint).area 0 := by
  decide +kernel
theorem test_rule : gives (.rule 3) (sCompose eRule) (fun t => (t.steps 0).length == 2 && (t.q 3).next == 1) = true := by
  decide +kernel
theorem test_print : gives (.print 3) (sCompose ePrint) (fun t =>
    (t.thr 3).wait == .commit 0 && (t.steps 0).length == 2) = true := by decide +kernel

def cPrint : Cmd := { uid := 4, idx := 0, job := 0xFFFF, e := entry 0x00020015 0 0 0, e2 := entry 0x00020015 0 0 0 }
def sCommit : State :=
  ((((ring 1 State.reset).modQ 3 fun x => { x with cmds := [cPrint], next := 1, profile := 2 }).modThr 3
    fun t => { t with wait := .commit 4 }).setSteps 0 [{ uid := 4, q := 3, e := entry 0x00020015 0 0 0, granted := true }])
    |>.modBand 1 fun _ => { st := .compose }

theorem test_witness_print_commit : sCommit.Up ∧ (sCommit.thr 3).wait = .commit 4 ∧ sCommit.qPort 3 = some 0 ∧
    sCommit.steps 0 = [{ uid := 4, q := 3, e := entry 0x00020015 0 0 0, granted := true }] ∧
    (∀ o, o ≠ 0 → sCommit.steps o = []) ∧ (sCommit.thr 3).leaving = false ∧ sCommit.running Pg.skn = true ∧ (sCommit.q 3).cmds = [cPrint] ∧ (sCommit.q 3).conts = [] ∧ cPrint.out = none ∧
    sCommit.win 0 = none ∧ (sCommit.hpP 0).hold = none ∧
    (∀ k < cPrint.e.sp, (sCommit.slotBand 0 ((sCommit.skn.o[(0 : Fin 4)] + k) / 64)).isSome = true) := by decide +kernel
theorem test_print_commit : gives (.printCommit 3) sCommit (fun t =>
    (t.lines 0).map (fun l => (l.k, l.band, l.row, l.profile)) == [(0, 1, 0, 2), (1, 1, 1, 2)] &&
    t.skn.o[0] == 2 && (t.thr 3).wait == .none) = true := by decide +kernel

-- media: feed axis 2, cutter axis 3

def sMedia (e : Entry) : State := (runs [Pg.moc, Pg.ax 2, Pg.ax 3, Pg.med] (one e)).wr R.MOC_PORTp 0x00000B0A

/-- The axis of a FEED or CUT is idle. -/
abbrev Moves (op : Nat) (e : Entry) (a : AxNum) : Prop :=
  (sMedia e).axisBad e ((sMedia e).qPort 3) = none ∧ (sMedia e).mediaAx e ((sMedia e).qPort 3) = some a ∧
  (sMedia e).needsMet 3 e = true ∧ (sMedia e).axIdle a = true ∧ ((sMedia e).axS a).waiting = [] ∧ (sMedia e).Issues 3 op e

def eFeed : Entry := entry 0x000F0020 5 0 0
def eFeedBack : Entry := entry 0x00020120 0xFFFFFFFD 0 0
def eCut : Entry := entry 0x000F0121 0 0 0

theorem test_witness_feed : Moves 0x20 eFeed 2 ∧ ((sMedia eFeed).qPort 3).isSome = true ∧ eFeed.w1 ≠ 0 ∧
    BitVec.ofInt 32 ((sMedia eFeed).lineSteps 2 eFeed.w1.toInt) ≠ 0 := by decide +kernel
theorem test_witness_feed_steps : Moves 0x20 eFeedBack 2 ∧ eFeedBack.flags % 2 = 1 ∧ BitVec.ofInt 32 eFeedBack.w1.toInt ≠ 0 := by
  decide +kernel
theorem test_feed_back : gives (.feed 3) (sMedia eFeedBack) (fun t =>
    (t.axS 2).target == 0xFFFFFFFD && (t.axS 2).neg && (t.thr 3).wait == .outcome 0) = true := by decide +kernel
theorem test_witness_cut : Moves 0x21 eCut 3 ∧ (sMedia eCut).atHome 3 = false := by decide +kernel
def sHome : State := (sMedia eCut).setBit F.AXn_HOME_POL true 3
theorem test_witness_cut_home : sHome.axisBad eCut (sHome.qPort 3) = none ∧ sHome.mediaAx eCut (sHome.qPort 3) = some 3 ∧
    sHome.needsMet 3 eCut = true ∧ sHome.axIdle 3 = true ∧ (sHome.axS 3).waiting = [] ∧ sHome.Issues 3 0x21 eCut ∧
    sHome.atHome 3 = true := by decide +kernel
theorem test_cut_home : gives (.cut 3) sHome (fun t => (t.axS 3).cut == some 2 && (t.axS 3).act == .move) = true := by
  decide +kernel

def eWait : Entry := entry 0x00000022 10 0 0
def eWaitPaper : Entry := entry 0x00040022 10 0 0
def eWaitFeed : Entry := entry 0x00000322 10 0 0

abbrev Waits (e : Entry) : Prop :=
  (sMedia e).qPort 3 = some 0 ∧ (sMedia e).Issues 3 0x22 e ∧ (sMedia e).waitBad e 0 = false ∧ (sMedia e).needsMet 3 e = true

theorem test_witness_wait_media : Waits eWait ∧ (sMedia eWait).mediaHolds 0 (eWait.sp % 16) = false ∧ eWait.flags % 2 = 0 := by
  decide +kernel
theorem test_witness_wait_media_holds : Waits eWaitPaper ∧ (sMedia eWaitPaper).mediaHolds 0 (eWaitPaper.sp % 16) = true := by
  decide +kernel
theorem test_witness_wait_media_feed : Waits eWaitFeed ∧ (sMedia eWaitFeed).mediaHolds 0 (eWaitFeed.sp % 16) = false ∧
    eWaitFeed.flags % 2 = 1 ∧ (sMedia eWaitFeed).feedAx 0 = some 2 ∧ (sMedia eWaitFeed).axIdle 2 = true ∧
    ((sMedia eWaitFeed).axS 2).waiting = [] := by decide +kernel
theorem test_wait_media : gives (.waitMedia 3) (sMedia eWait) (fun t =>
    t.med.waits.map (·.due) == [some 1000000] && (t.thr 3).wait == .outcome 0) = true := by decide +kernel

def cWait (e : Entry) : Cmd := { uid := 4, idx := 0, job := 0xFFFF, e := e, e2 := e }
def sWaiting (w : Wait) (e : Entry) : State :=
  ((ring 1 State.reset).modQ 3 fun x => { x with cmds := [cWait e], next := 1 }).modThr 3 fun t => { t with wait := w }
def sTimeout : State :=
  { sWaiting (.outcome 4) eWait with med := { State.reset.med with waits := [⟨3, 4, 0, 0, none, some 50⟩] }, time := 60 }
theorem test_witness_wait_media_timeout : sTimeout.qPort 3 = some 0 ∧ sTimeout.Up ∧ sTimeout.Holds 3 (cWait eWait) ∧
    sTimeout.med.waits = [⟨3, 4, 0, 0, none, some 50⟩] ∧ (50 : BitVec 64).toNat ≤ sTimeout.time.toNat ∧
    (sTimeout.thr 3).wait = .outcome (cWait eWait).uid := by decide +kernel
theorem test_wait_media_timeout : gives (.waitMediaTimeout 3) sTimeout (fun t =>
    (t.q 3).cmds.map (·.out) == [some 4] && t.med.waits == [] && (t.q 3).mode == .bindoff) = true := by decide +kernel

-- verification: context 0 of VP0 watches port 0

def eVOpen : Entry := entry 0x00000031 0x00100002 0 0
def eVClose : Entry := entry 0x00000131 0 0 0
def sVerify (e : Entry) : State := (runs [Pg.vp 0] (one e)).wr R.VPn_Cx_CFG 0x80000000 0 0
theorem test_witness_verify_open : (sVerify eVOpen).Issues 3 0x31 eVOpen ∧ (sVerify eVOpen).qPort 3 = some 0 ∧
    eVOpen.flags % 2 = 0 ∧ (sVerify eVOpen).win 0 = none ∧ 0 ∈ (sVerify eVOpen).vpOf 0 ∧ (sVerify eVOpen).running (Pg.vp 0) = true := by decide +kernel
theorem test_verify_open : gives (.verifyOpen 3) (sVerify eVOpen) (fun t =>
    t.win 0 == some { maxDot := 2, maxMis := 16 } && (t.q 3).cmds.map (·.out) == [some 0]) = true := by decide +kernel
theorem test_witness_verify_close : (sVerify eVClose).Issues 3 0x31 eVClose ∧ (sVerify eVClose).qPort 3 = some 0 ∧
    eVClose.flags % 2 = 1 ∧ (sVerify eVClose).win 0 = none := by decide +kernel
def sVWait : State :=
  ((sVerify eVClose).setWin 0 (some { maxDot := 1, maxMis := 1 })).setLines 0 [Line.mk 1 3 0 0 0 0 (some 0)]
theorem test_witness_verify_close_waits : sVWait.Issues 3 0x31 eVClose ∧ sVWait.qPort 3 = some 0 ∧
    sVWait.win 0 = some { maxDot := 1, maxMis := 1 } ∧ sVWait.winDone 0 = false := by decide +kernel
theorem test_verify_close_waits : gives (.verifyClose 3) sVWait (fun t =>
    (t.win 0).bind (·.closing) == some (3, 0) && (t.thr 3).wait == .none) = true := by decide +kernel

-- lists

def eCall : Entry := entry 0x41 0x20002000 0 0
def eIf : Entry := entry 0x44 0x20002000 0 0
def eIfNot : Entry := entry 0x80000044 0x20002000 0 0
def eJump : Entry := entry 0x40 0x20002000 0 0
def eLoop (n : Nat) : Entry := entry (BitVec.ofNat 32 (n * 65536 + 0x43)) 0x20002000 0 0
def eRet : Entry := entry 0x42 0 0 0

theorem test_witness_call : (one eCall).targetBad eCall.w1.toNat = none ∧ (one eCall).Issues 3 0x41 eCall := by decide +kernel
theorem test_call : gives (.call 3) (one eCall) (fun t =>
    (t.thr 3).pc == 0x20002000 && (t.thr 3).levels == [⟨none, 0, {}⟩]) = true := by decide +kernel
theorem test_witness_if_state : (one eIf).Issues 3 0x44 eIf ∧ eIf.sel = 0 ∧ (one eIf).ifBad 3 eIf = none ∧
    (one eIf).limited 3 = false ∧ eIf.sp / 2 ^ 15 % 2 = 0 ∧ (one eIf).targetBad eIf.w1.toNat = none := by decide +kernel
theorem test_witness_if_state_not : (one eIfNot).Issues 3 0x44 eIfNot ∧ eIfNot.sel = 0 ∧ (one eIfNot).ifBad 3 eIfNot = none ∧
    (one eIfNot).limited 3 = false ∧ eIfNot.sp / 2 ^ 15 % 2 = 1 ∧ (one eIfNot).targetBad eIfNot.w1.toNat = none := by
  decide +kernel
theorem test_if_state : gives (.ifState 3) (one eIf) (fun t =>
    (t.thr 3).pc == 0x20002000 && (t.thr 3).transfers == 1) = true := by decide +kernel
theorem test_witness_jump : (inList eJump).targetBad eJump.w1.toNat = none ∧
    (inList eJump).ListIssues 3 0x40 eJump ⟨none, 0, {}⟩ theCall ∧ (inList eJump).limited 3 = false := by decide +kernel
theorem test_witness_loop : (inList (eLoop 2)).targetBad (eLoop 2).w1.toNat = none ∧
    (inList (eLoop 2)).ListIssues 3 0x43 (eLoop 2) ⟨none, 0, {}⟩ theCall ∧ (inList (eLoop 2)).limited 3 = false ∧
    (eLoop 2).sp ≠ 0 := by decide +kernel
theorem test_witness_loop_active :
    (inListAt 0x20001000 ⟨none, 0, ⟨true, 0, 0x20001000⟩⟩ (eLoop 2)).ListIssues 3 0x43 (eLoop 2)
      ⟨none, 0, ⟨true, 0, 0x20001000⟩⟩ theCall := by decide +kernel
theorem test_loop_once : gives (.loop 3) (inList (eLoop 1)) (fun t => (t.thr 3).pc == 0x20001010) = true := by decide +kernel
theorem test_loop_twice : gives (.loop 3) (inList (eLoop 2)) (fun t =>
    (t.thr 3).pc == 0x20002000 && (t.thr 3).loopCtr.active && (t.thr 3).loopCtr.remain == 0) = true := by decide +kernel
theorem test_witness_ret : (inList eRet).targetBad eRet.w1.toNat = none ∧
    (inList eRet).ListIssues 3 0x42 eRet ⟨none, 0, {}⟩ theCall := by decide +kernel
theorem test_ret : gives (.ret 3) (inList eRet) (fun t =>
    (t.thr 3).levels == [] && (t.q 3).cmds.map (·.out) == [some 0, some 0]) = true := by decide +kernel

-- events

def eSignal (op : Nat) : Entry := entry (BitVec.ofNat 32 (op * 256 + 0x51)) 0x0F 0 0
def eWaitEv : Entry := entry 0x00000252 0x06 0 0
def eFence : Entry := entry 0x50 0 0 0
def ev (e : Entry) (v : Word) : State := (one e).setEvent v

theorem test_witness_signal : (∀ o u n, ((ev (eSignal 0) 5).thr o).wait ≠ .event u n) ∧
    (∀ op : Fin 4, (ev (eSignal op.val) 5).Issues 3 0x51 (eSignal op.val) ∧ (eSignal op.val).flags % 4 = op.val) := by
  refine ⟨?_, by decide +kernel⟩
  intro o u n
  have : ((ev (eSignal 0) 5).thr o).wait = .none := by revert o; decide +kernel
  rw [this]
  exact fun h => by cases h
theorem test_signal_toggle : gives (.signalToggle 3) (ev (eSignal 3) 5) (fun t => t.seq.event == 0xA) = true := by
  decide +kernel
theorem test_signal_pulse : gives (.signalPulse 3) (ev (eSignal 2) 5) (fun t => t.seq.event == 5) = true := by decide +kernel
theorem test_witness_event_set : State.reset.Open Pg.seq := by decide +kernel
theorem test_witness_wait_event : (ev eWaitEv 4).Issues 3 0x52 eWaitEv ∧ eWaitEv.w1 ≠ 0 ∧
    eWaitEv.eventMet (ev eWaitEv 4).seq.event = true := by decide +kernel
theorem test_wait_event : gives (.waitEvent 3) (ev eWaitEv 5) (fun t => t.seq.event == 1) = true := by decide +kernel
theorem test_witness_wait_event_not : (ev eWaitEv 1).Issues 3 0x52 eWaitEv ∧
    eWaitEv.eventMet (ev eWaitEv 1).seq.event = false := by decide +kernel
def eWaitMs : Entry := entry 0x52 1 1 0
def sEvTimeout : State := { sWaiting (.event 4 0) eWaitMs with time := 100000 }
theorem test_witness_wait_event_timeout : sEvTimeout.Up ∧ sEvTimeout.Holds 3 (cWait eWaitMs) ∧
    (sEvTimeout.thr 3).wait = .event (cWait eWaitMs).uid 0 ∧ wbits (cWait eWaitMs).e.w2 0 16 ≠ 0 ∧
    wbits (cWait eWaitMs).e.w2 0 16 * 100000 ≤ sEvTimeout.since 0 ∧ sEvTimeout.working Pg.seq = true := by decide +kernel
theorem test_wait_event_timeout : gives (.waitEventTimeout 3) sEvTimeout (fun t =>
    (t.thr 3).timedOut && (t.q 3).cmds.map (·.out) == [some 1]) = true := by decide +kernel
theorem test_witness_fence : (one eFence).Issues 3 0x50 eFence := by decide +kernel
theorem test_fence : gives (.fence 3) (one eFence) (fun t => (t.thr 3).wait == .none) = true := by decide +kernel

-- register writes: MED_GPIIRQ by WRITE_REG, the keyed SYS_SWRST by KEYED

def eWrite : Entry := entry 0x60 0x40022048 0x00010002 0xFFFFFFFF
def eWriteKw : Entry := entry 0x60 0x40000074 0xA5 0xFFFFFFFF
def sKeyed : State :=
  (putEntry 0x20000010 eWriteKw (putEntry 0x20000000 (entry 0x61 1 0 0) (ring 2 State.reset))).modSess 0
    fun x => { x with st := .opened, ks := List.replicate 16 0 }
/-- The same with the check that SEC computes for the carried command. -/
def goodCheck : List Byte := (sKeyed.sess 0).tag 0 1 eWriteKw.bytes
def eKeyed : Entry := entry 0x61 1 (wordOf goodCheck 0) (wordOf goodCheck 1)
def sKeyedOk : State := putEntry 0x20000000 eKeyed sKeyed

theorem test_witness_write_reg : (one eWrite).Issues 3 0x60 eWrite ∧ eWrite.addrBad = false ∧ eWrite.w3 = 0xFFFFFFFF ∧
    eWrite.flags % 2 = 0 ∧ kwBits eWrite.w1.toNat = 0 := by decide +kernel
theorem test_write_reg : gives (.writeReg 3) (one eWrite) (fun t =>
    t.bus.posted == [Posted.mk (.seq 3) 0x40022048 0x00010002 4 false]) = true := by decide +kernel
theorem test_witness_write_reg_keyed : (one eWriteKw).Issues 3 0x60 eWriteKw ∧ eWriteKw.addrBad = false ∧
    eWriteKw.w3 &&& kwBits eWriteKw.w1.toNat ≠ 0 := by decide +kernel
def eMask (back : Nat) : Entry := entry (BitVec.ofNat 32 (256 * back + 0x60)) 0x40006040 3 0x0F
theorem test_witness_write_reg_mask : ∀ b : Fin 2, (one (eMask b.val)).Issues 3 0x60 (eMask b.val) ∧ (eMask b.val).addrBad = false ∧
    (eMask b.val).flags % 2 = b.val ∧ (one (eMask b.val)).bus.posted = [] ∧ ((one (eMask b.val)).page Pg.skn).st ≠ .resetting := by decide +kernel
theorem test_write_reg_mask : gives (.writeReg 3) ((one (eMask 1)).wr R.SKN_AGE 0x54) (fun t => t.rd R.SKN_AGE == 0x53 && t.bus.posted == []) = true := by
  decide +kernel
theorem test_witness_keyed_fails : sKeyed.keyedWaits 3 = false ∧ sKeyed.Issues 3 0x61 (entry 0x61 1 0 0) ∧ (sKeyed.taken 3 (entry 0x61 1 0 0)).e2 = eWriteKw ∧
    eWriteKw.carriedBad = none ∧ sKeyed.fromBoot 3 (sKeyed.q 3).next = false ∧
    sKeyed.keyedReason (.seq false) 0 1 (natBytes 4 0 ++ natBytes 4 0) eWriteKw.bytes (makerReg eWriteKw.w1.toNat) =
      some .check := by decide +kernel
theorem test_witness_keyed : sKeyedOk.keyedWaits 3 = false ∧ (sChecking .csl 0 (runs [Pg.sec] sKeyedOk)).keyedWaits 3 = true ∧ sKeyedOk.Issues 3 0x61 eKeyed ∧ sKeyedOk.fromBoot 3 (sKeyedOk.q 3).next = false ∧ (sKeyedOk.taken 3 eKeyed).e2 = eWriteKw ∧
    sKeyedOk.keyedReason (.seq false) 0 eKeyed.w1 (natBytes 4 eKeyed.w2.toNat ++ natBytes 4 eKeyed.w3.toNat) eWriteKw.bytes
      (makerReg eWriteKw.w1.toNat) = none := by decide +kernel
theorem test_keyed : gives (.keyed 3) sKeyedOk (fun t =>
    t.bus.posted == [Posted.mk (.seq 3) 0x40000074 0xA5 4 true] && (t.q 3).next == 2) = true ∧
    gives (.keyed 3) (sChecking .csl 0 (runs [Pg.sec] sKeyedOk)) (fun t => t == sChecking .csl 0 (runs [Pg.sec] sKeyedOk)) = true := by decide +kernel

-- entries in flash

def inFlashList : State := inListAt 0x40 ⟨none, 0, {}⟩ eRet
def busyFlash : FlcOp := { cmd := 2, bank := 0, lo := 0x1000, hi := 0x2000, waddr := 512, count := 0, runSince := 0, salt := 0 }
abbrev CleanFlash (s : State) : Prop :=
  s.Up ∧ s.running Pg.flc = true ∧ s.bankFailed 0 = false ∧ s.bankFailed 1 = false ∧ s.flc.ecc = [] ∧ s.flc.undef = [] ∧
    s.flc.bufs[(0 : Fin 3)] = []
theorem test_witness_list_entry_fetch : CleanFlash inFlashList ∧ inFlashList.wantsFetch 3 = true ∧
    (inFlashList.thr 3).retry = none ∧ inFlashList.flc.op = none := by decide +kernel
theorem test_list_entry_fetch : gives (.listEntryFetch 3) inFlashList (fun t =>
    (t.thr 3).fetched == some (0x40, eRet)) = true := by decide +kernel
def flashWait (op : Option FlcOp) (r : Option Retry) : State :=
  { inFlashList with flc := { inFlashList.flc with op := op } }.modThr 3 fun t => { t with retry := r }
theorem test_witness_fetch_busy : CleanFlash (flashWait (some busyFlash) none) ∧ busyFlash.suspSince = none ∧
    busyFlash.bank = flashBank ((flashWait (some busyFlash) none).listPc 3) ∧
    (flashWait (some busyFlash) none).running Pg.seq = true ∧ (flashWait (some busyFlash) none).wantsFetch 3 = true := by
  decide +kernel
theorem test_witness_flash_retry : ((flashWait (some busyFlash) (some ⟨0x40, 1⟩)).thr 3).retry =
      some ⟨(flashWait (some busyFlash) (some ⟨0x40, 1⟩)).listPc 3, 1⟩ ∧ CleanFlash (flashWait none (some ⟨0x40, 1⟩)) ∧
    inFlash ((flashWait none (some ⟨0x40, 1⟩)).listPc 3) 16 = true := by decide +kernel
theorem test_flash_retry : gives (.seqFlashRetry 3) (flashWait none (some ⟨0x40, 1⟩)) (fun t =>
    (t.thr 3).fetched == some (0x40, eRet) && t.rd R.SEQ_FLRETRY == 1) = true := by decide +kernel
def sTrap : State := (ring 0 State.reset).modThr 3 fun t => { t with trapDue := true }
theorem test_witness_trap_list_start : sTrap.Up ∧ sTrap.seqPick = some 3 ∧ (sTrap.thr 3).trapDue = true := by decide +kernel
theorem test_trap_list_start : gives (.trapListStart 3) sTrap (fun t => (t.thr 3).trap.isSome) = true := by decide +kernel

-- chapter 05: one RULE of 8 dots and 2 lines on port 0

def xRule (g : Bool) : Step := { uid := 4, q := 3, e := eRule, granted := g }
def sDraw (x : Step) : State :=
  ((runs [Pg.rnd, Pg.skn] (sWaiting .none eRule)).setFld F.HPn_CFG_NBLK 1 0).setSteps 0 [x]
def wBands : BandWait := { port := 0, y := (xRule false).e.y, h := 2, since := 0 }
def sBands : State := { sDraw (xRule false) with skn := { SknSt.reset with waits := [wBands] } }
def noBands (s : State) : State := { s with skn := { s.skn with bands := Vector.replicate 128 { st := .committed, port := 1 } } }
def sRetry (op : Option FlcOp) : State :=
  { sDraw { xRule true with retry := some ⟨0x40, 1⟩ } with flc := { FlcSt.reset with op := op } }

theorem test_witness_band_wait_grant : sBands.Up ∧ sBands.running Pg.skn = true ∧ sBands.skn.waits = [wBands] ∧ wBands.port = 0 ∧
    sBands.steps 0 = [xRule false] ∧ (∀ o, o ≠ 0 → sBands.steps o = []) ∧ (xRule false).granted = false ∧
    (sBands.newSlots 0 wBands.y wBands.h).length ≤ (sBands.freeRes 0).length := by decide +kernel
/-- Port 1 draws while port 0 waits. -/
def sBandsBusy : State :=
  { sBands.setSteps 1 [drawing] with rnd := { (sBands.setSteps 1 [drawing]).rnd with cur := some 1 } }
theorem test_witness_rnd_still : sBandsBusy.RndStill 0 := by
  refine .inr ⟨⟨1, by decide +kernel⟩, ?_⟩
  intro o y l ho hs hp
  have h : sBandsBusy.steps o = [] ∨ sBandsBusy.steps o = [drawing] := by
    clear hs
    revert o; decide +kernel
  rcases h with h | h <;> rw [h] at hs <;> cases hs
  exact .inl rfl
/-- No band but band 20, of the pool, is free. -/
def sPool : State :=
  { sBands with skn := { sBands.skn with bands := Vector.ofFn fun i => if i.val = 20 then {} else { st := .committed, port := 1 } } }
theorem test_witness_band_wait_pool : sPool.freePool = [20] ∧
    (sPool.freeRes 0).length < (sPool.newSlots 0 wBands.y wBands.h).length := by decide +kernel
theorem test_band_wait_pool : gives .bandWaitGrant sPool (fun t => (t.steps 0).map (·.got) == [[20]]) = true := by decide +kernel
theorem test_witness_band_wait_goes_on : (noBands sBands).skn.waits = [wBands] ∧ (noBands sBands).freeRes 0 = [] ∧
    (noBands sBands).freePool = [] ∧ 0 < ((noBands sBands).newSlots 0 wBands.y wBands.h).length := by decide +kernel
theorem test_witness_band_wait_off : State.reset.Up ∧ (State.reset.modPage Pg.skn fun x => { x with st := .off }).running Pg.skn = false := by
  decide +kernel
theorem test_band_wait_grant : gives .bandWaitGrant sBands (fun t =>
    (t.steps 0).map (·.got) == [[0]] && t.skn.waits == [] && (t.band 0).st == .compose) = true := by decide +kernel
theorem test_witness_step_aged : sBands.fld F.SKN_AGE_AGE * 100 ≤ ({ sBands with time := 0xFFFFFF }).since 0 ∧ wBands.aged = false := by
  decide +kernel
theorem test_step_aged : gives (.stepAged 0) { sBands with time := 0xFFFFFF } (fun t => t.skn.waits.map (·.aged) == [true]) = true := by
  decide +kernel
/-- A granted step of the entry, on a head of 64 dots whose lines 0 to 63 lie in band 1, all of them white. -/
def xDraw (e : Entry) : Step := { uid := 4, q := 3, e := e, granted := true }
def drawIn (e : Entry) (s : State) : State :=
  (((s.modQ 3 fun x => { x with cmds := [cWait e] }).setFld F.HPn_CFG_NBLK 1 0).setSteps 0 [xDraw e]).modBand 1 fun _ => { st := .compose }
def sDrawing (e : Entry) : State := drawIn e (runs [Pg.rnd, Pg.skn] (sWaiting .none e))
/-- Working RAM at 0x20002000: four codes, four codes, and a run-length stream of two lines of black and red. -/
def sImage (e : Entry) : State := (sDrawing e).setBytes 0x20002000 [0xE4, 0x01, 0, 0, 0x1B]
def eRle : Entry := entry 0x00020110 0x20002040 0 0x00010004
def sRle (e : Entry) : State := (sDrawing e).setBytes 0x20002040 [0x40, 0x82, 0xC3]
def eBars2 : Entry := entry 0x00030014 0x20002000 0 0x00010002
def sBars (e : Entry) : State := (sDrawing e).setBytes 0x20002000 [2, 1, 3]
/-- A directory at 0x5000 with one atlas, of one glyph for 'A' of 4 x 2 dots, and one logo of 4 x 1 dots; a string "AB". -/
def sRes (e : Entry) : State :=
  let s := (sDrawing e).setBytes 0x20002000 [65, 66]
  let s := { s with rnd := { s.rnd with dirValid := true, nAtlas := 1, nLogo := 1, atlasTab := 0x40, logoTab := 0x44 } }
  ((s.setFld F.RND_DIR_BASE 5).setBytes 0x5040 [0, 1, 0, 0, 0, 2, 0, 0]).setBytes 0x5100 ([4, 2, 1, 0, 65, 0, 1, 0, 0xFF, 0xFF, 0, 0, 0, 0, 0, 0, 0x9, 0x6])
    |>.setBytes 0x5200 [4, 0, 1, 0, 2, 0, 0, 0, 4, 0, 0, 0, 0, 0, 0, 0, 0xE4, 0, 0, 0]
def eText2 : Entry := entry 0x00020011 0x20002000 0 0x00000100
def eLogoEdge : Entry := entry 0x00000012 0 0x003E0000 0
/-- Dots 0 to 9 of lines 0 to 3 of the area after the drawing. -/
def dotsAfter (s : State) : List (List Nat) :=
  let t := nextOf (.drawComplete 0) s
  (List.range 4).map fun l => (List.range 10).map fun d => t.dot 1 l d

theorem test_witness_draw_complete : ∀ e ∈ [eRule, eRaw], (sDrawing e).Up ∧ (sDrawing e).steps 0 = [xDraw e] ∧
    (sDrawing e).working Pg.rnd = true ∧ (sDrawing e).Holds 3 (cWait e) ∧ (∀ o, o ≠ 0 → (sDrawing e).steps o = []) ∧
    (cWait e).uid = (xDraw e).uid ∧ (sDrawing e).dirWait (xDraw e) = false ∧ e.needsDir = false := by decide +kernel
/-- What the entry names, if it reads well. -/
def objOf (e : Entry) (s : State) : Option Obj :=
  match (rdObject 0 e s).1 with
  | .ok (.ok o) => some o
  | _ => none
theorem test_witness_drawn_objects : objOf eRule (sDrawing eRule) = some .rule ∧
    objOf eRaw (sImage eRaw) = some .raw ∧ objOf eRle (sRle eRle) = some .rle ∧
    objOf eBars2 (sBars eBars2) = some (.bars [2, 1, 3]) ∧
    objOf eText2 (sRes eText2) = some (.text ⟨0x5110, none, 4, 2, 1, 65, 1, 0xFFFF⟩ [⟨0, 0⟩] false) ∧
    objOf eLogoEdge (sRes eLogoEdge) = some (.logo ⟨0x5210, 4, 1, 2, false, 4⟩) ∧
    (sRes eText2).dirWait (xDraw eText2) = false := by decide +kernel
theorem test_witness_drawn_fits : Obj.rule.Fits (sDrawing eRule) 0 eRule [] ∧ Obj.raw.Fits (sImage eRaw) 0 eRaw [] ∧
    (Obj.bars [2, 1, 3]).Fits (sBars eBars2) 0 eBars2 [] ∧ (Obj.logo ⟨0x5210, 4, 1, 2, false, 4⟩).Fits (sRes eLogoEdge) 0 eLogoEdge [] := by
  unfold Obj.Fits; exact ⟨by decide +kernel, by decide +kernel, by decide +kernel, by decide +kernel, fun h => nomatch h⟩
theorem test_witness_drawn_flash : (sRes eText2).FlashSound := by unfold State.FlashSound; decide +kernel
theorem test_witness_drawn_stream : (rleDecode (0x20002040 + 64) 4 2 65 0x20002040 {} (sRle eRle)).1.toOption =
    some ⟨[[0, 0, 0, 0], [1, 2, 2, 2]], [], false, none⟩ := by decide +kernel
theorem test_draw_rule : dotsAfter (sDrawing eRule) = [[0, 0, 0, 0, 1, 1, 1, 1, 1, 1], [0, 0, 0, 0, 1, 1, 1, 1, 1, 1],
    [0, 0, 0, 0, 0, 0, 0, 0, 0, 0], [0, 0, 0, 0, 0, 0, 0, 0, 0, 0]] := by decide +kernel
/-- 0xE4 is the codes 0, 1, 2 and 3, of which 3 lays white (R140); 0x1B the same backwards, a stride of 4 bytes on. -/
theorem test_draw_raw : (dotsAfter (sImage eRaw)).take 2 = [[0, 1, 2, 0, 0, 0, 0, 0, 0, 0], [0, 2, 1, 0, 0, 0, 0, 0, 0, 0]] := by decide +kernel
theorem test_draw_streams : (dotsAfter (sRle eRle)).take 3 = [[1, 2, 2, 2, 0, 0, 0, 0, 0, 0], [0, 0, 0, 0, 0, 0, 0, 0, 0, 0],
    [0, 0, 0, 0, 0, 0, 0, 0, 0, 0]] ∧
    (dotsAfter (sBars eBars2)).take 2 = [[1, 1, 0, 1, 1, 1, 0, 0, 0, 0], [1, 1, 0, 1, 1, 1, 0, 0, 0, 0]] := by decide +kernel
theorem test_draw_resources : (dotsAfter (sRes eText2)).take 3 = [[1, 0, 0, 1, 0, 0, 0, 0, 0, 0], [0, 1, 1, 0, 0, 0, 0, 0, 0, 0],
    [0, 0, 0, 0, 0, 0, 0, 0, 0, 0]] ∧
    gives (.drawComplete 0) (sRes eLogoEdge) (fun t => t.dot 1 0 62 == 0 && t.dot 1 0 63 == 1 && (t.q 3).cmds.map (·.out) == [some St.partly]) = true := by
  decide +kernel
/-- The area has shrunk below the rule since its issue (R128). -/
def sTooLow : State := { sDrawing eRule with skn := { (sDrawing eRule).skn with o := (sDrawing eRule).skn.o.set 0 255 } }
theorem test_witness_draw_low : sTooLow.area 0 < eRule.y + eRule.sp ∧ eRule.opc = 0x13 ∧ sTooLow.steps 0 = [xDraw eRule] := by decide +kernel
theorem test_draw_low : gives (.drawComplete 0) sTooLow (fun t =>
    (t.q 3).cmds.map (·.out) == [some St.badCommand] && wbits (t.rd R.SEQ_Tn_BADCMD 3) 0 7 == 0xA && t.steps 0 == []) = true := by decide +kernel
theorem test_witness_rnd_flash_retry : (sRetry (some busyFlash)).steps 0 = [{ xRule true with retry := some ⟨0x40, 1⟩ }] ∧
    ((sRetry (some busyFlash)).page Pg.flc).st ≠ .resetting ∧ busyFlash.suspSince = none ∧
    busyFlash.bank = flashBank 0x40 ∧ (sRetry none).flc.op = none ∧ (sRetry none).Up ∧ ∀ o, o ≠ 0 → (sRetry none).steps o = [] := by
  decide +kernel
def sDirRetry : State :=
  { State.reset with rnd := { State.reset.rnd with dirChk := some ⟨State.reset.dirBase, 1⟩ }, flc := { FlcSt.reset with op := some busyFlash } }
theorem test_witness_dir_retry : sDirRetry.Up ∧ sDirRetry.steps 0 = [] ∧ sDirRetry.rnd.dirChk = some ⟨sDirRetry.dirBase, 1⟩ ∧
    (sDirRetry.page Pg.flc).st ≠ .resetting ∧ busyFlash.bank = flashBank sDirRetry.dirBase := by decide +kernel
theorem test_dir_retry : gives (.rndFlashRetry 0) sDirRetry (fun t => t.rnd.dirChk.map (·.count) == some 2 && t.rd R.RND_FLRETRY == 1) = true := by
  decide +kernel

def sDir : State :=
  (runs [Pg.rnd] State.reset).setBytes 0x5000 (natBytes 4 0x44524B49 ++ natBytes 2 1 ++ natBytes 2 3 ++ natBytes 2 4 ++
    natBytes 2 0 ++ natBytes 4 0x40 ++ natBytes 4 0x80)
theorem test_witness_rnd_dir_check : sDir.Open Pg.rnd ∧ sDir.running Pg.rnd = true ∧ (∀ p, sDir.steps p = []) ∧
    sDir.flc.op = none ∧ sDir.running Pg.flc = true ∧ sDir.bankFailed 0 = false ∧ sDir.bankFailed 1 = false ∧
    sDir.flc.ecc = [] ∧ sDir.flc.undef = [] ∧ sDir.flc.bufs[(1 : Fin 3)] = [] := by decide +kernel
theorem test_rnd_dir_check : gives (.rndDirCheck 0x5000) sDir (fun t =>
    t.rnd.dirValid && t.rnd.nAtlas == 3 && t.rnd.nLogo == 4 && t.rnd.atlasTab == 0x40 && t.rnd.logoTab == 0x80) = true := by
  decide +kernel
theorem test_witness_rnd_dir_write : State.reset.Open Pg.rnd ∧ State.reset.running Pg.rnd = false := by decide +kernel

-- chapter 06

def sHhe : State := (runs [Pg.hhe, Pg.hp 0, Pg.adc] State.reset).setBit F.HHE_Pp_CFG_EN true 0
def heldLine (fired : Bool) : RingLine := { uid := 4, k := 0, fired := fired, start := 0, data := ⟨[], 0, 0, false, false⟩ }
theorem test_witness_profile_publish : sHhe.Open Pg.hhe ∧
    ((0x7FFF : Word) &&& 0x8000FFFF).getLsbD 31 = false := by decide +kernel
theorem test_witness_profile_rejected : ((0x80000000 : Word) &&& 0x8000FFFF).getLsbD 31 = true ∧
    wbits (sHhe.rd R.HHE_Pp_PRj_E 0 3) 16 8 = 0 := by decide +kernel
theorem test_profile_publish : gives (.profilePublish 0 3 0x80000019) (sHhe.wr R.HHE_Pp_PRj_E 0x00010203 0 3) (fun t =>
    (t.hheP 0).profiles[3] == ⟨0x00010203, 0, 0, 0x80000019⟩) = true := by decide +kernel
theorem test_witness_hhe_port_enable : (runs [Pg.hhe] State.reset).Open Pg.hhe ∧
    (runs [Pg.hhe] State.reset).flag F.HHE_Pp_CFG_EN 0 = false := by decide +kernel
theorem test_witness_hhe_port_disable : sHhe.Open Pg.hhe ∧ sHhe.flag F.HHE_Pp_CFG_EN 0 = true ∧
    (sHhe.hpP 0).cur = none ∧ sHhe.lines 0 = [] := by decide +kernel
def sPause : State :=
  let s := sHhe.modHhe 0 fun x => { x with mode := .running, ring := [heldLine false], lastStart := some 0 }
  { s.setLines 0 [Line.mk 4 3 0 0 0 0 none] with time := 0xFFFFFF }
def sDisable : State := sHhe.setLines 0 [Line.mk 4 3 0 0 0 0 none]
theorem test_witness_hhe_port_disable_lines : sDisable.working (Pg.hp 0) = true ∧ sDisable.lines 0 ≠ [] ∧ (sDisable.hpP 0).cur = none ∧
    (sDisable.hpP 0).hold = none ∧ (∀ q ∈ sDisable.portQueues 0, (sDisable.q q).cmds = [] ∧ (sDisable.q q).conts = []) := by decide +kernel
theorem test_hhe_port_disable_lines : gives (.hhePortDisable 0) sDisable (fun t =>
    (t.hpP 0).hold == some St.aborted && t.lines 0 == sDisable.lines 0 && (t.hheP 0).mode == .off) = true := by decide +kernel
theorem test_witness_hhe_pause : sPause.computes 0 = true ∧ (sPause.hheP 0).mode = .running ∧
    ((sPause.hheP 0).ring.find? fun x => !x.fired) = some (heldLine false) ∧ sPause.lineIx 0 4 0 = some 0 ∧
    ((sPause.projOf 0 0).map fun (t : BitVec 64) => decide (t.toNat + sPause.fld F.HHE_Pp_DCFG_RCTOL 0 * 100 ≤ sPause.time.toNat)) = some true ∧
    (({ sPause with time := 0 }.projOf 0 0).map fun (t : BitVec 64) => decide (0 < t.toNat + sPause.fld F.HHE_Pp_DCFG_RCTOL 0 * 100)) = some true := by
  decide +kernel
theorem test_hhe_pause : gives (.hhePause 0) sPause (fun t => (t.hheP 0).mode == .paused && (t.hheP 0).ring.map (·.stale) == [true]) = true ∧
    gives (.hhePause 0) { sPause with time := 0 } (fun t => (t.hheP 0).mode == .running) = true := by decide +kernel
def sDemand : State :=
  (sHhe.modHhe 0 fun x => { x with mode := .idle }).modHp 0 fun h =>
    { h with cur := some { line := Line.mk 4 3 0 0 0 0 none, start := 0, tag := 0 } }
theorem test_witness_source_stale : (sDemand.onDemand 0).isSome = true ∧ sDemand.tsubNow 0 = none ∧ sDemand.Up := by decide +kernel
/-- A line to be computed ahead, without any sample. -/
def sAhead : State := (sHhe.modHhe 0 fun x => { x with mode := .running, lastStart := some 0 }).setLines 0 [Line.mk 4 3 0 0 0 0 none]
theorem test_witness_source_stale_ahead : sAhead.onDemand 0 = none ∧ (sAhead.eligible 0).isSome = true ∧ sAhead.vhLook 0 = .stale := by
  decide +kernel
theorem test_source_stale : gives (.sourceStale 0) sDemand (fun t => (t.hheP 0).mode == .stopped && t.reports.length == 1) = true := by
  decide +kernel
/-- A committed line that is due soon, with fresh samples: VH of full scale on channel VHCH. -/
def sCompute : State :=
  let s := sHhe.modHhe 0 fun x => { x with mode := .running, lastStart := some 0 }
  { s.setLines 0 [Line.mk 4 3 0 0 0 0 none] with
    adc := { AdcSt.reset with lastValid := Vector.replicate 40 (some ⟨5000000, 0⟩) } }
theorem test_witness_line_compute : sCompute.Up ∧ (∀ o, sCompute.onDemand o = none) ∧
    (sCompute.nextLine.map fun x => (x.1, x.2.1)) = some (0, Line.mk 4 3 0 0 0 0 none) ∧
    (match sCompute.vhLook 0 with | .good _ _ => true | _ => false) = true := by decide +kernel
theorem test_line_compute : gives .lineCompute sCompute (fun t =>
    (t.hheP 0).ring.map (fun r => (r.uid, r.k, r.fired)) == [(4, 0, false)]) = true := by decide +kernel

-- chapters 07 and 08: port 0

def theLine : Line := Line.mk 4 3 0 0 0 0 none
def sHead : State := (runs [Pg.hhe, Pg.hp 0, Pg.sba] (sWaiting .none ePrint)).setBit F.HHE_Pp_CFG_EN true 0
def sStart : State := (sHead.modHhe 0 fun x => { x with mode := .idle }).setLines 0 [theLine]
theorem test_witness_start_of_scan : sStart.Up ∧ sStart.nextLive 0 = some theLine ∧
    sStart.canStart 0 = true ∧ sStart.paced 0 = false ∧ (sStart.hpP 0).timerDone = true ∧ sStart.govPaused 0 = false ∧
    (∀ r ∈ (sStart.hheP 0).ring, r.data.counts.length ≤ 6144) := by decide +kernel
/-- The port takes its starts from the encoder, and a trigger is pending. -/
def sPaced : State := (sStart.setBit F.HPn_CFG_PACE true 0).modHp 0 fun h => { h with pendTrig := true, timerDone := false }
theorem test_witness_start_of_scan_paced : sPaced.nextLive 0 = some theLine ∧ sPaced.canStart 0 = true ∧ sPaced.paced 0 = true ∧
    (sPaced.hpP 0).pendTrig = true ∧ (∀ r ∈ (sPaced.hheP 0).ring, r.data.counts.length ≤ 6144) := by decide +kernel
theorem test_start_of_scan : gives (.startOfScan 0) sStart (fun t =>
    (t.hpP 0).cur.map (·.line) == some theLine && t.lines 0 == [] && (t.hheP 0).lastStart == some 0) = true := by decide +kernel
theorem test_witness_line_timer_expire : sHead.working (Pg.hp 0) = true ∧ sHead.paced 0 = false ∧
    (sHead.hpP 0).dueAt.toNat ≤ sHead.time.toNat ∧
    sHead.time.toNat < ((sHead.modHp 0 fun h => { h with dueAt := 9 }).hpP 0).dueAt.toNat := by decide +kernel
/-- The line stands at `st`, with one slice of three dots. -/
def inLine (st : SliceSt) : CurLine :=
  { line := theLine, start := 0, tag := 7, data := some ⟨[1, 1, 1], 1, 20, false, false⟩, w := 100, slice := 1, st := st }
def sLine (st : SliceSt) : State :=
  { sHead.modHp 0 fun h => { h with cur := some (inLine st) } with time := 1000 }
/-- A line of two slices, at its first. -/
def sTwoAt (st : SliceSt) : State := (sLine st).modHp 0 fun h =>
  { h with cur := some { inLine st with data := some ⟨[2, 1, 1], 2, 20, false, false⟩ } }
theorem test_witness_slice_latch : (sLine .shifting).Up ∧ ((sLine .shifting).hpP 0).cur = some (inLine .shifting) ∧
    (inLine .shifting).nextLatch.toNat ≤ (sLine .shifting).time.toNat ∧ (sLine .shifting).running (Pg.hp 0) = true ∧
    (sLine .shifting).running Pg.sba = true ∧ ((sLine .shifting).modPage Pg.sba fun x => { x with st := .off }).running Pg.sba = false := by
  decide +kernel
theorem test_slice_latch : gives (.sliceLatch 0) ((sLine .shifting).modPage Pg.sba fun x => { x with st := .off }) (fun t =>
    (t.hpP 0).cur == none && (t.hpP 0).hold.isSome) = true := by decide +kernel
/-- The next slice's bits are shifted after the latch pulse; after the last slice none are (R178, R181). -/
theorem test_slice_shift : gives (.sliceLatch 0) (sLine .shifting) (fun t => (t.hpP 0).latAt == some 1000 && (t.hpP 0).shiftAt == none) = true ∧
    gives (.sliceLatch 0) (sTwoAt .shifting) (fun t => (t.hpP 0).shiftAt == some (1000 + BitVec.ofNat 64 (sHead.latw 0)) &&
      (t.hpP 0).shiftBits != (t.hpP 0).latch) = true := by decide +kernel
def sAsk : State := sLine (.latched 1000)
def answerOf (s : State) : Option (BitVec 64 × Nat × Nat) :=
  s.sbaActivate.place 0 (inLine (.latched 1000)).dots 100 (s.tFire 0 100) (1000 + BitVec.ofNat 64 (s.latw 0 + s.tls 0)) 1000
theorem test_witness_sba_grant : (sAsk.hpP 0).cur = some (inLine (.latched 1000)) ∧ sAsk.running Pg.sba = true ∧
    sAsk.grantTurn 0 = true ∧ (answerOf sAsk).isSome = true := by decide +kernel
def sCap : State := { sAsk with active := [(R.SBA_Pp_EST.addr 0 0, 0x00000AFF)] }.wr R.SBA_PCAPp 0 0
theorem test_witness_sba_refuses : sCap.grantTurn 0 = true ∧ answerOf sCap = none ∧ sCap.running Pg.sba = true ∧
    (sCap.hpP 0).cur = some (inLine (.latched 1000)) := by decide +kernel
theorem test_witness_strobe_on : ((sLine (.granted 900)).hpP 0).cur = some (inLine (.granted 900)) ∧
    (sLine (.granted 900)).shut 0 = false ∧ (900 : BitVec 64).toNat ≤ (sLine (.granted 900)).time.toNat := by decide +kernel
theorem test_strobe_on : gives (.strobeOn 0) (sLine (.granted 900)) (fun t =>
    (t.hpP 0).cur.map (·.st) == some (.firing 1100)) = true := by decide +kernel
theorem test_witness_slice_fire_end : ((sLine (.firing 900)).hpP 0).cur = some (inLine (.firing 900)) ∧
    (900 : BitVec 64).toNat ≤ (sLine (.firing 900)).time.toNat ∧ (sLine (.firing 900)).running (Pg.hp 0) = true ∧
    (sLine (.firing 900)).running Pg.sba = true ∧ (inLine (.firing 900)).data.map (·.nLine) = some 1 := by decide +kernel
def sTwo : State := sTwoAt (.firing 900)
theorem test_witness_slice_goes_on : sTwo.running (Pg.hp 0) = true ∧ (inLine (.firing 900)).slice < 2 ∧ sTwo.running Pg.sba = true ∧
    (sTwo.modPage Pg.sba fun x => { x with st := .off }).running Pg.sba = false ∧
    (sTwo.modPage (Pg.hp 0) fun x => { x with st := .draining }).running (Pg.hp 0) = false := by decide +kernel
theorem test_slice_goes_on : gives (.sliceFireEnd 0) sTwo (fun t => (t.hpP 0).cur.map (fun c => (c.st, c.slice)) == some (.shifting, 2)) = true ∧
    gives (.sliceFireEnd 0) (sTwo.modPage Pg.sba fun x => { x with st := .off }) (fun t => (t.hpP 0).cur == none) = true := by decide +kernel
theorem test_witness_line_end : ((sLine (.ending 900)).hpP 0).cur = some (inLine (.ending 900)) ∧
    (900 : BitVec 64).toNat ≤ (sLine (.ending 900)).time.toNat ∧ ((sLine (.ending 900)).hpP 0).pendTrig = false ∧
    (inLine (.ending 900)).data.map (·.nLine) = some 1 := by decide +kernel
theorem test_witness_line_end_trigger : (((sLine (.ending 900)).modHp 0 fun h => { h with pendTrig := true }).hpP 0).pendTrig = true ∧
    (sLine (.ending 900)).lines 0 = [] := by decide +kernel
/-- A trigger that finds no line to start is a starvation (R191). -/
theorem test_line_end_starves : gives (.lineEnd 0) ((sLine (.ending 900)).modHp 0 fun h => { h with pendTrig := true }) (fun t =>
    t.rd R.HPn_STARVE 0 == 1 && !(t.hpP 0).pendTrig) = true := by decide +kernel
theorem test_line_end : gives (.lineEnd 0) (sLine (.ending 900)) (fun t =>
    t.rd R.HPn_LREP 0 == 0x00000107 && t.rd R.HPn_LTIME 0 == 900) = true := by decide +kernel
def sOutOfPaper : State := (sLine (.ending 900)).modHp 0 fun h => { h with paperOut := true }
theorem test_witness_line_end_paper : (sOutOfPaper.hpP 0).cur = some (inLine (.ending 900)) ∧ (sOutOfPaper.hpP 0).paperOut = true ∧
    (sOutOfPaper.hpP 0).pendTrig = false ∧ sOutOfPaper.running (Pg.hp 0) = true ∧ sOutOfPaper.lines 0 = [] ∧
    ((sLine (.ending 900)).hpP 0).paperOut = false := by decide +kernel
theorem test_line_end_paper : gives (.lineEnd 0) sOutOfPaper (fun t => (t.hpP 0).cur == none && (t.hpP 0).hold.isSome) = true := by
  decide +kernel
theorem test_witness_supply_budget : sAsk.Up ∧ sAsk.time.toNat < 2 ^ 62 ∧ (∀ r ∈ sAsk.sba.calendar, r.stop.toNat < 2 ^ 62) ∧
    (sAsk.requested 0 = some 1000) ∧ (inLine (.latched 1000)).w ≤ 65535 ∧ sAsk.sba.calendar = [] := by decide +kernel
theorem test_witness_shutter : sHead.Open (Pg.hp 0) ∧ (sHead.hpP 0).cur = none ∧
    ((sLine .shifting).hpP 0).paperOut = false ∧ (sLine .shifting).win 0 = none ∧ (inLine .shifting).data.isSome = true := by decide +kernel
theorem test_shutter_close_host : gives (.shutterCloseHost 0) (sLine .shifting) (fun t =>
    t.shut 0 && (t.hpP 0).cur == none && (t.page (Pg.hp 0)).irqStat == 0x40) = true := by decide +kernel
theorem test_witness_stb_long : (sHead.setBit F.HPn_CFG_OE true 0).flag F.HPn_CFG_OE 0 = true ∧
    (sHead.setBit F.HPn_CFG_OE true 0).shut 0 = false ∧ (sHead.setBit F.HPn_CFG_OE true 0).running (Pg.hp 0) = true ∧
    (sHead.setBit F.HPn_CFG_OE true 0).Up ∧ (5 : Nat) ≤ max 1 ((sHead.setFld F.HPn_STBMAX_MAX 5 0).fld F.HPn_STBMAX_MAX 0) ∧
    max 1 ((sHead.setFld F.HPn_STBMAX_MAX 0 0).fld F.HPn_STBMAX_MAX 0) = 1 := by decide +kernel
/-- 07 R197: a MAX of 0 acts as 1. -/
theorem test_stb_long : gives (.stbLong 0 0 2) ((sHead.setBit F.HPn_CFG_OE true 0).setFld F.HPn_STBMAX_MAX 0 0) (fun t =>
    (t.hpP 0).causes.stbLong && t.reports.map (·.k.val) == [3]) = true := by decide +kernel
theorem test_hp_esync : gives (.hpEsync 0 3) sHead (fun t => (t.hpP 0).trigAt == 0x30000) = true := by decide +kernel
theorem test_witness_energy_bucket : ({ sHead with time := 0xFFFFFFF }).working Pg.sba = true ∧
    ({ sHead with time := 0xFFFFFFF }).bucketTicks 0 ≤ ({ sHead with time := 0xFFFFFFF }).since (sHead.sbaP 0).bucketStart := by
  decide +kernel
def sPaused : State := { (sStart.modSba 0 fun x => { x with paused := true }) with time := 0xFFFFFFF }
theorem test_witness_governor_resume : (sPaused.sbaP 0).paused = true ∧ 0 < sPaused.linesLeft 0 ∧
    sPaused.act F.SBA_GVp_CTL_RTMO 0 * 100 ≤ sPaused.since (sPaused.sbaP 0).grewAt ∧ sPaused.Up := by decide +kernel


-- chapter 09: port 1

def sH : State := runs [Pg.ehm, Pg.hhe, Pg.hp 1, Pg.sba, Pg.adc, Pg.adt] State.reset
def sEw : State := { sH with ehm := { sH.ehm with sel := [(.csl, 0x20005)] } }
theorem test_witness_element_window : sEw.Open Pg.ehm ∧ sEw.WritesAt .csl 0x4000D048 ∧ wbits (sEw.ewSel .csl) 0 13 = 5 := by decide +kernel
/-- Reserved bits of bytes 1 and 2 are stored as 0 (R222). -/
theorem test_element_window_write : gives (.elementWindowWrite .csl 0xFFFFFFFF 0x87654321) sEw (fun t =>
    t.word (elemAddr 2 5) == 0xFF7F3FFF && t.word (elemAddr 2 5 + 4) == 0x87654321) = true := by decide +kernel
def sRst : State := sH.setFld F.EHM_RSTSRC_ADDR (0x20000100 / 8)
theorem test_witness_restore_start : sRst.Open Pg.ehm ∧ sRst.running Pg.ehm = true ∧ sRst.ehm.restore = none ∧
    inWram (sRst.fld F.EHM_RSTSRC_ADDR * 8) 16 = true ∧ wbits (0x80024003 : Word) 16 13 = 2 ∧ wbits (0x80024003 : Word) 0 13 = 3 := by
  decide +kernel
theorem test_restore_start_reasons :
    gives (.restoreCopyStart 0x80001000) sRst (fun t => t.fld F.EHM_RSTSTAT_RESULT == 3) = true ∧
    gives (.restoreCopyStart 0x80024003) (sRst.setFld F.EHM_RSTSRC_ADDR (0x10000000 / 8)) (fun t => t.fld F.EHM_RSTSTAT_RESULT == 4) = true := by
  decide +kernel
def sCopy : State := { (sH.setBytes 0x20000100 (List.replicate 16 0xFF)) with ehm := { sH.ehm with restore := some (Restore.mk 0x20000100 1 3 2 0 none) } }
theorem test_witness_restore_end : sCopy.Up ∧ sCopy.working Pg.ehm = true ∧ inWram 0x20000100 16 = true := by decide +kernel
theorem test_restore_end : gives .restoreCopyEnd sCopy (fun t =>
    t.word (elemAddr 1 4) == 0xFF7F3FFF && t.byte (elemAddr 1 5) == 0x33) = true := by decide +kernel
def eraseOp : FlcOp := { cmd := 2, bank := 0, lo := 0x2000, hi := 0x3000, waddr := 0x400, count := 1, salt := 0, runSince := 0 }
def sRstRetry (op : Option FlcOp) (x : Option Retry) : State :=
  { sH with flc := { sH.flc with op := op }, ehm := { sH.ehm with restore := some (Restore.mk 0 1 3 2 0 x) } }
theorem test_witness_restore_retry : (sRstRetry (some eraseOp) none).working Pg.ehm = true ∧ inFlash 0 16 = true ∧ (sRstRetry none none).Up ∧
    (State.reset.page Pg.flc).st ≠ .resetting ∧ eraseOp.suspSince = none ∧ flashBank 0 = eraseOp.bank := by decide +kernel
theorem test_restore_retry : gives .restoreFlashRetry (sRstRetry (some eraseOp) (some ⟨0, 1023⟩)) (fun t =>
    t.ehm.restore == none && t.fld F.EHM_RSTSTAT_RESULT == 5) = true := by decide +kernel
theorem test_ehm_prio_add : gives (.ehmPrioAdd 1 9) sH (fun t => (t.ehmP 1).prio == [9]) = true := by decide +kernel
def sScan : State :=
  (((sH.setBit F.EHM_Pp_SCAN_EN true 1).setFld F.HPn_CFG_NBLK 4 1).setBit F.HHE_Pp_CFG_EN true 1).modHhe 1 fun x => { x with mode := .idle }
/-- SETTLE is 20 ms at reset. -/
theorem test_witness_settle : sScan.Up ∧ sScan.scanAvail 1 = true ∧ (sScan.ehmP 1).settled = false ∧ sScan.fld F.EHM_Pp_SCAN_SETTLE 1 = 20 ∧
    { sScan with time := 2000000 }.since 0 = 2000000 ∧ (sScan.hpP 1).lastEnd = 0 := by decide +kernel
theorem test_settle : gives (.settleExpire 1) { sScan with time := 1999999 } (fun t => (t.ehmP 1).settled == false) = true := by
  decide +kernel
def theBurst : Visit := { entry := 0, s := 3, total := some 48, start := 10, port := some 1 }
def sBurst : State := (sScan.modEhm 1 fun x => { x with settled := true, prio := [9, 11] }).modSlice 3 fun x => { x with visit := some theBurst }
theorem test_witness_measure_start : sBurst.scanMay 1 = true ∧ sBurst.measuring 1 = false ∧ sBurst.burstOf 1 = some (3, theBurst) ∧
    (sBurst.ehmP 1).next = none ∧ (sBurst.ehmP 1).prio = [9, 11] ∧ sBurst.elemFlag 1 9 elDead = false ∧ 9 < sBurst.nEl 1 := by decide +kernel
theorem test_measure_start : gives (.measureSlotStart 1) sBurst (fun t => (t.ehmP 1).slot.map (·.elem) == some 9) = true := by decide +kernel
/-- Sixteen words at 0, then sixteen at `d`. -/
def theSlot (lost : Bool) (d : Int) : MeasSlot :=
  { elem := 9, kind := .plain, start := 0, lost := lost, words := List.replicate 16 (some d) ++ List.replicate 16 (some 0) }
def sMeas : State :=
  let s := ((sBurst.modEhm 1 fun x => { x with slot := some (theSlot false 15000) }).setFld F.HHE_Pp_SRC_VHCH 5 1).setBit F.EHM_Pp_SCAN_AUTOR true 1
  { s with adc := { s.adc with lastValid := s.adc.lastValid.setIfInBounds 5 (some ⟨8000000, 0⟩) } }
theorem test_witness_measure_end : sMeas.working Pg.ehm = true ∧ (sMeas.ehmP 1).slot = some (theSlot false 15000) ∧
    (sMeas.ehmP 1).curWrite = none ∧ (∀ w ∈ (theSlot false 15000).words, w ≠ none) ∧
    sMeas.adc.lastValid.toList.getD (sMeas.fld F.HHE_Pp_SRC_VHCH 1) none = some ⟨8000000, 0⟩ ∧
    (sMeas.measured 1 (windowSum ((theSlot false 15000).words.reverse.filterMap id)) (sMeas.vhOf 1 8000000)).cls = .ok := by decide +kernel
/-- q is 236 here, so the trim is 31 (R230, R231). -/
theorem test_measure_end : gives (.measureSlotEnd 1) sMeas (fun t => t.byte (elemAddr 1 9) == 31 && t.byte (elemAddr 1 9 + 2) == 0x10) = true := by
  decide +kernel
theorem test_class_edges : [179, 180, 204, 205, 294, 295, 333, 334, 1022, 1023].map classOf =
    [.short, .worn, .worn, .ok, .ok, .worn, .worn, .dead, .dead, .openCircuit] := by decide +kernel
theorem test_measure_lost : gives (.measureSlotEnd 1) (sBurst.modEhm 1 fun x => { x with slot := some (theSlot true 5) }) (fun t =>
    t.rd R.EHM_Pp_DISC 1 == 1 && (t.ehmP 1).next == some (9, .plain, false)) = true := by decide +kernel
-- chapter 10: axis 2, encoder 1

def sAx : State := runs [Pg.ax 2, Pg.moc, Pg.qe 1] State.reset
def sAxT (v : Word) : State := (sAx.wr R.AXn_TARGET v 2).modAx 2 fun x => { x with ired := true }
theorem test_witness_axis_idle : (sAxT 100).Open (Pg.ax 2) ∧ (sAxT 100).running (Pg.ax 2) = true ∧
    ((sAxT 100).page (Pg.ax 2)).pend = false ∧ (sAxT 100).axIdle 2 = true ∧ (sAxT 100).axPos 2 ≠ (sAxT 100).rd R.AXn_TARGET 2 ∧
    (sAxT 100).atHome 2 = false ∧ ((sAxT 100).axS 2).waiting = [] ∧ (sAxT 100).fld F.AXn_GEAR_NSEG 2 = 0 ∧ sAx.Open Pg.moc := by
  decide +kernel
/-- TWAKE is 50 µs and TDIR 5 µs at reset (R270): the first tick comes 5000 clocks after the command. -/
theorem test_ax_move : gives (.axMove 2 false) (sAxT 0xFFFFFFFF) (fun t =>
    (t.axS 2).startAt == some 5000 && (t.axS 2).neg && (t.axS 2).target == 0xFFFFFFFF && t.regs == (sAxT 0xFFFFFFFF).regs) = true := by
  decide +kernel
theorem test_witness_axis_at_home : (sAxT 100 |>.setBit F.AXn_HOME_POL true 2).atHome 2 = true := by decide +kernel
theorem test_witness_axis_sync : ((sAx.modAx 2 fun x => { x with sync := some 1 }).axS 2).sync = some 1 := by decide +kernel
def sMove : State := (sAxT 3000).modAx 2 fun x => { x with act := .move, target := 3000, v := 1000 * mega, host := true }
theorem test_witness_axis_moves : (sMove.axS 2).act = .move ∧ (sMove.axS 2).job = none ∧ (sMove.axS 2).stop = none ∧
    (sMove.axS 2).startAt = none ∧ (sMove.axS 2).v ≠ 0 ∧ sMove.fld F.AXn_EDEC_A 2 ≠ 0 ∧ sMove.running (Pg.ax 2) = true ∧
    (sMove.wr R.AXn_EDEC 0 2).fld F.AXn_EDEC_A 2 = 0 ∧ (sMove.axS 2).waiting = [] := by decide +kernel
/-- From 1000 steps/s the stopping distance is 0 at VSTOP 1000: two steps are far enough ahead (R250). -/
theorem test_retarget : gives (.axMove 2 false) (sMove.wr R.AXn_TARGET 2 2) (fun t => (t.axS 2).target == 2 && (t.axS 2).stop == none) = true ∧
    gives (.axMove 2 false) (sMove.wr R.AXn_TARGET 1 2) (fun t => (t.axS 2).stop == some false && (t.axS 2).next == some 1) = true := by
  decide +kernel
/-- MOC_GO runs what SYNC holds (R254, R270). -/
def sSync (k : Nat) : State := (sAxT 100).modAx 2 fun x => { x with sync := some k }
theorem test_witness_moc_go : (sSync 1).Open Pg.moc ∧ ((sSync 1).axS 2).sync = some 1 ∧ (sSync 1).axIdle 2 = true ∧
    ((sSync 7).axS 2).sync = some 7 ∧ (sSync 7).atHome 2 = false := by decide +kernel
theorem test_moc_go : gives (.mocGo 4) (sSync 1) (fun t => (t.axS 2).act == .move && (t.axS 2).startAt == some 5000 && (t.axS 2).sync == none) = true ∧
    gives (.mocGo 2) (sSync 1) (fun t => t == sSync 1) = true := by decide +kernel
theorem test_witness_estop_named : ∀ b : AxNum, (4 : BitVec 8).getLsbD b.val = true → (sMove.axS b).v ≠ 0 ∧ sMove.fld F.AXn_EDEC_A b.val ≠ 0 := by
  decide +kernel
theorem test_witness_axis_of_seq : ((sMove.modAx 2 fun x => { x with job := some ⟨0, 3, none, .feed false 4⟩ }).axS 2).job ≠ none := by decide +kernel
theorem test_witness_profile_tick : sMove.Up ∧ sMove.working (Pg.ax 2) = true ∧ 100 ≤ ({ sMove with time := 100 }).since (sMove.axS 2).tickAt ∧
    sMove.axPos 2 ≠ (sMove.axS 2).target ∧ sMove.encOn 2 = false ∧ (sMove.axS 2).ramp = none ∧ (sMove.axS 2).decel = false ∧
    sMove.stopDist 2 ((sMove.axS 2).v / 1000000) + 2 < 3000 ∧ (sMove.axS 2).v < sMove.vBrk 2 * 1000000 ∧ sMove.vBrk 2 ≤ sMove.vMax 2 := by
  decide +kernel
/-- ACC1 is 100,000 at reset: V rises by that much in units of 10^−6 steps/s. -/
theorem test_profile_tick : gives (.profileTick 2) { sMove with time := 100 } (fun t =>
    (t.axS 2).v == 1000100000 && (t.axS 2).acc == 100000000000) = true := by decide +kernel
theorem test_witness_first_tick_cut : (sMove.axS 2).cut = none ∧ (∀ b : AxNum, (sAx.axS b).act = .gear → sAx.fld F.AXn_GEAR_SRC b.val ≠ 8 + 2) := by decide +kernel
theorem test_witness_first_tick : gives (.profileTick 2) { sMove.modAx 2 (fun x => { x with startAt := some 100, v := 0 }) with time := 100 } (fun t =>
    (t.axS 2).v == 1000000000 && (t.axS 2).startAt == none) = true := by decide +kernel
theorem test_witness_decel : gives (.profileTick 2) { sMove.modAx 2 (fun x => { x with decel := true, v := 1000050000 }) with time := 100 } (fun t =>
    (t.axS 2).v == 1000000000) = true := by decide +kernel
def sStep : State := { sMove.modAx 2 (fun x => { x with target := 1 }) with time := 100000 }
theorem test_witness_step_emit : (sStep.axS 2).cut = none ∧ 100000000000000 ≤ (sStep.axS 2).accNow sStep.time ∧
    (∀ b : AxNum, sStep.fld F.AXn_GEAR_SRC b.val ≠ 8 + 2) ∧ (sStep.axS 2).inAdv = false ∧ sStep.MedStill 2 ∧
    (sStep.modAx 2 fun x => { x with target := 9 }).axPos 2 + 1 ≠ 9 := by
  refine ⟨by decide +kernel, by decide +kernel, by decide +kernel, by decide +kernel, .inl (by decide +kernel), by decide +kernel⟩
/-- No step within TDIR of a change of DIR (R243). -/
theorem test_witness_step_dir : sStep.tDir 2 ≤ sStep.since (sStep.axS 2).dirAt ∧
    (sStep.modAx 2 fun x => { x with dirAt := 99999 }).since 99999 < sStep.tDir 2 := by decide +kernel
theorem test_step_dir : gives (.stepEmit 2) (sStep.modAx 2 fun x => { x with dirAt := 99999 }) (fun t => t.axPos 2 == 0) = true := by
  decide +kernel
theorem test_step_emit : gives (.stepEmit 2) sStep (fun t => t.axPos 2 == 1 && (t.axS 2).v == 0 && (t.axS 2).act == .idle &&
    (t.page (Pg.ax 2)).irqStat == 0x10) = true := by decide +kernel
def sAdv : State := ((sAx.wr R.HPn_PACE 0x20 0).setFld F.HPn_PACE_AXIS 2 0).modHp 0 fun h => { h with advDue := 2 }
def sAdvIn : State := sAdv.modAx 2 fun x => { x with act := .lineadv, inAdv := true }
theorem test_witness_line_advance : (sAdv.hpP 0).advDue ≠ 0 ∧ sAdv.fld F.HPn_PACE_AXIS 0 = 2 ∧ sAdv.advancing 2 0 = false ∧
    sAdvIn.advancing 2 0 = true ∧ (sAdvIn.axS 2).held = false ∧
    (sAdvIn.axS 2).budget + sAdvIn.lpitch 2 ≤ sAdvIn.fld F.AXn_LAG_LAGMAX 2 * 65536 := by decide +kernel
theorem test_line_advance : gives (.lineAdvance 0) sAdvIn (fun t => (t.axS 2).budget == 0x10000 && (t.hpP 0).advDue == 1) = true := by
  decide +kernel
theorem test_witness_current_standby : sAx.axIdle 2 = true ∧ (sAx.axS 2).ired = false ∧ sAx.fld F.AXn_ISTBY_TSTBY 2 = 500 ∧
    ({ sAx with time := 50000000 }).since (sAx.axS 2).standSince = 50000000 := by decide +kernel
def sStall : State := { ((sMove.wr R.AXn_ENC 0x800A0010 2).modAx 2 fun x => { x with below := some 0 }) with time := 100000 }
theorem test_witness_stall : (sStall.axS 2).below = some 0 ∧ sStall.encOn 2 = true ∧ (sStall.axS 2).v ≠ 0 ∧
    sStall.fld F.AXn_EDEC_A 2 ≠ 0 ∧ max 1 (sStall.fld F.AXn_ENC_STALLT 2) * 10000 ≤ sStall.since 0 ∧ sStall.working (Pg.ax 2) = true := by
  decide +kernel
def sQe : State := (sAx.setFld F.AXn_GEAR_SRC 9 0)
def noSource (e : Nat) (s : State) : State :=
  (List.finRange 4).foldl (fun s (p : Port) => s.setFld F.HPn_PACE_QE (e + 1) p.val) s
theorem test_witness_qe_count : (∀ x : AxNum, (noSource 1 sQe).fld F.AXn_GEAR_SRC x.val ≠ 1) ∧
    (∀ p : Port, (noSource 1 sQe).fld F.HPn_PACE_QE p.val ≠ 1) ∧ (noSource 1 sQe).qeIn 1 true false = (true, false) ∧
    ((noSource 1 sQe).qeS 1).a = false ∧ ((noSource 1 sQe).qeS 1).b = false ∧ (noSource 1 sQe).running (Pg.qe 1) = true ∧
    (noSource 1 sQe).qeIn 1 true true = (!((noSource 1 sQe).qeS 1).a, !((noSource 1 sQe).qeS 1).b) ∧
    (noSource 1 sQe).fld F.QEn_CFG_MODE 1 < 3 ∧ (noSource 1 sQe).fld F.QEn_CFG_FILT 1 + 1 ≤ (256 : Word).toNat ∧
    ((noSource 1 sQe).qeS 1).i = false ∧ (noSource 1 sQe).flag F.QEn_CFG_INVI 1 = false ∧
    (5 : Word).toNat < ((noSource 1 sQe).setFld F.QEn_CFG_FILT 5 1).fld F.QEn_CFG_FILT 1 + 1 := by decide +kernel
/-- Encoder 1 with levels A and B before, and MODE. -/
def sQm (a b : Bool) (mode : Nat) : State := ((noSource 1 sQe).modQe 1 fun x => { x with a := a, b := b }).setFld F.QEn_CFG_MODE mode 1
theorem test_witness_qe_edges : (sQm true false 0).qeIn 1 true false = (true, false) ∧ (sQm true false 1).fld F.QEn_CFG_MODE 1 < 2 ∧
    2 ≤ (sQm true false 2).fld F.QEn_CFG_MODE 1 ∧ (sQm true false 2).qeIn 1 false false = (false, false) ∧
    (sQm true true 0).fld F.QEn_CFG_MODE 1 = 0 ∧ (sQm true true 1).fld F.QEn_CFG_MODE 1 ≠ 0 ∧ ((sQm true true 0).qeS 1).b = true := by decide +kernel
/-- One cycle forward counts 4, 2 and 1 in modes 0 to 2, and one back as many down (R266). -/
theorem test_qe_modes : [0, 1, 2].map (fun m => [(true, false), (true, true), (false, true), (false, false)].foldl
      (fun (s : State) (x : Bool × Bool) => nextOf (.qeCount 1 x.1 x.2 256) s) (sQm false false m) |>.rd R.QEn_POS_LO 1) = [4, 2, 1] ∧
    [0, 1].map (fun m => [(false, true), (true, true), (true, false), (false, false)].foldl
      (fun (s : State) (x : Bool × Bool) => nextOf (.qeCount 1 x.1 x.2 256) s) (sQm false false m) |>.rd R.QEn_POS_LO 1) = [-4, -2] := by
  decide +kernel
/-- FILT = 5: six clocks are enough, five are not (10 R266). -/
theorem test_qe_filter : gives (.qeIndex 1 true 5) ((noSource 1 sQe).setFld F.QEn_CFG_FILT 5 1) (fun t => t.fld F.QEn_IDXCNT_COUNT 1 == 0) = true ∧
    gives (.qeIndex 1 true 6) ((noSource 1 sQe).setFld F.QEn_CFG_FILT 5 1) (fun t => t.fld F.QEn_IDXCNT_COUNT 1 == 1) = true := by
  decide +kernel
theorem test_qe_count : gives (.qeCount 1 true false 256) (noSource 1 sQe |>.wr R.QEn_POS_LO 0xFFFFFFFF 1) (fun t =>
    t.rd R.QEn_POS_LO 1 == 0 && t.rd R.QEn_POS_HI 1 == 1) = true := by decide +kernel
theorem test_qe_rate_window : gives (.qeRateWindow 1) { sQe.wr R.QEn_POS_LO 7 1 with time := 102400 } (fun t =>
    t.rd R.QEn_RATE 1 == 7) = true := by decide +kernel

-- chapter 11: entry 0 on channel 4, entry 1 in the background, entry 2 a burst

def act (l : List (Nat × Word)) (s : State) : State := { s with active := l }
def sA : State := runs [Pg.adc, Pg.adt] State.reset
def sAdt (ctrl cfg : Word) : State :=
  let s := act [(R.ADC_CTRL.addr 0 0, ctrl), (R.ADC_SCAN.addr 0 0, 1000), (R.ADT_Ee_CFG.addr 0 0, cfg), (R.ADT_Ee_CFG.addr 1 0, 0x03040007),
    (R.ADT_Ee_CFG.addr 2 0, 0x23300009)] sA
  { (s.modSlice 0 fun x => { x with assigned := [0] }) with time := 40000 }
def sScan11 : State := sAdt 0 0x81040004
theorem test_witness_scan_start : sScan11.Up ∧ sScan11.scanDue = true ∧ (sScan11.page Pg.adc).pend = false ∧
    (sScan11.slice 0).visit = none ∧ sScan11.assignedDue 0 0 = [0] := by decide +kernel
/-- 40000 ticks are 2457 modulator clocks (R276). -/
theorem test_scan_start : gives .scanStart sScan11 (fun t =>
    (t.slice 0).visit.map (·.start) == some 2457 && t.adc.pendBg.map (·.entry) == [1] && t.rd R.ADC_SCANS == 0) = true := by decide +kernel
theorem test_witness_software_scan : (sAdt 1 0).Open Pg.adc ∧ (sAdt 1 0).actFlag F.ADC_CTRL_MODE = true ∧ (sAdt 1 0).running Pg.adc = true ∧
    (sAdt 1 0).per' ≤ (sAdt 1 0).mclk ∧ { sAdt 1 0 with adc := { (sAdt 1 0).adc with scanning := true } }.adc.bgLeft = [] := by decide +kernel
def sBack : State := { sScan11 with adc := { sScan11.adc with pendBg := [BgPend.mk 1 5 none], scanAt := 2000, scanning := true } }
theorem test_witness_background : sBack.adcReady = true ∧ (sBack.slice 0).swapNext = false ∧ sBack.burstHeld (BgPend.mk 1 5 none) = false ∧
    (List.finRange 8).find? (fun k => sBack.takesBg k 1 sBack.mclk) = some 0 := by decide +kernel
theorem test_background : gives .backgroundVisitStart sBack (fun t =>
    (t.slice 0).visit.map (fun v => (v.entry, v.s, v.total)) == some (1, 3, some 7)) = true := by decide +kernel
def sAsk11 (ch : Nat) : State :=
  let s := runs [Pg.ehm, Pg.hhe, Pg.hp 1, Pg.sba] sScan11
  let s := (((s.setBit F.EHM_Pp_SCAN_EN true 1).setFld F.HPn_CFG_NBLK 4 1).setBit F.HHE_Pp_CFG_EN true 1).modHhe 1 fun x => { x with mode := .idle }
  { ((s.modEhm 1 fun x => { x with settled := true }).setFld F.EHM_Pp_MCFG_SCH ch 1) with adc := { s.adc with scanning := true } }
theorem test_witness_burst : (sAsk11 9).scanMay 1 = true ∧ (sAsk11 9).measuring 1 = false ∧ (sAsk11 9).burstPending 1 = false ∧
    ((enabledEntries (sAsk11 9).adt).find? (fun e => e.2.burst && e.2.ch == (sAsk11 9).fld F.EHM_Pp_MCFG_SCH 1)).map (·.1) = some 2 ∧
    (sAsk11 9).actFlag F.ADC_CTRL_LP = false ∧ (sAsk11 10).scanMay 1 = true ∧
    ((enabledEntries (sAsk11 10).adt).find? (fun e => e.2.burst && e.2.ch == (sAsk11 10).fld F.EHM_Pp_MCFG_SCH 1)) = none := by decide +kernel
theorem test_burst_refused : gives (.burstRequest 1) (sAsk11 10) (fun t => t.rd R.ADC_BREFUSE == 1 && t.rd R.EHM_Pp_DISC 1 == 1) = true := by
  decide +kernel
def theVisit (d : Nat) : Visit := { entry := 0, s := 3, total := some 7, done := d, start := 0 }
def sWord (d : Nat) (cfg : Word) : State := (sAdt 0 cfg).modSlice 0 fun x => { x with visit := some (theVisit d) }
theorem test_witness_word_end : (sWord 1 0x81040004).flag F.ADC_FMT_ALIGN = false ∧ (sWord 1 0x81040004).running Pg.adc = true ∧
    (theVisit 1).start + 2 * ((sWord 1 0x81040004).adt 0).osr ≤ (sWord 1 0x81040004).mclk ∧ ((sWord 1 0x81040004).adt 0).fifo = true ∧
    (sWord 1 0x81040004).actFlag F.ADC_CTRL_SKIPU = false ∧ ((sWord 3 0x01040004).adt 0).fifo = false ∧
    (sWord 3 0x01040004).running Pg.med = false ∧ (∀ p, ((sWord 3 0x01040004).hheP p).mode ≠ .holdVh) ∧ ((sWord 3 0x01040004).adt 0).ch = 4 ∧
    ((sWord 3 0x01040004).slice 0).visit = some (theVisit 3) ∧ ((sWord 3 0x01040004).slice 0).swapNext = false ∧
    (theVisit 3).start + 4 * ((sWord 3 0x01040004).adt 0).osr ≤ (sWord 3 0x01040004).mclk := by decide +kernel
theorem test_word_end : gives (.adcWordEnd 0 8388607) { sWord 3 0x01040004 with adc := { (sWord 3 0x01040004).adc with cal := [(0, 0, 4300000)] } } (fun t =>
    t.rd R.ADC_LASTc_LO 4 == 0x7FFFFF && (t.rd R.ADC_LASTc_HI 4 &&& 0x00FFF000) == 0x00121000) = true ∧
    gives (.adcWordEnd 0 1000) (sWord 1 0x81040004) (fun t => t.adc.fifo.map (·.1) == [1000]) = true := by decide +kernel
def sFifo : State := { sScan11 with adc := { sScan11.adc with fifo := [(5, 6), (7, 8)] } }
theorem test_witness_fifo_read : sFifo.Up ∧ sFifo.ReadsAt .csl (wordAt R.ADC_FIFO_LO) ∧ sFifo.adc.fifo = [(5, 6), (7, 8)] := by decide +kernel
theorem test_fifo_read : gives (.adcFifoRead .csl) sFifo (fun t => t.adc.fifo == [(7, 8)]) = true ∧
    gives (.adcFifoRead .csl) sScan11 (fun t => (t.bus.answers.head?.map (·.val)) == some 0 &&
      t.snapOf .csl == some (.hi (R.ADC_FIFO_LO.addr 0 0 + 4) 0x00FC0000)) = true := by decide +kernel
def words4 (n : BitVec 24) : Vector (BitVec 24) 4 := Vector.replicate 4 n
/-- Four settled words whose mean is 100.5, rounded to 101 (R6). -/
def good0 : CalWords := ⟨0, #v[100, 101, 100, 101], words4 (101 + 4194304)⟩
def bad0 : CalWords := ⟨0, words4 70000, words4 (70000 + 4194304)⟩
def sCal : State := { sA with adc := { sA.adc with calInit := true, spare := none }, time := 300000 }
theorem test_witness_initial_calibration : sCal.Up ∧ sCal.running Pg.adc = true ∧ sCal.adc.calInit = true ∧ sCal.adc.failed = 0 ∧
    sCal.calGains = [0] ∧ calResults [0] [good0] = some (some [(0, 101, 4194304)]) ∧ sCal.calTicks ≤ sCal.since sCal.adc.base := by decide +kernel
theorem test_initial_calibration_failure : gives (.initialCalibrationDone ([bad0] :: List.replicate 8 [good0])) sCal (fun t =>
    t.adc.failed == 1 && t.adc.spare == none && (t.slice 0).phys == some 1 && t.reports == []) = true := by decide +kernel
def sSpare : State := { sA.setBit F.ADC_CAL_EN true with time := 300000 }
theorem test_witness_spare_calibrate : sSpare.adc.spare = some 8 ∧ sSpare.adc.calInit = false ∧ sSpare.flag F.ADC_CAL_EN = true ∧
    sSpare.adc.spareReady = none ∧ sSpare.running Pg.adc = true ∧
    sSpare.calTicks ≤ sSpare.since sSpare.adc.lastHandover ∧ { sSpare with time := 200000 }.since 0 < sSpare.calTicks ∧ calResults sSpare.calGains [bad0] = some none := by decide +kernel
theorem test_spare_calibrate : gives (.spareCalibrate [good0]) sSpare (fun t => t.adc.cal == [(64, 101, 4194304)]) = true ∧
    gives (.spareCalibrate [bad0]) sSpare (fun t => t.adc.failed == 0x100) = true := by decide +kernel
def sHand : State := { sSpare with
  adc := { sSpare.adc with spareReady := some 5, calAt := (List.range 8).map fun k => (k, BitVec.ofNat 64 (50 - k)) }, time := 0xFFFFFFFFFF }
theorem test_witness_handover : sHand.oldestCal 7 = true ∧ sHand.adc.spareReady = some 5 ∧ sHand.adc.calInit = false ∧
    sHand.flag F.ADC_CAL_EN = true ∧ (sHand.modSlice 7 fun x => { x with due := [0] }).oldestCal 7 = true ∧
    max 1 (sHand.fld F.ADC_CAL_INT) * 100000 ≤ sHand.since sHand.adc.lastHandover ∧ (sHand.slice 7).visit = none ∧
    (sHand.slice 7).due = [] ∧ (sHand.slice 7).phys.isSome = true := by decide +kernel
theorem test_handover : gives (.spareHandover 7) sHand (fun t => (t.slice 7).phys == some 8 && t.adc.spare == some 7) = true ∧
    gives (.spareHandover 6) sHand (fun t => (t.slice 6).phys == some 6) = true := by decide +kernel
def sLastWord (n : Nat) : State :=
  let s := (sWord 6 0x81040004).modSlice 0 fun x => { x with visit := some (theVisit 6) }
  { s with adc := { s.adc with fifo := List.replicate n (5, 6) } }
/-- A unit of MED on the entry's channel, in RUN, with a filter of 4 words. -/
def sMedWord : State :=
  (((runs [Pg.med] (sLastWord 0)).setBit F.MED_Uu_CFG_EN true 6).setFld F.MED_Uu_CFG_CH 4 6).setFld F.MED_Uu_CFG_K 2 6
theorem test_witness_word_last : (sLastWord 256).fifoTurn 0 = true ∧ (theVisit 6).total = some 7 ∧ (theVisit 6).port = none ∧
    ((sLastWord 256).slice 0).due = [] ∧ ((sLastWord 256).adt 0).fifo = true ∧ (sLastWord 256).adc.fifo.length = 256 ∧
    ((sLastWord 256).adt 0).ch = 4 ∧ (theVisit 6).start + 7 * ((sLastWord 256).adt 0).osr ≤ (sLastWord 256).mclk := by decide +kernel
theorem test_witness_med_calm : sMedWord.running Pg.med = true ∧ sMedWord.unitOn 6 = true ∧ (sMedWord.unit 6).stale = false ∧
    (∀ u : UnitNum, sMedWord.unitOn u = true → sMedWord.fld F.MED_Uu_CFG_CH u.val = 4 →
      (sMedWord.unit u).stale = false ∧ (sMedWord.unit u).ys.length + 1 < 2 ^ sMedWord.fld F.MED_Uu_CFG_K u.val) ∧
    (∀ p : Port, sMedWord.med.paper[p] = sMedWord.paperIn p ∧ sMedWord.med.head[p] = sMedWord.headShut p) ∧ sMedWord.med.waits = [] := by
  decide +kernel
theorem test_word_last : gives (.adcWordEnd 0 1000) (sLastWord 256) (fun t => t.adc.fifo.length == 256 && t.rd R.ADC_FIFO_OVF == 1 &&
      t.reports.map (·.k.val) == [2] && (t.slice 0).visit == none) = true ∧
    gives (.adcWordEnd 0 1000) sMedWord (fun t => (t.unit 6).ys == [3] && t.adc.fifo.map (·.1) == [1000]) = true := by decide +kernel
/-- The word that ended earlier goes first, and of two that ended together the lower slice's (R286). -/
theorem test_fifo_order : (((sLastWord 0).modSlice 3 fun x => { x with visit := some { theVisit 6 with start := 1 } }).fifoTurn 3) = false ∧
    (((sLastWord 0).modSlice 3 fun x => { x with visit := some (theVisit 6) }).fifoTurn 0) = true := by decide +kernel
-- chapters 12 and 13: channel 1, pipeline 0, I²C controller 1

def sCsi0 : State := (runs [Pg.csi, Pg.ic, Pg.med] State.reset).wr R.CSI_VCv_CFG 0xAA010002 1
def sCsi : State := ((runs [Pg.vp 0] sCsi0).setBit F.VPn_Cx_CFG_EN true 0 0).setFld F.VPn_Cx_CFG_VC 1 0 0
theorem test_witness_frame_start : sCsi0.Up ∧ sCsi0.running Pg.csi = true ∧ sCsi0.flag F.CSI_VCv_CFG_EN 1 = true ∧
    sCsi0.cam.vc[1].isOpen = false ∧ (∀ w : VpNum, sCsi0.running (Pg.vp w) = false) ∧ sCsi0.flag F.CSI_VCv_CFG_EN 0 = false ∧
    (∀ w : VpNum, w ≠ 0 → sCsi.running (Pg.vp w) = false) ∧ sCsi.running (Pg.vp 0) = true ∧ sCsi.rounds 0 = false ∧
    sCsi.flag F.VPn_Cx_CFG_EN 0 0 = true ∧ sCsi.fld F.VPn_Cx_CFG_VC 0 0 = 1 ∧ (sCsi.vp 0).frame = none ∧
    (sCsi.vp 0).accepted = none ∧ (sCsi.page (Pg.vp 0)).pend = false ∧ (sCsi.vctx 0 0).caps = [] ∧ (∀ p, sCsi.win p = none) := by
  decide +kernel
/-- The rest of a discarded transmission, and what begins the next one (R318). -/
theorem test_csi_skip : gives (.csiFrameStart 1 9 .good false) (sCsi.skipRest true) (fun t => t == (sCsi.skipRest true).lanesAt true) = true ∧
    gives (.csiFrameStart 1 9 .good true) (sCsi.skipRest true) (fun t => t.cam.vc[1].isOpen && !t.cam.skip) = true := by decide +kernel
/-- HS while a transmission goes on, STOP after its last packet (R341). -/
theorem test_csi_lanes : ([false, true].map fun last => (nextOf (.csiFrameStart 1 9 .good true last) sCsi).csiStat &&& 3) = [2, 1] := by decide +kernel
theorem test_witness_channel_off : sCsi.flag F.CSI_VCv_CFG_EN 0 = false ∧ sCsi.cam.vc[0].isOpen = false := by decide +kernel
theorem test_csi_frame_start : gives (.csiFrameStart 1 9 .good true) sCsi (fun t =>
    t.cam.vc[1].isOpen && (t.vp 0).accepted == some 1 && t.fld F.CSI_VCv_FRM_FNUM 1 == 9) = true := by decide +kernel
def theRow : List Nat := List.replicate 16 200
def theFrame : VpFrame := { ctx := 0, vc := 1, fnum := 9, tag := 3, itag := 5, cfg := sCsi.rd R.CSI_VCv_CFG 1, backTime := 0, snap := false }
def sOpenVc (rows : List (List Nat)) (bad : Bool) (s : State) : State :=
  s.modVc 1 fun _ => { isOpen := true, damaged := bad, cfg := sCsi.rd R.CSI_VCv_CFG 1, rows := rows }
theorem test_witness_long_packet : (sOpenVc [] false sCsi).flag F.CSI_VCv_CFG_EN 1 = true ∧
    (sOpenVc [] false sCsi).cam.vc[1].isOpen = true ∧ (∀ w, ((sOpenVc [] false sCsi).vp w).frame = none) := by decide +kernel
/-- 16 pixels are a row; 15 damage the frame (R320). -/
theorem test_csi_long_packet : gives (.csiLongPacket 1 0x2A theRow .good false) (sOpenVc [] false sCsi) (fun t =>
      t.cam.vc[1].rows == [theRow] && !t.cam.vc[1].damaged) = true ∧
    gives (.csiLongPacket 1 0x2A (theRow.drop 1) .good false) (sOpenVc [] false sCsi) (fun t => t.cam.vc[1].damaged) = true := by
  decide +kernel
def sEnds (bad : Bool) : State :=
  (sOpenVc [theRow] bad sCsi).modVp 0 fun y => { y with frame := some theFrame, accepted := some 1 }
theorem test_witness_frame_end : ∀ bad, ((sEnds bad).vp 0).frame = some theFrame ∧ theFrame.vc = 1 ∧ theFrame.rows = none ∧
    ((sEnds bad).vp 0).accepted = some 1 ∧ (sEnds bad).cam.vc[1].isOpen = true ∧ (sEnds bad).cam.vc[1].rows ≠ [] ∧
    cfgMerge (sEnds bad).cam.vc[1].cfg = false ∧ (sEnds bad).rounds 0 = false ∧
    (∀ w : VpNum, w ≠ 0 → ((sEnds bad).vp w).frame = none ∧ ((sEnds bad).vp w).accepted = none) ∧
    (∀ k : Fin 2, (sEnds bad).cam.ic[k].pend = false) := by decide +kernel
def theStats : StatSet := ⟨1, 2, 3, 4, 5, List.replicate 16 6⟩
def sHoldStats : State := (sCsi.setBit F.VPn_STATCTL_HOLD true 0).modVp 0 fun y => { y with waiting := some theStats }
theorem test_witness_stats_hold : (sHoldStats.page (Pg.vp 0)).st ≠ .resetting ∧ sHoldStats.flag F.VPn_STATCTL_HOLD 0 = true ∧
    (sHoldStats.vp 0).waiting = some theStats := by decide +kernel
theorem test_stats_hold_release : gives (.statsHoldRelease 0) sHoldStats (fun t =>
    t.rd R.VPn_SMEAN1 0 == 5 && t.rd R.VPn_SHISTj 0 15 == 6) = true := by decide +kernel
def sSnap : State := (sCsi.modVp 0 fun y => { y with snapRam := [1, 2, 3, 4, 5] }).setFld F.VPn_SNAPADDR_ADDR 1 0
theorem test_witness_snapdata : sSnap.ReadsAt .csl (wordAt R.VPn_SNAPDATA 0) := by decide +kernel
theorem test_snapdata_read : gives (.snapdataRead .csl 0) sSnap (fun t =>
    t.bus.answers.map (·.val) == [0x05040302] && t.fld F.VPn_SNAPADDR_ADDR 0 == 5) = true := by decide +kernel
def sFinal : State := sCsi.modVp 0 fun y => { y with frame := some { theFrame with rows := some [theRow, theRow], endTime := 77 } }
theorem test_witness_results : sFinal.working (Pg.vp 0) = true ∧ (sFinal.vctx 0 0).caps = [] ∧ (∀ p, sFinal.win p = none) ∧
    sFinal.flag F.VPn_STATCTL_HOLD 0 = false ∧ (sFinal.setBit F.VPn_STATCTL_HOLD true 0).flag F.VPn_STATCTL_HOLD 0 = true := by
  decide +kernel
theorem test_frame_results_final : gives (.frameResultsFinal 0) sFinal (fun t =>
    t.rd R.VPn_SFRM 0 == 0x03050009 && t.rd R.VPn_STIME 0 == 77 && (t.vp 0).frame == none) = true := by decide +kernel
def sRound : State := { sCsi.setBit F.VPn_BIND_ROUND true 0 with time := 0xFFFFFFF }
theorem test_witness_turn : sRound.rounds 0 = true ∧ (sRound.vp 0).accepted = none ∧
    sRound.fld F.VPn_BIND_RTMO 0 * 100000 ≤ sRound.since (sRound.vp 0).turnSince := by decide +kernel
def theCap : CapLine := ⟨0, 1, 0, 0, [1], [false], 4, some (5, 0), none⟩
def sCap1 : State := { (sCsi.modCtx 0 0 fun c => { c with caps := [theCap] }) with time := 0xFFFFFFF }
theorem test_witness_line_eval : (sCap1.vctx 0 0).caps = [theCap] ∧ (sCap1.vctx 0 1).caps = [] ∧ sCap1.working (Pg.vp 0) = true ∧
    sCap1.fld F.VPn_TMO_EVTMO 0 * 100000 ≤ sCap1.since 0 ∧ (∀ p, sCap1.win p = none) := by decide +kernel
def theWin : Win := { maxDot := 0, maxMis := 0 }
def sWin : State := { sCsi.setWin 0 (some theWin) with time := 0xFFFFFFF }
theorem test_witness_frameloss : sWin.win (Fin.ofNat 4 (sWin.fld F.VPn_Cx_CFG_PORT 0 0)) = some theWin ∧
    (sWin.vctx 0 0).lossGiven = false ∧ sWin.win (sWin.ctxPort 0 0) = some theWin ∧ sWin.running (Pg.vp 0) = true ∧
    sWin.flag F.VPn_Cx_CFG_EN 0 0 = true ∧ sWin.fld F.VPn_TMO_FLTMO 0 * 100000 ≤ sWin.since (sWin.vctx 0 0).lastFrame := by decide +kernel
def sGpi : State := sCsi0.setFld F.MED_GPIIRQ_RISE 0x20
theorem test_witness_gpi_debounce : 100 * max 1 (sGpi.fld F.MED_GPIDEB_DEB) ≤ (1000000 : Word).toNat ∧ sGpi.bitOf F.MED_GPI_LEVEL 5 = false ∧ sGpi.med.waits = [] ∧
    (∀ a : AxNum, sGpi.fld F.AXn_HOME_IN a.val ≠ 5) ∧ (∀ p : Port,
      ((sGpi.putBit F.MED_GPI_RAW 5 true).putBit F.MED_GPI_LEVEL 5 true).paperIn p = sGpi.med.paper[p] ∧
      ((sGpi.putBit F.MED_GPI_RAW 5 true).putBit F.MED_GPI_LEVEL 5 true).headShut p = sGpi.med.head[p]) := by decide +kernel
theorem test_gpi_debounce : gives (.gpiDebounce 5 true 1000000) sGpi (fun t =>
    t.rd R.MED_GPI == 0x00200020 && (t.page Pg.med).irqStat == 0x1000) = true ∧
    gives (.gpiDebounce 5 true 99) (sGpi.setFld F.MED_GPIDEB_DEB 0) (fun t => t.rd R.MED_GPI == 0x00200000) = true := by decide +kernel
def sUnit : State := { sCsi0.setBit F.MED_Uu_CFG_EN true 6 with time := 0xFFFFFFF }
theorem test_witness_unit_stale : sUnit.unitOn 6 = true ∧ (sUnit.unit 6).stale = false ∧ sUnit.med.waits = [] ∧
    max 1 (sUnit.fld F.MED_STALE_T) * 100000 ≤ sUnit.since (sUnit.unit 6).lastWord ∧ (∀ p : Port,
      (sUnit.modUnit 6 fun x => { x with stale := true }).paperIn p = sUnit.med.paper[p] ∧
      (sUnit.modUnit 6 fun x => { x with stale := true }).headShut p = sUnit.med.head[p]) := by decide +kernel
theorem test_med_calstart : gives (.medCalstart 0xFF) sUnit (fun t => (t.unit 6).cal == some (0, none) && (t.unit 5).cal == none) = true := by
  decide +kernel
def sIc (cmd : Word) : State := sCsi0.modIc 1 fun _ => { busy := true, cmd := cmd }
theorem test_witness_i2c : (sCsi0.icS 1).busy = false ∧ (sCsi0.icS 1).pend = false ∧ sCsi0.running Pg.ic = true ∧
    1000 * max 1 (sCsi0.fld F.ICk_CFG_STMO 1) < (50000 : Word).toNat ∧ (7 : Word).toNat ≤ 1000 * max 1 (sCsi0.fld F.ICk_CFG_STMO 1) ∧
    ((sIc 0x10000).icS 1).busy = true ∧ wbits ((sIc 0x10000).icS 1).cmd 15 5 = 2 ∧ wbits ((sIc 0).icS 1).cmd 15 5 = 0 := by
  decide +kernel
theorem test_witness_i2c_rejected : (sCsi0.page Pg.ic).st ≠ .resetting ∧ 16 < wbits (0x00088000 : Word) 15 5 ∧ 16 < wbits (0x00004400 : Word) 10 5 ∧
    (sCsi0.modPage Pg.ic fun x => { x with st := .draining }).running Pg.ic = false := by decide +kernel
/-- A write of ICk_CMD while a transaction runs or waits, or outside RUN, is discarded with REJ (R330). -/
theorem test_i2c_rejected : gives (.i2cTransaction 1 0) ((sIc 0).modPage Pg.ic fun x => { x with st := .draining }) (fun t => t.flag F.ICk_STAT_REJ 1) = true ∧
    gives (.i2cTransaction 1 0) sCsi0 (fun t => !t.flag F.ICk_STAT_REJ 1 && (t.icS 1).busy) = true := by decide +kernel
theorem test_i2c_transaction_end : gives (.i2cTransactionEnd 1 .ok [0xAB, 0xCD]) (sIc 0x10000) (fun t =>
    t.rd R.ICk_RXi 1 0 == 0xCDAB && t.fld F.ICk_STAT_RESULT 1 == 1 && (t.page Pg.ic).irqStat == 0x20) = true := by decide +kernel
-- chapter 14

def flcWith (f : FlcSt → FlcSt) (s : State) : State := { s with flc := f s.flc }
def sFlc : State := runs [Pg.flc] State.reset
def sOwn : State := flcWith (fun f => { f with owner := some .csl }) ((sFlc.wr R.FLC_WBUFj 0x11223344 0).wr R.FLC_WBUFj 0x55667788 1)
/-- ERASE of sector 2304, the word of the worked example after R362. -/
theorem test_witness_flc_accepts : sFlc.Open Pg.flc ∧ sFlc.WritesAt .csl (wordAt R.FLC_CMD) ∧ sFlc.running Pg.flc = true ∧ sFlc.flc.op = none ∧ sFlc.chip.lcs = none ∧
    (FlcCmd.ofWord 0x20120000).badArg = false ∧ (FlcCmd.ofWord 0x20120000).lo = 0x900000 ∧ wbits 0x20120000 28 4 = 2 ∧
    sFlc.rangeProtected ((FlcCmd.ofWord 0x20120000).lo / 4096) (((FlcCmd.ofWord 0x20120000).hi - 1) / 4096) = false ∧
    sFlc.flcWrongMode (FlcCmd.ofWord 0x20120000) = false := by decide +kernel
theorem test_flc_erase : gives (.flcErase .csl 0x20120000) sFlc (fun t =>
    t.flc.op.map (fun o => (o.cmd, o.bank, o.lo, o.hi)) == some (2, 1, 0x900000, 0x901000)) = true := by decide +kernel
theorem test_flc_program : gives (.flcProgram .csl 0x10400000) sOwn (fun t =>
    t.flc.op.map (·.latches) == some [0x5566778811223344] && t.flc.owner == none && t.rd R.FLC_WBUFj 0 == 0xFFFFFFFF) = true := by
  decide +kernel
def sBusyFlc (cmd : Nat) : State := flcWith (fun f => { f with op := some {
  cmd := cmd, bank := 0, lo := 0x2000, hi := if cmd = 1 then 0x2008 else 0x3000, waddr := 0x400, count := 1, salt := 0
  latches := if cmd = 1 then [0x55] else [], runSince := 0 } }) sFlc
/-- One state for each reason of FLC_REJ (R355). -/
theorem test_flc_rejects :
    gives (.flcErase .csl 0x20120000) (sBusyFlc 1) (fun t => t.fld F.FLC_REJ_REASON == 1) = true ∧
    gives (.flcErase .csl 0x20120001) sFlc (fun t => t.fld F.FLC_REJ_REASON == 2) = true ∧
    gives (.flcErase .csl 0x20120000) (sFlc.wr R.FLC_PROTr 0xC0900900 3) (fun t => t.fld F.FLC_REJ_REASON == 3) = true ∧
    gives (.flcErase .csl 0x20120000) (sFlc.setFld F.FLC_CFG_COMPAT 2) (fun t => t.fld F.FLC_REJ_REASON == 4) = true ∧
    gives (.flcProgram .spt 0x10400000) sOwn (fun t => t.fld F.FLC_REJ_REASON == 5) = true ∧
    gives (.flcProgramPage .csl 0x70000000) (flcWith (fun f => { f with nextPage := [(0, 1)] }) (sOwn.setFld F.FLC_CFG_COMPAT 1))
      (fun t => t.fld F.FLC_REJ_REASON == 6) = true ∧
    gives (.flcOtpProgram .csl 0x80400000) sOwn (fun t => t.fld F.FLC_REJ_REASON == 7) = true ∧
    gives (.flcErase .csl 0x20120000) (sFlc.modPage Pg.flc fun p => { p with st := .off }) (fun t => t.fld F.FLC_REJ_REASON == 8) = true ∧
    gives (.flcUnknownCmd .csl 0x90000000) sFlc (fun t => t.fld F.FLC_REJ_REASON == 9) = true := by decide +kernel
def okOut : FlashOutcome := ⟨2, [], 0, 0⟩
def opOf (s : State) (f : FlcOp → Bool) : Bool := s.flc.op.any f
theorem test_witness_operation_done : opOf (sBusyFlc 1) (fun o => o.suspSince.isNone && !o.targets.isEmpty && o.cmd == 1) = true ∧
    opOf (sBusyFlc 2) (fun o => o.suspSince.isNone && o.cmd == 2) = true ∧ opOf (sBusyFlc 4) (fun o => o.cmd == 4) = true ∧
    ({ sBusyFlc 1 with flc := { (sBusyFlc 1).flc with op := none } }).blankWord 0x2000 = true ∧
    ({ ((sBusyFlc 1).setByte 0x2001 0) with flc := { (sBusyFlc 1).flc with op := none } }).blankWord 0x2000 = false ∧
    ({ ((sBusyFlc 2).setByte 0x2001 0) with flc := { (sBusyFlc 2).flc with op := none } }).blankRange 0x2000 0x3000 = false ∧
    sFlc.fld F.FLC_CFG_PMAX ≠ 0 := by decide +kernel
theorem test_program_done : gives (.flashOperationDone okOut) (sBusyFlc 1) (fun t =>
      t.cell64 0x2000 == 0x55 && t.fld F.FLC_RES_RESULT == 1 && t.fld F.FLC_RES_PULSES == 2) = true ∧
    gives (.flashOperationDone okOut) ((sBusyFlc 1).setByte 0x2001 0) (fun t =>
      t.fld F.FLC_RES_RESULT == 2 && t.rd R.FLC_FADDR == 0x2000 && t.byte 0x2000 == 0xFF) = true := by decide +kernel
theorem test_erase_done : gives (.flashOperationDone okOut) ((sBusyFlc 2).setByte 0x2001 0) (fun t =>
    t.byte 0x2001 == 0xFF && t.fld F.FLC_RES_RESULT == 1) = true := by decide +kernel
def sMargin : State := flcWith (fun f => { f with op := some { busyFlash with cmd := 5, lo := 0x2000, hi := 0x3000 } }) sFlc
def otpOp : FlcOp := { busyFlash with cmd := 8, bank := 2, lo := 0x30000100, hi := 0x30000110, latches := [0x0F, 0xF0] }
def sOtp : State := flcWith (fun f => { f with op := some otpOp }) (sFlc.setByte 0x30000100 0x80)
def sFailed : State := flcWith (fun f => { f with op := some { busyFlash with lo := 0x2000, hi := 0x3000 } }) (sFlc.setBit F.LCS_CASTON_FLB0 true)
theorem test_witness_other_ends : opOf sMargin (fun o => o.cmd == 5 && o.suspSince.isNone) = true ∧ sMargin.flc.ecc = [] ∧ sMargin.flc.undef = [] ∧
    sMargin.bankFailed (0x2000 / 0x800000) = false ∧ otpOp.lo % 8 = 0 ∧ (⟨0, [], 0, 0⟩ : FlashOutcome).failing = [] ∧ sFailed.bankFailed 0 = true ∧
    opOf (flcWith (fun f => { f with op := some { busyFlash with cmd := 7, latches := [5] } }) sFlc) (fun o => !o.targets.isEmpty) = true := by decide +kernel
/-- MARGIN counts in FLC_CNT, a sector has 512 words (R361); OTP_PROGRAM ors (R371). -/
theorem test_other_ends : gives (.flashOperationDone ⟨0, [], 3, 600⟩) sMargin (fun t => t.rd R.FLC_CNT == 0x00030200 && t.fld F.FLC_RES_RESULT == 1) = true ∧
    gives (.flashOperationDone ⟨0, [], 0, 0⟩) sOtp (fun t => t.cell64 0x30000100 == 0x8F && t.cell64 0x30000108 == 0xF0 && t.fld F.FLC_RES_RESULT == 1) = true ∧
    gives (.flashOperationDone okOut) sFailed (fun t => t.fld F.FLC_RES_RESULT == 4 && t.fld F.FLC_RES_PULSES == 8 && t.rd R.FLC_FADDR == 0x2000) = true := by
  decide +kernel
theorem test_witness_demand_read : sFlc.hostReadBarred 0x2004 = false ∧ sFlc.bus.posted = [] ∧ sFlc.flc.undef = [] ∧
    sFlc.flc.ecc = [] ∧ sFlc.bankFailed 0 = false ∧ sFlc.flc.bufs[(2 : Fin 3)] = [] ∧ (sBusyFlc 2).bankBusy 0 = true := by decide +kernel
theorem test_flash_demand_read : gives (.flashDemandRead .csl 0x2004) (sFlc.setByte 0x2005 0x12) (fun t =>
      t.bus.answers.map (·.val) == [0xFFFF12FF]) = true ∧
    gives (.flashDemandRead .csl 0x2004) (sBusyFlc 2) (fun t =>
      t.bus.answers.map (·.val) == [0x80000205] && t.rd R.FLC_HSUB == 2) = true := by decide +kernel
def sPref : State := flcWith (fun f => { f with lastDem := f.lastDem.set 0 (some 0x2000), bufs := f.bufs.set 0 [⟨0x2000, 0⟩] }) sFlc
theorem test_witness_prefetch : sPref.flc.lastDem[(0 : Fin 3)] = some 0x2000 ∧ sPref.fld F.FLC_CFG_PFDIS % 2 = 0 ∧
    (∀ l ∈ sPref.flc.bufs[(0 : Fin 3)], l.addr ≠ 0x2020) := by decide +kernel
theorem test_flash_prefetch : gives (.flashPrefetch .seq) sPref (fun t =>
    t.flc.bufs[(0 : Fin 3)] == [⟨0x2000, 0⟩, ⟨0x2020, 0⟩]) = true := by decide +kernel
def sAskSusp : State :=
  { sBusyFlc 2 with time := 25000, flc := { (sBusyFlc 2).flc with op := (sBusyFlc 2).flc.op.map fun o => { o with spend := true } } }
/-- A suspend is honoured 250 µs after the start (R352), and a suspended bank resumes after 2 µs of quiet (R353). -/
theorem test_witness_suspend_pulse : opOf { sAskSusp with flc := { sAskSusp.flc with op := sAskSusp.flc.op.map fun o => { o with pulseAt := some 9 } } }
    (fun o => o.pulsing 25000) = true ∧ opOf sAskSusp (fun o => !o.pulsing 25000) = true := by decide +kernel
theorem test_suspend_resume : gives .flashSuspend sAskSusp (fun t => opOf t (fun o => o.suspSince == some 25000)) = true ∧
    gives .flashResume ({ sAskSusp with flc := { sAskSusp.flc with op := sAskSusp.flc.op.map fun o => { o with suspSince := some 0 } } })
      (fun t => opOf t (fun o => o.suspSince == none && o.runSince == 25000)) = true := by decide +kernel
theorem test_witness_wbuf : sFlc.flc.owner = none ∧ sOwn.flc.owner = some .csl ∧ Requester.csl ≠ .spt ∧ sFlc.WritesAt .csl (wordAt R.FLC_WBUFj 5) ∧ sOwn.WritesAt .spt (wordAt R.FLC_WBUFj 127) ∧ sFlc.flc.blocked = false := by
  decide +kernel
theorem test_password : gives (.passwordCheck 0x5 0x6) (sFlc.setBytes 0x30000028 [5, 0, 0, 0, 6]) (fun t => t.flc.unlocked) = true ∧
    gives (.passwordCheck 0 0) sFlc (fun t => t.flc.fails == 1 && !t.flc.unlocked) = true := by decide +kernel
theorem test_prot_write : gives (.protWrite 2 0xFFFFFFFF) (sFlc.wr R.FLC_PROTr 0x08000000 2) (fun t =>
    t.rd R.FLC_PROTr 2 == 0x08000000) = true := by decide +kernel
-- chapter 15: the device has address 5

def cslWith (f : CslSt → CslSt) (s : State) : State := { s with csl := f s.csl }
def sLink : State := ((runs [Pg.csl, Pg.qmg, Pg.flc, Pg.skn, Pg.sec] State.reset).setFld F.CSL_ADDR_ADDR 5).setFld F.CSL_HTMO_HTMO 1
def ramL : List Byte := natBytes 4 0x20000100 ++ [1, 2, 3, 4]
def rdL : List Byte := natBytes 4 0x20000100 ++ [4, 0, 0, 0]
theorem test_witness_link_takes : sLink.LinkTakes ⟨5, 1, []⟩ ∧ sLink.LinkTakes ⟨5, 0x10, natBytes 4 0x40006040 ++ [1, 0, 0, 0]⟩ ∧
    sLink.LinkTakes ⟨5, 0x21, ramL⟩ ∧ areaOf (payWord ramL 0).toNat = some .wram ∧ reach .csl true .wram = true ∧
    sizeOk .wram 4 (payWord ramL 0).toNat = true ∧ memRange (payWord ramL 0).toNat 4 = true ∧ rdL.drop 4 = [4, 0, 0, 0] ∧
    sLink.bus.posted = [] := by decide +kernel
theorem test_mem_wr : gives (.memWr 5 ramL) sLink (fun t => t.bus.posted == [Posted.mk .csl 0x20000100 0x04030201 4 false] &&
    t.csl.reply == some (sLink.ack .ok)) = true := by decide +kernel
theorem test_mem_rd : gives (.memRd 5 rdL) (sLink.setBytes 0x20000100 [9, 8, 7, 6]) (fun t =>
    t.csl.reply == some ⟨0x83, [0, 0, 0, 0, 9, 8, 7, 6]⟩) = true := by decide +kernel
def enqL : List Byte := [3, 1, 0, 0] ++ List.replicate 16 0x11
def sRing0 : State := (sLink.wr R.QMG_Qn_CFG 0x11101 3).modQ 3 fun x => { x with mode := .run }
theorem test_witness_enq : sRing0.LinkTakes ⟨5, 0x20, enqL⟩ ∧ sRing0.running Pg.qmg = true ∧ (sRing0.q 3).mode = .run ∧
    (sRing0.q 3).recov = none ∧ 1 ≤ sRing0.credit 3 ∧ sRing0.qSize 3 ≤ 32768 ∧ sRing0.ringAddr 3 (sRing0.q 3).tail % 4 = 0 ∧
    areaOf (sRing0.ringAddr 3 (sRing0.q 3).tail) = some .wram ∧ areaOf (sRing0.ringAddr 3 (sRing0.q 3).tail + 4) = some .wram ∧
    areaOf (sRing0.ringAddr 3 (sRing0.q 3).tail + 8) = some .wram ∧ areaOf (sRing0.ringAddr 3 (sRing0.q 3).tail + 12) = some .wram ∧
    (sLink.q 3).mode = .off ∧ (sRing0.modQ 3 fun x => { x with tail := BitVec.ofNat 16 (sRing0.qSize 3) }).credit 3 = 0 := by
  decide +kernel
theorem test_enq : gives (.enq 5 enqL) sRing0 (fun t => (t.q 3).tail == 1 && (t.q 3).pres == 1 &&
    t.ringEntry 3 0 == entry 0x11111111 0x11111111 0x11111111 0x11111111) = true := by decide +kernel
/-- A WRITE_REG of SKN_AGE, mask all ones. -/
def kregL (tag : List Byte) : List Byte := [2, 0, 0, 0] ++ natBytes 4 1 ++ tag ++ [0x60, 0, 0, 0] ++ natBytes 4 0x40006040 ++ natBytes 4 7 ++ natBytes 4 0xFFFFFFFF
def sOpened : State := sLink.modSess 2 fun _ => { st := .opened, owner := .csl, ks := List.replicate 16 1 }
def goodTag : List Byte := (sOpened.sess 2).tag 2 1 ((kregL []).drop 8)
theorem test_witness_kreg : (payEntry (kregL goodTag) 4).carriedBad = none ∧ (payEntry (kregL goodTag) 4).w3 = 0xFFFFFFFF ∧
    (payEntry (kregL goodTag) 4).flags % 2 = 0 ∧ (kregL goodTag).length = 32 := by decide +kernel
theorem test_witness_kreg_check : sOpened.secFree .csl = true ∧ (sChecking .spt 0 sOpened).secFree .csl = false ∧ sOpened.keyedReason .csl 2 (payWord (kregL goodTag) 1) (((kregL goodTag).drop 8).take 8)
      (payEntry (kregL goodTag) 4).bytes (makerReg (payEntry (kregL goodTag) 4).w1.toNat) = none ∧
    sLink.keyedReason .csl 2 (payWord (kregL goodTag) 1) (((kregL goodTag).drop 8).take 8)
      (payEntry (kregL goodTag) 4).bytes (makerReg (payEntry (kregL goodTag) 4).w1.toNat) = some .noSess := by decide +kernel
/-- A check of SPT that reached SEC at the same time goes before that of CSL (16 R413). -/
theorem test_kreg_waits : gives (.kregWr 5 (kregL goodTag)) (sChecking .spt 0 sOpened) (fun t =>
    t.csl.exec.any (·.keyed) && t.bus.posted == [] && t.sec.checks == [(.spt, 0), (.csl, 0)]) = true ∧
    gives (.kregWr 5 (kregL goodTag)) (sChecking .transom 0 sOpened) (fun t => t.bus.posted.length == 1) = true := by decide +kernel
theorem test_duplicate : gives (.memWr 5 ramL) (cslWith (fun c => { c with stored := some ⟨5, 0x21, ramL⟩, reply := some (sLink.ack .ok) }) sLink)
    (fun t => t.bus.posted == [] && t.rd R.CSL_DUP == 1 && t.csl.slot == some ⟨200, some (sLink.ack .ok), false⟩) = true := by decide +kernel
def sSlot (r : Option Reply) : State := { cslWith (fun c => { c with slot := some ⟨200, r, true⟩ }) sLink with time := 200 }
def theExec : LinkExec := { req := ⟨5, 0x22, natBytes 4 0x2000 ++ [4, 0, 0, 0]⟩, addr := 0x2000, left := 1, tried := 0 }
theorem test_witness_reply_slot : (sSlot (some (sLink.ack .ok))).working Pg.csl = true ∧ sLink.csl.txoff = false ∧ sLink.linkAddr ≠ 63 ∧
    (sSlot none).csl.slot = some ⟨200, none, true⟩ ∧ (sSlot none).cslAtWork = true := by decide +kernel
theorem test_reply_slot : gives (.replySlot false none) (sSlot (some (sLink.ack .ok))) (fun t =>
      t.csl.sent == some (sLink.ack .ok) && t.csl.slot == none) = true ∧
    gives (.replySlot false none) (cslWith (fun c => { c with exec := some theExec }) (sSlot none)) (fun t =>
      t.csl.sent.map (·.payload.take 1) == some [7] && t.csl.exec.any (·.pending)) = true := by decide +kernel
/-- A reply on the line: preamble, start byte, then ADDR with DIR = 1 and the SEQ of its request (R379). -/
theorem test_reply_frame : gives (.replySlot false none) (sSlot (some (sLink.ack .ok))) (fun t =>
      t.csl.wire.take 7 == [0x55, 0x55, 0x55, 0x55, 0xB3, 0xC5, 0x80] && t.csl.wire.length == 23) = true ∧
    gives (.replySlot false (some 9)) (sSlot (some (sLink.ack .ok))) (fun t => t.csl.wire == [0x55, 0x55] && t.rd R.CSL_COLL == 1) = true := by
  decide +kernel
def keyedExec : LinkExec := { req := ⟨5, 0x12, kregL goodTag⟩, addr := 0, left := 0, tried := 0, keyed := true }
def sKeyedExec : State := cslWith (fun c => { c with exec := some keyedExec }) { sOpened with sec := { sOpened.sec with checks := [(.csl, 0)] } }
theorem test_witness_keyed_finish : sKeyedExec.secTurn .csl = true ∧ sKeyedExec.csl.exec = some keyedExec ∧ keyedExec.done = none ∧ keyedExec.req.slot = 2 ∧
    areaOf (payEntry keyedExec.req.payload 4).w1.toNat = some (.page Pg.skn) ∧ reach .csl true (.page Pg.skn) = true ∧
    sizeOk (.page Pg.skn) 4 (payEntry keyedExec.req.payload 4).w1.toNat = true ∧
    sKeyedExec.keyedReason .csl 2 (payWord keyedExec.req.payload 1) ((keyedExec.req.payload.drop 8).take 8)
      (payEntry keyedExec.req.payload 4).bytes (makerReg (payEntry keyedExec.req.payload 4).w1.toNat) = none := by decide +kernel
theorem test_keyed_request : gives (.kregWr 5 (kregL goodTag) true) sOpened (fun t =>
      t.csl.exec == some keyedExec && t.bus.posted == [] && t.sec.checks == [(.csl, 0)]) = true ∧
    gives .requestFinish sKeyedExec (fun t => t.csl.reply == some (sLink.ack .ok) && t.bus.posted == [Posted.mk .csl 0x40006040 7 4 true]) = true := by
  decide +kernel
theorem test_witness_reg_wr : sLink.LinkTakes ⟨5, 0x11, natBytes 4 0x40006040 ++ [1, 0, 0, 0]⟩ ∧ (pageOf 0x40006040).isSome = true ∧
    sLink.LinkTakes ⟨5, 0x11, ramL⟩ ∧ pageOf (payWord ramL 0).toNat = none := by decide +kernel
/-- Working RAM is no page: a REG_WR there gets ACCESS and posts nothing (01 R13, R392). -/
theorem test_reg_wr_no_page : gives (.regWr 5 ramL) sLink (fun t => t.bus.posted == [] && t.csl.reply == some (sLink.ack .access)) = true := by
  decide +kernel
theorem test_request_finish : gives .requestFinish (cslWith (fun c =>
    { c with exec := some { theExec with done := some (sLink.ack .ok), pending := true } }) sLink) (fun t =>
    t.csl.reply == some (sLink.ack .ok) && t.csl.exec == none) = true := by decide +kernel
theorem test_witness_line : sLink.running Pg.csl = true ∧ sLink.csl.line = 0 ∧ sLink.transmitting = false ∧ sLink.csl.txoff = false ∧
    (cslWith (fun c => { c with line := 3 }) sLink).csl.line = 3 ∧ sLink.WritesAt .spt (wordAt R.CSL_ADDR) ∧ sLink.WritesAt .csl (wordAt R.CSL_ADDR) ∧
    (cslWith (fun c => { c with rate := some (3, true) }) sLink).csl.slot = none ∧ sLink.linkHears 120 = true ∧ sLink.csl.rx = false ∧ sLink.fld F.CSL_HTMO_HTMO ≠ 0 ∧ sLink.csl.lost = false ∧
    sLink.fld F.CSL_HTMO_HTMO * 100000 ≤ ({ sLink with time := 100000 }).since sLink.csl.lastFrame := by decide +kernel
theorem test_line_times : gives (.lineBreak (BitVec.ofNat 32 sLink.frameTicks)) sLink (fun t => t.csl.line == 3) = true ∧
    gives (.lineBreak (BitVec.ofNat 32 (sLink.frameTicks - 1))) sLink (fun t => t.csl.line == 0) = true := by decide +kernel
theorem test_csl_rate_change : gives .cslRateChange (cslWith (fun c => { c with rate := some (3, true) }) sLink) (fun t =>
    t.fld F.CSL_RATE_RATE == 3 && t.csl.rate == none) = true := by decide +kernel
theorem test_csl_flash_retry : gives .cslFlashRetry { cslWith (fun c => { c with exec := some { theExec with pending := true } }) sLink with time := 100 }
    (fun t => t.csl.exec.bind (·.done) == some ⟨0x83, [0, 0, 0, 0, 0xFF, 0xFF, 0xFF, 0xFF]⟩) = true := by decide +kernel
/-- CRC-16 and CRC-32 of "123456789" as their catalogues give them (0x6F91 without output inversion; 0xCBF43926). -/
theorem test_crc : crc16 [0x31, 0x32, 0x33, 0x34, 0x35, 0x36, 0x37, 0x38, 0x39] = 0x6F91 ∧
    crc32 [0x31, 0x32, 0x33, 0x34, 0x35, 0x36, 0x37, 0x38, 0x39] = 0xCBF43926 := by decide +kernel
def badL : List Byte := [5, 1, 0, 0] ++ natBytes 2 (crc16 [5, 1, 0, 0]) ++ [0, 0, 0, 0]
theorem test_bad_frame : gives (.badFrame true badL false) sLink (fun t => t.rd R.CSL_PCRC == 1 &&
      t.csl.slot == some ⟨200, some (sLink.ack .pcrc), false⟩) = true ∧
    gives (.badFrame true (List.replicate 10 0) false) sLink (fun t => t.rd R.CSL_HCRC == 1 && t.csl.slot == none) = true := by
  decide +kernel
/-- A frame of 15 bytes that begins less than 1 µs after the end of the last is not taken (R378); one that was being
received when CSL left RUN still is (R400). -/
theorem test_frame_gap : (cslWith (fun c => { c with lineEnd := some 5000 }) { sLink with time := 8901 }).linkHears 120 = false ∧
    (cslWith (fun c => { c with lineEnd := some 5000 }) { sLink with time := 8902 }).linkHears 120 = true ∧
    gives (.badFrame true badL false true) sLink (fun t => t.csl.rx && t.cslStat.toNat % 8 == 1) = true := by decide +kernel
theorem test_witness_bad_frame : sLink.linkHears (8 * (badL.length + 5)) = true ∧ 6 ≤ badL.length ∧
    leNat ((badL.drop 4).take 2) = crc16 (badL.take 4) ∧ sLink.frameFor (badL.getD 0 0) = .unicast ∧ (badL.getD 1 0).toNat ∉ bulkTypes ∧
    leNat (badL.drop 6) ≠ crc32 (badL.take 6) ∧ leNat (((List.replicate 10 (0 : Byte)).drop 4).take 2) ≠ crc16 (List.replicate 4 0) ∧
    (cslWith (fun c => { c with line := 4 }) sLink).linkHears (8 * (badL.length + 5)) = false := by decide +kernel
-- chapter 16: mailbox 0, of SPT

def mailOp (op sess : Nat) (s : State) : State :=
  ((s.setBit F.SEC_MBm_CTL_BUSY true 0).setFld F.SEC_MBm_CTL_OP op 0).setFld F.SEC_MBm_CTL_SESS sess 0
def sSec : State := (runs [Pg.sec] State.reset).setByte 0x30000080 1
theorem test_witness_sec_open : (mailOp 1 0 sSec).mailboxRuns 0 1 = true ∧ sSec.running Pg.sec = true ∧ sSec.freeSlot = some 0 ∧
    sSec.keyPresent false = true ∧ sSec.flag F.SEC_MBm_CTL_KSEL 0 = false := by decide +kernel
def allOpen (s : State) : State := (List.finRange 8).foldl (fun s i => s.modSess i fun x => { x with st := .opened }) s
theorem test_witness_sec_full : (mailOp 1 0 (allOpen sSec)).freeSlot = none ∧ (mailOp 1 0 (allOpen sSec)).mailboxRuns 0 1 = true := by
  decide +kernel
theorem test_sec_open : gives (.secOpen (.mailbox 0) 0x77) (mailOp 1 0 sSec) (fun t =>
    (t.sess 0).st == .pending && (t.sess 0).owner == .spt && t.rd R.SEC_MBm_DATAi 0 0 == 0x77 && !t.flag F.SEC_MBm_CTL_BUSY 0) = true := by
  decide +kernel
def openL : List Byte := [1, 0, 0, 0, 0, 0, 0, 0] ++ List.replicate 16 3
theorem test_witness_sec_open_link : (sLink.setByte 0x30000080 1).LinkTakes ⟨5, 0x40, openL⟩ ∧ openL.length = 24 ∧
    (sLink.setByte 0x30000080 1).freeSlot = some 0 ∧ (sLink.setByte 0x30000080 1).keyPresent false = true := by decide +kernel
def pend1 : SecSlot := { st := .pending, owner := .spt, ks := List.replicate 16 1, nh := List.replicate 16 2, nd := List.replicate 16 3 }
def sPend : State := (mailOp 2 1 sSec).modSess 1 fun _ => pend1
def hostProof : List Byte := (cmac pend1.ks (hprfBytes ++ [1] ++ pend1.nd ++ pend1.nh)).take 8
def sProve : State := (sPend.wr R.SEC_MBm_TAG_LO (wordOf hostProof 0) 0).wr R.SEC_MBm_TAG_HI (wordOf hostProof 1) 0
theorem test_witness_sec_prove : sProve.mailboxRuns 0 2 = true ∧ sProve.mailboxSlot 0 = 1 ∧ (sProve.sess 1).st = .pending ∧
    (sProve.sess 1).owner = .spt ∧ sProve.mailboxTag 0 = hostProof ∧ sPend.mailboxTag 0 ≠ hostProof := by decide +kernel
theorem test_sec_prove : gives (.secProve (.mailbox 0)) sProve (fun t => (t.sess 1).st == .opened) = true ∧
    gives (.secProve (.mailbox 0)) sPend (fun t => (t.sess 1).st == .free && t.fld F.SEC_MBm_CTL_STATUS 0 == 4) = true := by decide +kernel
def open1 : SecSlot := { st := .opened, owner := .spt, ks := List.replicate 16 1 }
def sMail (op : Nat) (b : List Byte) : State :=
  let s := ((mailOp op 1 sSec).modSess 1 fun _ => open1).wr R.SEC_MBm_CTR 6 0
  (s.wr R.SEC_MBm_TAG_LO (wordOf (open1.tag 1 6 b) 0) 0).wr R.SEC_MBm_TAG_HI (wordOf (open1.tag 1 6 b) 1) 0
def eMail : Entry := entry 0x60 0x40006040 7 0xFFFFFFFF
def sMailW : State := (((sMail 5 eMail.bytes).wr R.SEC_MBm_DATAi eMail.w0 0 0).wr R.SEC_MBm_DATAi eMail.w1 0 1).wr R.SEC_MBm_DATAi eMail.w2 0 2 |>.wr
  R.SEC_MBm_DATAi eMail.w3 0 3
/-- A check of CSL came first. -/
def sBehind (s : State) : State := { s with sec := { s.sec with checks := [(.csl, 0), (.spt, 1)] } }
theorem test_witness_sec_close : (sMail 3 (opBytes 3)).mailboxRuns 0 3 = true ∧ (sMail 3 (opBytes 3)).mailboxSlot 0 = 1 ∧
    (sMail 3 (opBytes 3)).keyedReason (mailboxBy 0) 1 6 ((sMail 3 (opBytes 3)).mailboxTag 0) (3 :: List.replicate 15 0) false = none ∧
    (sMail 4 (opBytes 3)).keyedReason (mailboxBy 0) 1 6 ((sMail 4 (opBytes 3)).mailboxTag 0) (4 :: List.replicate 15 0) false = some .check ∧
    (sMail 3 (opBytes 3)).mailboxCtr 0 = 6 ∧ (sMail 3 (opBytes 3)).secTurn .spt = true ∧ (sMailW.secTurn .spt = true) ∧
    (sBehind (sMail 3 (opBytes 3))).mailboxRuns 0 3 = true ∧ (sBehind (sMail 3 (opBytes 3))).secTurn .spt = false ∧
    (sBehind sMailW).mailboxRuns 0 5 = true ∧ (sBehind sMailW).secTurn .spt = false ∧ ((sMail 4 (opBytes 3)).sess 1).run < 7 := by decide +kernel
theorem test_sec_close : gives (.secClose (.mailbox 0)) (sMail 3 (opBytes 3)) (fun t => (t.sess 1).st == .free) = true ∧
    gives (.secTouch (.mailbox 0)) (sMail 4 (opBytes 4)) (fun t => (t.sess 1).last == 6) = true ∧
    gives (.secTouch (.mailbox 0)) (sMail 4 (opBytes 3)) (fun t => (t.sess 1).run == 1 && t.rd R.SEC_LASTFAIL == 0x04010000) = true := by
  decide +kernel
theorem test_witness_mailbox_write : sMailW.mailboxRuns 0 5 = true ∧ eMail.carriedBad = none ∧ eMail.flags % 2 = 0 ∧
    sMailW.keyedReason (mailboxBy 0) 1 6 (sMailW.mailboxTag 0) eMail.bytes (makerReg eMail.w1.toNat) = none ∧
    areaOf eMail.w1.toNat = some (.page Pg.skn) ∧ reach .spt true (.page Pg.skn) = true ∧ sizeOk (.page Pg.skn) 4 eMail.w1.toNat = true := by
  decide +kernel
theorem test_mailbox_write : gives (.mailboxWrite 0) sMailW (fun t =>
    t.bus.posted == [Posted.mk .spt 0x40006040 7 4 true] && t.fld F.SEC_MBm_CTL_STATUS 0 == 0) = true := by decide +kernel
def sIdle : State := { (sMail 3 []).setFld F.SEC_TMO_IDLE 1 with time := 100000000 }
theorem test_witness_idle_close : (sIdle.sess 1).st = .opened ∧ sIdle.running Pg.sec = true ∧ sIdle.fld F.SEC_TMO_IDLE ≠ 0 ∧
    (sIdle.modPage Pg.sec fun x => { x with st := .off }).running Pg.sec = false ∧ sIdle.fld F.SEC_TMO_IDLE * 100000000 ≤ sIdle.since (sIdle.sess 1).since ∧ sIdle.checkOn 1 = false ∧
    (sChecking .spt 0 sIdle).checkOn 1 = true := by
  decide +kernel
theorem test_witness_open_timeout : sPend.running Pg.sec = true ∧ (sPend.sess 1).st = .pending ∧
    max 1 (sPend.fld F.SEC_TMO_OPENT) * 100000 ≤ ({ sPend with time := 0xFFFFFFFF }).since (sPend.sess 1).since ∧
    sPend.since (sPend.sess 1).since < max 1 (sPend.fld F.SEC_TMO_OPENT) * 100000 ∧ (sPend.sess 0).st ≠ .pending := by decide +kernel
-- chapter 17: UART 2 and the SPI target

def uaWith (f : UaSt → UaSt) (s : State) : State := s.modUa 2 f
def sUa : State := runs [Pg.ua 2, Pg.spt, Pg.qmg] State.reset
/-- 'A' (0x41), 8N1: three samples of each bit, least significant data bit first (R430, R432). -/
def charA (stop : Bool) : List (List Bool) :=
  ([false, true, false, false, false, false, false, true, false] ++ [stop]).map fun b => [b, b, b]
theorem test_witness_receive : sUa.uaHears 2 = true ∧ sUa.uaArmed 2 false = true ∧ sUa.uaSampled 2 (charA true) = true ∧ sUa.ReadsAt .csl (wordAt R.UAn_DATA 2) ∧ ((charA true).map bitOf).headD true = false ∧
    sUa.uaInband 2 = false ∧ (sUa.ua 2).rx.length < 64 ∧
    64 ≤ ((uaWith (fun x => { x with rx := List.replicate 64 0 }) sUa).ua 2).rx.length := by decide +kernel
/-- A stop bit that reads low sets FERR, bit 8 of UAn_DATA (R432, R444). -/
theorem test_uart_char_received : gives (.uartCharReceived 2 (charA true) false true) sUa (fun t => (t.ua 2).rx == [0x41]) = true ∧
    gives (.uartCharReceived 2 (charA false) false true) sUa (fun t => (t.ua 2).rx == [0x141] && t.rd R.UAn_FERRS 2 == 1) = true ∧
    gives (.uartCharReceived 2 (charA true) false true) (uaWith (fun x => { x with rx := List.replicate 64 0 }) sUa) (fun t =>
      t.rd R.UAn_RXDROP 2 == 1 && (t.ua 2).rx.length == 64) = true := by decide +kernel
/-- No start is detected on a line that stays low; the FIFO's level requests RXTHR (R432, R433, R444). -/
theorem test_start_needs_high : gives (.uartCharReceived 2 (charA true)) (uaWith (fun x => { x with low := true }) sUa) (fun t => (t.ua 2).rx == []) = true ∧
    gives (.uartCharReceived 2 (charA true) false true) (uaWith (fun x => { x with low := true }) sUa) (fun t =>
      (t.ua 2).rx == [0x41] && (t.page (Pg.ua 2)).irqStat.getLsbD 4) = true ∧
    gives (.uartCharReceived 2 ((charA true).take 4)) sUa (fun t => t.uaStat 2 &&& 7 == 1) = true := by decide +kernel
/-- A character of zeros within a break is none (R432). -/
def zeros : List (List Bool) := List.replicate 10 [false, false, false]
theorem test_witness_break_char : sUa.uaSampled 2 zeros = true ∧ (zeros.map bitOf).headD true = false ∧ (zeros.map bitOf).getLastD true = false ∧
    bitsNat (((zeros.map bitOf).drop 1).take (sUa.uaData 2)) = 0 := by decide +kernel
theorem test_break_char : gives (.uartCharReceived 2 zeros true) sUa (fun t => (t.ua 2).rx == [] && t.rd R.UAn_FERRS 2 == 0) = true := by
  decide +kernel
theorem test_uart_data_read : gives (.uartDataRead .csl 2) (uaWith (fun x => { x with rx := [0x141, 2] }) sUa) (fun t =>
      t.bus.answers.map (·.val) == [0x141] && (t.ua 2).rx == [2]) = true ∧
    gives (.uartDataRead .csl 2) sUa (fun t => t.bus.answers.map (·.val) == [0x80000000]) = true := by decide +kernel
def sTx : State := uaWith (fun x => { x with tx := [0x55, 0x66] }) sUa
theorem test_witness_tx : sTx.uaEchoes 2 = false ∧ sTx.WritesAt .csl (wordAt R.UAn_DATA 2) ∧ sTx.uaTxBusy 2 = false ∧
    (uaWith (fun x => { x with txEnd := 9 }) sTx).uaTxBusy 2 = true ∧ sTx.running (Pg.ua 2) = true ∧ (sTx.ua 2).line = 0 ∧ (sTx.page (Pg.ua 2)).st ≠ .resetting ∧ sTx.flag F.UAn_ERR_COLL 2 = false ∧
    sTx.fld F.UAn_CFG_FLOW 2 = 0 ∧ (sTx.ua 2).gen = [] ∧ sTx.flag F.UAn_CFG_HALF 2 = false ∧
    (sTx.setBit F.UAn_CFG_HALF true 2).flag F.UAn_CFG_HALF 2 = true ∧ (sTx.setBit F.UAn_ERR_COLL true 2).flag F.UAn_ERR_COLL 2 = true := by
  decide +kernel
theorem test_uart_tx_char : gives (.uartTxChar 2 true []) sTx (fun t => (t.ua 2).sent == some 0x55 && (t.ua 2).tx == [0x66] &&
      (t.ua 2).wire == [false, true, false, true, false, true, false, true, false, true]) = true ∧
    gives (.uartTxChar 2 true [false, false]) (sTx.setBit F.UAn_CFG_HALF true 2) (fun t =>
      t.flag F.UAn_ERR_COLL 2 && t.fld F.UAn_COLLCH_CH 2 == 0x55 && (t.ua 2).wire == [false, true]) = true := by decide +kernel
def sFeed : State := (sRing0.modPage (Pg.ua 2) fun p => { p with st := .run }).wr R.UAn_CFG 0 2 |>.setBit F.UAn_CFG_FEED true 2 |>.setFld F.UAn_CFG_FQ 3 2
def sFeed16 : State := uaWith (fun x => { x with rx := (List.range 17).map fun k => BitVec.ofNat 9 k }) sFeed
theorem test_witness_uart_feed : sFeed16.flag F.UAn_CFG_FEED 2 = true ∧ sFeed16.fld F.UAn_CFG_FLOW 2 = 0 ∧ sFeed16.uaQueue 2 = 3 ∧
    16 ≤ (sFeed16.ua 2).rx.length ∧ (sFeed16.q 3).mode = .run ∧ (sFeed16.q 3).recov = none ∧ 1 ≤ sFeed16.credit 3 ∧
    sFeed16.running Pg.qmg = true ∧ (sFeed16.ua 2).rx.length % 16 ≠ 0 ∧ sFeed16.running (Pg.ua 2) = true ∧
    ({ sFeed16 with time := 0xFFFFFFFF }).uaChars 2 (max 1 (sFeed16.fld F.UAn_LDT_FGAP 2)) 0xFFFFFFFF = true := by decide +kernel
theorem test_uart_feed_enqueue : gives (.uartFeedEnqueue 2) sFeed16 (fun t =>
    (t.q 3).tail == 1 && t.byte 0x20000003 == 3 && (t.ua 2).rx == [16]) = true := by decide +kernel
theorem test_feed_gap_discard : gives (.feedGapDiscard 2) { sFeed16 with time := 0xFFFFFFFF } (fun t =>
    (t.ua 2).rx.length == 16 && t.rd R.UAn_FEEDDISC 2 == 1) = true := by decide +kernel
theorem test_witness_spt : sUa.running Pg.spt = true ∧ areaOf 0x20000100 = some .wram ∧ reach .spt true .wram = true ∧
    sizeOk .wram 4 0x20000100 = true ∧ sUa.bus.posted = [] := by decide +kernel
theorem test_spt_write : gives (.sptWrite false 0x20000100 [1, 2, 3, 4, 5]) sUa (fun t =>
    t.bus.posted == [Posted.mk .spt 0x20000100 0x04030201 4 false] && t.rd R.SPT_TRUNC == 1) = true := by decide +kernel
theorem test_spt_read : gives (.sptQread false 0x20000100 1 [2]) (sUa.setBytes 0x20000100 [9, 8, 7, 6]) (fun t =>
    t.spt.out == [0xFF, 0xFF, 0xA5, 9, 8, 7, 6] && t.rd R.SPT_WAITS == 2) = true := by decide +kernel
theorem test_witness_collision : (sTx.setBit F.UAn_CFG_HALF true 2).flag F.UAn_CFG_HALF 2 = true ∧
    ((sTx.uaFrame 2 0x55).zip [false, false]).findIdx? (fun x => x.1 != x.2) = some 1 ∧
    (∀ x ∈ (sTx.uaFrame 2 0x55).zip [false, true], x.1 = x.2) ∧ sTx.flag F.UAn_CFG_ECHO 2 = false := by decide +kernel
/-- Even and odd parity of 0x07, mark and space (R430). -/
theorem test_parity : (List.range 6).map (fun k => (((sTx.setFld F.UAn_CFG_PAR k 2).uaFrame 2 7).drop 9).take 1) =
    [[true], [true], [false], [true], [false], [true]] := by decide +kernel
theorem test_witness_uart_line : (sUa.ua 2).line = 0 ∧ (uaWith (fun x => { x with line := 2 }) sUa).ua 2 = { sUa.ua 2 with line := 2 } ∧
    sUa.uaChars 2 1 0xFFFFFFFF = true ∧ sUa.uaChars 2 1 0 = false := by decide +kernel
/-- A READ that nCS ends 8 bits after its markers has lost the value of its word (R449); 3 bits are a cut word (R451). -/
theorem test_spt_cut : gives (.sptRead false 0x20000100 0 [2] 8) (sUa.setBytes 0x20000100 [9, 8, 7, 6]) (fun t =>
      t.spt.out == [0xFF, 0xFF, 0xA5] && t.rd R.SPT_WAITS == 2) = true ∧
    gives (.sptWrite false 0x20000100 [1, 2, 3, 4] 3) sUa (fun t => t.rd R.SPT_TRUNC == 1 && t.spt.clocks == 75) = true ∧
    gives (.sptRdsr true [false, true]) { sUa with bus := { sUa.bus with posted := [Posted.mk .spt 0x20000100 1 4 false] } } (fun t =>
      t.spt.out == [0, 1] && t.spt.mode3) = true := by decide +kernel
theorem test_witness_spt_bad : (0x20000101 : Word).toNat % 4 ≠ 0 ∧ sptCommand 0x77 = none ∧ sptCommand 0xEB = some (.read true) := by decide +kernel

-- chapter 18: the converter's source 0 is identifier 93

def sRep (cfg : Word) (inj : Bool) : State :=
  { (State.reset.wr R.FCC_RCFGi cfg 93) with time := 0x123456789A, reports := [{ page := Pg.adc, k := 0, at_ := 5, inj := inj }] }
def theRep : Report := { page := Pg.adc, k := 0, at_ := 5 }
theorem test_witness_report : faultId Pg.adc 0 = some 93 ∧ (sRep 9 false).held theRep 93 = false ∧ faultClass 93 = 1 ∧
    faultHead 93 = false ∧ (sRep 9 false).rd R.FCC_RCFGi 93 = 9 ∧ (sRep 9 false).flag F.FCC_FER_VALID = false ∧
    ({ sRep 9 false with time := 5 }.openShadow Pg.adc).held theRep 93 = true ∧ (sRep 9 false).fcc.broken[Pg.adc] = none ∧ (sRep 9 false).chip.sysStopped = false ∧ (sRep 9 false).reports = [theRep] ∧
    ((sRep 9 false).setBit F.FCC_FER_VALID true).flag F.FCC_FER_VALID = true := by decide +kernel
theorem test_report_latched : gives .faultReport (sRep 9 true) (fun t =>
    t.rd R.FCC_FER == BitVec.ofNat 32 (0xD05D0000 + Pg.adc.val * 256) && t.rd R.FCC_FER_TIME_HI == 0x12 && t.fcc.crst == some 0x123456789A &&
    t.fcc.inj[Pg.adc] == 1 && t.fcc.real[Pg.adc] == 0) = true := by decide +kernel
/-- An F-class report closes every Shutter (R459). -/
theorem test_fatal : gives .faultReport { State.reset with reports := [{ page := Pg.fcc, k := 1, at_ := 5 }] } (fun t =>
    t.flag F.FCC_STAT_FATAL && (List.finRange 4).all fun p => (t.hpP p).causes.fault) = true := by decide +kernel
def sMarked : State := State.reset.modFcc fun f => { f with real := f.real.map fun (_ : Word) => (0xFFFFFFFF : Word) }
theorem test_witness_pend_clear : (∀ p : Port, (sMarked.hpP p).causes.fault = false) ∧ (0x20000000 : Word).getLsbD 29 = true ∧
    sMarked.idPend 93 = true := by decide +kernel
theorem test_pend_clear : gives (.pendClear 2 0x20000000) sMarked (fun t => !t.idPend 93 && t.idPend 92 && t.idPend 94) = true := by
  decide +kernel
def sFer : State := State.reset.wr R.FCC_FER (0x80000000 + 93 * 65536)
theorem test_witness_fer_clear : sFer.flag F.FCC_FER_VALID = true ∧ sFer.fld F.FCC_FER_ID = wbits (93 : Word) 0 7 ∧
    sFer.fld F.FCC_FER_ID ≠ wbits (92 : Word) 0 7 := by decide +kernel
/-- An island's clock that is lost takes its ready bit with it (02 R51, 18 R462). -/
theorem test_clkloss : gives (.clkloss 3 100) State.reset (fun t => t.chip.noClk == 8 && t.reports.map (·.page) == [Pg.sys]) = true ∧
    gives (.clkloss 0 100 false) State.reset (fun t => t.chip.noClk == 1 && !t.chip.sysStopped) = true ∧
    gives (.pathbrk Pg.adc 1 2) State.reset (fun t => t == State.reset) = true := by decide +kernel
/-- The SYS clock has stopped. -/
def sStopped (s : State) : State := nextOf (.clkloss 0 100) { s with reports := [] } |> fun u => { u with reports := s.reports }
def sBroken (τ : BitVec 64) : State := (sRep 9 false).modFcc fun f => { f with broken := f.broken.set Pg.adc (some τ) }
theorem test_witness_pathbrk : (faultId Pg.adc 1).isSome = true ∧ State.reset.fcc.broken[Pg.adc] = none ∧
    (sBroken 4).fcc.broken[Pg.adc] = some 4 ∧ (sRep 9 false).reports.map (·.at_) = [5] := by decide +kernel
/-- A report that entered before its path broke is decided, a later one is dropped (R454). -/
theorem test_broken_path : gives .faultReport (sBroken 4) (fun t => t.reports == [] && t.rd R.FCC_REPORTS == 0) = true ∧
    gives .faultReport (sBroken 5) (fun t => t.reports == [] && t.rd R.FCC_REPORTS == 1) = true ∧
    gives .faultReport (sStopped (sBroken 5)) (fun t => t.reports == (sBroken 5).reports) = true := by
  decide +kernel
/-- DIV is 12500 at reset: half a period of 0.5 ms (R464). -/
theorem test_witness_alive : State.reset.fcc.stopped = false ∧ State.reset.fcc.half = 50000 ∧
    { State.reset with time := 50000 }.since State.reset.fcc.edgeAt = 50000 ∧
    (nextOf (.sysclkLossAliveStop 200) State.reset).fcc.stopped = true := by decide +kernel
def sShadow : State := { State.reset.modFcc (fun f => { f with shadow := f.shadow.set Pg.adc (some (some 5)) }) with time := 5 }
theorem test_witness_shadow_end : sShadow.fcc.shadow[Pg.adc] = some (some 5) ∧ (5 : BitVec 64).toNat ≤ sShadow.time.toNat := by decide +kernel
theorem test_shadow_end : gives (.shadowEnd Pg.adc) { sShadow with time := 4 } (fun t => t.fcc.shadow[Pg.adc] == some (some 5)) = true := by
  decide +kernel
theorem test_witness_stopped : (sStopped State.reset).chip.sysStopped = true ∧ (sStopped State.reset).Up := by decide +kernel
/-- One report of the source, with its identifier configured. -/
def sSource (pg : PageIx) (k : Fin 32) (id : Nat) (cfg : Word) : State :=
  { (runs [Pg.seq, Pg.hp 0, Pg.hp 1, Pg.qe 2] (ring 0 State.reset)).wr R.FCC_RCFGi cfg id with time := 9, reports := [{ page := pg, k := k, at_ := 5 }] }
/-- Identifier 24 is OVRBURST of port 0, head-related of class U; 39 a source of SBA's port 0; 92 QERR of the encoders. -/
theorem test_witness_reactions : faultId (Pg.hp 1) 1 = some 28 ∧ faultClass 28 = 2 ∧ faultHead 28 = true ∧ sourcePort (Pg.hp 1) 1 = some 1 ∧
    faultId Pg.sba 0 = some 39 ∧ (sSource Pg.sba 0 39 2).trapOwn { page := Pg.sba, k := 0, at_ := 5 } = [3] ∧ (sSource Pg.sba 0 39 2).qEn 3 = true ∧
    faultClass 39 ≠ 3 ∧ faultHead 39 = false ∧ faultId (Pg.qe 2) 0 = some 92 ∧ blk (Pg.qe 2) ≠ .fixed ∧
    (sSource (Pg.qe 2) 0 92 2).trapOwn { page := Pg.qe 2, k := 0, at_ := 5 } = [] ∧ (∀ q : QNum, ((sSource (Pg.qe 2) 0 92 2).rd R.FCC_TRAPQ).getLsbD q.val = true →
      (sSource (Pg.qe 2) 0 92 2).qEn q = false) ∧ (sSource (Pg.qe 2) 0 92 4).brstSoon (Pg.qe 2) = false ∧ faultClass 92 ≠ 3 ∧ faultHead 92 = false ∧
    ((sSource (Pg.qe 2) 0 92 4).modFcc fun f => { f with lastBrst := f.lastBrst.set (Pg.qe 2) (some 8) }).brstSoon (Pg.qe 2) = true ∧ faultClass 0 = 3 := by
  decide +kernel
theorem test_head_unsafe : gives .faultReport (sSource (Pg.hp 1) 1 28 0) (fun t =>
    (List.finRange 4).map (fun p => (t.hpP p).causes.fault) == [false, true, false, false] && (t.hpP 1).hold.isSome && t.fcc.alive == State.reset.fcc.alive) = true := by
  decide +kernel
theorem test_trap_reaction : gives .faultReport ((sSource Pg.sba 0 39 2).setBit F.SEQ_Tn_TRAP_EN true 3) (fun t =>
      (t.thr 3).trapDue && t.rd R.SEQ_Tn_TRAPCNT 3 == 1) = true ∧
    gives .faultReport (sSource Pg.sba 0 39 2) (fun t => !(t.thr 3).trapDue && t.rd R.SEQ_Tn_MISSED 3 == 1) = true ∧
    gives .faultReport (sSource (Pg.qe 2) 0 92 2) (fun t => t.rd R.FCC_TRAPLOST == 1) = true := by decide +kernel
theorem test_brst_reaction : gives .faultReport (sSource (Pg.qe 2) 0 92 4) (fun t =>
      (t.page (Pg.qe 2)).st == .resetting && t.fcc.shadow[Pg.qe 2] == some none && t.fcc.shadowAt[Pg.qe 2] == 6) = true ∧
    gives .faultReport ((sSource (Pg.qe 2) 0 92 4).modFcc fun f => { f with lastBrst := f.lastBrst.set (Pg.qe 2) (some 8) }) (fun t =>
      (t.page (Pg.qe 2)).st == .run && t.reports.map (·.k) == [1] && t.reports.map (·.page) == [Pg.fcc]) = true := by decide +kernel
/-- EPIN: ALIVE stops until chip reset (R458, R464). -/
theorem test_epin : gives .faultReport (sSource Pg.sba 0 39 16) (fun t => !t.fcc.alive && t.fcc.stopped && t.flag F.FCC_STAT_ALIVESTOP) = true := by
  decide +kernel
def sShutFault : State := { State.reset.modHp 1 (fun h => { h with causes := { h.causes with fault := true } }) with
  fcc := { State.reset.fcc with real := State.reset.fcc.real.set (Pg.hp 1) 2 } }
theorem test_witness_pend_reopens : (sShutFault.hpP 1).causes.fault = true ∧ sShutFault.flag F.FCC_STAT_FATAL = false ∧
    (∀ id ∈ headIds 1, sShutFault.idPend id = true → id / 32 = (0 : Fin 4).val ∧ (0x10000000 : Word).getLsbD (id % 32) = true) := by decide +kernel
theorem test_pend_reopens : gives (.pendClear 0 0x10000000) sShutFault (fun t => !(t.hpP 1).causes.fault) = true ∧
    gives (.pendClear 0 0x20000000) sShutFault (fun t => (t.hpP 1).causes.fault) = true := by decide +kernel

-- chapter 19

def world (tries : Nat) : CastOnWorld := { straps := 5, otpDiffers := false, pllTries := tries, bank0Failed := false, bank1Failed := false, erasePulses0 := 1, erasePulses1 := 1, ticks := 999 }
/-- A unit whose life-cycle record has these steps set. -/
def aged (l : List Nat) : State :=
  let s := l.foldl (fun (s : State) i => s.orWord (stepWord i).1 (stepWord i).2) State.reset
  s.writeLife (lifeOf s.lifeSteps) false
def sField : State := { (aged [0, 1, 2]) with time := 5000, fcc := { State.reset.fcc with crst := some 4900 } }
theorem test_witness_chip_reset : sField.Up ∧ supplyLow (world 1) = false ∧ sField.chip.phase ≠ .noSupply ∧ sField.flc.op = none ∧ sField.chip.lcs = none ∧ sField.bootEn = false ∧
    (lifeOf sField.lifeSteps).state = 3 ∧ sField.chip.sysStopped = false ∧ sField.fcc.crst = some 4900 ∧ 100 ≤ sField.since 4900 := by decide +kernel
theorem test_chip_reset : gives (.powerOnReset (world 1)) sField (fun t =>
    t.fld F.LCS_STATE_STATE == 3 && t.fld F.LCS_CASTON_PLLTRY == 1 && t.fld F.CSL_ADDR_ADDR == 5) = true := by decide +kernel
/-- The highest cause wins, and bank A at 1.8 V stays so until the next power-on (02 R52, 20 R497). -/
theorem test_chip_reset_causes : gives (.nreset 10000 false { world 0 with also := 16 }) sField (fun t => t.rd R.SYS_RST_CAUSE == 16) = true ∧
    gives (.powerOnReset { world 0 with vioA := 1800 }) sField (fun t => !t.chip.bankA && t.chip.bankB) = true ∧
    gives (.powerOnReset { world 0 with noCrystal := true }) sField (fun t => t.chip.phase == .noCrystal && !t.fcc.alive) = true := by decide +kernel
theorem test_bscan : gives (.bscanExtest 5) sField (fun t => t.chip.phase == .held && t.chip.boundary == 5) = true ∧
    gives (.bscanSamplePreload 6) sField (fun t => t.chip.phase == sField.chip.phase && t.chip.boundary == 6) = true := by decide +kernel
def sHeldChip (i : TapInstr) : State := { sField with chip := { sField.chip with phase := .held, tap := i } }
def brownOut : CastOnWorld := { world 0 with vcore := 719 }
theorem test_witness_supply : supplyLow brownOut = true ∧ dipResets { vcore := 699, ns := 999 } = false ∧
    (nextOf (.powerOnReset brownOut) sField).chip.phase = .noSupply := by decide +kernel
/-- A dip of VCORE below its falling threshold for 1 µs resets, and while a supply is low no strap of the TAP or nRESET
does anything (20 R498, 19 R473). -/
theorem test_supply : gives (.powerOnReset (world 0) (some { vcore := 699, ns := 1000 })) sField (fun t =>
      t.chip.phase == .up && t.rd R.SYS_RST_CAUSE == 1) = true ∧
    gives (.nreset 20000 false (world 0)) (nextOf (.powerOnReset brownOut) sField) (fun t => t.chip.phase == .noSupply) = true ∧
    gives (.powerOnReset (world 0)) (nextOf (.powerOnReset brownOut) sField) (fun t => t.chip.phase == .up) = true := by decide +kernel
/-- Every CONTROL cell goes to 0 in Test-Logic-Reset; a code that no instruction has is BYPASS (R488, 20 R496). -/
theorem test_tap_codes : gives (.bscanIdcode true) { sField with chip := { sField.chip with boundary := BitVec.allOnes 547 } } (fun t =>
      t.chip.tap == .idcode && t.chip.boundary == controlsOff (BitVec.allOnes 547) && t.chip.boundary != BitVec.allOnes 547) = true ∧
    tapInstr 0x05 = .bypass ∧ tapInstr 0x10 = .transom ∧ gives (.bscanBypass 0x02) sField (fun t => t == sField) = true ∧
    sField.transomCapture = 0 ∧ (sHeldChip .transom).transomCapture = (1 : BitVec 66) <<< 64 := by decide +kernel
/-- Cells of the boundary register by ball, in the order of R493 (20 R496). -/
theorem test_boundary_cells : Signal.cell (.hpDat 0 0) = some 0 ∧ Signal.cell (.icScl 0) = some 312 ∧ Signal.cell (.axIref 4) = some 544 := by decide +kernel
theorem test_chip_reset_fails : gives (.nreset 10000 false (world 3)) sField (fun t => t.chip.phase == .failed) = true ∧
    gives (.nreset 999 true (world 0)) sField (fun t => t == sField) = true := by decide +kernel
theorem test_witness_tap : (sHeldChip .idcode).chip.phase = .held ∧ (sHeldChip .idcode).chip.tap.holds = false ∧
    sField.chip.phase ≠ .held ∧ ¬ (sHeldChip .extest).Up := by decide +kernel
theorem test_tap_release : gives (.bscanResetRelease (world 0)) (sHeldChip .extest) (fun t => t == sHeldChip .extest) = true := by
  decide +kernel
/-- Returned units need step 4k set to be ERASED (R480). -/
theorem test_life_states : [[], [0], [0, 1], [0, 1, 2], [0, 1, 2, 3], [0, 1, 2, 3, 4], [0, 1, 2, 3, 4, 5], [0, 31]].map
    (fun l => ((lifeOf l).state, (lifeOf l).erased)) =
    [(0, false), (1, false), (2, false), (3, false), (4, false), (4, true), (2, false), (5, false)] := by decide +kernel
theorem test_witness_transitions : (aged []).fld F.LCS_STATE_STATE = 0 ∧ ((aged []).setBit F.LCS_STATE_KMP true).flag F.LCS_STATE_KMP = true ∧
    (aged [0]).fld F.LCS_STATE_STATE = 1 ∧ (aged [0, 1]).fld F.LCS_STATE_STATE = 2 ∧
    (aged [0, 1, 2, 3, 4]).flag F.LCS_STATE_ERASED = true ∧
    (aged [0, 1, 2, 3, 4, 5, 6, 7, 8, 9, 10, 11, 12, 13, 14, 15, 16]).fld F.LCS_STATE_REPROV = 3 ∧ (aged [0]).Up := by decide +kernel
theorem test_transitions_refused :
    gives (.transMakerTest false 0x5A) (aged []) (fun t => t.fld F.LCS_TRES_RESULT == 3) = true ∧
    gives (.transField true 0x5B) (aged [0, 1]) (fun t => t.fld F.LCS_TRES_RESULT == 5) = true ∧
    gives (.transReturned true 0x5A) sField (fun t => t.fld F.LCS_TRES_RESULT == 2) = true ∧
    gives (.transProvisioned false 0x5A) (aged [0, 1, 2, 3, 4, 5, 6, 7, 8, 9, 10, 11, 12, 13, 14, 15, 16]) (fun t => t.fld F.LCS_TRES_RESULT == 4) = true := by
  decide +kernel
def burning (trans : Bool) (ws : List (Nat × BitVec 64)) : State :=
  { aged [] with time := 50000, chip := { State.reset.chip with lcs := some ⟨ws, 0, trans, 1⟩ } }
theorem test_witness_programming_end : (burning true [stepWord 0]).chip.lcs = some ⟨[stepWord 0], 0, true, 1⟩ ∧
    (burning true [stepWord 0]).flc.op = none ∧ 5100 + 100 ≤ (burning true [stepWord 0]).since 0 ∧
    (burning false [(0x30000090, 5), (0x30000098, 6)]).chip.lcs = some ⟨[(0x30000090, 5), (0x30000098, 6)], 0, false, 1⟩ ∧
    ([stepWord 0].foldl (fun (s : State) x => s.orWord x.1 x.2) { burning true [stepWord 0] with chip := {} }).bootEn = false := by
  decide +kernel
theorem test_programming_end : gives (.lcsProgrammingEnd true (world 0)) (burning true [stepWord 0]) (fun t =>
    t.fld F.LCS_STATE_STATE == 1 && t.rd R.SYS_RST_CAUSE == 8) = true ∧
    gives (.lcsProgrammingEnd true (world 0)) (burning false [(0x30000090, 5), (0x30000098, 6)]) (fun t =>
      t.cell64 0x30000098 == 6 && t.flag F.LCS_STATE_KMP) = true := by decide +kernel
def sKey : State := (aged []).wr R.LCS_KEYDATAi 5 0
theorem test_witness_key_program : sKey.fld F.LCS_STATE_STATE = 0 ∧ sKey.cell64 0x30000080 = 0 ∧ sKey.cell64 0x30000088 = 0 ∧
    sKey.keyWord 0 ≠ 0 ∧ sKey.WritesAt .transom (wordAt R.LCS_KEYPROG) ∧ sKey.WritesAt .csl (wordAt R.LCS_KEYPROG) ∧
    (sKey.page Pg.lcs).st ≠ .resetting ∧ sKey.chip.lcs = none ∧ sField.fld F.LCS_STATE_STATE ≠ 0 ∧ sField.chip.lcs = none := by decide +kernel
theorem test_key_program_zero : gives (.keyProgram .transom true) (aged []) (fun t => t.fld F.LCS_KEYPROG_RESULT == 4) = true := by
  decide +kernel
def sDebug (l : List Nat) : State := { (aged l).setWord 0x20000000 77 with chip := { State.reset.chip with tap := .transom } }
theorem test_witness_transom : (sDebug []).chip.tap = .transom ∧ areaOf 0x20000000 = some .wram ∧ sizeOk .wram 4 0x20000000 = true ∧
    (sDebug []).transomRestricted = false ∧ (sDebug []).transomOpen = true ∧ (sDebug [0, 1]).transomRestricted = true ∧
    (sDebug [0, 1, 2]).transomOpen = false ∧ (sDebug [0, 1, 2]).transomRestricted = false ∧ (sDebug []).bus.posted = [] := by decide +kernel
theorem test_witness_transom_busy : (sDebug []).transomBusy = false ∧ ({ sDebug [] with chip := { (sDebug []).chip with tuntil := 9 } }).transomBusy = true ∧
    State.reset.chip.tap ≠ .transom := by decide +kernel
/-- OP 0b01 reads, 0b10 writes, 0b00 starts nothing, and an access that runs is not disturbed (R486). -/
theorem test_transom_word : (((sDebug []).transomUpdate (transomWord 1 0x20000000 0)).chip.tdata = 77) ∧
    ((sDebug []).transomUpdate (transomWord 2 0x20000000 5)).bus.posted = [Posted.mk .transom 0x20000000 5 4 false] ∧
    (sDebug []).transomUpdate (transomWord 0 0x20000000 5) = sDebug [] ∧
    gives (.transomRead 0x20000000) ({ sDebug [] with chip := { (sDebug []).chip with tuntil := 9 } }) (fun t => t.chip.tdata == 0) = true := by
  decide +kernel
theorem test_transom_read : gives (.transomRead 0x20000000) (sDebug []) (fun t => t.chip.tdata == 77) = true := by decide +kernel

-- the manual's worked examples

/-- 06: elements 100 to 104 of a 576-element head, lines 0 and 1. -/
def exDots (n : Nat) : List Nat := if n = 0 then [1, 1, 0, 2, 1] else [1, 1, 1, 2, 0]
def sHeat : State :=
  let s := (State.reset.setFld F.HPn_CFG_NBLK 9 0).modBand 0 fun b => { b with st := .committed, written := 0xFFFFFFFFFFFFFFFF }
  let s := (List.range 2).foldl (fun s n => (exDots n).zipIdx.foldl (fun s d =>
    let a := skeinLine 0 n + (100 + d.2) / 4
    s.setByte a (s.byte a ||| BitVec.ofNat 8 (d.1 * 4 ^ ((100 + d.2) % 4)))) s) s
  let s := (s.setFld F.HHE_Pp_DCFG_UNIT 20 0).wr R.HHE_Pp_Dw 0xE600 0 2
  (s.setByte (elemAddr 0 101 + 1) 0x3C).setByte (elemAddr 0 103) 64
def exProfile : Profile := { e := 0x00083860, a := 0x04081020, n := 0x00400408, ctl := 0x80000190 }
def exLine (n : Nat) : Line := Line.mk 1 0 n 0 (Fin.ofNat 64 n) 3 none
def exRing : List RingLine :=
  [{ uid := 1, k := 0, fired := true, start := 0, data := { counts := sHeat.lineCounts 0 exProfile (exLine 0) 0 [] 496, nLine := 11, eSlice := 8 } }]
theorem test_example_heat_line0 : ((sHeat.lineCounts 0 exProfile (exLine 0) 0 [] 496).drop 100).take 5 = [11, 11, 0, 7, 11] := by decide +kernel
theorem test_example_heat_line1 :
    ((sHeat.lineCounts 0 exProfile (exLine 1) 20833 exRing 496).drop 100).take 5 = [8, 8, 10, 4, 0] := by decide +kernel
/-- 06: W at 24.000 V and at 24.300 V. -/
theorem test_example_width : sHeat.deriveW 0 8 24000 = (694, false) ∧ sHeat.deriveW 0 8 24300 = (677, false) := by decide +kernel
/-- 07: a 6144-dot line on 16 lanes takes 107.33 µs, a 576-dot line on 2 lanes 167.55 µs. -/
theorem test_example_line_time :
    (((State.reset.setFld F.HPn_CFG_NBLK 96 3).setFld F.HPn_CFG_LANES 4 3).setFld F.HPn_CFG_CLKDIV 2 3).tLine 3 12 400 = 10733 ∧
    (((State.reset.setFld F.HPn_CFG_NBLK 9 0).setFld F.HPn_CFG_LANES 1 0).setFld F.HPn_CFG_CLKDIV 4 0).tLine 0 11 694 = 16755 := by decide +kernel
/-- 08: HP0 has [0, 13.88) at 10.56 A and HP3 [2, 10) at 15.84 A; HP1 asks for t_s = 3.00 µs and gets d = 6. -/
theorem test_example_grant : placeAt [⟨0, 10000, 11388, 10560⟩, ⟨3, 10200, 11000, 15840⟩] 40000 18480 10300 125 2010 20 0 = 6 := by
  decide +kernel
/-- 09: element 317 from installation to WORN, and the edge of DEAD. -/
def exMeas (d : Int) : Measured :=
  ((State.reset.setFld F.EHM_Pp_SENSE_RSNS 20 0).setFld F.EHM_Pp_SENSE_VSFS 10000 0).measured 0 d 24000
theorem test_example_element : [154619, 140000, 134000, 134210, 118689].map (fun d => ((exMeas d).q, (exMeas d).cls)) =
    [(256, .ok), (283, .ok), (295, .worn), (295, .worn), (334, .dead)] := by decide +kernel
/-- 10: from 19,200 steps/s the feed stops within 834.4 steps. -/
def sFeed203 : State :=
  let s := [(R.AXn_VBRK, 8000), (R.AXn_DEC1, 400000), (R.AXn_DEC2, 200000), (R.AXn_VSTOP, 2400)].foldl
    (fun (s : State) (f : Reg × Word) => { s with active := sins (f.1.addr 2 0) f.2 s.active }) State.reset
  s
theorem test_example_stop_distance : sFeed203.stopDist 2 19200 = 835 := by decide +kernel
/-- 13: a line fired at 10,000 shows at row 131 of a frame that starts at 10,900; element 322 is judged LIGHT, misclassified. -/
def sReceipt : State := { State.reset with active := [(R.VPn_Cx_OFFS.addr 0 0, 639), (R.VPn_Cx_RP.addr 0 0, 0x0001FF7F)] }
theorem test_example_camera : sReceipt.rowOf 0 0 900 = 131 ∧ columnX 1031 131201 575 = 1216 ∧ columnX 1031 131201 317 = 699 ∧
    sReceipt.wrong 0 1 (sReceipt.classify 0 199 203) = true ∧ sReceipt.verdict 0 1 (sReceipt.classify 0 199 203) 199 203 = .light := by
  decide +kernel

/-- The example of NIST SP 800-38B with one block of message. -/
theorem test_cmac : cmac [0x2b, 0x7e, 0x15, 0x16, 0x28, 0xae, 0xd2, 0xa6, 0xab, 0xf7, 0x15, 0x88, 0x09, 0xcf, 0x4f, 0x3c]
    [0x6b, 0xc1, 0xbe, 0xe2, 0x2e, 0x40, 0x9f, 0x96, 0xe9, 0x3d, 0x7e, 0x11, 0x73, 0x93, 0x17, 0x2a] =
    [0x07, 0x0a, 0x16, 0xb4, 0x6b, 0x4d, 0x41, 0x44, 0xf7, 0x9b, 0xdd, 0x9d, 0xd0, 0x4a, 0x28, 0x7c] := by decide +kernel

end Sys2Proof.Tests
end

section
/-! SUPPORT. The register write by access types (00 R7, 02 R37): what the command does once it reaches an open page with
nothing posted, what a write that changes no bit of a register leaves in the store of registers, and what that says of
O8. -/

namespace Sys2Proof.Machine

-- a register's own value written back

/-- A store either has no entry for a key, and each default is read, or has one, and no default is. -/
theorem sget_default_or_entry {β : Type} (k : Nat) (l : List (Nat × β)) :
    (∀ d, sget d k l = d) ∨ ∃ v, ∀ d, sget d k l = v := by
  induction l with
  | nil => exact .inl fun _ => rfl
  | cons e l ih =>
    obtain ⟨k', v⟩ := e
    by_cases hk : k' = k
    · exact .inr ⟨v, fun d => by simp [sget, hk]⟩
    · simpa [sget, hk] using ih

/-- Writing back what a register reads keeps the store, unless an entry of the store lists the register's reset value:
that entry is erased, and the address then reads any other default. -/
theorem sameRegs_wr_rd_iff (s : State) (r : Reg) (i j : Nat) :
    SameRegsBut [] s (s.wr r (s.rd r i j) i j) ↔ ¬ ∀ d, sget d (r.addr i j) s.regs = r.resetAt i j := by
  have erased (h : s.rd r i j = r.resetAt i j) (d : Word) :
      sget d (r.addr i j) (s.wr r (s.rd r i j) i j).regs = d := by
    rw [State.wr_regs, h, sput, if_pos rfl, sget_filter_same]
  constructor
  · intro same listed
    have hd (d : Word) : d = r.resetAt i j :=
      calc d = sget d (r.addr i j) (s.wr r (s.rd r i j) i j).regs := (erased (listed _) d).symm
        _ = sget d (r.addr i j) s.regs := same _ d List.not_mem_nil
        _ = r.resetAt i j := listed d
    exact absurd ((hd 0).trans (hd 1).symm) (by decide)
  · intro unlisted a d _
    by_cases ha : a = r.addr i j
    · subst ha
      rcases sget_default_or_entry (r.addr i j) s.regs with absent | ⟨v, entry⟩
      · exact (erased (absent _) d).trans (absent d).symm
      · have hv : s.rd r i j = v := entry _
        have hne : v ≠ r.resetAt i j := fun h => unlisted fun d => (entry d).trans h
        rw [State.wr_regs, hv, sput, if_neg hne, sget_sins_same, entry]
    · exact sameRegs_wr s r _ i j a d (by simpa using ha)

-- the command

theorem exec_registerWrite (rq : Requester) (a v : Word) (s : State) :
    exec (.registerWrite rq a v) s = execRegisterWrite rq a v s := rfl

/-- With nothing posted, a register write that reaches an open page is the page's. -/
theorem exec_registerWrite_open {s : State} {rq : Requester} {a : Word} {pg : PageIx} (v : Word)
    (ha : areaOf a.toNat = some (.page pg)) (ho : s.Open pg) (hw : s.WritesAt rq a) :
    exec (.registerWrite rq a v) s = .next (s.keepOuter (s.regWrite rq false a.toNat v)) := by
  obtain ⟨hup, hopen⟩ := ho
  obtain ⟨hmay, hreach, hposted⟩ := hw
  have settled : s.settleBefore rq a.toNat pg = s := by
    simp [State.settleBefore, settleWrites_nil hposted]
  rw [exec_registerWrite, execRegisterWrite, whenWrite, whenMay, whenUp_up hup, if_pos hmay]
  simp only [ha, hreach, settled, not_true_eq_false, if_false, if_neg hopen]

/-- An unkeyed write of a register without RW, RWS or W1C bits writes back what it reads (00 R7, R8). -/
theorem plainWrite_unkeyed_writes_back (s : State) {r : Reg} (i j : Nat) (v : Word) (hsat : r.sat = false)
    (hrw : r.rw = 0) (hrws : r.rws = 0) (hw1c : r.w1c = 0) :
    s.plainWrite false r i j v = s.wr r (s.rd r i j) i j := by
  have kept (w : Word) : w &&& 4294967295#32 = w := BitVec.and_allOnes
  simp [State.plainWrite, Reg.merge, Reg.plain, hsat, hrw, hrws, hw1c, kept]

theorem exec_registerWrite_gcap {s : State} {rq : Requester} (v : Word) (ho : s.Open Pg.sba)
    (hw : s.WritesAt rq 0x4000C040) :
    exec (.registerWrite rq 0x4000C040 v) s = .next (s.wr R.SBA_GCAP (s.rd R.SBA_GCAP)) := by
  have harea : areaOf (0x4000C040 : Word).toNat = some (.page Pg.sba) := by decide +kernel
  have hpage : pageOf (0x4000C040 : Word).toNat = some Pg.sba := by decide +kernel
  have hfind : findReg (pageRegs Pg.sba) (0x4000C040 : Word).toNat = some (R.SBA_GCAP, 0, 0) := by decide +kernel
  have hblock : s.regWrite rq false (0x4000C040 : Word).toNat v = s.plainWrite false R.SBA_GCAP 0 0 v :=
    regWrite_block rq false v hpage ho.2 (by decide) hfind (by decide) (by decide)
  rw [exec_registerWrite_open v harea ho hw, hblock, plainWrite_unkeyed_writes_back s 0 0 v rfl rfl rfl rfl]
  rfl

/-- The state after reset, but that its store of registers lists SBA_GCAP at its reset value, 100. No write leaves such
an entry: `sput` removes it. -/
def gcapListed : State := { State.reset with regs := [(0x4000C040, 100)] }

theorem gcapListed_takes_write : gcapListed.Open Pg.sba ∧ gcapListed.WritesAt .spt 0x4000C040 := by decide +kernel

end Sys2Proof.Machine

open Sys2Proof Sys2Proof.Machine

/-- Refutes O8, by its clause on SBA_GCAP. The clause asks that the store read as before for every default, over every
`State`. In `gcapListed` the register reads 100, its reset value, through an entry of the store; the unkeyed write puts
100 back, which erases the entry, so the address no longer reads 100 for another default. The register itself still
reads 100: by `sameRegs_wr_rd_iff` the clause fails only for a store with such an entry. -/
theorem not_registerWriteByAccess : ¬ Obligations.RegisterWriteByAccess := by
  unfold Obligations.RegisterWriteByAccess
  intro h
  obtain ⟨hopen, hwrites⟩ := gcapListed_takes_write
  obtain ⟨-, -, -, -, -, hgcap, -, -⟩ := h gcapListed .spt 0 hopen.1
  obtain ⟨t, hexec, hregs, -⟩ := hgcap hopen hwrites
  rw [exec_registerWrite_gcap 0 hopen hwrites] at hexec
  cases hexec
  have listed (d : Word) : sget d (R.SBA_GCAP.addr 0 0) gcapListed.regs = R.SBA_GCAP.resetAt 0 0 := rfl
  exact (sameRegs_wr_rd_iff gcapListed R.SBA_GCAP 0 0).1 hregs listed

end

section
/-! SUPPORT. The crossbar (01 R13 to R21, 02 R29 to R31): the memory regions as ranges of addresses, the refusal of an
access, posting a write and the words of a burst, and what working RAM answers and stores; and what that says of O10,
O11 and O12. -/

namespace Sys2Proof.Machine

-- the memory regions as ranges of addresses

/-- The addresses of a memory region: its first one, and the first one above it. A register page has none. -/
def areaSpan : Area → Nat × Nat
  | .flash => (0, flashEnd)
  | .skein => (skeinBase, skeinEnd)
  | .wram => (wramBase, wramEnd)
  | .elem => (elemBase, elemEnd)
  | .otp => (otpBase, otpEnd)
  | .page _ => (0, 0)

theorem areaSpan_of_areaOf {a : Nat} {ar : Area} (hmem : ∀ pg, ar ≠ .page pg) (h : areaOf a = some ar) :
    (areaSpan ar).1 ≤ a ∧ a < (areaSpan ar).2 := by
  unfold areaOf at h
  repeat' split at h
  case isFalse.isFalse.isFalse.isFalse.isFalse =>
    obtain ⟨pg, -, rfl⟩ := Option.map_eq_some_iff.1 h
    exact absurd rfl (hmem pg)
  case isTrue hflash =>
    cases h
    exact ⟨Nat.zero_le a, hflash⟩
  all_goals
    cases h
    assumption

/-- The memory regions lie one above the other (02 R29). -/
theorem memory_regions_rise : flashEnd ≤ skeinBase ∧ skeinBase ≤ skeinEnd ∧ skeinEnd ≤ wramBase ∧ wramBase ≤ wramEnd ∧
    wramEnd ≤ elemBase ∧ elemBase ≤ elemEnd ∧ elemEnd ≤ otpBase := by decide

/-- The converse of `areaSpan_of_areaOf`: the regions below do not hold the address. -/
theorem areaOf_of_areaSpan {a : Nat} {ar : Area} (h : (areaSpan ar).1 ≤ a ∧ a < (areaSpan ar).2) :
    areaOf a = some ar := by
  have rise := memory_regions_rise
  unfold areaOf
  cases ar <;> simp only [areaSpan] at h
  case page => exact absurd h.2 (Nat.not_lt_zero a)
  case flash => rw [if_pos h.2]
  case skein => rw [if_neg (by omega), if_pos h]
  case wram => rw [if_neg (by omega), if_neg (by omega), if_pos h]
  case elem => rw [if_neg (by omega), if_neg (by omega), if_neg (by omega), if_pos h]
  case otp => rw [if_neg (by omega), if_neg (by omega), if_neg (by omega), if_neg (by omega), if_pos h]

/-- Every memory region ends within the 32-bit addresses. -/
theorem areaSpan_le (ar : Area) : (areaSpan ar).2 ≤ 2 ^ 32 := by
  cases ar with
  | page => exact Nat.zero_le _
  | _ => decide

-- accesses that the crossbar performs

/-- The address lies in an area that the requester reaches, with the size and alignment of that area (01 R13, 02 R30). -/
def AccessOk (rq : Requester) (wr : Bool) (size : Nat) (a : Word) : Prop :=
  ∃ ar, areaOf a.toNat = some ar ∧ reach rq wr ar = true ∧ sizeOk ar size a.toNat = true

theorem not_accessOk_iff {rq : Requester} {wr : Bool} {size : Nat} {a : Word} :
    ¬ AccessOk rq wr size a ↔
      ∀ ar, areaOf a.toNat = some ar → reach rq wr ar = true → sizeOk ar size a.toNat = false := by
  simp [AccessOk]

theorem not_burst_of_sizeOk {ar : Area} {size a : Nat} (h : sizeOk ar size a = true) : isBurst size = false := by
  have hsize : size = 1 ∨ size = 2 ∨ size = 4 := by
    cases ar <;> simp only [sizeOk, Bool.and_eq_true, Bool.or_eq_true, beq_iff_eq] at h <;> omega
  rcases hsize with rfl | rfl | rfl <;> rfl

/-- A burst that is performed stays in one memory region, from a beat on. -/
theorem burstOk_iff {rq : Requester} {wr : Bool} {size : Nat} {a : Word} :
    burstOk rq wr size a = true ↔ ∃ ar, (∀ pg, ar ≠ .page pg) ∧ areaOf a.toNat = some ar ∧ reach rq wr ar = true ∧
      a.toNat % 16 = 0 ∧ areaOf (a.toNat + size - 1) = some ar := by
  unfold burstOk
  cases areaOf a.toNat with
  | none => simp
  | some ar => cases ar <;> simp [and_assoc]

/-- The `k`th word of a burst that is performed. -/
theorem accessOk_burst_word {rq : Requester} {wr : Bool} {size k : Nat} {a : Word} (h : burstOk rq wr size a = true)
    (hk : k < size / 4) : AccessOk rq wr 4 (a + BitVec.ofNat 32 (4 * k)) := by
  obtain ⟨ar, hmem, hfirst, hreach, hbeat, hlast⟩ := burstOk_iff.1 h
  have lo := areaSpan_of_areaOf hmem hfirst
  have hi := areaSpan_of_areaOf hmem hlast
  have hend := areaSpan_le ar
  have haddr : (a + BitVec.ofNat 32 (4 * k)).toNat = a.toNat + 4 * k := by
    rw [BitVec.toNat_add, BitVec.toNat_ofNat]
    omega
  have haligned : (a.toNat + 4 * k) % 4 = 0 := by omega
  refine ⟨ar, ?_, hreach, ?_⟩
  · rw [haddr]
    exact areaOf_of_areaSpan (by omega)
  · rw [haddr]
    cases ar <;> simp [sizeOk, haligned]

-- the refusal of an access

/-- What a refused access does: the access error in SYS, and its answer to the requester (01 R13, 02 R31). -/
def State.refuseAccess (s : State) (rq : Requester) (wr : Bool) (a : Word) : State :=
  (s.accessError rq wr a).answer { rq := rq, addr := a, val := 0, err := true }

/-- The address is recorded, if at all, before the error counts in SYS_AERR_INFO and the crossbar fault is raised. -/
theorem refuseAccess_shape (s : State) (rq : Requester) (wr : Bool) (a : Word) :
    ∃ t w, (t = s ∨ t = s.wr R.SYS_AERR_ADDR a) ∧ s.refuseAccess rq wr a =
      ((t.wr R.SYS_AERR_INFO w).raise Pg.sys 0).answer { rq := rq, addr := a, val := 0, err := true } := by
  refine ⟨_, _, ?_, rfl⟩
  split
  · exact .inr rfl
  · exact .inl rfl

/-- With nothing recorded since the last clear, the address, direction and requester are recorded (02 R51). -/
theorem refuseAccess_records {s : State} (h : s.rd R.SYS_AERR_INFO = 0) (rq : Requester) (wr : Bool) (a : Word) :
    (s.refuseAccess rq wr a).rd R.SYS_AERR_ADDR = a ∧ (s.refuseAccess rq wr a).rd R.SYS_AERR_INFO =
      BitVec.ofNat 32 (65536 + 256 * wr.toNat + requesterCode rq) := by
  have hlow : 65536 + (wr.toNat * 256 + requesterCode rq) = 65536 + 256 * wr.toNat + requesterCode rq := by omega
  have hregs : (s.refuseAccess rq wr a).regs = ((s.wr R.SYS_AERR_ADDR a).wr R.SYS_AERR_INFO
      (BitVec.ofNat 32 (65536 + 256 * wr.toNat + requesterCode rq))).regs := by
    simp [State.refuseAccess, State.accessError, h, wbits, bitsN, hlow]
  have hother : R.SYS_AERR_ADDR.addr 0 0 ≠ R.SYS_AERR_INFO.addr 0 0 := by decide
  constructor
  · rw [State.rd, hregs]
    exact (rd_wr_ne _ _ hother).trans (rd_wr_same s R.SYS_AERR_ADDR a 0 0)
  · rw [State.rd, hregs]
    exact rd_wr_same _ _ _ _ _

theorem keepOuter_refuseAccess (s : State) (rq : Requester) (wr : Bool) (a : Word) :
    s.keepOuter (s.refuseAccess rq wr a) = s.refuseAccess rq wr a := by
  obtain ⟨t, w, ht, he⟩ := refuseAccess_shape s rq wr a
  apply keepOuter_eq <;> rw [he] <;> rcases ht with rfl | rfl <;> rfl

theorem sameRegs_refuseAccess (s : State) (rq : Requester) (wr : Bool) (a : Word) :
    SameRegsBut [R.SYS_AERR_ADDR.addr 0 0, R.SYS_AERR_INFO.addr 0 0] s (s.refuseAccess rq wr a) := by
  obtain ⟨t, w, ht, he⟩ := refuseAccess_shape s rq wr a
  have haddr : SameRegsBut [R.SYS_AERR_ADDR.addr 0 0] s t := by
    rcases ht with rfl | rfl
    · exact .refl _ _
    · exact sameRegs_wr _ _ _ _ _
  intro x d hx
  simp only [List.mem_cons, List.not_mem_nil, or_false, not_or] at hx
  obtain ⟨hx1, hx2⟩ := hx
  rw [he]
  exact (sameRegs_wr t R.SYS_AERR_INFO w 0 0 x d (by simpa using hx2)).trans (haddr x d (by simpa using hx1))

theorem refuseAccess_frame (s : State) (rq : Requester) (wr : Bool) (a : Word) :
    (s.refuseAccess rq wr a).mem = s.mem ∧ (s.refuseAccess rq wr a).bus.posted = s.bus.posted ∧
    (s.refuseAccess rq wr a).reports = s.reports ++ [{ page := Pg.sys, k := 0, at_ := s.time }] := by
  obtain ⟨t, w, ht, he⟩ := refuseAccess_shape s rq wr a
  rw [he]
  rcases ht with rfl | rfl <;> exact ⟨rfl, rfl, rfl⟩

theorem accessRefused_refuseAccess (s : State) (rq : Requester) (wr : Bool) (a : Word) :
    AccessRefused rq wr a s (s.refuseAccess rq wr a) := by
  obtain ⟨hmem, hposted, hreports⟩ := refuseAccess_frame s rq wr a
  exact ⟨hmem, sameRegs_refuseAccess s rq wr a, hposted, rfl, hreports, fun h => refuseAccess_records h rq wr a⟩

section
variable {s : State} {rq : Requester} {size : Nat} {a : Word}

theorem busWrite_refused (h : ¬ AccessOk rq true size a) (keyed : Bool) (v : Word) :
    s.busWrite rq keyed size a v = (s.accessError rq true a, false) := by
  rw [not_accessOk_iff] at h
  unfold State.busWrite
  cases harea : areaOf a.toNat with
  | none => rfl
  | some ar => exact if_neg (by simpa using h ar harea)

theorem busRead_refused (h : ¬ AccessOk rq false size a) :
    s.busRead rq size a = (s.accessError rq false a, { rq := rq, addr := a, val := 0, err := true }) := by
  rw [not_accessOk_iff] at h
  unfold State.busRead
  cases harea : areaOf a.toNat with
  | none => simp [harea]
  | some ar =>
    have hrefused : (reach rq false ar && sizeOk ar size a.toNat) = false := by simpa using h ar harea
    simp [harea, hrefused]

theorem writeAnswer_refused (h : ¬ AccessOk rq true size a) (keyed : Bool) (v : Word) :
    s.writeAnswer rq keyed size a v = s.refuseAccess rq true a := by
  rw [State.writeAnswer, busWrite_refused h]
  rfl

theorem readAnswer_refused (h : ¬ AccessOk rq false size a) : s.readAnswer rq size a = s.refuseAccess rq false a := by
  rw [State.readAnswer, busRead_refused h]
  rfl

theorem burstWrite_refused (h : burstOk rq true size a = false) (l : List Word) :
    s.burstWrite rq size a l = s.refuseAccess rq true a :=
  if_neg (by simp [h])

theorem burstRead_refused (h : burstOk rq false size a = false) : s.burstRead rq size a = s.refuseAccess rq false a :=
  if_pos (.inl (by simp [h]))

-- posting

/-- Writes wait behind the ones posted before (01 R18). -/
def State.post (s : State) (l : List Posted) : State :=
  { s with bus := { s.bus with posted := s.bus.posted ++ l } }

@[simp] theorem post_nil (s : State) : s.post [] = s := by
  simp [State.post]

theorem post_post (s : State) (l m : List Posted) : (s.post l).post m = s.post (l ++ m) := by
  simp [State.post]

@[simp] theorem keepOuter_post (s : State) (l : List Posted) : s.keepOuter (s.post l) = s.post l := rfl

theorem writeAnswer_posts (h : AccessOk rq true size a) (keyed : Bool) (v : Word) :
    s.writeAnswer rq keyed size a v = s.post [{ rq := rq, addr := a, val := v, size := size, keyed := keyed }] := by
  obtain ⟨ar, harea, hreach, hsize⟩ := h
  simp [State.writeAnswer, State.busWrite, State.post, harea, hreach, hsize]

/-- Words of a burst from `a`, each with its place, are posted in their order. -/
theorem foldl_writeAnswer_posts (s : State) (l : List (Word × Nat))
    (h : ∀ x ∈ l, AccessOk rq true 4 (a + BitVec.ofNat 32 (4 * x.2))) :
    l.foldl (fun s (x : Word × Nat) => s.writeAnswer rq false 4 (a + BitVec.ofNat 32 (4 * x.2)) x.1) s =
      s.post (l.map fun x => { rq := rq, addr := a + BitVec.ofNat 32 (4 * x.2), val := x.1, size := 4 }) := by
  induction l generalizing s with
  | nil => simp
  | cons x l ih =>
    obtain ⟨hx, hl⟩ := List.forall_mem_cons.1 h
    rw [List.foldl_cons, writeAnswer_posts hx, ih _ hl, post_post]
    rfl

theorem burstWrite_posts (h : burstOk rq true size a = true) (l : List Word) :
    s.burstWrite rq size a l = s.post ((l.take (size / 4)).zipIdx.map fun x =>
      { rq := rq, addr := a + BitVec.ofNat 32 (4 * x.2), val := x.1, size := 4 }) := by
  rw [State.burstWrite, if_pos h, foldl_writeAnswer_posts]
  intro x hx
  have hplace : x.2 < (l.take (size / 4)).length := by simpa using List.snd_lt_of_mem_zipIdx hx
  exact accessOk_burst_word h (lt_of_lt_of_le hplace (List.length_take_le _ _))

-- working RAM

theorem readAnswer_wram (harea : areaOf a.toNat = some .wram) (hreach : reach rq false .wram = true)
    (hsize : sizeOk .wram size a.toNat = true) (hposted : s.bus.posted = []) :
    s.readAnswer rq size a =
      s.answer { rq := rq, addr := a, val := BitVec.ofNat 32 (leNat (s.bytes a.toNat size)) } := by
  simp [State.readAnswer, State.busRead, harea, hreach, hsize, settleWrites_nil hposted]

end

/-- The oldest posted write of all takes effect at its area, and the later ones still wait (01 R18). -/
theorem takeEffect_oldest {s : State} {x : Posted} {l : List Posted} {ar : Area} (h : s.bus.posted = x :: l)
    (harea : areaOf x.addr.toNat = some ar) :
    s.takeEffect x.rq ar = State.perform { s with bus := { s.bus with posted := l } } x := by
  simp [State.takeEffect, h, List.span, List.span.loop, harea]

theorem perform_wram (s : State) {x : Posted} (h : areaOf x.addr.toNat = some .wram) :
    s.perform x = s.setBytes x.addr.toNat (natBytes x.size x.val.toNat) := by
  simp [State.perform, h]

@[simp] theorem setBytes_regs (s : State) (a : Nat) (l : List Byte) : (s.setBytes a l).regs = s.regs := by rw [setBytes_eq]
@[simp] theorem setBytes_pages (s : State) (a : Nat) (l : List Byte) : (s.setBytes a l).pages = s.pages := by rw [setBytes_eq]
@[simp] theorem setBytes_bus (s : State) (a : Nat) (l : List Byte) : (s.setBytes a l).bus = s.bus := by rw [setBytes_eq]

@[simp] theorem length_natBytes (n v : Nat) : (natBytes n v).length = n := by
  induction n generalizing v with
  | zero => rfl
  | succ n ih => simp [natBytes, ih]

theorem getElem_natBytes {n k : Nat} (v : Nat) (h : k < (natBytes n v).length) :
    (natBytes n v)[k] = BitVec.ofNat 8 (v / 256 ^ k) := by
  induction n generalizing v k with
  | zero => simp at h
  | succ n ih =>
    cases k with
    | zero => simp [natBytes]
    | succ k => simp [natBytes, ih, Nat.div_div_eq_div_mul, Nat.pow_succ']

-- the commands

theorem whenMay_reached {rq : Requester} {a : Word} {s : State} (hup : s.Up) (hmay : s.mayAccess rq a = true)
    (f : State → State) : whenMay rq a s f = .next (s.keepOuter (f s)) := by
  rw [whenMay, whenUp_up hup, if_pos hmay]

/-- With the chip up, for a requester that may access: a burst, or a single access. -/
theorem exec_crossbarAccess {s : State} {rq : Requester} {a : Word} (hup : s.Up) (hmay : s.mayAccess rq a = true)
    (wr : Bool) (size : Nat) (v : Word) (l : List Word) :
    exec (.crossbarAccess rq wr size a v l) s = .next (s.keepOuter (
      if isBurst size then (if wr then s.burstWrite rq size a (v :: l) else s.burstRead rq size a)
      else if wr then s.writeAnswer rq false size a v else s.readAnswer rq size a)) := by
  have hexec : exec (.crossbarAccess rq wr size a v l) s = execCrossbarAccess rq wr size a v s l := rfl
  rw [hexec, execCrossbarAccess, whenMay_reached hup hmay]

/-- A register write whose address the crossbar refuses goes the way of every other crossbar write. -/
theorem exec_registerWrite_refused {s : State} {rq : Requester} {a : Word} (hup : s.Up)
    (hmay : s.mayAccess rq a = true) (h : ¬ AccessOk rq true 4 a) (v : Word) :
    exec (.registerWrite rq a v) s = .next (s.refuseAccess rq true a) := by
  rw [exec_registerWrite, execRegisterWrite, whenWrite, whenMay_reached hup hmay, writeAnswer_refused h]
  split
  · next pg harea =>
    have hreaches : ¬ reaches rq true a = true := fun hr => h ⟨.page pg, harea, by
      simp only [reaches, harea, Bool.and_eq_true] at hr
      simp [sizeOk, hr.1, hr.2]⟩
    rw [if_pos hreaches, keepOuter_refuseAccess]
  · rw [keepOuter_refuseAccess]

theorem exec_crossbarAccess_refused {s : State} {rq : Requester} {wr : Bool} {size : Nat} {a : Word} (hup : s.Up)
    (hmay : s.mayAccess rq a = true)
    (h : if isBurst size then burstOk rq wr size a = false else ¬ AccessOk rq wr size a) (v : Word) (l : List Word) :
    exec (.crossbarAccess rq wr size a v l) s = .next (s.refuseAccess rq wr a) := by
  have hrefused : (if isBurst size then (if wr then s.burstWrite rq size a (v :: l) else s.burstRead rq size a)
      else if wr then s.writeAnswer rq false size a v else s.readAnswer rq size a) = s.refuseAccess rq wr a := by
    split at h
    · next hburst =>
      rw [if_pos hburst]
      cases wr
      case true => exact burstWrite_refused h (v :: l)
      case false => exact burstRead_refused h
    · next hsingle =>
      rw [if_neg hsingle]
      cases wr
      case true => exact writeAnswer_refused h false v
      case false => exact readAnswer_refused h
  rw [exec_crossbarAccess hup hmay, hrefused, keepOuter_refuseAccess]

theorem exec_aerrClear {s : State} (hup : s.Up) (v : Word) :
    exec (.aerrClear v) s = .next (s.keepOuter (s.aerrClear v)) :=
  whenUp_up hup _

theorem exec_writeTakesEffect {s : State} {a : Word} {ar : Area} (hup : s.Up) (harea : areaOf a.toNat = some ar)
    (rq : Requester) : exec (.writeTakesEffect rq a) s = .next (s.keepOuter (s.takeEffect rq ar)) := by
  have hexec : exec (.writeTakesEffect rq a) s = execWriteTakesEffect rq a s := rfl
  rw [hexec, execWriteTakesEffect, whenUp_up hup, harea]

end Sys2Proof.Machine

open Sys2Proof Sys2Proof.Machine

/-- Settles O10: the write, and each word of the burst, is one that the crossbar posts. -/
theorem crossbarWritePosts : Obligations.CrossbarWritePosts := by
  unfold Obligations.CrossbarWritePosts
  intro s rq size a v l ar hup hmay
  rw [exec_crossbarAccess hup hmay]
  refine ⟨fun harea hreach hsize => ?_, fun hburst hok => ?_⟩
  · rw [not_burst_of_sizeOk hsize]
    exact congrArg (fun t => Host.Outcome.next (s.keepOuter t)) (writeAnswer_posts ⟨ar, harea, hreach, hsize⟩ false v)
  · rw [hburst]
    exact congrArg (fun t => Host.Outcome.next (s.keepOuter t)) (burstWrite_posts hok (v :: l))

/-- Settles O11: every refusal is `State.refuseAccess`. -/
theorem crossbarRefusesOutsideReach : Obligations.CrossbarRefusesOutsideReach := by
  unfold Obligations.CrossbarRefusesOutsideReach
  simp only [← not_accessOk_iff]
  intro s a v hup
  refine ⟨fun rq wr size l hmay h => ?_, fun rq hmay h => ?_, ?_, fun hv => ?_⟩
  · exact ⟨_, exec_crossbarAccess_refused hup hmay h v l, accessRefused_refuseAccess s rq wr a⟩
  · exact ⟨_, exec_registerWrite_refused hup hmay h v, accessRefused_refuseAccess s rq true a⟩
  · rw [exec_aerrClear hup]
    rfl
  · rw [exec_aerrClear hup, State.aerrClear, if_neg hv, keepOuter_self]

/-- Settles O12: with nothing posted the read settles nothing, and the oldest of all posted writes is the requester's
oldest to working RAM. -/
theorem workingRamReadsAndWrites : Obligations.WorkingRamReadsAndWrites := by
  unfold Obligations.WorkingRamReadsAndWrites
  intro s hup
  refine ⟨fun rq size a v l harea hreach hmay hsize hposted => ?_, fun x l hposted harea => ?_⟩
  · rw [exec_crossbarAccess hup hmay, not_burst_of_sizeOk hsize]
    exact congrArg (fun t => Host.Outcome.next (s.keepOuter t)) (readAnswer_wram harea hreach hsize hposted)
  · refine ⟨_, exec_writeTakesEffect hup harea x.rq, ?_⟩
    rw [takeEffect_oldest hposted harea, perform_wram _ harea]
    refine ⟨?_, setBytes_regs _ _ _, setBytes_pages _ _ _, fun b hb => ?_, fun k hk => ?_⟩
    · simp [State.keepOuter]
    · exact byte_setBytes_out _ _ _ (by simpa using hb)
    · exact (byte_setBytes_in _ _ _ (by simpa using hk)).trans (getElem_natBytes _ _)

end

section
/-! SUPPORT. The guards of the commands, and the state after reset; what they say of O2 and O7. -/

namespace Sys2Proof.Machine

/-- The guards under which the meanings of commands run (log entries 5 and 6). -/
inductive Guarded (s : State) : Res → Prop where
  | up (f : State → State) : Guarded s (whenUp s f)
  | page (pg : PageIx) (f : State → State) : Guarded s (whenPage pg s f)
  | access (rq : Requester) (a : Word) (f : State → State) : Guarded s (whenMay rq a s f)
  | write (rq : Requester) (a v : Word) (f : State → State) : Guarded s (whenWrite rq a v s f)
  | outer (t : State) : Guarded s (.next (s.keepOuter t))
  | queue (t : State) : Guarded s (.next (s.keepQueue t))

theorem exec_guarded (c : Instr) (s : State) : Guarded s (exec c s) := by
  cases c <;> constructor

/-- Under each guard a command answers a next state, and the queue is as it was. -/
theorem Guarded.keeps_pending {s : State} {r : Res} (h : Guarded s r) : ∃ t, r = .next t ∧ t.pending = s.pending := by
  have guarded (f : State → State) : ∃ t, whenUp s f = .next t ∧ t.pending = s.pending := by
    obtain ⟨t, h, hp, -⟩ := whenUp_outer s f
    exact ⟨t, h, hp⟩
  cases h with
  | up f => exact guarded f
  | page pg f => exact guarded _
  | access rq a f => exact guarded _
  | write rq a v f => exact guarded _
  | outer t => exact ⟨_, rfl, rfl⟩
  | queue t => exact ⟨_, rfl, rfl⟩

end Sys2Proof.Machine

open Sys2Proof Sys2Proof.Machine

/-- Settles O2: every command's meaning answers a next state under a guard that keeps the queue. -/
theorem queueFirstInFirstOut : Obligations.QueueFirstInFirstOut := by
  unfold Obligations.QueueFirstInFirstOut
  intro s
  refine ⟨fun c l h => ?_, fun h hup => ?_⟩
  · obtain ⟨t, hexec, hpending⟩ := (exec_guarded c { s with pending := l }).keeps_pending
    exact ⟨t, by simpa [step, h] using hexec, hpending⟩
  · simp only [step, h, State.idleTick]
    rw [if_pos hup]

/-- Settles O7: each part of the reset state is written out in its definition. -/
theorem resetState : Obligations.ResetState := by
  unfold Obligations.ResetState
  refine ⟨fun i => ?_, rfl, rfl, rfl, rfl, rfl, rfl, fun q => ?_, rfl, fun u => ?_⟩
  · simp only [State.reset, State.page, PageSt.reset, Fin.getElem_fin, Vector.getElem_ofFn]
    split <;> rfl
  · simp [State.reset, State.q]
  · simp [State.reset, State.ua]

end

section
/-! SUPPORT. Reads and writes of register pages by a requester with nothing posted, and the register pairs (02 R46, R47);
what that says of O13 and O14. -/

namespace Sys2Proof.Machine

@[simp] theorem snapOf_setSnap_same (s : State) (rq : Requester) (x : Option Snap) : (s.setSnap rq x).snapOf rq = x := by
  cases x with
  | some v => simp [State.snapOf, State.setSnap]
  | none => simp [State.snapOf, State.setSnap, List.find?_filter]

@[simp] theorem keepOuter_snapOf (s t : State) (rq : Requester) : (s.keepOuter t).snapOf rq = t.snapOf rq := rfl

@[simp] theorem answer_snapOf (s : State) (rq : Requester) (x : Answer) : (s.answer x).snapOf rq = s.snapOf rq := rfl

theorem pageOf_of_areaOf {a : Nat} {pg : PageIx} (h : areaOf a = some (.page pg)) : pageOf a = some pg := by
  unfold areaOf at h
  repeat' split at h
  case isFalse.isFalse.isFalse.isFalse.isFalse => simpa using h
  all_goals cases h

/-- The page that a register access reaches. -/
theorem reaches_page {rq : Requester} {wr : Bool} {a : Word} (h : reaches rq wr a = true) :
    ∃ pg, areaOf a.toNat = some (.page pg) ∧ pageOf a.toNat = some pg ∧ reach rq wr (.page pg) = true ∧ a.toNat % 4 = 0 := by
  unfold reaches at h
  split at h
  · next pg harea =>
    simp only [Bool.and_eq_true, beq_iff_eq] at h
    exact ⟨pg, harea, pageOf_of_areaOf harea, h.2, h.1⟩
  · cases h

/-- A read of a register page, with nothing posted, is the page's. -/
theorem readAnswer_page {s : State} {rq : Requester} {a : Word} (h : reaches rq false a = true) (hposted : s.bus.posted = []) :
    s.readAnswer rq 4 a = (s.regRead rq a.toNat).1.answer { rq := rq, addr := a, val := (s.regRead rq a.toNat).2 } := by
  obtain ⟨pg, harea, -, hreach, halign⟩ := reaches_page h
  simp [State.readAnswer, State.busRead, harea, hreach, sizeOk, halign, settleWrites_nil hposted]

/-- A read of a LO half (02 R46). -/
theorem regRead_lo {s : State} {pg : PageIx} {r hi : Reg} {a i j : Nat} (rq : Requester)
    (hp : pageOf a = some pg) (ho : ¬ a - pageBase pg < 0x40) (hf : findReg (pageRegs pg) a = some (r, i, j))
    (hh : r.hiHalf = some hi) :
    s.regRead rq a = ((s.readTakes pg r).setSnap rq (some (.hi (a + 4) (s.regWord rq pg hi i j))), s.regWord rq pg r i j) := by
  simp [State.regRead, hp, ho, hf, hh]

/-- A read of a HI half whose pair the slot holds (02 R46). -/
theorem regRead_hi_held {s : State} {pg : PageIx} {r : Reg} {a i j : Nat} {rq : Requester} {v : Word}
    (hp : pageOf a = some pg) (ho : ¬ a - pageBase pg < 0x40) (hf : findReg (pageRegs pg) a = some (r, i, j))
    (hl : r.hiHalf = none) (hh : r.isHi = true) (hs : s.snapOf rq = some (.hi a v)) :
    s.regRead rq a = (s.setSnap rq none, v) := by
  simp [State.regRead, hp, ho, hf, hl, hh, hs]

/-- With nothing posted, a register write that reaches an open page acts there. -/
theorem whenWrite_open {s : State} {rq : Requester} {a : Word} {pg : PageIx} (v : Word) (f : State → State)
    (ha : areaOf a.toNat = some (.page pg)) (ho : s.Open pg) (hw : s.WritesAt rq a) :
    whenWrite rq a v s f = .next (s.keepOuter (f s)) := by
  obtain ⟨hup, hopen⟩ := ho
  obtain ⟨hmay, hreach, hposted⟩ := hw
  have settled : s.settleBefore rq a.toNat pg = s := by
    simp [State.settleBefore, settleWrites_nil hposted]
  rw [whenWrite, whenMay_reached hup hmay]
  simp only [ha, hreach, settled, not_true_eq_false, if_false, if_neg hopen]

/-- A write of the LO half of a writable pair. -/
theorem regWrite_lo {s : State} {pg : PageIx} {r : Reg} {a i j : Nat} (rq : Requester) (keyed : Bool) (v : Word)
    (hp : pageOf a = some pg) (hs : (s.page pg).st ≠ .resetting) (ho : ¬ a - pageBase pg < 0x40)
    (hf : findReg (pageRegs pg) a = some (r, i, j)) (hl : r.isPairLo = true) :
    s.regWrite rq keyed a v = s.loWriteHold rq keyed r i a v := by
  simp [State.regWrite, hp, hs, ho, hf, hl]

/-- A write of the HI half of a writable pair. -/
theorem regWrite_hi {s : State} {pg : PageIx} {r : Reg} {a i j : Nat} (rq : Requester) (keyed : Bool) (v : Word)
    (hp : pageOf a = some pg) (hs : (s.page pg).st ≠ .resetting) (ho : ¬ a - pageBase pg < 0x40)
    (hf : findReg (pageRegs pg) a = some (r, i, j)) (hl : r.isPairLo = false) (hh : r.isPairHi = true) :
    s.regWrite rq keyed a v = s.hiWritePair rq keyed r i a v := by
  simp [State.regWrite, hp, hs, ho, hf, hl, hh]

theorem SameRegsBut.wr {l : List Nat} {s t : State} {r : Reg} {i j : Nat} (h : SameRegsBut l s t) (v : Word)
    (hl : r.addr i j ∈ l) : SameRegsBut l s (t.wr r v i j) := fun a d ha =>
  (sameRegs_wr t r v i j a d (by simpa using fun e : a = r.addr i j => ha (e ▸ hl))).trans (h a d ha)

/-- The tag of a mailbox that is not busy is written, with the LO half where one is held (16 R428). -/
theorem tagWrite_idle {s : State} (hb : s.flag F.SEC_MBm_CTL_BUSY 0 = false) (lo : Option Word) (hi : Word) :
    s.tagWrite .spt 0 lo hi = (lo.elim s fun l => s.wr R.SEC_MBm_TAG_LO l).wr R.SEC_MBm_TAG_HI hi := by
  unfold State.tagWrite
  rw [if_neg (by simp [mailboxRq, hb])]
  cases lo <;> rfl

section
variable {s : State} (ho : s.Open Pg.sec) (hposted : s.bus.posted = [])
include ho hposted

theorem exec_loWriteHold_tag (hb : s.flag F.SEC_MBm_CTL_BUSY 0 = false) (v : Word) :
    exec (.loWriteHold .spt 0x40051218 v) s = .next (s.setSnap .spt (some (.lo 0x40051218 v))) := by
  have hexec : exec (.loWriteHold .spt 0x40051218 v) s = whenWrite .spt 0x40051218 v s fun s =>
    if regIs Reg.isPairLo 0x40051218 then s.regWrite .spt true (0x40051218 : Word).toNat v else s := rfl
  have hwrite : s.regWrite .spt true (0x40051218 : Word).toNat v = s.loWriteHold .spt true R.SEC_MBm_TAG_LO 0 0x40051218 v :=
    regWrite_lo (pg := Pg.sec) (i := 0) (j := 0) .spt true v (by decide +kernel) ho.2 (by decide) (by decide +kernel) (by decide)
  have hheld : s.loWriteHold .spt true R.SEC_MBm_TAG_LO 0 0x40051218 v = s.setSnap .spt (some (.lo 0x40051218 v)) :=
    if_neg (by simp [hb, mailboxRq])
  rw [hexec, whenWrite_open v _ (pg := Pg.sec) (by decide +kernel) ho ⟨rfl, by decide +kernel, hposted⟩,
    if_pos (by decide +kernel), hwrite, hheld]
  rfl

theorem exec_hiWritePair_tag (w : Word) : exec (.hiWritePair .spt 0x4005121C w) s =
    .next (s.keepOuter (s.hiWritePair .spt true R.SEC_MBm_TAG_HI 0 0x4005121C w)) := by
  have hexec : exec (.hiWritePair .spt 0x4005121C w) s = whenWrite .spt 0x4005121C w s fun s =>
    if regIs Reg.isPairHi 0x4005121C then s.regWrite .spt true (0x4005121C : Word).toNat w else s := rfl
  have hwrite : s.regWrite .spt true (0x4005121C : Word).toNat w = s.hiWritePair .spt true R.SEC_MBm_TAG_HI 0 0x4005121C w :=
    regWrite_hi (pg := Pg.sec) (i := 0) (j := 0) .spt true w (by decide +kernel) ho.2 (by decide) (by decide +kernel) (by decide) (by decide)
  rw [hexec, whenWrite_open w _ (pg := Pg.sec) (by decide +kernel) ho ⟨rfl, by decide +kernel, hposted⟩,
    if_pos (by decide +kernel), hwrite]
end

end Sys2Proof.Machine

open Sys2Proof Sys2Proof.Machine

/-- Settles O13: both commands are reads of a register page. -/
theorem pairReadIsOneInstant : Obligations.PairReadIsOneInstant := by
  unfold Obligations.PairReadIsOneInstant
  intro s rq v hup hlo hhi
  obtain ⟨hmaylo, hreachlo, hposted⟩ := hlo
  obtain ⟨hmayhi, hreachhi, -⟩ := hhi
  constructor
  · have hread : s.regRead rq (0x40000050 : Word).toNat = (s.setSnap rq (some (.hi 0x40000054 ((s.time >>> 32).setWidth 32))), s.timeLo) :=
      regRead_lo rq (pg := Pg.sys) (r := R.SYS_TIME_LO) (i := 0) (j := 0) (by decide +kernel) (by decide) (by decide +kernel) rfl
    have hexec : exec (.loReadSnapshot rq 0x40000050) s = whenMay rq 0x40000050 s fun s =>
      if regIs (fun r => r.hiHalf.isSome) 0x40000050 then s.readAnswer rq 4 0x40000050 else s := rfl
    rw [Gives, hexec, whenMay_reached hup hmaylo, if_pos (by decide +kernel), readAnswer_page hreachlo hposted, hread]
    exact ⟨_, rfl, by simp, rfl, rfl, rfl⟩
  · intro hslot
    have hread : s.regRead rq (0x40000054 : Word).toNat = (s.setSnap rq none, v) :=
      regRead_hi_held (pg := Pg.sys) (r := R.SYS_TIME_HI) (i := 0) (j := 0) (by decide +kernel) (by decide) (by decide +kernel) rfl rfl hslot
    have hexec : exec (.hiRead rq 0x40000054) s = whenMay rq 0x40000054 s fun s =>
      if regIs Reg.isHi 0x40000054 then s.readAnswer rq 4 0x40000054 else s := rfl
    rw [Gives, hexec, whenMay_reached hup hmayhi, if_pos (by decide +kernel), readAnswer_page hreachhi hposted, hread]
    exact ⟨_, rfl, by simp, rfl, rfl, rfl⟩

/-- Settles O14: the slot holds the low half until the high half comes. -/
theorem pairWriteIsOneStep : Obligations.PairWriteIsOneStep := by
  unfold Obligations.PairWriteIsOneStep
  intro s v w ho hb hposted
  refine ⟨⟨_, exec_loWriteHold_tag ho hposted hb v, snapOf_setSnap_same s .spt _, rfl, rfl⟩, fun hslot => ?_, fun hslot => ?_⟩
  · have hpair : s.hiWritePair .spt true R.SEC_MBm_TAG_HI 0 0x4005121C w =
        ((s.setSnap .spt none).wr R.SEC_MBm_TAG_LO v).wr R.SEC_MBm_TAG_HI w := by
      have hheld : s.heldLo .spt 0x4005121C = some v := by simp [State.heldLo, hslot]
      simp only [State.hiWritePair, hheld]
      exact tagWrite_idle (s := s.setSnap .spt none) hb (some v) w
    have hne : R.SEC_MBm_TAG_LO.addr 0 0 ≠ R.SEC_MBm_TAG_HI.addr 0 0 := by decide
    refine ⟨_, exec_hiWritePair_tag ho hposted w, ?_⟩
    rw [hpair]
    refine ⟨snapOf_setSnap_same s .spt none, ?_, rd_wr_same _ _ _ _ _, ?_, rfl⟩
    · exact (rd_wr_ne _ w hne).trans (rd_wr_same _ _ _ _ _)
    · have hsnap : SameRegsBut [0x40051218, 0x4005121C] s (s.setSnap .spt none) := .refl _ s
      exact (hsnap.wr v (by decide)).wr w (by decide)
  · have hpair : s.hiWritePair .spt true R.SEC_MBm_TAG_HI 0 0x4005121C w = s.wr R.SEC_MBm_TAG_HI w := by
      have hheld : s.heldLo .spt 0x4005121C = none := by simp [State.heldLo, hslot]
      simp only [State.hiWritePair, hheld]
      exact tagWrite_idle hb none w
    rw [exec_hiWritePair_tag ho hposted, hpair]
    rfl

end

section
/-! SUPPORT. The commands of the block states, and register writes while a page is RESETTING (02 R37); what that says of
O16. -/

namespace Sys2Proof.Machine

-- the commands of the block states and of commits

section
variable (pg : PageIx) (s : State)
theorem exec_blockEnable : exec (.blockEnable pg) s = whenPage pg s fun s => s.blockEnable pg := rfl
theorem exec_blockDrain : exec (.blockDrain pg) s = whenPage pg s fun s => s.blockDrain pg := rfl
theorem exec_drainComplete : exec (.drainComplete pg) s = whenUp s fun s => s.drainComplete pg := rfl
theorem exec_blockSrst : exec (.blockSrst pg) s = whenPage pg s fun s => s.blockSrst pg := rfl
theorem exec_resetComplete : exec (.resetComplete pg) s = whenUp s fun s => s.resetComplete pg := rfl
theorem exec_pgCommit : exec (.pgCommit pg) s = whenPage pg s fun s => if hasSet pg then s.pgCommit pg else s := rfl
theorem exec_pgFltForce (bits : Word) : exec (.pgFltForce pg bits) s = whenPage pg s fun s => s.pgForce pg bits := rfl
end

theorem blockEnable_draining {s : State} {pg : PageIx} (h : (s.page pg).st = .draining) :
    s.blockEnable pg = s.modPage pg fun x => { x with en := true } := by
  simp [State.blockEnable, h]

/-- While the page is RESETTING a write of it is discarded (02 R37). -/
theorem whenPage_resetting {s : State} {pg : PageIx} (hup : s.Up) (h : (s.page pg).st = .resetting) (f : State → State) :
    whenPage pg s f = .next s := by
  rw [whenPage, whenUp_up hup, if_pos h, keepOuter_self]

theorem areaOf_of_reaches {rq : Requester} {wr : Bool} {a : Word} {pg : PageIx} (h : reaches rq wr a = true)
    (hp : pageOf a.toNat = some pg) : areaOf a.toNat = some (.page pg) := by
  obtain ⟨pg', harea, hpage, -⟩ := reaches_page h
  rw [harea, ← Option.some_inj.1 (hpage.symm.trans hp)]

theorem exec_registerWrite_resetting {s : State} {pg : PageIx} (hup : s.Up) (h : (s.page pg).st = .resetting)
    {rq : Requester} {a : Word} (hp : pageOf a.toNat = some pg) (hw : s.WritesAt rq a) (v : Word) :
    exec (.registerWrite rq a v) s = .next s := by
  obtain ⟨hmay, hreach, hposted⟩ := hw
  have settled : s.settleBefore rq a.toNat pg = s := by
    simp [State.settleBefore, settleWrites_nil hposted]
  rw [exec_registerWrite, execRegisterWrite, whenWrite, whenMay_reached hup hmay]
  simp only [areaOf_of_reaches hreach hp, hreach, settled, not_true_eq_false, if_false, if_pos h, keepOuter_self]

/-- The address of PG_CTRL of a page (02 R37). -/
theorem ctrlAddr (pg : PageIx) : (BitVec.ofNat 32 (pageBase pg + 4)).toNat = pageBase pg + 4 ∧
    pageOf (pageBase pg + 4) = some pg := by
  revert pg
  decide +kernel

theorem regWrite_ctrl {s : State} {pg : PageIx} (h : (s.page pg).st ≠ .resetting) (rq : Requester) (keyed : Bool) (v : Word) :
    s.regWrite rq keyed (pageBase pg + 4) v = s.ctrlWrite pg v := by
  simp [State.regWrite, (ctrlAddr pg).2, h, State.headerWrite]

/-- SRST wins over EN (02 R37). -/
theorem ctrlWrite_srst {s : State} {pg : PageIx} {v : Word} (hblk : blk pg ≠ .fixed) (hsrst : v.getLsbD 1 = true)
    (hack : v.getLsbD 2 = false) : s.ctrlWrite pg v = s.blockSrst pg := by
  simp only [State.ctrlWrite, hsrst, hack, hblk, ne_eq, not_false_eq_true, and_self, if_true, Bool.false_eq_true, if_false]

end Sys2Proof.Machine

open Sys2Proof Sys2Proof.Machine

/-- Settles O16: a page that is RESETTING discards every write, and a write of PG_CTRL with SRST is the block reset. -/
theorem drainingAndResetting : Obligations.DrainingAndResetting := by
  unfold Obligations.DrainingAndResetting
  intro s pg hup
  refine ⟨fun hst => ?_, fun hst rq bits v a => ?_, fun hst hblk rq v a ha hw hsrst hack => ?_⟩
  · have hopen : s.Open pg := ⟨hup, by simp [hst]⟩
    rw [exec_blockEnable, whenPage_open hopen, blockEnable_draining hst]
    rfl
  · rw [exec_blockEnable, exec_blockDrain, exec_blockSrst, exec_pgCommit, exec_pgFltForce]
    have discarded (f : State → State) : whenPage pg s f = .next s := whenPage_resetting hup hst f
    refine ⟨discarded _, discarded _, discarded _, discarded _, discarded _,
      fun hp hw => exec_registerWrite_resetting hup hst hp hw v, fun hp hr => ?_⟩
    obtain ⟨hmay, hreach, hposted⟩ := hr
    refine ⟨_, exec_crossbarAccess hup hmay false 4 v [], ?_⟩
    rw [show isBurst 4 = false from rfl, readAnswer_page hreach hposted]
    rfl
  · subst ha
    obtain ⟨haddr, hpage⟩ := ctrlAddr pg
    have hopen : s.Open pg := ⟨hup, hst⟩
    have harea := areaOf_of_reaches hw.2.1 (haddr ▸ hpage)
    rw [exec_registerWrite_open v harea hopen hw, haddr, regWrite_ctrl hst, ctrlWrite_srst hblk hsrst hack, exec_blockSrst,
      whenPage_open hopen]

end

section
/-! SUPPORT. The SAT counters of the register tables (02 R48): where they lie and what a write does to them; what that says
of O9. -/

namespace Sys2Proof.Machine

-- the SAT counters of the register tables

/-- The registers, SYS_AERR_INFO apart, whose write goes by more than their access types. -/
def ownEffect : List Reg :=
  [R.SYS_SWRST, R.LCS_TRANS, R.LCS_OWNTRANS, R.LCS_KEYPROG, R.FCC_FER_CLR, R.FCC_FORCEj, R.FCC_PENDj, R.FCC_RCFGi,
   R.QMG_Qn_CFG, R.QMG_Qn_RING, R.QMG_Qn_CRING, R.QMG_Qn_DB, R.QMG_Qn_CRD, R.QMG_Qn_RCMD, R.SEQ_EVENT_SET,
   R.SEQ_EVENT_CLR, R.SEQ_BTC_CTL, R.RND_DIR, R.HHE_Pp_CFG, R.HHE_Pp_SRC, R.HHE_Pp_VHFS, R.HHE_Pp_RNOM, R.HHE_Pp_DCFG,
   R.HHE_Pp_PRj_CTL, R.HPn_CFG, R.HPn_POL, R.HPn_PACE, R.HPn_ESYNC, R.HPn_SHUT, R.EHM_EWSEL, R.EHM_RSTCTL,
   R.EHM_Pp_SCAN, R.EHM_Pp_CUR, R.EHM_Pp_OPT, R.EHM_Pp_PRIO, R.MOC_ESTOP, R.MOC_GO, R.AXn_CFG, R.AXn_HOME, R.AXn_ENC,
   R.AXn_GEAR, R.AXn_CMD, R.QEn_CFG, R.ADC_START, R.ADC_FIFO_LVL, R.MED_CALSTART, R.MED_PORTp, R.MED_Uu_CFG,
   R.MED_Uu_LIM, R.CSI_CFG, R.CSI_VCv_CFG, R.VPn_BIND, R.VPn_SNAPCTL, R.VPn_STATCTL, R.VPn_Cx_CFG, R.ICk_CFG, R.ICk_CMD,
   R.FLC_CFG, R.FLC_CMD, R.FLC_WCLR, R.FLC_PWDSTAT, R.FLC_PROTr, R.FLC_WBUFj, R.CSL_RATE, R.CSL_ADDR, R.SEC_CTRL,
   R.SEC_MBm_CTL, R.SEC_MBm_DATAi, R.SEC_MBm_CTR, R.UAn_CFG, R.UAn_BAUD, R.UAn_RXTHR, R.UAn_DATA, R.UAn_ERR]

/-- No SAT counter is among them. -/
theorem sat_not_ownEffect : ∀ pg : PageIx, ∀ r ∈ pageRegs pg, r.sat = true → ∀ x ∈ ownEffect, r.is x = false := by
  decide +kernel

/-- A SAT counter is a whole register, in no pair. -/
theorem sat_whole : ∀ pg : PageIx, ∀ r ∈ pageRegs pg, r.sat = true →
    r.c2 = 1 ∧ r.lastHole = 0 ∧ r.isPairLo = false ∧ r.isPairHi = false := by
  decide +kernel

/-- The SAT counters of SYS and FLC that do more than count. -/
theorem sat_is_iff : ∀ pg : PageIx, ∀ r ∈ pageRegs pg, r.sat = true → ∀ x ∈ [R.SYS_AERR_INFO, R.FLC_CORR0, R.FLC_CORR1],
    r.is x = decide (r = x) := by
  decide +kernel

/-- The early warnings stand beside the counters of FLC only. -/
theorem sat_corr_page : ∀ pg : PageIx, ∀ r ∈ pageRegs pg, r = R.FLC_CORR0 ∨ r = R.FLC_CORR1 → blk pg = .flc := by
  decide +kernel

/-- Each copy of a SAT counter that lies in a page is found there as itself. -/
theorem findReg_sat : ∀ pg : PageIx, ∀ r ∈ pageRegs pg, r.sat = true → ∀ i < r.c1, ∀ j < r.c2,
    pageOf (r.addr i j) = some pg → findReg (pageRegs pg) (r.addr i j) = some (r, i, j) := by
  decide +kernel

/-- It lies above the header of the page (02 R32). -/
theorem sat_above_header : ∀ pg : PageIx, ∀ r ∈ pageRegs pg, r.sat = true → ∀ i < r.c1, ∀ j < r.c2,
    pageOf (r.addr i j) = some pg → pageBase pg + 0x40 ≤ r.addr i j := by
  decide +kernel

/-- The copy of the registers that one page of several alike holds; of the pages that are one of a kind, copy `i` itself. -/
def copyOf (pg : PageIx) (i : Nat) : Nat :=
  match blk pg with
  | .fixed => if pg = Pg.sys then 0 else i
  | .hp p => p.val
  | .ax a => a.val
  | .qe e => e.val
  | .vp v => v.val
  | .csl => 0
  | .ua u => u.val
  | _ => i

theorem sat_copyOf : ∀ pg : PageIx, ∀ r ∈ pageRegs pg, r.sat = true → ∀ i < r.c1,
    pageOf (r.addr i 0) = some pg → copyOf pg i = i := by
  decide +kernel

theorem pageOf_range {a : Nat} {pg : PageIx} (h : pageOf a = some pg) : pageBase pg ≤ a ∧ a < pageBase pg + 0x1000 := by
  have := List.find?_some h
  simpa using this

theorem pageBase_lt (pg : PageIx) : pageBase pg + 0x1000 < 2 ^ 32 := by
  revert pg
  decide


/-- What a write of 0 to a SAT counter does (02 R48, 14 R368). -/
def State.clearSat (s : State) (r : Reg) (i : Nat) : State :=
  let t := s.wr r 0 i
  if r = R.FLC_CORR0 then { t with flc := { t.flc with warned := t.flc.warned.set 0 false } }
  else if r = R.FLC_CORR1 then { t with flc := { t.flc with warned := t.flc.warned.set 1 false } }
  else t

theorem plainWrite_sat {r : Reg} (hs : r.sat = true) (hhole : r.lastHole = 0) (s : State) (keyed : Bool) (i j : Nat) (v : Word) :
    s.plainWrite keyed r i j v = if v = 0 then s.wr r 0 i j else s := by
  have hholds : r.holds j v = v := by
    rw [Reg.holds, hhole]
    split
    · exact BitVec.and_allOnes
    · rfl
  rw [State.plainWrite, hholds, if_pos hs]

section
variable {pg : PageIx} {r : Reg} (hr : r ∈ pageRegs pg) (hs : r.sat = true) (s : State) (rq : Requester)
include hr hs

/-- Each block writes a SAT counter by its access types. -/
theorem blockWrite_sat (hne : r ≠ R.SYS_AERR_INFO) (hflc : blk pg ≠ .flc) (i : Nat) (v : Word) :
    s.blockWrite rq false pg r i 0 v = s.plainWrite false r (copyOf pg i) 0 v := by
  have no := sat_not_ownEffect pg r hr hs
  have hinfo : r.is R.SYS_AERR_INFO = false := by simp [sat_is_iff pg r hr hs, hne]
  unfold State.blockWrite copyOf
  cases hb : blk pg
  case flc => exact absurd hb hflc
  case fixed =>
    by_cases hsys : pg = Pg.sys
    · simp (disch := decide) only [if_pos hsys, State.sysWrite, no, hinfo, Bool.false_eq_true, if_false]
    · simp (disch := decide) only [if_neg hsys, State.lcsWrite, State.fccWrite, no, Bool.false_eq_true, false_and, or_self,
        if_false, ite_self]
  all_goals
    simp (disch := decide) [no, State.qmgWrite, State.seqWrite, State.hheWrite, State.hpWrite, State.ehmWrite,
      State.mocWrite, State.axWrite, State.adcWrite, State.medWrite, State.csiWrite, State.vpWrite, State.icWrite,
      State.cslWrite, State.secWrite, State.uaRegWrite]

theorem blockWrite_sat_flc (hflc : blk pg = .flc) (i : Nat) (v : Word) :
    s.blockWrite rq false pg r i 0 v = if v = 0 then s.clearSat r i else s := by
  have no := sat_not_ownEffect pg r hr hs
  have corr := sat_is_iff pg r hr hs
  obtain ⟨-, hhole, -, -⟩ := sat_whole pg r hr hs
  simp (disch := decide) only [State.blockWrite, hflc, State.flcWrite, no, corr, plainWrite_sat hs hhole, State.clearSat,
    Bool.false_eq_true, false_and, if_false, decide_eq_true_eq]
  by_cases hv : v = 0
  · simp only [hv, and_true, if_true]
  · simp only [hv, and_false, if_false]

/-- A SAT counter takes a write by the rule of 02 R48, whatever its block. -/
theorem blockWrite_clearSat (hne : r ≠ R.SYS_AERR_INFO) {i : Nat} (hi : copyOf pg i = i) (v : Word) :
    s.blockWrite rq false pg r i 0 v = if v = 0 then s.clearSat r i else s := by
  by_cases hflc : blk pg = .flc
  · exact blockWrite_sat_flc hr hs s rq hflc i v
  · obtain ⟨-, hhole, -, -⟩ := sat_whole pg r hr hs
    have hcorr : ¬ (r = R.FLC_CORR0 ∨ r = R.FLC_CORR1) := fun h => hflc (sat_corr_page pg r hr h)
    rw [not_or] at hcorr
    rw [blockWrite_sat hr hs s rq hne hflc, hi, plainWrite_sat hs hhole, State.clearSat, if_neg hcorr.1, if_neg hcorr.2]

/-- COUNTER_CLEAR at a copy of a SAT counter that its page holds. -/
theorem exec_counterClear_sat (hne : r ≠ R.SYS_AERR_INFO) {i : Nat} (hi : i < r.c1) (hp : pageOf (r.addr i 0) = some pg)
    (ho : s.Open pg) (hw : s.WritesAt rq (BitVec.ofNat 32 (r.addr i 0))) (v : Word) :
    exec (.counterClear rq (BitVec.ofNat 32 (r.addr i 0)) v) s = .next (s.keepOuter (if v = 0 then s.clearSat r i else s)) := by
  obtain ⟨hc2, -, hlo, hhi⟩ := sat_whole pg r hr hs
  have hj : 0 < r.c2 := by simp [hc2]
  have hfind := findReg_sat pg r hr hs i hi 0 hj hp
  have habove := sat_above_header pg r hr hs i hi 0 hj hp
  have haddr : (BitVec.ofNat 32 (r.addr i 0)).toNat = r.addr i 0 := by
    have := pageOf_range hp
    have := pageBase_lt pg
    simp only [BitVec.toNat_ofNat]
    omega
  have hsat : regIs (fun r => r.sat) (BitVec.ofNat 32 (r.addr i 0)) = true := by
    simp [regIs, regAt, haddr, hp, hfind, hs]
  have hwrite : s.regWrite rq false (r.addr i 0) v = if v = 0 then s.clearSat r i else s := by
    rw [regWrite_block rq false v hp ho.2 (by omega) hfind hlo hhi]
    exact blockWrite_clearSat hr hs s rq hne (sat_copyOf pg r hr hs i hi hp) v
  have hexec : exec (.counterClear rq (BitVec.ofNat 32 (r.addr i 0)) v) s =
    whenWrite rq (BitVec.ofNat 32 (r.addr i 0)) v s fun s =>
      if regIs (fun r => r.sat) (BitVec.ofNat 32 (r.addr i 0)) then
        s.regWrite rq false (BitVec.ofNat 32 (r.addr i 0)).toNat v else s := rfl
  have harea := areaOf_of_reaches hw.2.1 (pg := pg) (by rw [haddr, hp])
  rw [hexec, whenWrite_open v _ harea ho hw, if_pos hsat, haddr, hwrite]
end

end Sys2Proof.Machine

open Sys2Proof Sys2Proof.Machine

/-- Settles O9: whatever its page, a SAT counter takes zero alone. -/
theorem counterClear : Obligations.CounterClear := by
  unfold Obligations.CounterClear
  intro s rq pg r i j v hr hs hne hi hj hp ho hw
  obtain ⟨hc2, -⟩ := sat_whole pg r hr hs
  obtain rfl : j = 0 := by omega
  have hexec := exec_counterClear_sat hr hs s rq hne hi hp ho hw
  refine ⟨⟨_, hexec 0, ?_⟩, fun hv => ?_⟩
  · rw [if_pos rfl, State.clearSat]
    split
    · exact ⟨rfl, rfl, rfl⟩
    · split <;> exact ⟨rfl, rfl, rfl⟩
  · rw [hexec v, if_neg hv, keepOuter_self]

end

section
/-! SUPPORT. Injected fault reports (02 R41, 18 R463); what that says of O18. -/

namespace Sys2Proof.Machine

/-- One injected report for each of these sources, in order (18 R463). -/
def State.injectAll (s : State) (l : List (PageIx × Nat)) : State :=
  { s with reports := s.reports ++ l.map fun x => { page := x.1, k := Fin.ofNat 32 x.2, inj := true, at_ := s.time } }

theorem foldl_inject (s : State) (l : List (PageIx × Nat)) : l.foldl State.inject s = s.injectAll l := by
  induction l generalizing s with
  | nil => simp [State.injectAll]
  | cons x l ih =>
    rw [List.foldl_cons, ih]
    simp [State.inject, State.injectAll]

theorem pgForce_eq (s : State) (pg : PageIx) (bits : Word) : s.pgForce pg bits =
    s.injectAll (((List.range 32).filter fun k => bits.getLsbD k && (faultId pg k).isSome).map fun k => (pg, k)) := by
  rw [← foldl_inject, List.foldl_map, List.foldl_filter]
  rfl

theorem faultInject_eq {s : State} (hclk : s.chip.sysStopped = false) (j : Fin 4) (bits : Word) :
    s.faultInject j bits = s.injectAll
      (((List.range 32).filter fun b => bits.getLsbD b).filterMap fun b => (sourcesOf (32 * j.val + b)).head?) := by
  rw [State.faultInject, if_neg (by simp [hclk]), ← foldl_inject, List.foldl_filterMap, List.foldl_filter]
  congr
  funext t b
  cases sourcesOf (32 * j.val + b) <;> rfl

end Sys2Proof.Machine

open Sys2Proof Sys2Proof.Machine

/-- Settles O18: both commands inject at a list of sources. -/
theorem forcedFaultIsReported : Obligations.ForcedFaultIsReported := by
  unfold Obligations.ForcedFaultIsReported
  intro s pg bits j hopen hclk
  constructor
  · have hexec : exec (.pgFltForce pg bits) s = whenPage pg s fun s => s.pgForce pg bits := rfl
    rw [hexec, whenPage_open hopen, pgForce_eq, State.injectAll, List.map_map]
    rfl
  · have hexec : exec (.faultInject j bits) s = whenUp s fun s => s.faultInject j bits := rfl
    rw [hexec, whenUp_up hopen.1, faultInject_eq hclk]
    rfl

end

section
/-! SUPPORT. The stores of a page's set and the page headers: what a commit copies and what its boundary makes active
(02 R42 to R44, 08 R216); what that says of O17. -/

namespace Sys2Proof.Machine

-- page headers

@[simp] theorem page_modPage_same (s : State) (pg : PageIx) (f : PageSt → PageSt) : (s.modPage pg f).page pg = f (s.page pg) := by
  simp [State.page]

theorem page_modPage_ne (s : State) {pg o : PageIx} (f : PageSt → PageSt) (h : o ≠ pg) : (s.modPage pg f).page o = s.page o := by
  have : ¬ pg.val = o.val := fun e => h (Fin.ext e.symm)
  simp [State.page, this]

@[simp] theorem page_keepOuter (s t : State) (o : PageIx) : (s.keepOuter t).page o = t.page o := rfl

theorem irq_eq_modPage (s : State) (pg : PageIx) (b : Nat) :
    s.irq pg b = s.modPage pg fun x => { x with irqStat := x.irqStat ||| BitVec.ofNat 32 (2 ^ b) } := rfl

-- the stores

section
variable {β : Type}

theorem sget_append (d : β) (k : Nat) (l m : List (Nat × β)) : sget d k (l ++ m) = sget (sget d k m) k l := by
  induction l with
  | nil => rfl
  | cons e l ih => simp [sget, ih]

/-- Entries chosen by their keys. -/
theorem sget_filter_key (d : β) (k : Nat) (p : Nat → Bool) (l : List (Nat × β)) :
    sget d k (l.filter fun e => p e.1) = if p k then sget d k l else d := by
  induction l with
  | nil => simp [sget]
  | cons e l ih =>
    by_cases hk : e.1 = k
    · by_cases hp : p k <;> simp_all [sget]
    · by_cases hp : p e.1 <;> simp_all [sget]

/-- The keys of a range read from `src`, all others from `dst`. -/
theorem sget_srange (d : β) (k : Nat) {lo hi : Nat} (h : lo ≤ hi) (src dst : List (Nat × β)) :
    sget d k (srange lo hi src dst) = if lo ≤ k ∧ k < hi then sget d k src else sget d k dst := by
  have hlow := sget_filter_key (β := β) (k := k) (p := fun a => a < lo)
  have hin := sget_filter_key (β := β) (k := k) (p := fun a => lo ≤ a && a < hi)
  have hhigh := sget_filter_key (β := β) (k := k) (p := fun a => hi ≤ a)
  simp only [srange, sget_append, hlow, hin, hhigh, decide_eq_true_eq, Bool.and_eq_true]
  by_cases h1 : k < lo
  · simp [h1, Nat.not_le.2 h1, Nat.not_le.2 (Nat.lt_of_lt_of_le h1 h)]
  · by_cases h2 : k < hi
    · simp [h1, h2, Nat.not_lt.1 h1, Nat.not_le.2 h2]
    · simp [h1, h2, Nat.not_lt.1 h2]

end

/-- The block-specific registers of a page. -/
abbrev InPage (pg : PageIx) (a : Nat) : Prop := pageBase pg + 0x40 ≤ a ∧ a < pageBase pg + 0x1000

theorem sget_copyPage (pg : PageIx) (d : Word) (a : Nat) (src dst : List (Nat × Word)) :
    sget d a (copyPage pg src dst) = if InPage pg a then sget d a src else sget d a dst :=
  sget_srange d a (by omega) src dst

-- commits

section
variable {s : State} {pg : PageIx}

/-- The page has a set of its own. -/
structure OwnSet (pg : PageIx) : Prop where
  hasSet : hasSet pg = true
  alone : setPages pg = [pg]
  ne_adc : pg ≠ Pg.adc
  ne_adt : pg ≠ Pg.adt

theorem ownSet_of (h : pg = Pg.sba ∨ (∃ p : Port, pg = Pg.hp p) ∨ (∃ v : VpNum, pg = Pg.vp v) ∨ ∃ a : AxNum, pg = Pg.ax a) :
    OwnSet pg := by
  have key : hasSet pg = true ∧ setPages pg = [pg] ∧ pg ≠ Pg.adc ∧ pg ≠ Pg.adt := by
    rcases h with rfl | ⟨p, rfl⟩ | ⟨v, rfl⟩ | ⟨a, rfl⟩
    · decide
    · revert p; decide
    · revert v; decide
    · revert a; decide
  obtain ⟨h1, h2, h3, h4⟩ := key
  exact ⟨h1, h2, h3, h4⟩

/-- A page header after a commit with TAG `tag` (02 R43, R44). -/
def PageSt.committed (x : PageSt) (tag : Byte) : PageSt :=
  { x with merged := x.merged || x.pend, pend := true, pendTag := tag }

theorem makePending_alone (h : setPages pg = [pg]) (tag : Byte) :
    s.makePending pg tag = { s with pendSet := copyPage pg s.regs s.pendSet }.modPage pg fun x => x.committed tag := by
  rw [State.makePending, h]
  rfl

theorem page_makePending_same (h : setPages pg = [pg]) (tag : Byte) :
    (s.makePending pg tag).page pg = (s.page pg).committed tag := by
  rw [makePending_alone h, page_modPage_same]
  rfl

theorem page_makePending_ne (h : setPages pg = [pg]) (tag : Byte) {o : PageIx} (ho : o ≠ pg) :
    (s.makePending pg tag).page o = s.page o := by
  rw [makePending_alone h, page_modPage_ne _ _ ho]
  rfl

theorem activate_alone (h : setPages pg = [pg]) (hp : (s.page pg).pend = true) :
    s.activate pg = ({ s with active := copyPage pg s.pendSet s.active, pendSet := copyPage pg [] s.pendSet }.modPage pg
      fun x => { x with pend := false, actTag := x.pendTag }).irq pg 1 := by
  rw [State.activate, if_neg (by simp [hp]), h]
  rfl

/-- A commit that the block takes: the set is pending, and an idle block takes it at once (02 R44). -/
theorem pgCommit_accepted (ho : OwnSet pg) (h : s.commitRefused pg = none) :
    s.pgCommit pg = if s.idleBlock pg then (s.makePending pg (s.page pg).tag).takeSet pg
      else s.makePending pg (s.page pg).tag := by
  have hidle : (s.makePending pg (s.page pg).tag).idleBlock pg = s.idleBlock pg := by
    rw [State.idleBlock, page_makePending_same ho.alone]
    rfl
  simp only [State.pgCommit, h, ho.hasSet, ho.ne_adt, not_true_eq_false, if_false, hidle]

/-- An idle block's commit to a set of its own is active at once (02 R44). -/
theorem pgCommit_idle (ho : OwnSet pg) (hsba : pg ≠ Pg.sba) (h : s.commitRefused pg = none) (hi : s.idleBlock pg = true) :
    s.pgCommit pg = ({ s with
      active := copyPage pg (copyPage pg s.regs s.pendSet) s.active
      pendSet := copyPage pg [] (copyPage pg s.regs s.pendSet) }.modPage pg fun x =>
        { x.committed (s.page pg).tag with pend := false, actTag := (s.page pg).tag }).irq pg 1 := by
  have htake (t : State) : t.takeSet pg = t.activate pg := by
    rw [State.takeSet, if_neg (by simp [ho.ne_adc, ho.ne_adt]), if_neg hsba]
  have hpend : ((s.makePending pg (s.page pg).tag).page pg).pend = true := by
    rw [page_makePending_same ho.alone]
    rfl
  rw [pgCommit_accepted ho h, if_pos hi, htake, activate_alone ho.alone hpend, makePending_alone ho.alone]
  simp [State.modPage, PageSt.committed]

/-- The set of the converter, which ADC and ADT share (02 R43). -/
theorem makePending_converter (hpg : pg = Pg.adc ∨ pg = Pg.adt) (tag : Byte) :
    s.makePending pg tag = ({ s with pendSet := copyPage Pg.adt s.regs (copyPage Pg.adc s.regs s.pendSet) }.modPage Pg.adc
      fun x => x.committed tag).modPage Pg.adt fun x => x.committed tag := by
  rw [State.makePending, setPages, if_pos hpg]
  rfl

theorem page_makePending_converter (hpg : pg = Pg.adc ∨ pg = Pg.adt) (tag : Byte) {o : PageIx}
    (ho : o = Pg.adc ∨ o = Pg.adt) : (s.makePending pg tag).page o = (s.page o).committed tag := by
  have hne : Pg.adc ≠ Pg.adt := by decide
  rw [makePending_converter hpg]
  rcases ho with rfl | rfl
  · rw [page_modPage_ne _ _ hne, page_modPage_same]
    rfl
  · rw [page_modPage_same, page_modPage_ne _ _ hne.symm]
    rfl

/-- A commit through either page of the converter, which runs, is pending. -/
theorem pgCommit_converter (hpg : pg = Pg.adc ∨ pg = Pg.adt) (h : s.adcRefusal = none) (hrun : (s.page Pg.adc).st = .run) :
    s.pgCommit pg = s.makePending pg (s.page pg).tag := by
  have hset : hasSet pg = true := by rcases hpg with rfl | rfl <;> rfl
  have hrefused : s.commitRefused pg = none := by
    have hblk : blk pg = .adc ∨ blk pg = .adt := by rcases hpg with rfl | rfl <;> decide
    unfold State.commitRefused
    rcases hblk with hb | hb <;> simp only [hb, h]
  have hpage : (if pg = Pg.adt then Pg.adc else pg) = Pg.adc := by rcases hpg with rfl | rfl <;> rfl
  have hbusy : (s.makePending pg (s.page pg).tag).idleBlock Pg.adc = false := by
    rw [State.idleBlock, page_makePending_converter hpg _ (.inl rfl)]
    simp [PageSt.committed, hrun]
  simp only [State.pgCommit, hrefused, hset, hpage, hbusy, not_true_eq_false, if_false, Bool.false_eq_true]

theorem exec_pgCommit_open (ho : s.Open pg) (hset : hasSet pg = true) :
    exec (.pgCommit pg) s = .next (s.keepOuter (s.pgCommit pg)) := by
  rw [exec_pgCommit, whenPage_open ho, if_pos hset]

end

-- the boundary of SBA

/-- What activation does to the governor of one port (08 R215, R216). -/
def State.govRecheck (s : State) (p : Port) : State := if s.govEn p then s.govIdle p else s.govOff p

/-- The governor of a port replaced. -/
def State.setGov (s : State) (p : Port) (x : SbaPort) : State :=
  { s with sba := { s.sba with ports := s.sba.ports.set p x } }

@[simp] theorem sbaP_setGov_same (s : State) (p : Port) (x : SbaPort) : (s.setGov p x).sbaP p = x := by
  simp [State.sbaP, State.setGov]

theorem sbaP_setGov_ne (s : State) {p o : Port} (x : SbaPort) (h : o ≠ p) : (s.setGov p x).sbaP o = s.sbaP o := by
  have : ¬ p.val = o.val := fun e => h (Fin.ext e.symm)
  simp [State.sbaP, State.setGov, this]

theorem setGov_self (s : State) (p : Port) : s.setGov p (s.sbaP p) = s := by
  simp [State.setGov, State.sbaP]

/-- The governor is replaced, with event 8 where it pauses. -/
theorem govRecheck_eq (s : State) (p : Port) : ∃ x, s.govRecheck p =
    if !(s.sbaP p).paused && x.paused then (s.setGov p x).irq Pg.sba 8 else s.setGov p x := by
  unfold State.govRecheck
  split
  · by_cases h : s.govEn p ∧ s.running Pg.sba ∧ s.running (Pg.hp p) ∧ ¬ s.paced p ∧ ¬ (s.sbaP p).paused ∧
      (s.sbaP p).f = s.fmin p ∧ s.linesLeft p = 0
    · have hrun : (s.sbaP p).paused = false := by simpa using h.2.2.2.2.1
      refine ⟨{ s.sbaP p with paused := true, restart := true }, ?_⟩
      rw [if_pos (by simp [hrun])]
      exact if_pos h
    · refine ⟨s.sbaP p, ?_⟩
      rw [if_neg (by simp), setGov_self]
      exact if_neg h
  · exact ⟨{ s.sbaP p with f := 0, tGov := 0, paused := false, warn := false, restart := true }, by rw [if_neg (by simp)]; rfl⟩

/-- The governor of the port pauses on the way from `s` to `t`. -/
def State.pauses (s t : State) (p : Port) : Bool := !(s.sbaP p).paused && (t.sbaP p).paused

/-- From `s` to `t` only the governors of the ports in `l` change, and SBA's event 8 is set where one of them pauses. -/
structure GovernorsOnly (l : List Port) (s t : State) : Prop where
  frame : t = { s with sba := t.sba, pages := t.pages }
  pages : ∀ o, o ≠ Pg.sba → t.page o = s.page o
  irq : t.page Pg.sba = { s.page Pg.sba with
    irqStat := (s.page Pg.sba).irqStat ||| if l.any (s.pauses t) then 256 else 0 }
  others : ∀ p, p ∉ l → t.sbaP p = s.sbaP p

theorem govRecheck_only (s : State) (p : Port) : GovernorsOnly [p] s (s.govRecheck p) := by
  obtain ⟨x, hx⟩ := govRecheck_eq s p
  have hsame : (s.govRecheck p).sbaP p = x := by
    rw [hx]
    split <;> exact sbaP_setGov_same s p x
  have hpauses : [p].any (s.pauses (s.govRecheck p)) = (!(s.sbaP p).paused && x.paused) := by
    simp [State.pauses, hsame]
  rw [hx]
  constructor
  · split <;> rfl
  · intro o ho
    split
    · exact page_modPage_ne _ _ ho
    · rfl
  · rw [← hx, hpauses, hx]
    split
    · exact page_modPage_same _ _ _
    · simp
      rfl
  · intro o ho
    have hne : o ≠ p := by simpa using ho
    split <;> exact sbaP_setGov_ne s x hne

/-- Governors of different ports change one after the other. -/
theorem GovernorsOnly.cons {s t u : State} {p : Port} {l : List Port} (h : GovernorsOnly [p] s t) (h' : GovernorsOnly l t u)
    (hp : p ∉ l) : GovernorsOnly (p :: l) s u := by
  have hpauses : (p :: l).any (s.pauses u) = ([p].any (s.pauses t) || l.any (t.pauses u)) := by
    have hfirst : u.sbaP p = t.sbaP p := h'.others p hp
    have hrest : l.any (s.pauses u) = l.any (t.pauses u) := by
      rw [Bool.eq_iff_iff, List.any_eq_true, List.any_eq_true]
      refine exists_congr fun o => and_congr_right fun ho => ?_
      have hne : o ≠ p := fun e => hp (e ▸ ho)
      rw [State.pauses, State.pauses, h.others o (by simpa using hne)]
    simp [State.pauses, hfirst, ← hrest]
  constructor
  · rw [h'.frame, h.frame]
  · exact fun o ho => (h'.pages o ho).trans (h.pages o ho)
  · rw [h'.irq, h.irq, hpauses, BitVec.or_assoc]
    cases [p].any (s.pauses t) <;> cases l.any (t.pauses u) <;> rfl
  · intro o ho
    obtain ⟨hne, hl⟩ : o ≠ p ∧ o ∉ l := by simpa using ho
    exact (h'.others o hl).trans (h.others o (by simpa using hne))

theorem foldl_govRecheck_only (s : State) {l : List Port} (h : l.Nodup) :
    GovernorsOnly l s (l.foldl State.govRecheck s) := by
  induction l generalizing s with
  | nil => exact ⟨rfl, fun _ _ => rfl, by simp, fun _ _ => rfl⟩
  | cons p l ih =>
    obtain ⟨hp, hl⟩ := List.nodup_cons.1 h
    exact (govRecheck_only s p).cons (ih _ hl) hp

/-- The boundary of SBA: its pending set becomes active, and every governor looks at it. -/
theorem sbaActivate_only {s : State} (h : (s.page Pg.sba).pend = true) :
    GovernorsOnly (List.finRange 4) (s.activate Pg.sba) s.sbaActivate := by
  have hfold : s.sbaActivate = (List.finRange 4).foldl State.govRecheck (s.activate Pg.sba) := if_pos h
  rw [hfold]
  exact foldl_govRecheck_only _ (List.nodup_finRange 4)

theorem exec_commitDone_sba {s : State} (hup : s.Up) (hrun : (s.page Pg.sba).st = .run) (hpend : (s.page Pg.sba).pend = true) :
    exec (.commitDone Pg.sba) s = .next (s.keepOuter s.sbaActivate) := by
  have hexec : exec (.commitDone Pg.sba) s = whenUp s fun s =>
    if (s.page Pg.sba).pend && s.running Pg.sba && atBoundary Pg.sba then s.takeSet Pg.sba else s := rfl
  have hguard : ((s.page Pg.sba).pend && s.running Pg.sba && atBoundary Pg.sba) = true := by
    rw [hpend, State.running, hrun]
    rfl
  rw [hexec, whenUp_up hup, if_pos hguard]
  rfl

end Sys2Proof.Machine

open Sys2Proof Sys2Proof.Machine

/-- Settles O17: a page's set is the page's range of each store. -/
theorem shadowSetCommits : Obligations.ShadowSetCommits := by
  unfold Obligations.ShadowSetCommits
  intro s hup
  refine ⟨fun pg hpg href => ?_, fun pg hpg hrun hst href => ?_, fun hrun hpend => ?_⟩
  · have hown := ownSet_of hpg
    refine ⟨fun hrun => ?_, fun hsba hidle => ?_⟩
    · refine ⟨_, exec_pgCommit_open ⟨hup, by simp [hrun]⟩ hown.hasSet, ?_⟩
      rw [pgCommit_accepted hown href, if_neg (by simp [State.idleBlock, hrun])]
      refine ⟨?_, ?_, ?_, fun o ho => page_makePending_ne hown.alone _ ho, page_makePending_same hown.alone _, fun a d => ?_⟩
      · rw [makePending_alone hown.alone]; rfl
      · rw [makePending_alone hown.alone]; rfl
      · rw [makePending_alone hown.alone]; rfl
      · rw [makePending_alone hown.alone]; exact sget_copyPage _ _ _ _ _
    · refine ⟨_, exec_pgCommit_open ⟨hup, by rcases hidle with h | h <;> simp [h]⟩ hown.hasSet, ?_⟩
      rw [pgCommit_idle hown hsba href (by simpa [State.idleBlock] using hidle), irq_eq_modPage]
      refine ⟨rfl, rfl, fun o ho => ?_, ?_, fun a d => ?_⟩
      · rw [page_keepOuter, page_modPage_ne _ _ ho, page_modPage_ne _ _ ho]
        rfl
      · rw [page_keepOuter, page_modPage_same, page_modPage_same]
        rfl
      · refine (sget_copyPage _ _ _ _ _).trans ?_
        rw [sget_copyPage]
        split <;> rfl
  · refine ⟨_, exec_pgCommit_open ⟨hup, hst⟩ (by rcases hpg with rfl | rfl <;> rfl), ?_⟩
    rw [pgCommit_converter hpg href hrun]
    refine ⟨?_, ?_, ?_, fun o ho => page_makePending_converter hpg _ ho, fun a d => ?_⟩
    · rw [makePending_converter hpg]; rfl
    · rw [makePending_converter hpg]; rfl
    · rw [makePending_converter hpg]; rfl
    · rw [makePending_converter hpg]
      refine (sget_copyPage _ _ _ _ _).trans ?_
      rw [sget_copyPage]
      by_cases h1 : InPage Pg.adt a <;> by_cases h2 : InPage Pg.adc a <;> simp [h1, h2]
  · refine ⟨_, exec_commitDone_sba hup hrun hpend, ?_⟩
    obtain ⟨hframe, -, hirq, -⟩ := sbaActivate_only hpend
    have hactive := activate_alone (s := s) (pg := Pg.sba) rfl hpend
    refine ⟨?_, ?_, ?_, fun a d => ?_⟩
    · rw [hframe, hactive]
      rfl
    · rw [hframe, hactive]
      rfl
    · have hpage : (s.activate Pg.sba).page Pg.sba = { s.page Pg.sba with
          pend := false, actTag := (s.page Pg.sba).pendTag, irqStat := (s.page Pg.sba).irqStat ||| 2 } := by
        rw [hactive, irq_eq_modPage, page_modPage_same, page_modPage_same]
        rfl
      have hpauses : (s.activate Pg.sba).pauses = s.pauses := by
        rw [hactive]
        rfl
      rw [page_keepOuter, hirq, hpage, hpauses]
      change _ = { s.page Pg.sba with
        pend := false, actTag := (s.page Pg.sba).pendTag
        irqStat := (s.page Pg.sba).irqStat ||| if (List.finRange 4).any (s.pauses s.sbaActivate) then 0x102 else 2 }
      rw [BitVec.or_assoc]
      cases (List.finRange 4).any (s.pauses s.sbaActivate) <;> rfl
    · rw [hframe, hactive]
      exact sget_copyPage Pg.sba d a s.pendSet s.active

end

section
/-! SUPPORT. Blocks whose drain unit is over, with no command in flight (02 R36 to R39, 10 R244, 18 R465, R467): entering RUN,
draining, and block reset; what that says of O15. -/

namespace Sys2Proof.Machine

-- with no command in flight a block that leaves RUN completes and cancels nothing

theorem finishAll_empty {s : State} {q : QNum} (hc : (s.q q).cmds = []) (hk : (s.q q).conts = []) (st : Byte) (f : Cmd → Bool) :
    s.finishAll q st f = s := by
  simp [State.finishAll, hc, hk]

theorem abortNeeding_quiet {s : State} (h : s.Quiet) (pg : PageIx) : s.abortNeeding pg = s :=
  List.foldl_fixed' (fun q => finishAll_empty (h q).1 (h q).2.1 _ _) _

theorem cancelNeeding_quiet {s : State} (h : s.Quiet) (pg : PageIx) : s.cancelNeeding pg = s := by
  refine List.foldl_fixed' (fun q => ?_) _
  rw [(h q).2.2]
  rfl

theorem leftRun_quiet {s : State} (h : s.Quiet) {pg : PageIx} (hseq : pg ≠ Pg.seq) (hqmg : pg ≠ Pg.qmg) :
    s.leftRun pg = s := by
  rw [State.leftRun, if_neg hseq, if_neg hqmg, abortNeeding_quiet h, cancelNeeding_quiet h]

-- the blocks that have no more than a drain unit of their own

/-- SPT, FLC, MOC, an axis or an encoder. -/
inductive SimpleBlock (pg : PageIx) : Prop where
  | spt (hb : blk pg = .spt)
  | flc (hb : blk pg = .flc)
  | moc (hb : blk pg = .moc)
  | ax (a : AxNum) (hb : blk pg = .ax a)
  | qe (e : QeNum) (hb : blk pg = .qe e)

theorem blk_ax (a : AxNum) : blk (Pg.ax a) = .ax a := by
  revert a
  decide

theorem blk_eq_qe_iff : ∀ (pg : PageIx) (e : QeNum), blk pg = .qe e ↔ pg = Pg.qe e := by
  decide

theorem simpleBlock_of {pg : PageIx} (h : pg = Pg.spt ∨ pg = Pg.flc ∨ pg = Pg.moc ∨ (∃ a : AxNum, pg = Pg.ax a) ∨
    (∃ e : QeNum, pg = Pg.qe e)) : SimpleBlock pg := by
  rcases h with rfl | rfl | rfl | ⟨a, rfl⟩ | ⟨e, rfl⟩
  · exact .spt rfl
  · exact .flc rfl
  · exact .moc rfl
  · exact .ax a (blk_ax a)
  · exact .qe e ((blk_eq_qe_iff _ _).2 rfl)

section
variable {s : State} {pg : PageIx} (hs : SimpleBlock pg)
include hs

theorem SimpleBlock.ne {o : PageIx} (ho : blk o = .fixed ∨ blk o = .seq ∨ blk o = .qmg ∨ blk o = .adc ∨ blk o = .adt) : pg ≠ o := by
  rintro rfl
  cases hs <;> simp_all

theorem SimpleBlock.setPages : setPages pg = [pg] := by
  rw [Machine.setPages, if_neg]
  exact not_or.2 ⟨hs.ne (by decide), hs.ne (by decide)⟩

theorem SimpleBlock.not_fixed : ¬ blk pg = .fixed := fun h => hs.ne (.inl h) rfl

theorem SimpleBlock.enableRefused (s : State) : s.enableRefused pg = none := by
  cases hs <;> simp [State.enableRefused, *]

/-- What the drain unit is does not change with the page headers. -/
theorem SimpleBlock.unitBusy_congr {s t : State} (hax : t.ax = s.ax) (hflc : t.flc = s.flc) : t.unitBusy pg = s.unitBusy pg := by
  cases hs <;> simp [State.unitBusy, State.axIdle, State.axS, *]

/-- Axes that stand still have nothing to halt (10 R244). -/
theorem SimpleBlock.drainStart_idle (h : s.unitBusy pg = false) : s.drainStart pg = s := by
  cases hs with
  | moc hb =>
    have hidle : ∀ a : AxNum, s.axIdle a = true := by simpa [State.unitBusy, hb] using h
    simp only [State.drainStart, hb]
    exact List.foldl_fixed' (fun a => if_pos (hidle a)) _
  | ax a hb =>
    have hidle : s.axIdle a = true := by simpa [State.unitBusy, hb] using h
    simp only [State.drainStart, hb]
    exact if_pos hidle
  | spt hb | flc hb => simp only [State.drainStart, hb]
  | qe e hb => simp only [State.drainStart, hb]

theorem SimpleBlock.resetStart_idle (h : s.unitBusy pg = false) : s.resetStart pg = s := by
  have hdrain := hs.drainStart_idle h
  cases hs with
  | spt hb | flc hb => simp only [State.resetStart, hb]
  | moc hb => simpa only [State.resetStart, State.drainStart, hb] using hdrain
  | ax a hb => simpa only [State.resetStart, State.drainStart, hb] using hdrain
  | qe e hb => simp only [State.resetStart, hb]

theorem SimpleBlock.drainEnd (s : State) : s.drainEnd pg = s := by
  cases hs <;> simp only [State.drainEnd, *]

theorem SimpleBlock.leftRun (h : s.Quiet) : s.leftRun pg = s :=
  leftRun_quiet h (hs.ne (by decide)) (hs.ne (by decide))

end

/-- The rate window that an encoder begins as it enters RUN (10 R266). -/
def State.rateWindow (s : State) (e : QeNum) : QeSt :=
  { s.qeS e with rateBase := s.rd R.QEn_POS_LO e.val, windowAt := s.time }

theorem qeS_modQe (s : State) (e o : QeNum) (f : QeSt → QeSt) : (s.modQe e f).qeS o = if o = e then f (s.qeS e) else s.qeS o := by
  by_cases h : o = e
  · subst h
    simp [State.qeS]
  · have : ¬ e.val = o.val := fun e => h (Fin.ext e.symm)
    simp [State.qeS, h, this]

/-- A simple block enters RUN with no set pending: no more than an encoder's rate window begins. -/
theorem SimpleBlock.toRun {s : State} {pg : PageIx} (hs : SimpleBlock pg) (hpend : (s.page pg).pend = false) :
    s.toRun pg = { s with qe := (s.toRun pg).qe }.modPage pg (fun x => { x with st := .run, en := true }) ∧
    ∀ e : QeNum, (s.toRun pg).qeS e = if pg = Pg.qe e then s.rateWindow e else s.qeS e := by
  have hhook : s.toRun pg = (s.modPage pg fun x => { x with st := .run, en := true }).enterHook pg := by
    simp [State.toRun, hpend]
  simp only [← blk_eq_qe_iff]
  rw [hhook]
  cases hs with
  | qe e hb =>
    simp only [State.enterHook, hb, Blk.qe.injEq]
    refine ⟨rfl, fun o => ?_⟩
    rw [qeS_modQe]
    by_cases ho : o = e
    · subst ho
      simp
      rfl
    · rw [if_neg ho, if_neg (Ne.symm ho)]
      rfl
  | spt hb | flc hb | moc hb =>
    simp only [State.enterHook, hb]
    exact ⟨rfl, fun _ => rfl⟩
  | ax a hb =>
    simp only [State.enterHook, hb]
    exact ⟨rfl, fun _ => rfl⟩

section
variable {s : State} {pg : PageIx} (hs : SimpleBlock pg)
include hs

theorem SimpleBlock.page_toRun_same (hpend : (s.page pg).pend = false) :
    (s.toRun pg).page pg = { s.page pg with st := .run, en := true } := by
  rw [(hs.toRun hpend).1, page_modPage_same]
  rfl

theorem SimpleBlock.page_toRun_ne (hpend : (s.page pg).pend = false) {o : PageIx} (ho : o ≠ pg) :
    (s.toRun pg).page o = s.page o := by
  rw [(hs.toRun hpend).1, page_modPage_ne _ _ ho]
  rfl

theorem SimpleBlock.stores_toRun (hpend : (s.page pg).pend = false) : (s.toRun pg).regs = s.regs ∧ (s.toRun pg).mem = s.mem := by
  rw [(hs.toRun hpend).1]
  exact ⟨rfl, rfl⟩

theorem SimpleBlock.blockEnable (hst : (s.page pg).st = .off ∨ (s.page pg).st = .disabled) : s.blockEnable pg = s.toRun pg := by
  have htry : s.tryRun pg = s.toRun pg := by rw [State.tryRun, hs.enableRefused]
  rcases hst with h | h <;> simp only [State.blockEnable, h, htry]

theorem SimpleBlock.blockDrain (hbusy : s.unitBusy pg = false) (hst : (s.page pg).st = .run) :
    s.blockDrain pg = s.modPage pg fun x => { x with st := .draining, en := false } := by
  have hadt : ¬ (blk pg = .fixed ∨ blk pg = .adt) := by
    rintro (h | h)
    · exact hs.ne (.inl h) rfl
    · exact hs.ne (by simp [h]) rfl
  rw [State.blockDrain, if_neg hadt]
  simp only [hst]
  exact hs.drainStart_idle ((hs.unitBusy_congr rfl rfl).trans hbusy)

/-- DRAIN_COMPLETE: DISABLED, and RUN again where EN has been written 1 meanwhile (02 R36). -/
theorem SimpleBlock.drainComplete (hbusy : s.unitBusy pg = false) (hq : s.Quiet) (hst : (s.page pg).st = .draining) :
    s.drainComplete pg =
      if (s.page pg).en then
        ((s.modPage pg fun x => { x with st := .disabled, en := false, drainAck := true }).irq pg 0).toRun pg
      else (s.modPage pg fun x => { x with st := .disabled, en := false, drainAck := true }).irq pg 0 := by
  have htry (t : State) : t.tryRun pg = t.toRun pg := by rw [State.tryRun, hs.enableRefused]
  rw [State.drainComplete, if_neg (by simp [hst, hbusy]), hs.drainEnd, hs.leftRun hq]
  simp only [htry]

theorem SimpleBlock.blockSrst (hbusy : s.unitBusy pg = false) (hq : s.Quiet) (hst : (s.page pg).st ≠ .resetting) :
    s.blockSrst pg = (s.modPage pg fun x => { x with st := .resetting }).openShadow pg := by
  have hreset : s.toResetting pg = (s.modPage pg fun x => { x with st := .resetting }).openShadow pg := by
    rw [State.toResetting, hs.setPages]
    rfl
  have hstop : ((s.toResetting pg).resetStart pg).leftRun pg = s.toResetting pg := by
    have hidle : (s.toResetting pg).unitBusy pg = false := by
      rw [hreset]
      exact (hs.unitBusy_congr rfl rfl).trans hbusy
    rw [hs.resetStart_idle hidle, hreset]
    exact hs.leftRun hq
  have hadt : pg ≠ Pg.adt := hs.ne (by decide)
  unfold State.blockSrst
  simp only [if_neg hadt]
  rw [if_neg (by simp [hst, hs.not_fixed]), ← hreset]
  cases hs with
  | spt hb | flc hb | moc hb => simpa only [hb] using hstop
  | ax a hb => simpa only [hb] using hstop
  | qe e hb => simpa only [hb] using hstop

end

-- the end of a block reset

/-- No other axis follows axis `a`: its return to position 0 takes none along (10 R263). -/
theorem gearJump_none {s : State} {n : Nat}
    (h : ∀ b : AxNum, (s.axS b).act = .gear → s.fld F.AXn_GEAR_SRC b.val ≠ n) : s.gearJump n = s :=
  List.foldl_fixed' (fun b => if_neg fun hb => h b hb.1 hb.2.2) _

/-- SPT, MOC, or an axis that no other is geared to. -/
inductive Lone (s : State) (pg : PageIx) : Prop where
  | spt (hpg : pg = Pg.spt)
  | moc (hpg : pg = Pg.moc)
  | ax (a : AxNum) (hpg : pg = Pg.ax a) (hgear : ∀ b : AxNum, s.fld F.AXn_GEAR_SRC b.val ≠ 8 + a.val)

theorem gear_of_other_page : ∀ a b : AxNum, InPage (Pg.ax a) (R.AXn_GEAR.addr b.val 0) → b = a := by
  decide

theorem resetParts_lone {s : State} {pg : PageIx} (h : Lone s pg) :
    ∃ x y, (s.resetRegs pg).resetParts pg s = { s.resetRegs pg with ax := x, spt := y } := by
  cases h with
  | spt hpg => subst hpg; exact ⟨_, _, rfl⟩
  | moc hpg => subst hpg; exact ⟨_, _, rfl⟩
  | ax a hpg hgear =>
    subst hpg
    have hparts : (s.resetRegs (Pg.ax a)).resetParts (Pg.ax a) s =
        State.gearJump { s.resetRegs (Pg.ax a) with ax := s.ax.set a {} } (8 + a.val) := by
      simp only [State.resetParts, blk_ax]
      rfl
    rw [hparts, gearJump_none]
    · exact ⟨_, _, rfl⟩
    · intro b hact
      by_cases hb : b = a
      · subst hb
        simp [State.axS] at hact
      · refine fun h => hgear b ?_
        rw [← h, State.fld, State.fld, State.rd, State.rd]
        congr 1
        refine ((sget_copyPage (Pg.ax a) _ _ [] s.regs).trans (if_neg fun hin => hb ?_)).symm
        exact gear_of_other_page a b hin

/-- RESET_COMPLETE of such a block: its registers and its header are at their reset values, and it runs at once where its EN
resets to 1 (18 R467). -/
theorem resetComplete_lone {s : State} {pg : PageIx} (hs : SimpleBlock pg) (h : Lone s pg) (hbusy : s.unitBusy pg = false)
    (hst : (s.page pg).st = .resetting) :
    ∃ u : State, s.resetComplete pg = (if pageEnReset pg.val then u.toRun pg else u) ∧ u.regs = copyPage pg [] s.regs ∧
      u.mem = s.mem ∧ u.page pg = { st := .off, en := pageEnReset pg.val } ∧ ∀ o, o ≠ pg → u.page o = s.page o := by
  obtain ⟨x, y, hparts⟩ := resetParts_lone h
  refine ⟨State.leaveShadow { s.resetRegs pg with ax := x, spt := y } pg, ?_, rfl, rfl, ?_, fun o ho => ?_⟩
  · have hadt : pg ≠ Pg.adt := hs.ne (by decide)
    rw [State.resetComplete, if_neg (by simp [hst, hadt, hbusy]), hs.setPages, ← hparts]
    rfl
  · simp [State.page, State.leaveShadow, State.modFcc, State.resetRegs]
  · have hne : ¬ pg.val = o.val := fun e => ho (Fin.ext e.symm)
    simp [State.page, State.leaveShadow, State.modFcc, State.resetRegs, hne]

theorem enReset_ax : ∀ a : AxNum, pageEnReset (Pg.ax a).val = decide (Pg.ax a = Pg.spt) := by
  decide

end Sys2Proof.Machine

open Sys2Proof Sys2Proof.Machine

/-- Settles O15: with its drain unit over and nothing in flight, such a block has only its header to change, and a reset its
registers. -/
theorem blockStateCycle : Obligations.BlockStateCycle := by
  unfold Obligations.BlockStateCycle
  intro s pg hup hq hbusy hpg
  have hs := simpleBlock_of hpg
  refine ⟨fun hst hpend => ?_, fun hst => ?_, fun hst hen => ?_, fun hst hen hpend => ?_, fun hst => ?_, fun hst hpg' => ?_⟩
  · have hopen : s.Open pg := ⟨hup, by rcases hst with h | h <;> simp [h]⟩
    rw [Gives, exec_blockEnable, whenPage_open hopen, hs.blockEnable hst]
    obtain ⟨hframe, hqe⟩ := hs.toRun hpend
    have houter : s.keepOuter (s.toRun pg) = s.toRun pg := by
      rw [hframe]
      rfl
    rw [houter]
    exact ⟨_, rfl, hframe, hqe⟩
  · have hopen : s.Open pg := ⟨hup, by simp [hst]⟩
    rw [exec_blockDrain, whenPage_open hopen, hs.blockDrain hbusy hst]
    rfl
  · rw [exec_drainComplete, whenUp_up hup, hs.drainComplete hbusy hq hst, if_neg (by simp [hen])]
    rfl
  · rw [Gives, exec_drainComplete, whenUp_up hup, hs.drainComplete hbusy hq hst, if_pos hen]
    have hdone : ((s.modPage pg fun x => { x with st := .disabled, en := false, drainAck := true }).irq pg 0).page pg =
        { s.page pg with st := .disabled, en := false, drainAck := true, irqStat := (s.page pg).irqStat ||| 1 } := by
      rw [irq_eq_modPage, page_modPage_same, page_modPage_same]
      rfl
    have hpend' : (((s.modPage pg fun x => { x with st := .disabled, en := false, drainAck := true }).irq pg 0).page pg).pend =
        false := by rw [hdone, hpend]
    obtain ⟨hregs, hmem⟩ := hs.stores_toRun hpend'
    refine ⟨_, rfl, ?_, ?_, hregs, hmem, fun o ho => ?_⟩
    · rw [page_keepOuter, hs.page_toRun_same hpend']
    · rw [page_keepOuter, hs.page_toRun_same hpend', hdone]
    · rw [page_keepOuter, hs.page_toRun_ne hpend' ho, irq_eq_modPage, page_modPage_ne _ _ ho, page_modPage_ne _ _ ho]
  · rw [exec_blockSrst, whenPage_open ⟨hup, hst⟩, hs.blockSrst hbusy hq hst]
    rfl
  · have hlone : Lone s pg := by
      rcases hpg' with rfl | rfl | ⟨a, rfl, hgear⟩
      · exact .spt rfl
      · exact .moc rfl
      · exact .ax a rfl hgear
    obtain ⟨u, hu, hregs, hmem, hpage, hother⟩ := resetComplete_lone hs hlone hbusy hst
    have hen : pageEnReset pg.val = decide (pg = Pg.spt) := by
      rcases hpg' with rfl | rfl | ⟨a, rfl, -⟩
      · rfl
      · rfl
      · exact enReset_ax a
    rw [hen] at hu hpage
    rw [Gives, exec_resetComplete, whenUp_up hup, hu]
    have hpend : (u.page pg).pend = false := by rw [hpage]
    have hstore (a : Nat) (d : Word) : sget d a u.regs = if InPage pg a then d else sget d a s.regs := by
      rw [hregs, sget_copyPage]
      rfl
    by_cases hspt : pg = Pg.spt
    · obtain ⟨hregs', hmem'⟩ := hs.stores_toRun hpend
      have hpage' := hs.page_toRun_same hpend
      rw [if_pos (by simp [hspt]), if_pos hspt]
      refine ⟨_, rfl, ?_, ?_, ?_, hmem'.trans hmem, fun o ho => ?_, fun a d => ?_⟩
      · rw [page_keepOuter, hpage']
      · rw [page_keepOuter, hpage', decide_eq_true hspt]
      · rw [page_keepOuter, hpage', hpage]
      · rw [page_keepOuter, hs.page_toRun_ne hpend ho, hother o ho]
      · exact (congrArg (sget d a) hregs').trans (hstore a d)
    · simp only [hspt, decide_false, Bool.false_eq_true, if_false] at hpage ⊢
      refine ⟨_, rfl, ?_, ?_, ?_, hmem, hother, hstore⟩ <;> rw [page_keepOuter, hpage]

end

section
/-! SUPPORT. The cells of OTP under programming, the life-cycle record, cast-on from a chip whose flash and OTP are idle, and the
instructions of the TAP (19 R472 to R489, 20 R498, R510); what that says of O59. -/

namespace Sys2Proof.Machine

-- undefined bytes

/-- The name of the free value at `a`, if one of these ranges holds it. -/
def undefAt (l : List Undef) (a : Nat) : Option Nat := (l.find? fun u => u.lo ≤ a && a < u.hi).map (·.salt)

theorem undefAt_append (l m : List Undef) (a : Nat) : undefAt (l ++ m) a = (undefAt l a).or (undefAt m a) := by
  rw [undefAt, undefAt, List.find?_append]
  cases l.find? fun u => u.lo ≤ a && a < u.hi <;> rfl

/-- A range listed on a condition. -/
theorem undefAt_ite (c : Prop) [Decidable c] (u : Undef) (a : Nat) :
    undefAt (if c then [u] else []) a = if c ∧ u.lo ≤ a ∧ a < u.hi then some u.salt else none := by
  by_cases hc : c
  · by_cases hu : u.lo ≤ a ∧ a < u.hi
    · simp [undefAt, hc, hu]
    · have : (decide (u.lo ≤ a) && decide (a < u.hi)) = false := by simpa using hu
      simp [undefAt, hc, hu, this]
  · simp [undefAt, hc]

/-- What is left of one range once [lo, hi) is defined again. -/
def Undef.outside (u : Undef) (lo hi : Nat) : List Undef :=
  (if u.lo < min u.hi lo then [{ u with hi := min u.hi lo }] else []) ++
  (if max u.lo hi < u.hi then [{ u with lo := max u.lo hi }] else [])

theorem undefAt_outside (u : Undef) (lo hi a : Nat) :
    undefAt (u.outside lo hi) a = if lo ≤ a ∧ a < hi then none else undefAt [u] a := by
  unfold Undef.outside
  have hu : undefAt [u] a = if True ∧ u.lo ≤ a ∧ a < u.hi then some u.salt else none := undefAt_ite True u a
  have below : (u.lo < min u.hi lo ∧ u.lo ≤ a ∧ a < min u.hi lo) ↔ (u.lo ≤ a ∧ a < u.hi) ∧ a < lo := by omega
  have above : (max u.lo hi < u.hi ∧ max u.lo hi ≤ a ∧ a < u.hi) ↔ (u.lo ≤ a ∧ a < u.hi) ∧ hi ≤ a := by omega
  rw [undefAt_append, undefAt_ite, undefAt_ite, hu]
  simp only [below, above, true_and]
  by_cases hin : u.lo ≤ a ∧ a < u.hi
  · by_cases hlo : a < lo
    · have : ¬ lo ≤ a := by omega
      simp [hin, hlo, this]
    · by_cases hhi : hi ≤ a
      · have : ¬ a < hi := by omega
        simp [hin, hlo, hhi, this]
      · have : lo ≤ a ∧ a < hi := by omega
        simp [hin, hlo, hhi, this]
  · simp [hin]

theorem undefAt_settle (f : FlcSt) (lo hi a : Nat) :
    undefAt (f.settle lo hi).undef a = if lo ≤ a ∧ a < hi then none else undefAt f.undef a := by
  have key (l : List Undef) :
      undefAt (l.flatMap fun u => u.outside lo hi) a = if lo ≤ a ∧ a < hi then none else undefAt l a := by
    induction l with
    | nil => simp [undefAt]
    | cons u l ih =>
      rw [List.flatMap_cons, undefAt_append, ih, undefAt_outside, show u :: l = [u] ++ l from rfl, undefAt_append]
      split <;> rfl
  exact key f.undef

-- cells of flash and OTP while no operation runs

/-- With no operation a cell reads a free value where it is undefined, and what is stored elsewhere. -/
theorem cell_idle {s : State} (hop : s.flc.op = none) (a : Nat) :
    s.cell a = (undefAt s.flc.undef a).elim (s.byte a) fun n => Config.freeByte n a := by
  have hspoiled : s.spoiled a = undefAt s.flc.undef a := by
    rw [State.spoiled, hop]
    rfl
  have hotp : s.otpCell a = s.byte a := by rw [State.otpCell, hop]
  rw [State.cell, hspoiled, hotp]
  cases undefAt s.flc.undef a <;> rfl

theorem byte_withFlc (t : State) (f : FlcSt) (b : Nat) : State.byte { t with flc := f } b = t.byte b := rfl

theorem byte_set64 (s : State) (a b : Nat) (v : BitVec 64) :
    (s.set64 a v).byte b = (s.setBytes a (natBytes 8 v.toNat)).byte b := byte_withFlc _ _ b

theorem set64_flc (s : State) (a : Nat) (v : BitVec 64) : (s.set64 a v).flc = s.flc.settle a (a + 8) := rfl

section
variable {s : State} (hop : s.flc.op = none) (a : Nat) (v : BitVec 64)
include hop

/-- A word stored leaves every other cell as it was. -/
theorem cell_set64_out {b : Nat} (h : b < a ∨ a + 8 ≤ b) : (s.set64 a v).cell b = s.cell b := by
  have hbyte : (s.set64 a v).byte b = s.byte b := by
    rw [byte_set64, byte_setBytes_out _ _ _ (by simpa using h)]
  have hundef : undefAt (s.set64 a v).flc.undef b = undefAt s.flc.undef b := by
    rw [set64_flc, undefAt_settle, if_neg (by omega)]
  rw [cell_idle (s := s.set64 a v) hop, cell_idle hop, hbyte, hundef]

/-- Its own cells read it, least significant byte first. -/
theorem cell_set64_in {k : Nat} (h : k < 8) : (s.set64 a v).cell (a + k) = BitVec.ofNat 8 (v.toNat / 256 ^ k) := by
  have hlen : k < (natBytes 8 v.toNat).length := by simpa using h
  have hbyte : (s.set64 a v).byte (a + k) = BitVec.ofNat 8 (v.toNat / 256 ^ k) := by
    rw [byte_set64, byte_setBytes_in _ _ _ hlen, getElem_natBytes]
  have hundef : undefAt (s.set64 a v).flc.undef (a + k) = none := by
    rw [set64_flc, undefAt_settle, if_pos (by omega)]
  rw [cell_idle (s := s.set64 a v) hop, hundef, hbyte, Option.elim_none]

end

-- words of OTP under programming

theorem leNat_lt (l : List Byte) : leNat l < 256 ^ l.length := by
  induction l with
  | nil => exact Nat.one_pos
  | cons b l ih =>
    have hb := b.isLt
    rw [leNat, List.length_cons, Nat.pow_succ]
    omega

@[simp] theorem length_cells (s : State) (a n : Nat) : (s.cells a n).length = n := by
  induction n generalizing a with
  | zero => rfl
  | succ n ih => simp [State.cells, ih]

/-- The bytes of a number, least significant first, are the cells that it is made of. -/
theorem byte_leNat_cells (s : State) (a : Nat) {n k : Nat} (h : k < n) :
    BitVec.ofNat 8 (leNat (s.cells a n) / 256 ^ k) = s.cell (a + k) := by
  induction n generalizing a k with
  | zero => exact absurd h (Nat.not_lt_zero k)
  | succ n ih =>
    have hb := (s.cell a).isLt
    rw [State.cells, leNat]
    cases k with
    | zero =>
      apply BitVec.eq_of_toNat_eq
      rw [BitVec.toNat_ofNat, Nat.pow_zero, Nat.div_one, Nat.add_mul_mod_self_left, Nat.mod_eq_of_lt hb, Nat.add_zero]
    | succ k =>
      have hdiv : ((s.cell a).toNat + 256 * leNat (s.cells (a + 1) n)) / 256 = leNat (s.cells (a + 1) n) := by omega
      rw [Nat.pow_succ', ← Nat.div_div_eq_div_mul, hdiv, ih (a + 1) (by omega)]
      congr 1
      omega

theorem byte_cell64 (s : State) (a : Nat) {k : Nat} (h : k < 8) :
    BitVec.ofNat 8 ((s.cell64 a).toNat / 256 ^ k) = s.cell (a + k) := by
  have hlt : leNat (s.cells a 8) < 2 ^ 64 := (leNat_lt (s.cells a 8)).trans_le (by rw [length_cells]; decide)
  rw [State.cell64, BitVec.toNat_ofNat, Nat.mod_eq_of_lt hlt, byte_leNat_cells s a h]

theorem ofNat_or_div (x y k : Nat) : BitVec.ofNat 8 ((x ||| y) / 256 ^ k) = BitVec.ofNat 8 (x / 256 ^ k) ||| BitVec.ofNat 8 (y / 256 ^ k) := by
  have h256 : 256 ^ k = 2 ^ (8 * k) := by rw [Nat.pow_mul]
  apply BitVec.eq_of_getLsbD_eq
  intro i hi
  simp only [h256, hi, BitVec.getLsbD_or, BitVec.getLsbD_ofNat, Nat.testBit_div_two_pow, Nat.testBit_or, decide_true, Bool.true_and]

section
variable {s : State} (hop : s.flc.op = none) (a : Nat) (v : BitVec 64)
include hop

/-- Programming an OTP word sets bits of its own cells only. -/
theorem cell_orWord_in {k : Nat} (h : k < 8) :
    (s.orWord a v).cell (a + k) = s.cell (a + k) ||| BitVec.ofNat 8 (v.toNat / 256 ^ k) := by
  rw [State.orWord, cell_set64_in hop _ _ h, BitVec.toNat_or, ofNat_or_div, byte_cell64 s a h]

theorem cell_orWord_out {b : Nat} (h : b < a ∨ a + 8 ≤ b) : (s.orWord a v).cell b = s.cell b :=
  cell_set64_out hop a _ h

end

-- the life-cycle record (19 R479)

theorem bitsN_or (x y lo n : Nat) : bitsN (x ||| y) lo n = bitsN x lo n ||| bitsN y lo n := by
  apply Nat.eq_of_testBit_eq
  intro k
  simp [bitsN, Nat.testBit_mod_two_pow, Nat.testBit_div_two_pow, Bool.and_or_distrib_left]

/-- The bits of a step's word that belong to step `j` of the same word. -/
theorem stepWord_nibble : ∀ i j : Fin 16,
    bitsN (BitVec.ofNat 8 ((BitVec.ofNat 64 (15 * 16 ^ i.val)).toNat / 256 ^ (j.val / 2))).toNat (4 * (j.val % 2)) 4 =
      if j = i then 15 else 0 := by decide +kernel

section
variable {s : State} (hop : s.flc.op = none)
include hop

theorem lifeStep_orWord_step (i j : Nat) :
    (s.orWord (stepWord i).1 (stepWord i).2).lifeStep j = s.lifeStep j ||| if j = i then 15 else 0 := by
  rw [State.lifeStep, State.lifeStep, stepWord]
  by_cases hword : i / 16 = j / 16
  · have haddr : otpBase + 0x10 + j / 2 = otpBase + 0x10 + 8 * (i / 16) + j % 16 / 2 := by omega
    have hnibble := stepWord_nibble ⟨i % 16, by omega⟩ ⟨j % 16, by omega⟩
    have hodd : j % 16 % 2 = j % 2 := by omega
    have hsame : j % 16 = i % 16 ↔ j = i := by omega
    simp only [hodd, Fin.mk.injEq, hsame] at hnibble
    rw [haddr, cell_orWord_in hop _ _ (by omega), BitVec.toNat_or, bitsN_or, hnibble]
  · have hne : j ≠ i := by omega
    rw [cell_orWord_out hop _ _ (by omega), if_neg hne, Nat.or_zero]

/-- Completing a step that is set leaves the set of set steps. -/
theorem lifeSteps_orWord_step {i : Nat} (h : i ∈ s.lifeSteps) :
    (s.orWord (stepWord i).1 (stepWord i).2).lifeSteps = s.lifeSteps := by
  have hset : s.lifeStep i ≠ 0 := by simpa using (List.mem_filter.mp h).2
  have hdone : s.lifeStep i ||| 15 ≠ 0 := by
    have : 15 ≤ s.lifeStep i ||| 15 := Nat.right_le_or
    omega
  refine List.filter_congr fun j _ => ?_
  rw [lifeStep_orWord_step hop]
  split
  · next hji => rw [hji, bne_iff_ne.mpr hdone, bne_iff_ne.mpr hset]
  · rw [Nat.or_zero]

theorem lifeSteps_orWord_out {a : Nat} (v : BitVec 64) (h : otpBase + 0x20 ≤ a) : (s.orWord a v).lifeSteps = s.lifeSteps := by
  refine List.filter_congr fun j hj => ?_
  have hj32 : j < 32 := List.mem_range.mp hj
  rw [State.lifeStep, State.lifeStep, cell_orWord_out hop a v (by omega)]

theorem bootEn_orWord_out {a : Nat} (v : BitVec 64) (h : otpBase + 0x20 < a ∨ a + 8 ≤ otpBase + 0x20) :
    (s.orWord a v).bootEn = s.bootEn := by
  rw [State.bootEn, State.bootEn, State.otpNat, State.otpNat, State.cells, State.cells, cell_orWord_out hop a v h]
  rfl

end

/-- A decode is never of the codes that LCS_STATE does not know. -/
theorem lifeOf_state_lt (l : List Nat) : (lifeOf l).state < 8 := by
  unfold lifeOf
  dsimp only
  repeat' split
  all_goals decide

/-- A field beside the one written reads as before. -/
theorem fld_setFld_beside (s : State) (f g : Fld) (v : Nat) (hr : f.reg = g.reg) (hf : f.lo + f.width ≤ 32)
    (h : f.lo + f.width ≤ g.lo ∨ g.lo + g.width ≤ f.lo) : (s.setFld g v).fld f = s.fld f := by
  rw [State.fld, State.setFld, hr, rd_wr_same, wbits_setBits_ne _ _ hf h, State.fld, hr]

theorem writeLife_state (s : State) {l : Life} (d : Bool) (h : l.state < 8) :
    (s.writeLife l d).fld F.LCS_STATE_STATE = l.state := by
  have hdecode (t : State) (x : Nat) (hx : x % 8 = l.state) : (t.wr R.LCS_STATE (BitVec.ofNat 32 x)).fld F.LCS_STATE_STATE = l.state := by
    rw [State.fld, show F.LCS_STATE_STATE.reg = R.LCS_STATE from rfl, rd_wr_same, wbits, bitsN, BitVec.toNat_ofNat]
    show x % 2 ^ 32 / 2 ^ 0 % 2 ^ 3 = l.state
    omega
  rw [State.writeLife, State.setBit, fld_setFld_beside _ F.LCS_STATE_STATE F.LCS_STATE_KMP _ rfl (by decide) (by decide), State.setBit,
    fld_setFld_beside _ F.LCS_STATE_STATE F.LCS_STATE_KDP _ rfl (by decide) (by decide)]
  exact hdecode _ _ (by omega)

-- what the steps of cast-on leave

/-- Cast-on goes from `s` to `t` with nothing but registers, OTP and the time written: the causes of the reset, flash and RAM,
what the life-cycle record says and whether a boot list runs stay. -/
structure CastOnStep (s t : State) : Prop where
  pending : t.pending = s.pending
  bus : t.bus = s.bus
  reports : t.reports = s.reports
  queues : t.queues = s.queues
  chip : t.chip = s.chip
  cause : t.rd R.SYS_RST_CAUSE = s.rd R.SYS_RST_CAUSE
  record : t.rd R.FCC_CRSTREC = s.rd R.FCC_CRSTREC
  byte : ∀ a < otpBase, t.byte a = s.byte a
  op : t.flc.op = s.flc.op
  steps : t.lifeSteps = s.lifeSteps
  boot : t.bootEn = s.bootEn

namespace CastOnStep

theorem refl (s : State) : CastOnStep s s := ⟨rfl, rfl, rfl, rfl, rfl, rfl, rfl, fun _ _ => rfl, rfl, rfl, rfl⟩

theorem trans {s t u : State} (h : CastOnStep s t) (k : CastOnStep t u) : CastOnStep s u :=
  ⟨k.pending.trans h.pending, k.bus.trans h.bus, k.reports.trans h.reports, k.queues.trans h.queues, k.chip.trans h.chip,
   k.cause.trans h.cause, k.record.trans h.record, fun a ha => (k.byte a ha).trans (h.byte a ha), k.op.trans h.op,
   k.steps.trans h.steps, k.boot.trans h.boot⟩

/-- Every register but the two may be written. -/
theorem wr (s : State) (r : Reg) (v : Word) (i : Nat)
    (h : R.SYS_RST_CAUSE.addr 0 0 ≠ r.addr i 0 ∧ R.FCC_CRSTREC.addr 0 0 ≠ r.addr i 0) : CastOnStep s (s.wr r v i) :=
  ⟨rfl, rfl, rfl, rfl, rfl, rd_wr_ne s v h.1, rd_wr_ne s v h.2, fun _ _ => rfl, rfl, rfl, rfl⟩

theorem setFld (s : State) (f : Fld) (v : Nat)
    (h : R.SYS_RST_CAUSE.addr 0 0 ≠ f.reg.addr 0 0 ∧ R.FCC_CRSTREC.addr 0 0 ≠ f.reg.addr 0 0) : CastOnStep s (s.setFld f v) :=
  wr s f.reg _ 0 h

theorem setBit (s : State) (f : Fld) (b : Bool)
    (h : R.SYS_RST_CAUSE.addr 0 0 ≠ f.reg.addr 0 0 ∧ R.FCC_CRSTREC.addr 0 0 ≠ f.reg.addr 0 0) : CastOnStep s (s.setBit f b) :=
  setFld s f _ h

theorem orWord {s : State} {a : Nat} (v : BitVec 64) (ha : otpBase ≤ a) (hsteps : (s.orWord a v).lifeSteps = s.lifeSteps)
    (hboot : (s.orWord a v).bootEn = s.bootEn) : CastOnStep s (s.orWord a v) := by
  have hbyte : ∀ b < otpBase, (s.orWord a v).byte b = s.byte b := fun b hb => by
    rw [State.orWord, byte_set64, byte_setBytes_out _ _ _ (.inl (by omega))]
  have hrest : s.orWord a v = { s with mem := (s.orWord a v).mem, flc := s.flc.settle a (a + 8) } := by
    rw [State.orWord, State.set64, setBytes_eq]
  have hregs : (s.orWord a v).regs = s.regs := by rw [hrest]
  exact ⟨by rw [hrest], by rw [hrest], by rw [hrest], by rw [hrest], by rw [hrest], by rw [State.rd, hregs, State.rd],
    by rw [State.rd, hregs, State.rd], hbyte, by rw [hrest]; rfl, hsteps, hboot⟩

section
variable {s : State} (hop : s.flc.op = none)
include hop

theorem orWord_step {i : Nat} (h : i ∈ s.lifeSteps) : CastOnStep s (s.orWord (stepWord i).1 (stepWord i).2) := by
  have hi : i < 32 := List.mem_range.mp (List.mem_filter.mp h).1
  have hlow : otpBase ≤ (stepWord i).1 ∧ (stepWord i).1 + 8 ≤ otpBase + 0x20 := by
    show otpBase ≤ otpBase + 0x10 + 8 * (i / 16) ∧ otpBase + 0x10 + 8 * (i / 16) + 8 ≤ otpBase + 0x20
    omega
  exact orWord _ hlow.1 (lifeSteps_orWord_step hop h) (bootEn_orWord_out hop _ (.inr hlow.2))

theorem orWord_key {a : Nat} (v : BitVec 64) (ha : otpBase + 0x80 ≤ a) : CastOnStep s (s.orWord a v) :=
  orWord v (by omega) (lifeSteps_orWord_out hop v (by omega)) (bootEn_orWord_out hop v (.inl (by omega)))

/-- Completing OTP changes nothing that cast-on reads from it (19 R472 step 3b). -/
theorem completeOtp : CastOnStep s s.completeOtp := by
  have hpart : CastOnStep s (((List.range 32).filter fun i => s.lifeStep i != 0 && s.lifeStep i != 15).foldl
      (fun s i => s.orWord (stepWord i).1 (stepWord i).2) s) := by
    refine List.foldlRecOn (motive := CastOnStep s) _ _ (.refl s) fun t ht i hi => ht.trans (orWord_step (ht.op.trans hop) ?_)
    obtain ⟨hi, hset⟩ := List.mem_filter.mp hi
    rw [ht.steps]
    exact List.mem_filter.mpr ⟨hi, (Bool.and_eq_true_iff.mp hset).1⟩
  have hkeys (l : List Nat) (hl : ∀ a ∈ l, otpBase + 0x80 ≤ a) {t : State} (ht : CastOnStep s t) :
      CastOnStep s (l.foldl (fun s a => s.orWord a (BitVec.allOnes 64)) t) :=
    List.foldlRecOn (motive := CastOnStep s) _ _ ht fun u hu a ha => hu.trans (orWord_key (hu.op.trans hop) _ (hl a ha))
  have hopen : ∀ a ∈ (if (lifeOf s.lifeSteps).state = 5 then
      [otpBase + 0x80, otpBase + 0x88, otpBase + 0x90, otpBase + 0x98].filter fun a => s.cell64 a != BitVec.allOnes 64 else []),
      otpBase + 0x80 ≤ a := fun a ha => by
    have hmem : a ∈ [otpBase + 0x80, otpBase + 0x88, otpBase + 0x90, otpBase + 0x98] := by
      split at ha
      · exact (List.mem_filter.mp ha).1
      · cases ha
    simp only [List.mem_cons, List.not_mem_nil, or_false] at hmem
    omega
  have hdone (c : Prop) [Decidable c] {t : State} (ht : CastOnStep s t) :
      CastOnStep s (if c then s else t.setBit F.LCS_CASTON_OTPCOMP true) := by
    split
    · exact .refl s
    · exact ht.trans (setBit _ _ _ (by decide))
  exact hdone _ (hkeys _ hopen hpart)

end

theorem writeLife (s : State) (l : Life) (d : Bool) : CastOnStep s (s.writeLife l d) :=
  ((wr s _ _ 0 (by decide)).trans (setBit _ _ _ (by decide))).trans (setBit _ _ _ (by decide))

theorem castOnOtp {s : State} (hop : s.flc.op = none) (w : CastOnWorld) : CastOnStep s (s.castOnOtp w) := by
  have hlife : CastOnStep s (if w.otpDiffers then s.writeLife { lifeOf [31] with next := 32 } true
      else s.completeOtp.writeLife (lifeOf s.completeOtp.lifeSteps) false) := by
    split
    · exact writeLife _ _ _
    · exact (completeOtp hop).trans (writeLife _ _ _)
  have hstraps (t : State) : CastOnStep t { t with csl := { t.csl with straps := w.straps } } :=
    ⟨rfl, rfl, rfl, rfl, rfl, rfl, rfl, fun _ _ => rfl, rfl, rfl, rfl⟩
  exact (hlife.trans (setFld _ F.CSL_ADDR_ADDR w.straps.toNat (by decide))).trans (hstraps _)

theorem loadFlc (s : State) : CastOnStep s s.loadFlc :=
  (setFld s _ _ (by decide)).trans (wr _ _ _ 0 (by decide))

end CastOnStep

/-- A unit that is not RETURNED is not so after cast-on has read its record. -/
theorem castOnOtp_state {s : State} (hop : s.flc.op = none) (hret : (lifeOf s.lifeSteps).state ≠ 4) (w : CastOnWorld) :
    (s.castOnOtp w).fld F.LCS_STATE_STATE ≠ 4 := by
  have hlife : (if w.otpDiffers then s.writeLife { lifeOf [31] with next := 32 } true
      else s.completeOtp.writeLife (lifeOf s.completeOtp.lifeSteps) false).fld F.LCS_STATE_STATE ≠ 4 := by
    split
    · rw [writeLife_state _ _ (by decide)]
      decide
    · rw [writeLife_state _ _ (lifeOf_state_lt _), (CastOnStep.completeOtp hop).steps]
      exact hret
  intro h
  exact hlife (.trans (fld_wr_ne _ F.LCS_STATE_STATE _ (by decide)).symm h)

-- steps 5 to 8

/-- Cast-on with its time set and FLC at work, before it looks for a returned unit (19 R472 steps 5 and 6). -/
def State.flashUp (s : State) (w : CastOnWorld) : State :=
  ((({ s with time := w.ticks, fcc := { s.fcc with edgeAt := w.ticks } }).setBit F.LCS_CASTON_FLB0 w.bank0Failed).setBit
    F.LCS_CASTON_FLB1 w.bank1Failed).loadFlc

theorem CastOnStep.flashUp (s : State) (w : CastOnWorld) : CastOnStep s (s.flashUp w) := by
  have htime : CastOnStep s { s with time := w.ticks, fcc := { s.fcc with edgeAt := w.ticks } } :=
    ⟨rfl, rfl, rfl, rfl, rfl, rfl, rfl, fun _ _ => rfl, rfl, rfl, rfl⟩
  exact ((htime.trans (setBit _ F.LCS_CASTON_FLB0 w.bank0Failed (by decide))).trans
    (setBit _ F.LCS_CASTON_FLB1 w.bank1Failed (by decide))).trans (loadFlc _)

theorem flashUp_state (s : State) (w : CastOnWorld) : (s.flashUp w).fld F.LCS_STATE_STATE = s.fld F.LCS_STATE_STATE := by
  rw [State.flashUp, State.loadFlc, fld_wr_ne _ _ _ (by decide), State.setFld, fld_wr_ne _ _ _ (by decide),
    State.setBit, State.setFld, fld_wr_ne _ _ _ (by decide), State.setBit, State.setFld, fld_wr_ne _ _ _ (by decide)]
  rfl

section
variable {s : State} (hlife : s.fld F.LCS_STATE_STATE ≠ 4) (hboot : s.bootEn = false) (w : CastOnWorld)
include hlife hboot

/-- With no unit returned and no boot list, cast-on only notes how it went. -/
theorem castOnUp_plain : s.castOnUp w =
    (if s.fld F.LCS_STATE_STATE = 4 ∨ s.fld F.LCS_STATE_STATE = 5 then (s.flashUp w).setFld F.LCS_CASTON_BOOT 4
      else s.flashUp w).wr R.LCS_CASTON_T (BitVec.setWidth 32 w.ticks) := by
  have hstate := flashUp_state s w
  have hreturn : (s.flashUp w).returnErase w = s.flashUp w := if_pos (.inl (by rwa [hstate]))
  have hbootUp : (s.flashUp w).bootEn = false := (CastOnStep.flashUp s w).boot.trans hboot
  rw [State.castOnUp, ← State.flashUp, hreturn, hstate]
  simp only [hbootUp, Bool.false_eq_true, false_and, if_false]
  split <;> rfl

theorem castOnUp_step : CastOnStep s (s.castOnUp w) ∧ (s.castOnUp w).time = w.ticks := by
  rw [castOnUp_plain hlife hboot w]
  split
  · exact ⟨((CastOnStep.flashUp s w).trans (.setFld _ _ _ (by decide))).trans (.wr _ _ _ 0 (by decide)), rfl⟩
  · exact ⟨(CastOnStep.flashUp s w).trans (.wr _ _ _ 0 (by decide)), rfl⟩

end

-- a reset from its start to its end

/-- `t` is the chip after a reset that found `s`: what SYS_RST_CAUSE and the record of the reaction say, and what memory
and the queues hold (02 R52, 19 R472). -/
structure ChipWasReset (s : State) (causes : BitVec 5) (t : State) : Prop where
  cause : t.rd R.SYS_RST_CAUSE = BitVec.ofNat 32 (highest causes)
  pending : t.pending = s.pending
  posted : t.bus.posted = []
  reports : t.reports = []
  queues : ∀ q : QNum, (t.q q).mode = .off ∧ (t.q q).cmds = []
  flash : ∀ a < 0x1000000, t.byte a = s.byte a
  ram : ∀ a, 0x10000000 ≤ a → a < 0x30000000 → t.byte a = memDefault a
  record : causes.getLsbD 2 = true → t.rd R.FCC_CRSTREC = s.rd R.FCC_CRSTREC

theorem ChipWasReset.after_step {s t u : State} {causes : BitVec 5} (h : ChipWasReset s causes t) (k : CastOnStep t u) :
    ChipWasReset s causes u where
  cause := k.cause.trans h.cause
  pending := k.pending.trans h.pending
  posted := by rw [k.bus, h.posted]
  reports := k.reports.trans h.reports
  queues q := by rw [State.q, k.queues]; exact h.queues q
  flash a ha := (k.byte a (by simp only [otpBase]; omega)).trans (h.flash a ha)
  ram a hlo hhi := (k.byte a hhi).trans (h.ram a hlo hhi)
  record hc := k.record.trans (h.record hc)

theorem coldStart_queues (s : State) (q : QNum) : (s.coldStart.q q).mode = .off ∧ (s.coldStart.q q).cmds = [] := by
  simp [State.coldStart, State.reset, State.q]

/-- Flash and OTP keep their bytes; the rest reads its default. -/
theorem byte_coldStart (s : State) (a : Nat) :
    s.coldStart.byte a = if a < flashEnd ∨ otpBase ≤ a then s.byte a else memDefault a := by
  have h := sget_filter_key (memDefault a) a (fun k => k < flashEnd || otpBase ≤ k) s.mem
  exact h.trans (if_congr (by simp) rfl rfl)

theorem byte_coldStart_flash (s : State) (a : Nat) (h : a < 0x1000000) : s.coldStart.byte a = s.byte a :=
  (byte_coldStart s a).trans (if_pos (.inl h))

theorem cell_coldStart {s : State} (hop : s.flc.op = none) {a : Nat} (h : otpBase ≤ a) : s.coldStart.cell a = s.cell a := by
  have hbyte : s.coldStart.byte a = s.byte a := (byte_coldStart s a).trans (if_pos (.inr h))
  rw [cell_idle (s := s.coldStart) rfl, cell_idle hop, hbyte]
  rfl

theorem lifeSteps_coldStart {s : State} (hop : s.flc.op = none) : s.coldStart.lifeSteps = s.lifeSteps := by
  refine List.filter_congr fun i _ => ?_
  rw [State.lifeStep, State.lifeStep, cell_coldStart hop (by omega)]

theorem bootEn_coldStart {s : State} (hop : s.flc.op = none) : s.coldStart.bootEn = s.bootEn := by
  rw [State.bootEn, State.bootEn, State.otpNat, State.otpNat, State.cells, State.cells, cell_coldStart hop (by omega)]
  rfl

/-- Steps 1 and 2: the cold chip with the cause of its reset noted. -/
def State.castOnStart (s : State) (causes : BitVec 5) : State :=
  if causes.getLsbD 2 then (s.coldStart.wr R.SYS_RST_CAUSE (BitVec.ofNat 32 (highest causes))).wr R.FCC_CRSTREC (s.rd R.FCC_CRSTREC)
  else s.coldStart.wr R.SYS_RST_CAUSE (BitVec.ofNat 32 (highest causes))

theorem castOnStart_eq (s : State) (causes : BitVec 5) :
    s.castOnStart causes = { s.coldStart with regs := (s.castOnStart causes).regs } := by
  unfold State.castOnStart
  split <;> rfl

theorem castOnStart_reset (s : State) (causes : BitVec 5) : ChipWasReset s causes (s.castOnStart causes) := by
  have hbyte (a : Nat) : (s.castOnStart causes).byte a = if a < flashEnd ∨ otpBase ≤ a then s.byte a else memDefault a := by
    rw [castOnStart_eq]
    exact byte_coldStart s a
  exact {
    cause := by
      unfold State.castOnStart
      split
      · rw [rd_wr_ne _ _ (by decide), rd_wr_same]
      · exact rd_wr_same _ _ _ _ _
    pending := by rw [castOnStart_eq]; rfl
    posted := by rw [castOnStart_eq]; rfl
    reports := by rw [castOnStart_eq]; rfl
    queues := fun q => by rw [castOnStart_eq]; exact coldStart_queues s q
    flash := fun a ha => (hbyte a).trans (if_pos (.inl ha))
    ram := fun a hlo hhi => (hbyte a).trans (if_neg (by simp only [flashEnd, otpBase]; omega))
    record := fun hc => by rw [State.castOnStart, if_pos hc, rd_wr_same] }

/-- How cast-on ends: it waits for the crystal, is up at its time, or has failed to lock. -/
def CastOnOutcome (w : CastOnWorld) (waits : Prop) [Decidable waits] (t : State) : Prop :=
  if waits then t.chip.phase = .noCrystal ∧ t.fcc.alive = false
  else (w.pllTries < 3 → t.Up ∧ t.time = w.ticks) ∧ (3 ≤ w.pllTries → t.chip.phase = .failed)

/-- What a chip whose OTP and flash are idle is after cast-on. -/
theorem castOn_result {s : State} (hop : s.flc.op = none) (hboot : s.bootEn = false) (hret : (lifeOf s.lifeSteps).state ≠ 4)
    (cause : Nat) (w : CastOnWorld) :
    ChipWasReset s (s.resetCauses cause w) (s.castOn cause w) ∧
    (s.castOn cause w).chip = { s.coldStart.chip with phase := (s.castOn cause w).chip.phase } ∧
    CastOnOutcome w (w.noCrystal = true ∧ (cause = 0 ∨ cause = 1)) (s.castOn cause w) := by
  set causes := s.resetCauses cause w with hcauses
  set u := s.castOnStart causes with hu
  set v := (u.castOnOtp w).setFld F.LCS_CASTON_PLLTRY (min 2 w.pllTries) with hv
  have hcast : s.castOn cause w =
      if w.noCrystal ∧ (cause = 0 ∨ cause = 1) then
        { u with chip := { u.chip with phase := .noCrystal }, fcc := { u.fcc with alive := false } }
      else if 3 ≤ w.pllTries then { v with chip := { v.chip with phase := .failed }, fcc := { v.fcc with alive := false } }
      else v.castOnUp w := rfl
  have hstart : ChipWasReset s causes u := castOnStart_reset s causes
  have huOp : u.flc.op = none := by rw [hu, castOnStart_eq]; rfl
  have huChip : u.chip = s.coldStart.chip := by rw [hu, castOnStart_eq]
  have huBoot : u.bootEn = false := by rw [hu, castOnStart_eq]; exact (bootEn_coldStart hop).trans hboot
  have huSteps : u.lifeSteps = s.lifeSteps := by rw [hu, castOnStart_eq]; exact lifeSteps_coldStart hop
  have hstep : CastOnStep u v := (CastOnStep.castOnOtp huOp w).trans (.setFld _ _ _ (by decide))
  have hvLife : v.fld F.LCS_STATE_STATE ≠ 4 := by
    rw [hv, State.setFld, fld_wr_ne _ _ _ (by decide)]
    exact castOnOtp_state huOp (by rwa [huSteps]) w
  rw [CastOnOutcome, hcast]
  split
  · exact ⟨{ hstart with }, by rw [huChip], rfl, rfl⟩
  · split
    · next hpll =>
      refine ⟨{ hstart.after_step hstep with }, by rw [hstep.chip, huChip], fun h => absurd h (by omega), fun _ => rfl⟩
    · next hpll =>
      obtain ⟨hup, htime⟩ := castOnUp_step hvLife (hstep.boot.trans huBoot) w
      have hchip : (v.castOnUp w).chip = s.coldStart.chip := (hup.chip.trans hstep.chip).trans huChip
      exact ⟨(hstart.after_step hstep).after_step hup, by rw [hchip], fun _ => ⟨by rw [State.Up, hchip]; rfl, htime⟩,
        fun h => absurd h hpll⟩

-- the resets as commands

/-- With nothing under programming a reset cuts nothing short. -/
theorem cutOps_idle {s : State} (hop : s.flc.op = none) (hlcs : s.chip.lcs = none) (power : Bool) : s.cutOps power = s := by
  have hpulse : s.pulseBegun = s := by rw [State.pulseBegun, hop]
  have hchip : { s.chip with lcs := none } = s.chip := by rw [← hlcs]
  rw [State.cutOps, hpulse]
  simp only [hop, hlcs, hchip]

section
variable {s : State} (hop : s.flc.op = none) (hlcs : s.chip.lcs = none) (hboot : s.bootEn = false)
  (hret : (lifeOf s.lifeSteps).state ≠ 4) (w : CastOnWorld)
include hop hboot hret

/-- Cast-on keeps what no command but those of the TAP and power-on reaches. -/
theorem keepOuter_castOn (cause : Nat) : s.keepOuter (s.castOn cause w) = s.castOn cause w := by
  obtain ⟨hreset, hchip, -⟩ := castOn_result hop hboot hret cause w
  exact keepOuter_eq hreset.pending (by rw [hchip]; rfl)

theorem exec_bscanResetRelease (hheld : s.chip.phase = .held) (hcur : s.chip.tap.holds = false) :
    exec (.bscanResetRelease w) s = .next (s.castOn 1 { w with noCrystal := false }) := by
  have hrun : s.bscanRelease w = s.castOn 1 { w with noCrystal := false } := if_pos ⟨hheld, by simp [hcur]⟩
  have hexec : exec (.bscanResetRelease w) s = .next (s.keepOuter (s.bscanRelease w)) := rfl
  rw [hexec, hrun, keepOuter_castOn hop hboot hret]

include hlcs

theorem keepOuter_chipReset (cause : Nat) : s.keepOuter (s.chipReset cause w) = s.castOn cause w := by
  rw [State.chipReset, cutOps_idle hop hlcs, keepOuter_castOn hop hboot hret]

theorem exec_nreset {ns : Nat} (hns : 10000 ≤ ns) (hheld : s.chip.phase ≠ .held) (hsupply : s.chip.phase ≠ .noSupply) :
    exec (.nreset ns false w) s = .next (s.castOn 1 w) := by
  have hrun : s.nReset ns false w = s.chipReset 1 w := by
    rw [State.nReset, if_pos (.inl hns), if_neg (by simp [hheld, hsupply])]
  have hexec : exec (.nreset ns false w) s = .next (s.keepOuter (s.nReset ns false w)) := rfl
  rw [hexec, hrun, keepOuter_chipReset hop hlcs hboot hret]

theorem exec_crstReaction (hup : s.Up) (hclk : s.chip.sysStopped = false) {τ : BitVec 64} (hrec : s.fcc.crst = some τ)
    (hdue : 100 ≤ s.since τ) : exec (.crstReaction w) s = .next (s.castOn 2 w) := by
  have hexec : exec (.crstReaction w) s = whenUp s fun s =>
    if ¬ s.chip.sysStopped ∧ s.fcc.crst.any fun t => decide (usTicks ≤ s.since t) then s.chipReset 2 w else s := rfl
  have hdue' : usTicks ≤ s.since τ := hdue
  rw [hexec, whenUp_up hup, if_pos (by simp [hclk, hrec, hdue']), keepOuter_chipReset hop hlcs hboot hret]

theorem exec_sysSwrst (hup : s.Up) : exec (.sysSwrst 0xA5 w) s = .next (s.castOn 3 w) := by
  have hexec : exec (.sysSwrst 0xA5 w) s = whenUp s fun s =>
    if wbits 0xA5 0 8 = 0xA5 ∨ s.chip.swrst then s.chipReset 3 w else s := rfl
  rw [hexec, whenUp_up hup, if_pos (.inl (by decide)), keepOuter_chipReset hop hlcs hboot hret]

theorem exec_pllLockLoss (hup : s.Up) : exec (.pllLockLoss w) s = .next (s.castOn 4 w) := by
  have hexec : exec (.pllLockLoss w) s = whenUp s fun s => s.chipReset 4 w := rfl
  rw [hexec, whenUp_up hup, keepOuter_chipReset hop hlcs hboot hret]

end

/-- `t` ends the reset that cause `bit` brought on `s`. -/
structure ResetEnds (s : State) (w : CastOnWorld) (bit : Nat) (waits : Prop) [Decidable waits] (t : State) : Prop
    extends ChipWasReset s (s.resetCauses bit w) t where
  powered : bit = 0 → t.chip.bankA = decide (2500 < w.vioA) ∧ t.chip.bankB = decide (2500 < w.vioB) ∧ t.chip.tap = .idcode
  kept : bit ≠ 0 → t.chip.bankA = s.chip.bankA ∧ t.chip.bankB = s.chip.bankB ∧ t.chip.tap = s.chip.tap
  outcome : CastOnOutcome w waits t

theorem CastOnOutcome.of_iff {w : CastOnWorld} {p q : Prop} [Decidable p] [Decidable q] {t : State}
    (h : CastOnOutcome w p t) (hiff : p ↔ q) : CastOnOutcome w q t := by
  rw [CastOnOutcome, ← if_congr hiff rfl rfl]
  exact h

section
variable {s : State} (hop : s.flc.op = none) (hboot : s.bootEn = false) (hret : (lifeOf s.lifeSteps).state ≠ 4)
  {w : CastOnWorld} {waits : Prop} [Decidable waits]
include hop hboot hret

theorem castOn_ends {cause : Nat} (hcause : cause ≠ 0) (hwaits : w.noCrystal = true ∧ (cause = 0 ∨ cause = 1) ↔ waits) :
    ResetEnds s w cause waits (s.castOn cause w) := by
  obtain ⟨hreset, hchip, hout⟩ := castOn_result hop hboot hret cause w
  exact { hreset with
    powered := fun h => absurd h hcause
    kept := fun _ => by rw [hchip]; exact ⟨rfl, rfl, rfl⟩
    outcome := hout.of_iff hwaits }

/-- The reset that ends boundary scan does not wait for the crystal. -/
theorem castOn_released_ends (hwaits : ¬ waits) : ResetEnds s w 1 waits (s.castOn 1 { w with noCrystal := false }) := by
  have h : ResetEnds s { w with noCrystal := false } 1 waits (s.castOn 1 { w with noCrystal := false }) :=
    castOn_ends hop hboot hret (by decide) (by simp [hwaits])
  exact { h with outcome := h.outcome }
end

/-- A pulse that is too short or not taken, and any in the power-on reset (20 R510). -/
theorem nReset_ignored {s : State} {ns : Nat} {taken : Bool} (w : CastOnWorld)
    (h : ns < 1000 ∨ (ns < 10000 ∧ taken = false) ∨ s.chip.phase = .noSupply) : s.nReset ns taken w = s := by
  unfold State.nReset
  split
  · next hlong =>
    obtain hns | ⟨hns, htaken⟩ | hpowered := h
    · omega
    · simp only [htaken, Bool.false_eq_true, and_false, or_false] at hlong
      omega
    · exact if_pos (.inr hpowered)
  · rfl

-- power-on

theorem exec_powerOnReset {s : State} (hop : s.flc.op = none) (hlcs : s.chip.lcs = none) (w : CastOnWorld) :
    exec (.powerOnReset w) s = .next (s.keepQueue (
      let t := if supplyLow w then { s.coldStart with chip := { phase := .noSupply }, fcc := { FccSt.reset with alive := false } }
        else s.castOn 0 w
      { t with chip := { t.chip with tap := .idcode, boundary := 0, captured := 0, tdata := 0, tres := 0, tuntil := 0,
                                     bankA := decide (2500 < w.vioA), bankB := decide (2500 < w.vioB) } })) := by
  have hexec : exec (.powerOnReset w) s = .next (s.keepQueue (s.powerOn w none)) := rfl
  rw [hexec, State.powerOn, if_neg (by simp), cutOps_idle hop hlcs]

theorem exec_powerOnReset_ends {s : State} (hop : s.flc.op = none) (hlcs : s.chip.lcs = none) (hboot : s.bootEn = false)
    (hret : (lifeOf s.lifeSteps).state ≠ 4) {w : CastOnWorld} (hsupply : supplyLow w = false) {waits : Prop} [Decidable waits]
    (hwaits : w.noCrystal = true ↔ waits) : ∃ t, exec (.powerOnReset w) s = .next t ∧ ResetEnds s w 0 waits t := by
  obtain ⟨hreset, -, hout⟩ := castOn_result hop hboot hret 0 w
  refine ⟨_, exec_powerOnReset hop hlcs w, ?_⟩
  rw [hsupply, if_neg Bool.false_ne_true]
  exact { hreset with
    pending := rfl
    powered := fun _ => ⟨rfl, rfl, rfl⟩
    kept := fun h => absurd rfl h
    outcome := CastOnOutcome.of_iff (p := w.noCrystal = true ∧ (0 = 0 ∨ 0 = 1)) hout (by simp [hwaits]) }

-- instructions of the TAP

theorem whenTap_noSupply {s : State} (h : s.chip.phase = .noSupply) (f : State → State) : s.whenTap f = s := if_pos h

/-- A command of the TAP finds nothing to act on in the power-on reset. -/
theorem exec_tap_noSupply {s : State} (h : s.chip.phase = .noSupply) {c : Instr} (f : State → State)
    (hexec : exec c s = .next (s.keepQueue (s.whenTap f))) : exec c s = .next s := by
  rw [hexec, whenTap_noSupply h]
  rfl

theorem whenTap_runs {s : State} (h : s.chip.phase ≠ .noSupply) (f : State → State) : s.whenTap f = f s := if_neg h

/-- While the islands are held only the instruction changes. -/
theorem bscanHold_held {s : State} (h : s.chip.phase = .held) (i : TapInstr) :
    s.bscanHold i = { s with chip := { s.chip with tap := i } } := by
  rw [State.bscanHold, whenTap_runs (by simp [h]), if_pos h]

/-- Otherwise the islands go into reset. -/
theorem bscanHold_running {s : State} (hsupply : s.chip.phase ≠ .noSupply) (hheld : s.chip.phase ≠ .held)
    (hop : s.flc.op = none) (hlcs : s.chip.lcs = none) (i : TapInstr) :
    s.bscanHold i = { s.coldStart with
      chip := { s.coldStart.chip with phase := .held, tap := i }, fcc := { s.coldStart.fcc with alive := false } } := by
  rw [State.bscanHold, whenTap_runs hsupply, if_neg hheld, cutOps_idle hop hlcs]

end Sys2Proof.Machine

open Sys2Proof Sys2Proof.Machine

/-- Settles O59: each reset runs cast-on from a chip with nothing under programming, and each instruction of the TAP holds
the islands or changes the TAP alone. -/
theorem chipResets : Obligations.ChipResets := by
  unfold Obligations.ChipResets
  intro s w bits board ns hop hlcs hboot hret
  refine ⟨fun c hc hrelease hnreset hsupply hup hcrst => ?resets, fun hlow => ?low, fun d hd => ?dip, fun taken h => ?short,
    fun hsupply c hc => ?dead, fun hsupply => ⟨fun c hc hheld => ?hold, fun hheld => ?extest, fun c hc hheld => ?islands, ?preload,
    fun tlr => ?idcode, fun code => ?bypass, ?transom⟩⟩
  case resets =>
    obtain ⟨t, hexec, h⟩ : ∃ t, exec c.2 s = .next t ∧
        ResetEnds s w c.1 (w.noCrystal = true ∧ c.1 < 2 ∧ c.2 ≠ .bscanResetRelease w) t := by
      simp only [List.mem_cons, List.not_mem_nil, or_false] at hc
      obtain rfl | rfl | rfl | rfl | rfl | rfl := hc
      · exact exec_powerOnReset_ends hop hlcs hboot hret (hsupply rfl) (by simp)
      · obtain ⟨hns, hheld, hpowered⟩ := hnreset rfl
        exact ⟨_, exec_nreset hop hlcs hboot hret w hns hheld hpowered, castOn_ends hop hboot hret (by simp) (by simp)⟩
      · obtain ⟨hclk, τ, hrec, hdue⟩ := hcrst rfl
        exact ⟨_, exec_crstReaction hop hlcs hboot hret w (hup (by simp)) hclk hrec hdue, castOn_ends hop hboot hret (by simp) (by simp)⟩
      · exact ⟨_, exec_sysSwrst hop hlcs hboot hret w (hup (by simp)), castOn_ends hop hboot hret (by simp) (by simp)⟩
      · exact ⟨_, exec_pllLockLoss hop hlcs hboot hret w (hup (by simp)), castOn_ends hop hboot hret (by simp) (by simp)⟩
      · obtain ⟨hheld, hcur⟩ := hrelease rfl
        exact ⟨_, exec_bscanResetRelease hop hboot hret w hheld hcur, castOn_released_ends hop hboot hret (by simp)⟩
    exact ⟨t, hexec, h.cause, h.pending, h.posted, h.reports, h.queues, h.flash, h.ram, h.record, h.powered, h.kept, h.outcome⟩
  case low =>
    refine ⟨_, exec_powerOnReset hop hlcs w, ?_⟩
    rw [hlow, if_pos rfl]
    exact ⟨rfl, rfl, rfl, rfl, rfl, rfl, coldStart_queues s, byte_coldStart_flash s⟩
  case dip =>
    have hexec : exec (.powerOnReset w (some d)) s = .next (s.keepQueue (s.powerOn w (some d))) := rfl
    rw [hexec, State.powerOn, if_pos (by simp [hd])]
    rfl
  case short =>
    have hexec : exec (.nreset ns taken w) s = .next (s.keepOuter (s.nReset ns taken w)) := rfl
    rw [hexec, nReset_ignored w h, keepOuter_self]
  case dead =>
    have hidcode : exec (.bscanIdcode false) s = .next (s.keepQueue (s.bscanSelect .idcode)) := rfl
    have hbypass : exec .bscanBypass s = .next (s.keepQueue (s.bscanSelect .bypass)) :=
      congrArg (Host.Outcome.next <| s.keepQueue ·) (if_pos (by decide))
    simp only [List.mem_cons, List.not_mem_nil, or_false] at hc
    obtain rfl | rfl | rfl | rfl | rfl | rfl | rfl := hc
    case inr.inr.inr.inr.inl => exact exec_tap_noSupply hsupply _ hidcode
    case inr.inr.inr.inr.inr.inl => exact exec_tap_noSupply hsupply _ hbypass
    all_goals exact exec_tap_noSupply hsupply _ rfl
  case hold =>
    simp only [List.mem_cons, List.not_mem_nil, or_false] at hc
    obtain rfl | rfl := hc
    · exact congrArg _ (congrArg s.keepQueue (bscanHold_held hheld .clamp))
    · exact congrArg _ (congrArg s.keepQueue (bscanHold_held hheld .highz))
  case extest =>
    have hexec : exec (.bscanExtest bits board) s = .next (s.keepQueue (s.bscanExtest bits board)) := rfl
    rw [hexec, State.bscanExtest, whenTap_runs hsupply, bscanHold_held hheld]
    rfl
  case islands =>
    have hclamp : exec .bscanClamp s = .next (s.keepQueue (s.bscanHold .clamp)) := rfl
    have hhighz : exec .bscanHighz s = .next (s.keepQueue (s.bscanHold .highz)) := rfl
    have hextest : exec (.bscanExtest bits board) s = .next (s.keepQueue ((s.bscanHold .extest).boundaryScan bits board)) :=
      congrArg _ (congrArg s.keepQueue (whenTap_runs hsupply _))
    simp only [List.mem_cons, List.not_mem_nil, or_false] at hc
    obtain rfl | rfl | rfl := hc
    · rw [Gives, hextest, bscanHold_running hsupply hheld hop hlcs]
      exact ⟨_, rfl, rfl, rfl, rfl, rfl, rfl, fun q => (coldStart_queues s q).1, rfl, byte_coldStart_flash s⟩
    · rw [Gives, hclamp, bscanHold_running hsupply hheld hop hlcs]
      exact ⟨_, rfl, rfl, rfl, rfl, rfl, rfl, fun q => (coldStart_queues s q).1, rfl, byte_coldStart_flash s⟩
    · rw [Gives, hhighz, bscanHold_running hsupply hheld hop hlcs]
      exact ⟨_, rfl, rfl, rfl, rfl, rfl, rfl, fun q => (coldStart_queues s q).1, rfl, byte_coldStart_flash s⟩
  case preload =>
    have hexec : exec (.bscanSamplePreload bits board) s = .next (s.keepQueue (s.bscanPreload bits board)) := rfl
    rw [hexec, State.bscanPreload, whenTap_runs hsupply, State.bscanSelect, whenTap_runs hsupply]
    rfl
  case idcode =>
    have hexec : exec (.bscanIdcode tlr) s = .next (s.keepQueue (s.bscanIdcode tlr)) := rfl
    rw [hexec, State.bscanIdcode, State.bscanSelect, whenTap_runs hsupply]
    cases tlr <;> rfl
  case bypass =>
    have hexec : exec (.bscanBypass code) s = .next (s.keepQueue (s.bscanBypass code)) := rfl
    rw [hexec, State.bscanBypass, State.bscanSelect, whenTap_runs hsupply]
    split <;> rfl
  case transom =>
    have hexec : exec .bscanTransom s = .next (s.keepQueue (s.bscanSelect .transom)) := rfl
    rw [hexec, State.bscanSelect, whenTap_runs hsupply]
    rfl
end

section
/-! SUPPORT. Doorbells and credits, the configuration of a queue, its enabling, disabling and ring (03 R53 to R56, R65, R83,
R84); what that says of O19, O20 and O21. -/

namespace Sys2Proof.Machine

-- the commands of chapter 03 that these speak of

section
variable (s : State) (q : QNum) (v : BitVec 16) (w : Word)
theorem exec_doorbell (rq : Requester) : exec (.doorbell q v rq) s =
    whenWrite rq (wordAt R.QMG_Qn_DB q.val) (v.setWidth 32) s fun s => s.doorbell q v := rfl
theorem exec_crdWrite : exec (.crdWrite q v) s = whenPage Pg.qmg s fun s => s.crdWrite q v := rfl
theorem exec_queueEnable : exec (.queueEnable q w) s =
    whenPage Pg.qmg s fun s => if w.getLsbD 0 then s.queueEnable q w else s := rfl
theorem exec_queueDisable : exec (.queueDisable q w) s =
    whenPage Pg.qmg s fun s => if w.getLsbD 0 then s else s.queueDisable q w := rfl
theorem exec_queueReconfigure_ring : exec (.queueReconfigure q 1 w) s =
    whenPage Pg.qmg s fun s => s.ringWrite q R.QMG_Qn_RING w := rfl
end

-- a queue changed twice, and seen past the guard

theorem modQ_modQ (s : State) (q : QNum) (f g : Queue → Queue) : (s.modQ q f).modQ q g = s.modQ q fun x => g (f x) := by
  simp [State.modQ]

@[simp] theorem keepOuter_q (s t : State) (q : QNum) : (s.keepOuter t).q q = t.q q := rfl

-- doorbells and credits

theorem recovDone_none {s : State} {q : QNum} (h : (s.q q).recov = none) : s.recovDone q = false := by
  simp only [State.recovDone, h]

theorem checkRecov_none {s : State} {q : QNum} (h : (s.q q).recov = none) : s.checkRecov q = s := by
  rw [State.checkRecov, recovDone_none h, if_neg Bool.false_ne_true]

/-- A doorbell within range is TAIL (03 R56). -/
theorem doorbell_within {s : State} {q : QNum} {v : BitVec 16} (hrecov : (s.q q).recov = none)
    (h : (v - (s.q q).head).toNat ≤ s.qSize q ∧ (v - (s.q q).tail).toNat ≤ s.qSize q) :
    s.doorbell q v = s.modQ q fun x => { x with tail := v, pres := if s.running Pg.qmg then v else x.pres } := by
  rw [State.doorbell, if_pos h]
  exact checkRecov_none (by rwa [q_modQ_same])

theorem areaOf_doorbell (q : QNum) : areaOf (wordAt R.QMG_Qn_DB q.val).toNat = some (.page Pg.qmg) := by
  revert q
  decide +kernel

/-- CMPL is at most requested (03 R65). -/
theorem cmplCheck_pages (s : State) (q : QNum) (n : Nat) : ∃ p, s.cmplCheck q n = { s with pages := p } := by
  unfold State.cmplCheck
  split <;> exact ⟨_, rfl⟩

-- the configuration of a queue

/-- EN is bit 0 of QMG_Qn_CFG (03 R86). -/
theorem qEn_eq_getLsbD (s : State) (q : QNum) : s.qEn q = (s.rd R.QMG_Qn_CFG q.val).getLsbD 0 := by
  have hbit : s.fld F.QMG_Qn_CFG_EN q.val = (s.rd R.QMG_Qn_CFG q.val).toNat % 2 :=
    congrArg (· % 2) (Nat.div_one (s.rd R.QMG_Qn_CFG q.val).toNat)
  rw [State.qEn, State.flag, hbit, BitVec.getLsbD, Nat.testBit_zero]
  rcases Nat.mod_two_eq_zero_or_one (s.rd R.QMG_Qn_CFG q.val).toNat with h | h <;> rw [h] <;> rfl

/-- A flag of one bit reads what was written to it. -/
theorem flag_setBit_same (s : State) {f : Fld} (b : Bool) (i j : Nat) (hw : f.width = 1) (h : f.lo + f.width ≤ 32) :
    (s.setBit f b i j).flag f i j = b := by
  rw [State.flag, State.setBit, fld_setFld_same s f b.toNat i j h, hw]
  cases b <;> rfl

theorem qEn_setBit (s : State) (q : QNum) (b : Bool) : (s.setBit F.QMG_Qn_CFG_EN b q.val).qEn q = b :=
  flag_setBit_same s b q.val 0 rfl (by decide)

theorem q_clearIx (s : State) (q : QNum) : (s.clearIx q).q q = (s.q q).clearIx := by
  unfold State.clearIx
  split <;> exact q_modQ_same _ q _

/-- Clearing the indices leaves registers and memory (03 R84). -/
theorem clearIx_stores (s : State) (q : QNum) : (s.clearIx q).regs = s.regs ∧ (s.clearIx q).mem = s.mem := by
  unfold State.clearIx
  split <;> exact ⟨rfl, rfl⟩

theorem keepOuter_clearIx (s : State) (r : Reg) (v : Word) (q : QNum) :
    s.keepOuter ((s.wr r v q.val).clearIx q) = (s.wr r v q.val).clearIx q := by
  unfold State.clearIx
  split <;> rfl

/-- A CFG write is refused, or writes QMG_Qn_CFG and at most clears the queue's indices (03 R84, R86). -/
theorem cfgWrite_shape (s : State) (q : QNum) (v : Word) : (s.cfgWrite q v).1 = s.refuse q ∨
    ∃ w, (s.cfgWrite q v).1 = s.wr R.QMG_Qn_CFG w q.val ∨ (s.cfgWrite q v).1 = (s.wr R.QMG_Qn_CFG w q.val).clearIx q := by
  simp only [State.cfgWrite]
  split
  · exact .inr ⟨_, .inl rfl⟩
  · split
    · exact .inl rfl
    · split
      · exact .inr ⟨_, .inr rfl⟩
      · exact .inr ⟨_, .inl rfl⟩

theorem cfgWrite_frame (s : State) (q : QNum) (v : Word) : (s.cfgWrite q v).1.mem = s.mem ∧
    ((s.cfgWrite q v).1.q q).mode = (s.q q).mode ∧ s.keepOuter ((s.cfgWrite q v).1.refuse q) = (s.cfgWrite q v).1.refuse q := by
  rcases cfgWrite_shape s q v with h | ⟨w, h | h⟩ <;> rw [h]
  · exact ⟨rfl, rfl, rfl⟩
  · exact ⟨rfl, rfl, rfl⟩
  · refine ⟨(clearIx_stores _ q).2, ?_, ?_⟩
    · rw [q_clearIx]
      rfl
    · unfold State.clearIx
      split <;> rfl

/-- A CFG write of a queue that is not off changes no bit of QMG_Qn_CFG but PRIO (03 R84). -/
theorem cfgWrite_busy {s : State} {q : QNum} (hm : (s.q q).mode ≠ .off) (v : Word) : s.cfgWrite q v =
    (s.wr R.QMG_Qn_CFG ((s.rd R.QMG_Qn_CFG q.val &&& ~~~0x30) ||| (v &&& 0x30)) q.val, true) := by
  rw [State.cfgWrite, if_pos hm]

theorem qEn_cfgWrite_busy {s : State} {q : QNum} (hm : (s.q q).mode ≠ .off) (v : Word) :
    (s.cfgWrite q v).1.qEn q = s.qEn q := by
  rw [qEn_eq_getLsbD, qEn_eq_getLsbD, cfgWrite_busy hm, rd_wr_same]
  simp

-- enabling and disabling

/-- EN = 1 on a disabled queue: enabled where the rings and the port pass the checks, else refused (03 R53, R54). -/
theorem queueEnable_off {s u : State} {q : QNum} {v : Word} (hcfg : s.cfgWrite q v = (u, true)) (hen : u.qEn q = false)
    (hm : (u.q q).mode = .off) : s.queueEnable q v =
      if u.enableOk q then
        ((u.setBit F.QMG_Qn_CFG_EN true q.val).modThr q fun t => { t with fresh := false }).modQ q fun x =>
          { x with mode := .run, profile := 0, pres := if u.running Pg.qmg then x.tail else x.pres }
      else u.refuse q := by
  simp only [State.queueEnable, hcfg, hen, hm, not_true_eq_false, Bool.false_eq_true, or_self, if_false, if_true]

/-- A queue that runs, once it is bound off (03 R73, R83). -/
def Queue.boundOff (x : Queue) : Queue := { x with mode := .bindoff, haltGiven := false }

theorem settled_of_clear {s : State} {q : QNum} (h : s.Clear q) : (s.q q).settled = true := by
  rw [Queue.settled, h.1, h.2]
  rfl

/-- A bind-off of EN = 0 with nothing in flight ends at once (03 R83). -/
theorem settle_boundOff {s : State} {q : QNum} (hclear : s.Clear q) (hf : (s.q q).flushTo = none) :
    (s.modQ q Queue.boundOff).settle q =
      s.modQ q fun x => { x.boundOff with mode := if s.qEn q then .run else .off, lost := false } := by
  have hsettled : (s.q q).boundOff.settled = true := settled_of_clear hclear
  simp only [State.settle, q_modQ_same, hsettled, modQ_modQ]
  simp only [Queue.boundOff, hf, ne_eq, not_true_eq_false, or_self, if_false, Bool.false_eq_true]
  rfl

/-- EN = 0 on an enabled queue that runs with nothing in flight (03 R83). -/
theorem queueDisable_idle {s : State} {q : QNum} (v : Word) (hm : (s.q q).mode = .run) (hen : s.qEn q = true)
    (hclear : s.Clear q) (hf : (s.q q).flushTo = none) :
    s.queueDisable q v = ((s.cfgWrite q v).1.setBit F.QMG_Qn_CFG_EN false q.val).modQ q fun x =>
      { x.boundOff with mode := .off, lost := false } := by
  have hbusy : (s.q q).mode ≠ .off := by rw [hm]; decide
  have hcfg := cfgWrite_busy hbusy v
  have hen' := (qEn_cfgWrite_busy hbusy v).trans hen
  rw [hcfg] at hen' ⊢
  generalize hu : State.wr s R.QMG_Qn_CFG _ q.val = u at hcfg hen' ⊢
  have hq : (u.setBit F.QMG_Qn_CFG_EN false q.val).q q = s.q q := by rw [← hu]; rfl
  have hbound : s.queueDisable q v = ((u.setBit F.QMG_Qn_CFG_EN false q.val).modQ q Queue.boundOff).settle q := by
    simp only [State.queueDisable, hcfg, hen', hq, hm, not_true_eq_false, or_self, if_false, if_true]
    rfl
  rw [hbound, settle_boundOff (by rwa [State.Clear, hq]) (by rwa [hq]), qEn_setBit, if_neg Bool.false_ne_true]

-- the command ring

section
variable {s : State} {q : QNum} {r : Reg} {v : Word}

theorem ringWrite_off (hv : s.rd r q.val ≠ v) (hm : (s.q q).mode = .off) :
    s.ringWrite q r v = if (s.q q).emptyRings then (s.wr r v q.val).clearIx q else s.refuse q := by
  rw [State.ringWrite, if_neg (by simp [hm, hv])]
  cases (s.q q).emptyRings <;> rfl

theorem ringWrite_busy (hm : (s.q q).mode ≠ .off) : s.ringWrite q r v = s :=
  if_pos (.inl hm)

end

end Sys2Proof.Machine

open Sys2Proof Sys2Proof.Machine

/-- Settles O19: with no recovery under way an accepted doorbell has nothing to end. -/
theorem doorbellWithinRange : Obligations.DoorbellWithinRange := by
  unfold Obligations.DoorbellWithinRange
  intro s rq q v hopen hwrites hrecov
  have hexec := whenWrite_open (v.setWidth 32) (fun s => s.doorbell q v) (areaOf_doorbell q) hopen hwrites
  rw [exec_doorbell, hexec]
  refine ⟨fun h => ?_, fun h => ?_⟩
  · rw [doorbell_within hrecov h]
    rfl
  · rw [State.doorbell, if_neg h]
    rfl

/-- Settles O20: the count of unread entries decides. -/
theorem completionCreditReturns : Obligations.CompletionCreditReturns := by
  unfold Obligations.CompletionCreditReturns
  intro s q v hopen
  rw [Gives, exec_crdWrite, whenPage_open hopen]
  refine ⟨fun h => ?_, fun h => ⟨_, rfl, ?_⟩⟩
  · rw [State.crdWrite, if_pos h]
    rfl
  · rw [State.crdWrite, if_neg (Nat.not_lt.2 h)]
    obtain ⟨p, hcmpl⟩ := cmplCheck_pages (s.modQ q fun x => { x with crd := v }) q (s.q q).used
    rw [hcmpl]
    exact ⟨rfl, rfl, rfl⟩

/-- Settles O21: the part of a CFG write that is not EN keeps the queue's mode, and a queue with nothing in flight is
settled. -/
theorem queueEnablesAndDisables : Obligations.QueueEnablesAndDisables := by
  unfold Obligations.QueueEnablesAndDisables
  intro s q v hopen
  obtain ⟨hmem, hmode, hrefuse⟩ := cfgWrite_frame s q v
  refine ⟨fun hv hoff hok hen => ?enable, fun hv hrun hen hc hk hf _ _ => ?disable, fun hnew => ?ring⟩
  case enable =>
    have hcfg : s.cfgWrite q v = ((s.cfgWrite q v).1, true) := by rw [← hok]
    rw [Gives, exec_queueEnable, whenPage_open hopen, if_pos hv, queueEnable_off hcfg hen (hmode.trans hoff)]
    refine ⟨fun hpass => ?_, fun hfail => ?_⟩
    · rw [if_pos hpass]
      refine ⟨_, rfl, ?_, ?_, qEn_setBit _ q true, hmem⟩ <;> rw [keepOuter_q, q_modQ_same]
    · rw [if_neg (by simp [hfail]), hrefuse]
  case disable =>
    rw [Gives, exec_queueDisable, whenPage_open hopen, hv, if_neg Bool.false_ne_true,
      queueDisable_idle v hrun hen ⟨hc, hk⟩ hf]
    refine ⟨_, rfl, ?_, qEn_setBit _ q false, hmem⟩
    rw [keepOuter_q, q_modQ_same]
  case ring =>
    rw [exec_queueReconfigure_ring, whenPage_open hopen]
    refine ⟨fun hoff hempty => ?_, fun hoff hfull => ?_, fun hbusy => ?_⟩
    · rw [ringWrite_off hnew hoff, if_pos hempty, keepOuter_clearIx]
    · rw [ringWrite_off hnew hoff, if_neg (by simp [hfull])]
      rfl
    · rw [ringWrite_busy hbusy, keepOuter_self]

end

section
/-! SUPPORT. Completion entries: the sixteen bytes at the slot that CWR names, and what else an entry changes (03 R58, R61,
R63 to R65); what that says of O23. -/

namespace Sys2Proof.Machine

-- bytes that have been stored

section
variable {s t : State} {a : Nat} {l : List Byte} (h : t.mem = (s.setBytes a l).mem)
include h

theorem sameMemBut_of_setBytes : SameMemBut a l.length s t := fun b hb =>
  (congrArg (sget (memDefault b) b) h).trans (byte_setBytes_out s a l hb)

theorem bytes_of_setBytes : t.bytes a l.length = l := by
  induction l generalizing s a with
  | nil => rfl
  | cons x l ih =>
    have hfirst : t.byte a = x :=
      calc t.byte a = ((s.setByte a x).setBytes (a + 1) l).byte a := congrArg (sget (memDefault a) a) h
        _ = (s.setByte a x).byte a := byte_setBytes_out _ _ _ (.inl (Nat.lt_succ_self a))
        _ = x := byte_setByte_same s a x
    rw [List.length_cons, State.bytes, hfirst, ih h]
end

theorem bytes_congr {s t : State} (h : t.mem = s.mem) (a n : Nat) : t.bytes a n = s.bytes a n := by
  induction n generalizing a with
  | zero => rfl
  | succ n ih => rw [State.bytes, State.bytes, State.byte, h, ih]; rfl

theorem length_cplBytes (c : Cpl) (phase halt : Bool) : (c.bytes phase halt).length = 16 := by
  simp [Cpl.bytes]

-- registers that an entry leaves

theorem SameRegsBut.rd {l : List Nat} {s t : State} (h : SameRegsBut l s t) {r : Reg} {i j : Nat} (hr : r.addr i j ∉ l) :
    t.rd r i j = s.rd r i j := h _ _ hr

/-- Which UART echoes a queue stands in the registers of the UARTs (17 R441). -/
theorem echoUart_congr {s t : State} (h : ∀ u : UaNum, t.rd R.UAn_CFG u.val = s.rd R.UAn_CFG u.val) (q : QNum) :
    t.echoUart q = s.echoUart q := by
  simp only [State.echoUart, State.flag, State.fld, F.UAn_CFG_FEED, F.UAn_CFG_CECHO, F.UAn_CFG_FQ, h]

theorem uartCfg_ne_done : ∀ (u : UaNum) (q : QNum), R.UAn_CFG.addr u.val 0 ∉ [R.QMG_Qn_DONE.addr q.val 0] := by
  decide

theorem queueCfg_ne_done : ∀ q : QNum, R.QMG_Qn_CFG.addr q.val 0 ∉ [R.QMG_Qn_DONE.addr q.val 0] := by
  decide

theorem qEn_congr {s t : State} {q : QNum} (h : t.rd R.QMG_Qn_CFG q.val = s.rd R.QMG_Qn_CFG q.val) : t.qEn q = s.qEn q := by
  rw [qEn_eq_getLsbD, qEn_eq_getLsbD, h]

-- one entry

/-- Address of the completion slot that CWR names (03 R58). -/
def State.slotAddr (s : State) (q : QNum) : Nat :=
  (s.rd R.QMG_Qn_CRING q.val).toNat + (s.q q).cwr.toNat % s.qCsize q * 16

/-- The entry `b` stands at the slot that CWR named, and is counted; every other byte and register reads as before (03 R58,
R64). -/
structure EntryStored (q : QNum) (b : List Byte) (s t : State) : Prop where
  others : SameMemBut (s.slotAddr q) 16 s t
  entry : t.bytes (s.slotAddr q) 16 = b
  regs : SameRegsBut [R.QMG_Qn_DONE.addr q.val 0] s t

section
variable {q : QNum} {b : List Byte} {s t u : State}

theorem EntryStored.of_setBytes (hlen : b.length = 16) (hmem : t.mem = (s.setBytes (s.slotAddr q) b).mem)
    (hregs : SameRegsBut [R.QMG_Qn_DONE.addr q.val 0] s t) : EntryStored q b s t :=
  ⟨hlen ▸ sameMemBut_of_setBytes hmem, hlen ▸ bytes_of_setBytes hmem, hregs⟩

/-- What changes neither memory nor registers keeps the entry. -/
theorem EntryStored.congr (h : EntryStored q b s t) (hmem : u.mem = t.mem) (hregs : u.regs = t.regs) : EntryStored q b s u :=
  ⟨fun a ha => (congrArg (sget (memDefault a) a) hmem).trans (h.others a ha), (bytes_congr hmem _ _).trans h.entry,
    fun a d ha => (congrArg (sget d a) hregs).trans (h.regs a d ha)⟩

/-- The slot does not move with the rest of the queue. -/
theorem EntryStored.of_modQ {f : Queue → Queue} (hcwr : (f (s.q q)).cwr = (s.q q).cwr) (h : EntryStored q b (s.modQ q f) t) :
    EntryStored q b s t := by
  have hslot : (s.modQ q f).slotAddr q = s.slotAddr q := by
    rw [State.slotAddr, q_modQ_same, hcwr]
    rfl
  obtain ⟨others, entry, regs⟩ := h
  rw [hslot] at others entry
  exact ⟨others, entry, regs⟩

theorem EntryStored.qEn (h : EntryStored q b s t) : t.qEn q = s.qEn q := qEn_congr (h.regs.rd (queueCfg_ne_done q))
end

/-- A queue whose entry `c`, which does not halt, has been written to a ring of `csize` slots (03 R63 to R65). -/
def Queue.entryWritten (x : Queue) (c : Cpl) (csize : Nat) : Queue :=
  { x with
    cwr := x.cwr + 1
    phase := if (x.cwr + 1).toNat % csize = 0 then !x.phase else x.phase
    head := if c.slots = 0 then x.head else c.idx + BitVec.ofNat 16 c.slots }

/-- What the entry `c` does beside its bytes in memory; `p` are the page headers after it. -/
def State.countEntry (s : State) (q : QNum) (c : Cpl) (p : Vector PageSt 44) : State :=
  { (s.modQ q fun x => x.entryWritten c (s.qCsize q)).count R.QMG_Qn_DONE q.val with pages := p }

section
variable (s : State) (q : QNum) (c : Cpl) (p : Vector PageSt 44)
theorem countEntry_mem : (s.countEntry q c p).mem = s.mem := rfl
theorem countEntry_regs : SameRegsBut [R.QMG_Qn_DONE.addr q.val 0] s (s.countEntry q c p) := sameRegs_wr s R.QMG_Qn_DONE _ _ _
theorem countEntry_q : (s.countEntry q c p).q q = (s.q q).entryWritten c (s.qCsize q) :=
  q_modQ_same s q fun x => x.entryWritten c (s.qCsize q)
end

theorem setBytes_q (s : State) (a : Nat) (l : List Byte) (q : QNum) : (s.setBytes a l).q q = s.q q := by rw [setBytes_eq]; rfl

theorem setBytes_qCsize (s : State) (a : Nat) (l : List Byte) (q : QNum) : (s.setBytes a l).qCsize q = s.qCsize q := by
  rw [setBytes_eq]; rfl

theorem sameRegs_setBytes (s : State) (a : Nat) (l : List Byte) (m : List Nat) : SameRegsBut m s (s.setBytes a l) :=
  fun b d _ => congrArg (sget d b) (setBytes_regs s a l)

section
variable {s : State} {q : QNum} {c : Cpl} (hst : halting c.status = false) (hecho : s.echoUart q = none)
include hst hecho

/-- An entry that does not halt and that no UART echoes. -/
theorem writeEntry_plain : ∃ p, s.writeEntry q c =
    (s.setBytes (s.slotAddr q) (c.bytes (s.q q).phase false)).countEntry q c p := by
  have hhalts : (s.q q).halts c.status = false := by rw [Queue.halts, hst]; rfl
  generalize hu : s.setBytes (s.slotAddr q) (c.bytes (s.q q).phase false) = u
  have hregs : SameRegsBut [R.QMG_Qn_DONE.addr q.val 0] s u := hu ▸ sameRegs_setBytes _ _ _ _
  obtain ⟨p, hcmpl⟩ := cmplCheck_pages (u.countEntry q c u.pages) q (s.q q).used
  have hentry : s.writeEntry q c = match (u.countEntry q c p).echoUart q with
      | none => u.countEntry q c p
      | some o => (u.countEntry q c p).echoFill o q := by
    simp only [State.writeEntry, hhalts, Bool.or_false, Bool.false_eq_true, if_false]
    simp only [State.slotAddr] at hu
    rw [hu]
    have hcount : ((u.modQ q fun x => x.entryWritten c (u.qCsize q)).count R.QMG_Qn_DONE q.val).cmplCheck q (s.q q).used =
        u.countEntry q c p := hcmpl
    rw [← hcount]
    rfl
  have hregs' := hregs.trans (countEntry_regs u q c p) (List.Subset.refl _)
  have hquiet : (u.countEntry q c p).echoUart q = none :=
    (echoUart_congr (fun o => hregs'.rd (uartCfg_ne_done o q)) q).trans hecho
  exact ⟨p, by rw [hentry, hquiet]⟩

theorem writeEntry_stored : EntryStored q (c.bytes (s.q q).phase false) s (s.writeEntry q c) := by
  obtain ⟨p, h⟩ := writeEntry_plain hst hecho
  rw [h]
  exact .of_setBytes (length_cplBytes _ _ _) (countEntry_mem _ _ _ _)
    ((sameRegs_setBytes _ _ _ _).trans (countEntry_regs _ q c p) (List.Subset.refl _))

theorem q_writeEntry : (s.writeEntry q c).q q = (s.q q).entryWritten c (s.qCsize q) := by
  obtain ⟨p, h⟩ := writeEntry_plain hst hecho
  rw [h, countEntry_q, setBytes_q, setBytes_qCsize]
end

-- the entry of a ring command

/-- A bind-off alone has an end (03 R73). -/
theorem settle_other {s : State} {q : QNum} (h : (s.q q).mode ≠ .bindoff) : s.settle q = s := by
  rw [State.settle, if_pos (.inl h)]

/-- With nothing else to write, the entry of the oldest command of the ring (03 R63). -/
theorem writeNext_ring {s : State} {q : QNum} {c : Cmd} {st : Byte} (hk : (s.q q).conts = []) (hc : (s.q q).cmds = [c])
    (ho : c.out = some st) (hst : halting st = false) :
    s.writeNext q = ((s.modQ q fun x => { x with cmds := [] }).writeEntry q c.cpl).settle q := by
  simp only [State.writeNext, hk, hc, ho, hst, Option.isNone_some, Option.getD_some, Bool.false_eq_true, if_false,
    List.takeWhile_nil, List.dropWhile_nil]

theorem exec_completionWrite (s : State) (q : QNum) : exec (.completionWrite q) s = whenUp s fun s => s.completionWrite q := rfl

theorem exec_completionWrite_working {s : State} (hup : s.Up) (hw : s.working Pg.qmg = true) (q : QNum) :
    exec (.completionWrite q) s = .next (s.keepOuter (s.writeNext q)) := by
  rw [exec_completionWrite, whenUp_up hup, State.completionWrite, if_pos hw]

end Sys2Proof.Machine

open Sys2Proof Sys2Proof.Machine

/-- Settles O23: the queue's one command leaves the ring, and its entry is one that does not halt. -/
theorem completionEntryIsWritten : Obligations.CompletionEntryIsWritten := by
  unfold Obligations.CompletionEntryIsWritten
  intro s q c hup hwork hrun hk hc ho hcont hslots hecho
  have hok : halting 0 = false := by decide
  have hst : halting c.cpl.status = false := by rw [Cmd.cpl, ho]; exact hok
  have hcpl : c.cpl.slots = c.slots := by rw [Cmd.cpl, hcont]; rfl
  have hecho' : (s.modQ q fun x => { x with cmds := [] }).echoUart q = none := hecho
  have hstored := writeEntry_stored hst hecho'
  have hwritten := q_writeEntry hst hecho'
  rw [q_modQ_same] at hstored hwritten
  have hsettle := settle_other (s := (s.modQ q fun x => { x with cmds := [] }).writeEntry q c.cpl) (q := q)
    (by rw [hwritten, Queue.entryWritten, hrun]; decide)
  rw [Gives, exec_completionWrite_working hup hwork, writeNext_ring hk hc ho hok, hsettle]
  obtain ⟨hothers, hentry, hregs⟩ := (hstored.of_modQ rfl).congr (u := s.keepOuter _) rfl rfl
  refine ⟨_, rfl, hothers, hentry, ?_, ?_, ?_, hregs⟩ <;> rw [keepOuter_q, hwritten, Queue.entryWritten]
  rw [hcpl, if_neg hslots]
  rfl

end

section
/-! SUPPORT. Recovery: what releasing a port's lines leaves, the start and the end of the cancellations, one cancellation,
RESUME, and the abort of the one command in flight (03 R75 to R81); what that says of O22 and O24. -/

namespace Sys2Proof.Machine

-- the commands

section
variable (s : State) (q : QNum)
theorem exec_rcmdResume : exec (.rcmdResume q) s = whenPage Pg.qmg s fun s => s.rcmdResume q := rfl
theorem exec_rcmdSkipJob : exec (.rcmdSkipJob q) s = whenPage Pg.qmg s fun s => s.rcmdSkip q := rfl
theorem exec_rcmdFlush : exec (.rcmdFlush q) s = whenPage Pg.qmg s fun s => s.rcmdFlush q := rfl
theorem exec_autoRecovery : exec (.autoRecovery q) s = whenUp s fun s => s.autoRecovery q := rfl
end

-- releasing a port

theorem modQ_self {s : State} {q : QNum} {f : Queue → Queue} (h : f (s.q q) = s.q q) : s.modQ q f = s := by
  have hset : s.queues.set q (f s.queues[q]) = s.queues := by
    rw [show f s.queues[q] = s.queues[q] from h]
    exact Vector.set_getElem_self _
  rw [State.modQ, hset]

theorem modQ_congr {s : State} {q : QNum} {f g : Queue → Queue} (h : f (s.q q) = g (s.q q)) : s.modQ q f = s.modQ q g := by
  rw [State.modQ, State.modQ, show f s.queues[q] = g s.queues[q] from h]

/-- Only the governor's state and SBA's header change (08 R216). -/
theorem govIdle_eq (s : State) (p : Port) : ∃ x y, s.govIdle p = { s with sba := x, pages := y } := by
  simp only [State.govIdle]
  split
  · exact ⟨_, _, rfl⟩
  · exact ⟨s.sba, s.pages, rfl⟩

/-- HELD lines leave the HHE ring of port `p`, its HOLD ends, and its governor restarts (03 R77, R78). -/
def State.endHeld (s : State) (p : Port) : State :=
  State.ehmTouch { s with
    hhe := s.hhe.set p { s.hhe[p] with
      ring := s.hhe[p].ring.filter (·.fired), gap0 := 0, gap1 := 0
      mode := if s.hhe[p].mode = HheMode.running ∨ s.hhe[p].mode = HheMode.paused then .idle else s.hhe[p].mode }
    hp := s.hp.set p { s.hp[p] with hold := none, heldAtStop := false }
    sba := { s.sba with ports := s.sba.ports.set p { s.sba.ports[p] with restart := true } } } p

theorem releaseQueue_some {s : State} {q : QNum} {p : Port} (hp : s.qPort q = some p) :
    s.releaseQueue q = (((s.winDiscard p).releasePort p).endHeld p).govIdle p := by
  simp only [State.releaseQueue, hp]
  rfl

theorem releaseQueue_none {s : State} {q : QNum} (hp : s.qPort q = none) : s.releaseQueue q = s := by
  simp only [State.releaseQueue, hp]

section
variable (s : State) (p : Port)

theorem winDiscard_keeps : (s.winDiscard p).regs = s.regs ∧ (s.winDiscard p).mem = s.mem ∧ (s.winDiscard p).queues = s.queues ∧
    (s.winDiscard p).skn.bands = s.skn.bands := by
  simp only [State.winDiscard, State.capsDrop, State.winClose, State.setWin, State.setLines, and_self]

theorem winDiscard_win : (s.winDiscard p).win p = none := by
  simp [State.winDiscard, State.capsDrop, State.winClose, State.win, State.setWin, State.setLines]

theorem releasePort_keeps : (s.releasePort p).regs = s.regs ∧ (s.releasePort p).mem = s.mem ∧
    (s.releasePort p).queues = s.queues ∧ (s.releasePort p).cam = s.cam := by
  simp only [State.releasePort, and_self]

theorem releasePort_lines : (s.releasePort p).lines p = [] := by
  simp [State.releasePort, State.lines]

theorem releasePort_window : (s.releasePort p).skn.o[p] = 0 := by
  simp [State.releasePort]

/-- Bands of other ports, and FREE ones, stay (05 R132). -/
theorem releasePort_band {b : Fin 128} (h : (s.band b).port ≠ p) : (s.releasePort p).band b = s.band b := by
  have hb : ¬ s.skn.bands[b.val].port = p := h
  simp only [State.releasePort, State.band, Fin.getElem_fin, Vector.getElem_ofFn]
  exact if_pos (by simp [hb])

theorem endHeld_keeps : (s.endHeld p).regs = s.regs ∧ (s.endHeld p).mem = s.mem ∧ (s.endHeld p).queues = s.queues ∧
    (s.endHeld p).cam = s.cam ∧ (s.endHeld p).skn = s.skn :=
  ⟨rfl, rfl, rfl, rfl, rfl⟩

theorem endHeld_port : ((s.endHeld p).hpP p).hold = none ∧ ((s.endHeld p).hpP p).heldAtStop = false ∧
    ∀ r ∈ ((s.endHeld p).hhe[p]).ring, r.fired = true := by
  simp [State.endHeld, State.ehmTouch, State.modEhm, State.hpP]

/-- Of the release of a port, what comes before the HELD lines leave. -/
structure LinesReleased (p : Port) (s t : State) : Prop where
  lines : t.lines p = []
  win : t.win p = none
  window : t.skn.o[p] = 0
  bands : ∀ b, (s.band b).port ≠ p → t.band b = s.band b

theorem linesReleased : LinesReleased p s ((s.winDiscard p).releasePort p) := by
  obtain ⟨-, -, -, hcam⟩ := releasePort_keeps (s.winDiscard p) p
  obtain ⟨-, -, -, hbands⟩ := winDiscard_keeps s p
  have hband (b : Fin 128) : (s.winDiscard p).band b = s.band b := by rw [State.band, State.band, hbands]
  refine ⟨releasePort_lines _ p, ?_, releasePort_window _ p, fun b hb => ?_⟩
  · rw [State.win, hcam]
    exact winDiscard_win s p
  · rw [releasePort_band _ p (by rwa [hband]), hband]

variable {s} {p} in
theorem LinesReleased.endHeld {t : State} (h : LinesReleased p s t) : PortReleased p s (t.endHeld p) := by
  obtain ⟨lines, win, window, bands⟩ := h
  obtain ⟨hold, stop, ring⟩ := endHeld_port t p
  exact ⟨lines, win, window, hold, stop, ring, bands⟩
end

/-- Registers, memory and queues are none of what a release touches. -/
theorem releaseQueue_keeps (s : State) (q : QNum) : (s.releaseQueue q).regs = s.regs ∧ (s.releaseQueue q).mem = s.mem ∧
    (s.releaseQueue q).queues = s.queues := by
  cases hp : s.qPort q with
  | none =>
    rw [releaseQueue_none hp]
    exact ⟨rfl, rfl, rfl⟩
  | some p =>
    obtain ⟨_, _, h⟩ := govIdle_eq (((s.winDiscard p).releasePort p).endHeld p) p
    obtain ⟨r1, m1, q1, -⟩ := winDiscard_keeps s p
    obtain ⟨r2, m2, q2, -⟩ := releasePort_keeps (s.winDiscard p) p
    obtain ⟨r3, m3, q3, -⟩ := endHeld_keeps ((s.winDiscard p).releasePort p) p
    rw [releaseQueue_some hp, h]
    exact ⟨r3.trans (r2.trans r1), m3.trans (m2.trans m1), q3.trans (q2.trans q1)⟩

/-- Nothing of the queue's port is held (03 R77, R78), and registers and memory are as before. -/
structure Released (q : QNum) (s t : State) : Prop where
  regs : t.regs = s.regs
  mem : SameMem s t
  port : ∀ p, s.qPort q = some p → PortReleased p s t

theorem released_releaseQueue (s : State) (q : QNum) : Released q s (s.releaseQueue q) := by
  obtain ⟨hregs, hmem, -⟩ := releaseQueue_keeps s q
  refine ⟨hregs, fun a => congrArg (sget (memDefault a) a) hmem, fun p hp => ?_⟩
  obtain ⟨_, _, h⟩ := govIdle_eq (((s.winDiscard p).releasePort p).endHeld p) p
  rw [releaseQueue_some hp, h]
  exact (linesReleased s p).endHeld

section
variable {q : QNum} {s t : State} {f : Queue → Queue}

theorem Released.modQ (h : Released q s t) : Released q s (t.modQ q f) := ⟨h.regs, h.mem, h.port⟩

theorem Released.of_modQ (h : Released q (s.modQ q f) t) : Released q s t := ⟨h.regs, h.mem, h.port⟩

theorem Released.keepOuter (h : Released q s t) : Released q s (s.keepOuter t) := ⟨h.regs, h.mem, h.port⟩

theorem releaseQueue_q : (s.releaseQueue q).q q = s.q q := by
  obtain ⟨-, -, hqueues⟩ := releaseQueue_keeps s q
  rw [State.q, hqueues, State.q]

theorem qEn_releaseQueue : (s.releaseQueue q).qEn q = s.qEn q := by
  obtain ⟨hregs, -, -⟩ := releaseQueue_keeps s q
  exact qEn_congr (congrArg (sget _ _) hregs)
end

-- the start and the end of the cancellations

/-- A queue whose cancellations have begun (03 R77, R78). -/
def Queue.recovering (x : Queue) (r : Recov) (auto : Bool) : Queue :=
  { x with
    mode := .recovering, recov := some r, recovAuto := auto, haltSet := [], autoAct := none
    recovJob := if x.jobOpen then x.jobNum else 0xFFFF }

/-- A queue, enabled or not, whose cancellations have ended (03 R79). -/
def Queue.recovered (x : Queue) (en : Bool) : Queue :=
  { x with
    mode := if en then .run else .off, recov := none, recovAuto := false, flushTo := none, jobOpen := false, lost := false
    autoAct := none, cancelled := x.cancelled.filter fun e => (e.1 - x.next).toNat < (x.tail - x.next).toNat }

/-- The cancellations of `r` are at their end (03 R77, R78). -/
def State.recovEnds (s : State) (q : QNum) (r : Recov) : Bool :=
  match r with
  | .flush t => (s.q q).next == t
  | .skip => (s.q q).next != (s.q q).tail && (s.ringEntry q (s.q q).next).opc == 1

theorem recovDone_some {s : State} {q : QNum} {r : Recov} (h : (s.q q).recov = some r) : s.recovDone q = s.recovEnds q r := by
  cases r <;> simp only [State.recovDone, h, State.recovEnds]

theorem ringEntry_congr {s t : State} (hregs : t.regs = s.regs) (hmem : t.mem = s.mem) (q : QNum) (i : BitVec 16) :
    t.ringEntry q i = s.ringEntry q i := by
  have hword (a : Nat) : t.word a = s.word a := by rw [State.word, State.word, bytes_congr hmem]
  have haddr : t.ringAddr q i = s.ringAddr q i := by
    simp only [State.ringAddr, State.qSize, State.fld, State.rd, hregs]
  simp only [State.ringEntry, State.entryAt, haddr, hword]

theorem recovEnds_congr {s t : State} {q : QNum} (r : Recov) (hregs : t.regs = s.regs) (hmem : t.mem = s.mem)
    (hnext : (t.q q).next = (s.q q).next) (htail : (t.q q).tail = (s.q q).tail) : t.recovEnds q r = s.recovEnds q r := by
  have hentry := ringEntry_congr hregs hmem q (s.q q).next
  cases r with
  | flush => rw [State.recovEnds, State.recovEnds, hnext]
  | skip => rw [State.recovEnds, State.recovEnds, hnext, htail, hentry]

/-- A queue for which the cancellations of `r` start, and end at once if there are none. -/
def Queue.startRecov (x : Queue) (r : Recov) (auto ends en : Bool) : Queue :=
  if ends then (x.recovering r auto).recovered en else x.recovering r auto

theorem startRecov_eq (s : State) (q : QNum) (r : Recov) (auto : Bool) : s.startRecov q r auto =
    s.modQ q fun x => x.startRecov r auto (s.recovEnds q r) (s.qEn q) := by
  have hstart : s.startRecov q r auto = (s.modQ q fun x => x.recovering r auto).checkRecov q := rfl
  have hends : (s.modQ q fun x => x.recovering r auto).recovDone q = s.recovEnds q r := by
    rw [recovDone_some (by rw [q_modQ_same, Queue.recovering])]
    exact recovEnds_congr r rfl rfl (by rw [q_modQ_same, Queue.recovering]) (by rw [q_modQ_same, Queue.recovering])
  rw [hstart, State.checkRecov, hends]
  cases s.recovEnds q r with
  | false => rfl
  | true => exact modQ_modQ s q _ fun x => x.recovered (s.qEn q)

/-- Recovery of a queue whose port is released first. -/
theorem releaseQueue_startRecov (s : State) (q : QNum) (r : Recov) (auto : Bool) : (s.releaseQueue q).startRecov q r auto =
    (s.releaseQueue q).modQ q fun x => x.startRecov r auto (s.recovEnds q r) (s.qEn q) := by
  obtain ⟨hregs, hmem, -⟩ := releaseQueue_keeps s q
  have hends : (s.releaseQueue q).recovEnds q r = s.recovEnds q r :=
    recovEnds_congr r hregs hmem (by rw [releaseQueue_q]) (by rw [releaseQueue_q])
  rw [startRecov_eq, hends, qEn_releaseQueue]

theorem skipJob_outside {s : State} {q : QNum} (h : (s.q q).hjob = 0xFFFF) (auto : Bool) : s.skipJob q auto =
    (s.releaseQueue q).modQ q fun x =>
      { x with mode := if s.qEn q then .run else .off, haltSet := [], autoAct := none, lost := false } := by
  rw [State.skipJob, releaseQueue_q, if_pos h, qEn_releaseQueue]

theorem skipJob_inside {s : State} {q : QNum} (h : (s.q q).hjob ≠ 0xFFFF) (auto : Bool) : s.skipJob q auto =
    (s.releaseQueue q).modQ q fun x => x.startRecov .skip auto (s.recovEnds q .skip) (s.qEn q) := by
  rw [State.skipJob, releaseQueue_q, if_neg h, releaseQueue_startRecov]

theorem flush_eq (s : State) (q : QNum) (tail : BitVec 16) (auto : Bool) : s.flush q tail auto =
    (s.releaseQueue q).modQ q fun x => x.startRecov (.flush tail) auto ((s.q q).next == tail) (s.qEn q) :=
  releaseQueue_startRecov s q _ auto

-- RESUME

/-- A queue that RESUME lets run on, with the continuations `cs` (03 R76). -/
def Queue.resumed (x : Queue) (cs : List Cmd) (auto : Bool) : Queue :=
  { x with
    mode := .run, haltGiven := false, haltSet := [], conts := cs, autoAct := none
    retryUsed := if auto then x.retryUsed + 1 else x.retryUsed }

/-- HOLD of port `p` ends (18 R468). -/
def State.endHold (s : State) (p : Port) : State :=
  State.ehmTouch { s with hp := s.hp.set p { s.hp[p] with hold := none, heldAtStop := false } } p

theorem endHold_hold (s : State) (p : Port) : ((s.endHold p).hpP p).hold = none := by
  simp [State.endHold, State.hpP, State.ehmTouch, State.modEhm]

theorem recommit_committed {s : State} {q : QNum} {c : Cmd} (h : c.e.opc = 0x15 → c.committed = true) : s.recommit q c = s := by
  rw [State.recommit, if_neg fun hc => hc.2 (h hc.1)]

theorem foldl_recommit_committed {s : State} {q : QNum} {cs : List Cmd} (h : ∀ c ∈ cs, c.e.opc = 0x15 → c.committed = true) :
    cs.foldl (fun s c => s.recommit q c) s = s := by
  induction cs with
  | nil => rfl
  | cons c cs ih =>
    obtain ⟨hc, hcs⟩ := List.forall_mem_cons.1 h
    rw [List.foldl_cons, recommit_committed hc, ih hcs]

/-- RESUME of an enabled queue none of whose continuations has still to commit. -/
theorem resume_eq {s : State} {q : QNum} {auto : Bool} (hen : s.qEn q = true)
    (hcs : ∀ c ∈ s.continuations q auto, c.e.opc = 0x15 → c.committed = true) : s.resume q auto =
      (s.qPort q).elim (s.modQ q fun x => x.resumed (s.continuations q auto) auto)
        (s.modQ q fun x => x.resumed (s.continuations q auto) auto).endHold := by
  generalize hu : (s.modQ q fun x => x.resumed (s.continuations q auto) auto) = u
  have hrun : (u.q q).mode = .run := by rw [← hu, q_modQ_same, Queue.resumed]
  have hother : (u.q q).mode ≠ .bindoff := by rw [hrun]; decide
  have hport : u.qPort q = s.qPort q := by rw [← hu]; rfl
  have hresume : s.resume q auto = State.settle ((s.continuations q auto).foldl (fun s c => s.recommit q c)
      ((u.qPort q).elim u u.endHold)) q := by
    have hport' (f : Queue → Queue) : (s.modQ q f).qPort q = s.qPort q := rfl
    rw [hport, ← hu]
    simp only [State.resume, hen, if_true, hport']
    cases s.qPort q <;> rfl
  rw [hresume, foldl_recommit_committed hcs, hport]
  cases s.qPort q with
  | none => exact settle_other hother
  | some p => exact settle_other hother

section
variable {s : State} {q : QNum}

theorem continuations_nil (h : (s.q q).haltSet = []) (auto : Bool) : s.continuations q auto = [] := by
  simp [State.continuations, h]

theorem haltBlocksBack_nil (h : (s.q q).haltSet = []) : s.haltBlocksBack q = true := by
  simp [State.haltBlocksBack, h]

/-- The policy's RESUME after an abort waits for no medium (03 R80, R81). -/
theorem autoRecovery_resume (hm : (s.q q).mode = .halted) (hact : (s.q q).autoAct = some 1) (hset : (s.q q).haltSet = [])
    (hstat : (s.q q).hstat = St.aborted) : s.autoRecovery q = s.resume q true := by
  have hmedia : (St.aborted == St.mediaOut || St.aborted == St.mediaTimeout) = false := by decide
  simp only [State.autoRecovery, hact, hstat, hmedia, hm, haltBlocksBack_nil hset]
  exact if_neg (by simp)

theorem autoRecovery_none (hact : (s.q q).autoAct = none) : s.autoRecovery q = s := by
  simp only [State.autoRecovery, hact]
end

-- a halting outcome of the one command in flight

theorem modThr_self (s : State) (q : QNum) : (s.modThr q fun t => t) = s := by
  simp [State.modThr]

theorem modThr_modThr (s : State) (q : QNum) (f g : Thread → Thread) :
    (s.modThr q f).modThr q g = s.modThr q fun t => g (f t) := by
  simp [State.modThr]

/-- A thread in no list has none to leave. -/
theorem leaveAtBoundary_thread {s : State} {q : QNum} (h : (s.thr q).levels = []) : ∃ f, s.leaveAtBoundary q = s.modThr q f := by
  unfold State.leaveAtBoundary
  split
  · exact ⟨fun t => t, by rw [leaveList_id h, modThr_self]⟩
  · exact ⟨_, rfl⟩

/-- A queue after a halting outcome (03 R73). -/
def Queue.halting (x : Queue) : Queue := if x.mode = .run then x.boundOff else x

theorem halting_withCmds (x : Queue) (l : List Cmd) : Queue.halting { x with cmds := l } = { x.halting with cmds := l } := by
  unfold Queue.halting
  split <;> rfl

theorem halting_conts (x : Queue) : x.halting.conts = x.conts := by
  unfold Queue.halting
  split <;> rfl

theorem bindOff_eq {s : State} {q : QNum} (h : (s.thr q).levels = []) :
    ∃ f, s.bindOff q = (s.modQ q Queue.halting).modThr q f := by
  have hbound : (if (s.q q).mode = .run then s.modQ q Queue.boundOff else s) = s.modQ q Queue.halting := by
    split
    · next hm => exact modQ_congr (if_pos hm).symm
    · next hm => exact (modQ_self (if_neg hm)).symm
  have hthr : ((s.modQ q Queue.halting).thr q).levels = [] := h
  obtain ⟨f, hf⟩ := leaveAtBoundary_thread hthr
  refine ⟨f, ?_⟩
  rw [← hf, ← hbound]
  rfl

/-- A command that ends with `st`: a PRINT reports its resume line (03 R60). -/
def State.ended (s : State) (c : Cmd) (st : Byte) : Cmd :=
  { s.done c st with resume := if c.e.opc = 0x15 then BitVec.ofNat 32 c.resumeLine else c.resume }

theorem dropStep_keeps (s : State) (uid : Nat) : (s.dropStep uid).regs = s.regs ∧ (s.dropStep uid).mem = s.mem := ⟨rfl, rfl⟩

/-- A thread once command `uid` has its outcome. -/
def Thread.after (t : Thread) (uid : Nat) : Thread := { t with wait := t.wait.after uid }

/-- The one command in flight, of the ring, gets a halting outcome. -/
theorem finish_halting {s : State} {q : QNum} {c : Cmd} (hc : (s.q q).cmds = [c]) (hk : (s.q q).conts = []) (ho : c.out = none)
    (hring : c.ring = true) (hl : (s.thr q).levels = []) {st : Byte} (hh : halting st = true) :
    ∃ f, s.finish q c.uid st =
      ((s.dropStep c.uid).modQ q fun x => { x.halting with cmds := [s.ended c st] }).modThr q f := by
  have hlive : s.liveCmd q c.uid = some c := by simp [State.liveCmd, hc, hk, ho]
  generalize hu : (s.dropStep c.uid).modQ q (fun x => { x with cmds := [s.ended c st] }) = u
  have hend : s.finish1 q c.uid st c.tag (s.ended c st).resume = u.modThr q fun t => t.after c.uid := by
    rw [finish1_one hc hk ho hl, ← hu]
    rfl
  obtain ⟨f, hf⟩ := bindOff_eq (s := u.modThr q fun t => t.after c.uid) (q := q) (by
    rw [thr_modThr_same, ← hu]
    exact hl)
  have hbound : u.modQ q Queue.halting = (s.dropStep c.uid).modQ q fun x => { x.halting with cmds := [s.ended c st] } := by
    rw [← hu, modQ_modQ]
    exact modQ_congr (halting_withCmds _ _)
  rw [← hbound]
  refine ⟨fun t => f (t.after c.uid), ?_⟩
  have hall : s.finish q c.uid st =
      ((u.modThr q fun t => t.after c.uid).bindOff q).closeCalls q 6 := by
    rw [← hend]
    simp only [State.finish, hlive, hh, hring, if_true]
    rfl
  have hq : ((u.modQ q Queue.halting).modThr q fun t => f (t.after c.uid)).q q =
      { (s.q q).halting with cmds := [s.ended c st] } := by
    rw [q_modThr, hbound, q_modQ_same]
    rfl
  have hconts : (s.q q).halting.conts = [] := (halting_conts _).trans hk
  rw [hall, hf, ← closeCalls_id (s := (u.modQ q Queue.halting).modThr q _) (n := 6) ?_ ?_]
  · exact congrArg (State.closeCalls · q 6) (modThr_modThr (u.modQ q Queue.halting) q (·.after c.uid) f)
  · rw [hq]
    simp [State.ended, State.done]
  · rw [hq]
    simp [State.ended, State.done, hconts]

-- FLUSH

theorem finishAll_known {s : State} {q : QNum} (h : ∀ c ∈ (s.q q).cmds ++ (s.q q).conts, c.out.isSome = true) (st : Byte)
    (f : Cmd → Bool) : s.finishAll q st f = s := by
  have hnone : (((s.q q).cmds ++ (s.q q).conts).filter fun c => c.out.isNone && !c.call && f c) = [] := by
    rw [List.filter_eq_nil_iff]
    intro c hc hlive
    obtain ⟨o, ho⟩ := Option.isSome_iff_exists.1 (h c hc)
    simp [ho] at hlive
  rw [State.finishAll, hnone, List.foldl_nil]

theorem finishAll_one {s : State} {q : QNum} {c : Cmd} (hc : (s.q q).cmds = [c]) (hk : (s.q q).conts = []) (ho : c.out = none)
    (hcall : c.call = false) (st : Byte) (f : Cmd → Bool) :
    s.finishAll q st f = if f c then s.finish q c.uid st else s := by
  have hlive : (((s.q q).cmds ++ (s.q q).conts).filter fun c => c.out.isNone && !c.call && f c) = if f c then [c] else [] := by
    simp [hc, hk, ho, hcall, List.filter_cons]
  rw [State.finishAll, hlive]
  split <;> rfl

theorem abortAll_clear {s : State} {q : QNum} (h : s.Clear q) (hl : (s.thr q).levels = []) : s.abortAll q = s := by
  obtain ⟨hc, hk⟩ := h
  rw [State.abortAll, leaveList_id hl, finishAll_empty hc hk, finishAll_empty hc hk, closeCalls_id] <;> simp [hc, hk]

/-- FENCE or not, the one command in flight is aborted (03 R78). -/
theorem abortAll_one {s : State} {q : QNum} {c : Cmd} (hc : (s.q q).cmds = [c]) (hk : (s.q q).conts = []) (ho : c.out = none)
    (hring : c.ring = true) (hcall : c.call = false) (hl : (s.thr q).levels = []) :
    s.abortAll q = s.finish q c.uid St.aborted := by
  have hone := finishAll_one hc hk ho hcall St.aborted
  obtain ⟨f, hf⟩ := finish_halting hc hk ho hring hl (st := St.aborted) (by decide)
  have hq : (s.finish q c.uid St.aborted).q q = { (s.q q).halting with cmds := [s.ended c St.aborted] } := by
    rw [hf, q_modThr, q_modQ_same]
    rfl
  have hknown : ∀ k ∈ ((s.finish q c.uid St.aborted).q q).cmds ++ ((s.finish q c.uid St.aborted).q q).conts,
      k.out.isSome = true := by
    rw [hq]
    simp [(halting_conts _).trans hk, State.ended, State.done]
  have hall : ((s.finishAll q St.aborted fun c => c.e.opc == 0x50).finishAll q St.aborted fun _ => true) =
      s.finish q c.uid St.aborted := by
    rw [hone]
    split
    · exact finishAll_known hknown _ _
    · rw [hone, if_pos rfl]
  rw [State.abortAll, leaveList_id hl, hall, closeCalls_id]
  · exact fun k hk' _ => hknown k (List.mem_append_left _ hk')
  · exact fun k hk' _ _ => hknown k hk'

/-- A queue that runs or is bound off, once FLUSH has been written (03 R78). -/
def Queue.flushing (x : Queue) : Queue :=
  { x with mode := .bindoff, haltGiven := if x.mode = .run then false else x.haltGiven, flushTo := some x.tail }

theorem rcmdFlush_live {s : State} {q : QNum} (h : (s.q q).mode = .run ∨ (s.q q).mode = .bindoff) :
    s.rcmdFlush q = ((s.modQ q Queue.flushing).abortAll q).settle q := by
  rcases h with hm | hm
  · have hflush : s.modQ q Queue.flushing = s.modQ q fun x =>
        { x with mode := .bindoff, haltGiven := false, flushTo := some x.tail } :=
      modQ_congr (by rw [Queue.flushing, hm]; rfl)
    simp only [State.rcmdFlush, hm, hflush]
  · have hflush : s.modQ q Queue.flushing = s.modQ q fun x => { x with flushTo := some x.tail } :=
      modQ_congr (by rw [Queue.flushing, if_neg (by rw [hm]; decide), ← hm])
    simp only [State.rcmdFlush, hm, hflush]

theorem settle_flush {s : State} {q : QNum} {tail : BitVec 16} (hm : (s.q q).mode = .bindoff) (hclear : s.Clear q)
    (hf : (s.q q).flushTo = some tail) : s.settle q = s.flush q tail false := by
  simp only [State.settle, hm, settled_of_clear hclear, hf, ne_eq, not_true_eq_false, or_self, if_false]

/-- FLUSH of a queue with nothing to wait for goes to its cancellations (03 R78). -/
theorem rcmdFlush_flushes {s : State} {q : QNum} (h : (s.q q).mode = .halted ∨ (s.q q).mode = .recovering ∨
      (s.Clear q ∧ (s.thr q).levels = [] ∧ ((s.q q).mode = .run ∨ (s.q q).mode = .bindoff))) :
    ∃ f : Queue → Queue, (f (s.q q)).next = (s.q q).next ∧ s.rcmdFlush q = (s.modQ q f).flush q (s.q q).tail false := by
  rcases h with hm | hm | ⟨hclear, hl, hm⟩
  · exact ⟨fun x => x, rfl, by rw [modQ_self rfl]; simp only [State.rcmdFlush, hm]⟩
  · exact ⟨fun x => x, rfl, by rw [modQ_self rfl]; simp only [State.rcmdFlush, hm]⟩
  · have hclear' : (s.modQ q Queue.flushing).Clear q := by rwa [State.Clear, q_modQ_same]
    refine ⟨Queue.flushing, rfl, ?_⟩
    rw [rcmdFlush_live hm, abortAll_clear hclear' hl]
    exact settle_flush (by rw [q_modQ_same, Queue.flushing]) hclear' (by rw [q_modQ_same, Queue.flushing])

-- one cancellation

/-- The CANCELLED entry of the command `e` at NEXT, JOB_BEGIN apart (03 R77). -/
def State.cancelledEntry (s : State) (q : QNum) (e : Entry) : Cpl :=
  { job := (s.q q).recovJob, idx := (s.q q).next, status := St.cancelled, auto := (s.q q).recovAuto, time := s.timeLo
    slots := e.slots }

/-- A queue whose command `e` at NEXT has been cancelled (03 R77). -/
def Queue.movedPast (x : Queue) (e : Entry) (job : BitVec 16) : Queue :=
  { x with next := x.next + BitVec.ofNat 16 e.slots, recovJob := if e.opc = 2 then 0xFFFF else job }

theorem Entry.slots_pos (e : Entry) : 0 < e.slots := by
  unfold Entry.slots
  split <;> decide

theorem endRecov_eq (s : State) (q : QNum) : s.endRecov q = s.modQ q fun x => x.recovered (s.qEn q) := rfl

theorem cancelNext_ended {s : State} {q : QNum} {r : Recov} (hr : (s.q q).recov = some r) (h : s.recovEnds q r = true) :
    s.cancelNext q = s.endRecov q := by
  simp only [State.cancelNext, hr, recovDone_some hr, h, if_true]

/-- A skip that ends after a JOB_END, or else where its end is reached. -/
theorem ended_or_checkRecov {s : State} {q : QNum} {r : Recov} (hr : (s.q q).recov = some r) (p : Prop) [Decidable p] :
    (if p then s.endRecov q else s.checkRecov q) =
      s.modQ q fun x => if p ∨ s.recovEnds q r = true then x.recovered (s.qEn q) else x := by
  rw [State.checkRecov, recovDone_some hr, endRecov_eq]
  by_cases hend : p
  · simp only [hend, true_or, if_true]
  · by_cases hreached : s.recovEnds q r = true
    · simp only [hend, hreached, or_true, if_true, if_false]
    · simp only [hend, hreached, false_or, if_false]
      exact (modQ_self rfl).symm

/-- SKIP_JOB cancels the command at NEXT, and ends after a JOB_END or before a JOB_BEGIN (03 R77). -/
theorem cancelNext_skip {s : State} {q : QNum} {e : Entry} (hr : (s.q q).recov = some .skip)
    (he : e = s.ringEntry q (s.q q).next) (hop : e.opc ≠ 1) (hfree : s.slotFree q = true) (hslots : e.slots ≤ ((s.q q).tail - (s.q q).next).toNat) :
    s.cancelNext q =
      if e.opc = 2 then ((s.writeEntry q (s.cancelledEntry q e)).modQ q fun x => x.movedPast e (s.q q).recovJob).endRecov q
      else ((s.writeEntry q (s.cancelledEntry q e)).modQ q fun x => x.movedPast e (s.q q).recovJob).checkRecov q := by
  have hends : s.recovEnds q .skip = false := by simp [State.recovEnds, ← he, hop]
  have hleft : ¬ (((s.q q).tail - (s.q q).next).toNat = 0 ∨ ¬ s.slotFree q = true ∨
      (Recov.skip = .skip ∧ e.slots > ((s.q q).tail - (s.q q).next).toNat)) := by
    have := e.slots_pos
    simp only [hfree, not_true_eq_false, false_or, true_and]
    omega
  simp only [State.cancelNext, hr, recovDone_some hr, hends, Bool.false_eq_true, if_false, ← he, hop, true_and,
    Nat.min_eq_left hslots] at hleft ⊢
  rw [if_neg hleft]
  rfl

-- the commands at a halted queue, and elsewhere

section
variable {s : State} {q : QNum} (hopen : s.Open Pg.qmg)
include hopen

theorem exec_rcmdResume_refused (h : (s.q q).mode ≠ .halted ∨ (s.q q).lost = true) :
    exec (.rcmdResume q) s = .next (s.refuse q) := by
  have hno : ¬ ((s.q q).mode = .halted ∧ ¬ (s.q q).lost = true) := fun hh => h.elim (· hh.1) hh.2
  rw [exec_rcmdResume, whenPage_open hopen, State.rcmdResume, if_neg hno]
  rfl

theorem exec_rcmdSkipJob_refused (h : (s.q q).mode ≠ .halted) : exec (.rcmdSkipJob q) s = .next (s.refuse q) := by
  rw [exec_rcmdSkipJob, whenPage_open hopen, State.rcmdSkip, if_neg h]
  rfl

theorem exec_rcmdFlush_refused (h : (s.q q).mode = .off) : exec (.rcmdFlush q) s = .next (s.refuse q) := by
  rw [exec_rcmdFlush, whenPage_open hopen]
  simp only [State.rcmdFlush, h]
  rfl

/-- RESUME where no continuation has still to commit (03 R76, 18 R468). -/
theorem rcmdResume_gives (hm : (s.q q).mode = .halted) (hen : s.qEn q = true) (hlost : (s.q q).lost = false)
    (hcs : ∀ c ∈ s.continuations q false, c.e.opc = 0x15 → c.committed = true) : Gives (.rcmdResume q) s fun t =>
      t.q q = (s.q q).resumed (s.continuations q false) false ∧ SameMem s t ∧ t.regs = s.regs ∧
      ∀ p, s.qPort q = some p → (t.hpP p).hold = none ∧ t.lines p = s.lines p := by
  rw [Gives, exec_rcmdResume, whenPage_open hopen, State.rcmdResume, if_pos ⟨hm, by simp [hlost]⟩, resume_eq hen hcs]
  refine ⟨_, rfl, ?_⟩
  have hq := q_modQ_same s q fun x => x.resumed (s.continuations q false) false
  cases hp : s.qPort q with
  | none => exact ⟨hq, fun _ => rfl, rfl, fun _ hno => by cases hno⟩
  | some o =>
    refine ⟨hq, fun _ => rfl, rfl, fun p hsome => ?_⟩
    cases hsome
    exact ⟨endHold_hold _ o, rfl⟩

theorem rcmdSkipJob_outside_gives (hm : (s.q q).mode = .halted) (hjob : (s.q q).hjob = 0xFFFF) :
    Gives (.rcmdSkipJob q) s fun t => t.q q = { s.q q with mode := if s.qEn q then .run else .off, haltSet := [], autoAct := none, lost := false } ∧
    Released q s t := by
  rw [Gives, exec_rcmdSkipJob, whenPage_open hopen, State.rcmdSkip, if_pos hm, skipJob_outside hjob]
  refine ⟨_, rfl, ?_, (released_releaseQueue s q).modQ.keepOuter⟩
  rw [keepOuter_q, q_modQ_same, releaseQueue_q]

theorem rcmdSkipJob_inside_gives (hm : (s.q q).mode = .halted) (hjob : (s.q q).hjob ≠ 0xFFFF) :
    Gives (.rcmdSkipJob q) s fun t => t.q q = (s.q q).startRecov .skip false (s.recovEnds q .skip) (s.qEn q) ∧ Released q s t := by
  rw [Gives, exec_rcmdSkipJob, whenPage_open hopen, State.rcmdSkip, if_pos hm, skipJob_inside hjob]
  refine ⟨_, rfl, ?_, (released_releaseQueue s q).modQ.keepOuter⟩
  rw [keepOuter_q, q_modQ_same, releaseQueue_q]

theorem rcmdFlush_gives (h : (s.q q).mode = .halted ∨ (s.q q).mode = .recovering ∨
      (s.Clear q ∧ (s.thr q).levels = [] ∧ ((s.q q).mode = .run ∨ (s.q q).mode = .bindoff))) : Gives (.rcmdFlush q) s fun t =>
    (∃ x : Queue, x.next = (s.q q).next ∧
      t.q q = x.startRecov (.flush (s.q q).tail) false ((s.q q).next == (s.q q).tail) (s.qEn q)) ∧ Released q s t := by
  obtain ⟨f, hnext, hflush⟩ := rcmdFlush_flushes h
  rw [Gives, exec_rcmdFlush, whenPage_open hopen, hflush, flush_eq]
  refine ⟨_, rfl, ⟨f (s.q q), hnext, ?_⟩, (released_releaseQueue (s.modQ q f) q).of_modQ.modQ.keepOuter⟩
  rw [keepOuter_q, q_modQ_same, releaseQueue_q, q_modQ_same, hnext]
  rfl

/-- FLUSH aborts the one command in flight, of the ring and no call; the cancellations wait for the halt (03 R78). -/
theorem rcmdFlush_aborts {c : Cmd} (hm : (s.q q).mode = .run ∨ (s.q q).mode = .bindoff) (hc : (s.q q).cmds = [c])
    (hk : (s.q q).conts = []) (ho : c.out = none) (hring : c.ring = true) (hcall : c.call = false)
    (hl : (s.thr q).levels = []) : Gives (.rcmdFlush q) s fun t => SameMem s t ∧ t.regs = s.regs ∧
      t.q q = { (s.q q).flushing with cmds := [s.ended c St.aborted] } ∧ ∀ o, o ≠ q → t.q o = s.q o := by
  generalize hu : s.modQ q Queue.flushing = u
  have hq : u.q q = (s.q q).flushing := by rw [← hu, q_modQ_same]
  have hc' : (u.q q).cmds = [c] := by rw [hq]; exact hc
  have hk' : (u.q q).conts = [] := by rw [hq]; exact hk
  have hl' : (u.thr q).levels = [] := by rw [← hu]; exact hl
  obtain ⟨f, hf⟩ := finish_halting hc' hk' ho hring hl' (st := St.aborted) (by decide)
  have hhalting : (u.q q).halting = (s.q q).flushing := by rw [hq]; exact if_neg (by simp [Queue.flushing])
  have hend : u.ended c St.aborted = s.ended c St.aborted := by rw [← hu]; rfl
  have hq' : (u.finish q c.uid St.aborted).q q = { (s.q q).flushing with cmds := [s.ended c St.aborted] } := by
    rw [hf, q_modThr, q_modQ_same, show (u.dropStep c.uid).q q = u.q q from rfl, hhalting, hend]
  have hsettle : (u.finish q c.uid St.aborted).settle q = u.finish q c.uid St.aborted := by
    rw [State.settle, if_pos (.inr (by rw [hq']; simp [Queue.settled]))]
  rw [Gives, exec_rcmdFlush, whenPage_open hopen, rcmdFlush_live hm, hu, abortAll_one hc' hk' ho hring hcall hl', hsettle]
  obtain ⟨hregs, hmem⟩ := dropStep_keeps u c.uid
  refine ⟨_, rfl, ?_, ?_, by rw [keepOuter_q, hq'], fun o ho => ?_⟩
  · rw [hf]
    exact fun a => congrArg (sget (memDefault a) a) (hmem.trans (by rw [← hu]; rfl))
  · rw [hf]
    exact hregs.trans (by rw [← hu]; rfl)
  · rw [keepOuter_q, hf, q_modThr, q_modQ_ne _ _ ho, ← hu]
    exact q_modQ_ne s _ ho

end

-- the cancellations as commands

section
variable {s : State} {q : QNum} (hup : s.Up) (hrun : s.running Pg.qmg = true) (hm : (s.q q).mode = .recovering)
  (hclear : s.Clear q)
include hup hrun hm hclear

theorem exec_completionWrite_recovering : exec (.completionWrite q) s = .next (s.keepOuter (s.cancelNext q)) := by
  have hwork : s.working Pg.qmg = true := by
    rw [State.running] at hrun
    rw [State.working, hrun, Bool.true_or]
  have hnext : s.writeNext q = s.cancelNext q := by
    simp only [State.writeNext, hclear.1, hclear.2, hm, if_true]
  rw [exec_completionWrite_working hup hwork, hnext]

/-- The skip ends before a JOB_BEGIN (03 R77). -/
theorem completionWrite_atJobBegin (hr : (s.q q).recov = some .skip) (h : s.recovEnds q .skip = true) :
    Gives (.completionWrite q) s fun t => SameMem s t ∧ t.regs = s.regs ∧ t.q q = (s.q q).recovered (s.qEn q) := by
  rw [Gives, exec_completionWrite_recovering hup hrun hm hclear, cancelNext_ended hr h, endRecov_eq]
  exact ⟨_, rfl, fun _ => rfl, rfl, q_modQ_same s q fun x => x.recovered (s.qEn q)⟩

/-- The skip cancels the command `e` at NEXT, and goes on unless that was a JOB_END or a JOB_BEGIN comes next (03 R77). -/
theorem completionWrite_cancels {e : Entry} (hr : (s.q q).recov = some .skip) (hfree : s.slotFree q = true)
    (hecho : s.echoUart q = none) (he : e = s.ringEntry q (s.q q).next) (hop : e.opc ≠ 1) (hslots : e.slots ≤ ((s.q q).tail - (s.q q).next).toNat) :
    Gives (.completionWrite q) s fun t =>
      EntryStored q ((s.cancelledEntry q e).bytes (s.q q).phase false) s t ∧
      ∃ x : Queue, x = ((s.q q).entryWritten (s.cancelledEntry q e) (s.qCsize q)).movedPast e (s.q q).recovJob ∧
      t.q q = if e.opc = 2 ∨ (x.next ≠ x.tail ∧ (t.ringEntry q x.next).opc = 1) then x.recovered (s.qEn q) else x := by
  have hst : halting (s.cancelledEntry q e).status = false := rfl
  have hstored := (writeEntry_stored hst hecho).congr
    (u := (s.writeEntry q (s.cancelledEntry q e)).modQ q fun x => x.movedPast e (s.q q).recovJob) rfl rfl
  have hexec := exec_completionWrite_recovering hup hrun hm hclear
  have hnext := cancelNext_skip hr he hop hfree hslots
  generalize hv : (s.writeEntry q (s.cancelledEntry q e)).modQ q (fun x => x.movedPast e (s.q q).recovJob) = v at hstored hnext
  have hq : v.q q = ((s.q q).entryWritten (s.cancelledEntry q e) (s.qCsize q)).movedPast e (s.q q).recovJob := by
    rw [← hv, q_modQ_same, q_writeEntry hst hecho]
  have hskip : (v.q q).recov = some .skip := by rw [hq]; exact hr
  have hends : v.recovEnds q .skip = true ↔ (v.q q).next ≠ (v.q q).tail ∧ (v.ringEntry q (v.q q).next).opc = 1 := by
    simp [State.recovEnds]
  refine ⟨_, hexec, ?_⟩
  rw [hnext, ended_or_checkRecov hskip, hstored.qEn]
  refine ⟨hstored.congr rfl rfl, v.q q, hq, ?_⟩
  rw [keepOuter_q, q_modQ_same]
  exact if_congr (or_congr_right hends) rfl rfl
end

end Sys2Proof.Machine

open Sys2Proof Sys2Proof.Machine

/-- Settles O22: the release of the port touches neither queues, registers nor memory, so that the cancellations start on the
queue as it was. -/
theorem recoveryCommands : Obligations.RecoveryCommands := by
  unfold Obligations.RecoveryCommands
  intro s q hopen
  refine ⟨fun hm hen hlost hcs => ?resume,
    fun hm hen => ⟨fun hjob => ?outside, fun hjob hnext => ?empty, fun hjob hnext => ?skip⟩,
    fun hen hm => ⟨fun hnext => ?flushed, fun hnext => ?flush⟩, fun c hm hc hk ho hring hcall hl => ?abort,
    fun e a hrun hm hr hc hk hen hfree hecho he => ⟨fun hop hnext => ?begin, fun hop hslots ha => ?cancel⟩,
    fun hm => ⟨exec_rcmdResume_refused hopen (.inl hm), exec_rcmdSkipJob_refused hopen hm⟩,
    fun hlost => exec_rcmdResume_refused hopen (.inr hlost), fun hm => exec_rcmdFlush_refused hopen hm⟩
  case resume =>
    obtain ⟨t, hexec, hq, hmem, hregs, hport⟩ := rcmdResume_gives hopen hm hen hlost hcs
    refine ⟨t, hexec, ?_, ?_, ?_, hmem, hregs, hport⟩ <;> rw [hq, Queue.resumed]
  case outside =>
    obtain ⟨t, hexec, hq, hreleased⟩ := rcmdSkipJob_outside_gives hopen hm hjob
    refine ⟨t, hexec, ?_, ?_, ?_, ?_, hreleased.port, hreleased.mem, hreleased.regs⟩ <;> rw [hq]
    exact if_pos hen
  case empty =>
    obtain ⟨t, hexec, hq, hreleased⟩ := rcmdSkipJob_inside_gives hopen hm hjob
    have hgoes : s.recovEnds q .skip = false := by simp [State.recovEnds, hnext]
    rw [hgoes] at hq
    refine ⟨t, hexec, ?_, ?_, hreleased.port, hreleased.mem, hreleased.regs⟩ <;> rw [hq] <;> rfl
  case skip =>
    obtain ⟨t, hexec, hq, hreleased⟩ := rcmdSkipJob_inside_gives hopen hm hjob
    have hends : s.recovEnds q .skip = true ↔ (s.ringEntry q (s.q q).next).opc = 1 := by simp [State.recovEnds, hnext]
    refine ⟨t, hexec, ?_, hreleased.port, hreleased.mem, hreleased.regs, ?_⟩
    · rw [hq, Queue.startRecov]
      split <;> rfl
    · rw [hq, hen]
      split
      · next hbegin =>
        rw [hends.2 hbegin]
        exact ⟨rfl, rfl, rfl⟩
      · next hbegin =>
        rw [Bool.eq_false_iff.2 (mt hends.1 hbegin)]
        exact ⟨rfl, rfl⟩
  case flushed =>
    obtain ⟨t, hexec, ⟨x, -, hq⟩, hreleased⟩ := rcmdFlush_gives hopen hm
    rw [beq_iff_eq.2 hnext, hen] at hq
    refine ⟨t, hexec, ?_, ?_, hreleased.port, hreleased.mem, hreleased.regs⟩ <;> rw [hq] <;> rfl
  case flush =>
    obtain ⟨t, hexec, ⟨x, hx, hq⟩, hreleased⟩ := rcmdFlush_gives hopen hm
    rw [beq_false_of_ne hnext] at hq
    refine ⟨t, hexec, ?_, ?_, ?_, hreleased.port, hreleased.mem, hreleased.regs⟩ <;> rw [hq]
    · rfl
    · rfl
    · exact hx
  case abort =>
    obtain ⟨t, hexec, hmem, hregs, hq, hother⟩ := rcmdFlush_aborts hopen hm hc hk ho hring hcall hl
    exact ⟨t, hexec, hmem, hregs, hq, hother⟩
  case begin =>
    have hends : s.recovEnds q .skip = true := by simp [State.recovEnds, hnext, ← he, hop]
    obtain ⟨t, hexec, hmem, hregs, hq⟩ := completionWrite_atJobBegin hopen.1 hrun hm ⟨hc, hk⟩ hr hends
    rw [hen] at hq
    refine ⟨t, hexec, hmem, hregs, ?_, ?_, ?_, ?_, ?_⟩ <;> rw [hq] <;> rfl
  case cancel =>
    obtain ⟨t, hexec, ⟨hothers, hentry, hregs⟩, x, hx, hq⟩ :=
      completionWrite_cancels hopen.1 hrun hm ⟨hc, hk⟩ hr hfree hecho he hop hslots
    have hxnext : x.next = (s.q q).next + BitVec.ofNat 16 e.slots := by rw [hx]; rfl
    have hxtail : x.tail = (s.q q).tail := by rw [hx]; rfl
    have hxhead : x.head = x.next := by
      rw [hxnext, hx]
      exact if_neg e.slots_pos.ne'
    obtain ⟨hnext, hcwr, hhead⟩ : (t.q q).next = x.next ∧ (t.q q).cwr = x.cwr ∧ (t.q q).head = x.head := by
      rw [hq]
      split <;> exact ⟨rfl, rfl, rfl⟩
    subst ha
    refine ⟨t, hexec, hnext.trans hxnext, ?_, (hhead.trans hxhead).trans hnext.symm, hothers, hregs, hentry, ?_⟩
    · rw [hcwr, hx]
      rfl
    · rw [hnext, hq, apply_ite Queue.mode, hxtail, hen]
      refine if_congr Iff.rfl rfl ?_
      rw [hx]
      exact hm

/-- Settles O24: with an empty halt set no block is to come back and nothing is continued. -/
theorem policyActsAfterHalt : Obligations.PolicyActsAfterHalt := by
  unfold Obligations.PolicyActsAfterHalt
  intro s q hup
  rw [Gives, exec_autoRecovery, whenUp_up hup]
  refine ⟨fun hm hact hset hstat hport _ hen => ⟨_, rfl, ?_⟩, fun hact => ?_⟩
  · have hcs : ∀ c ∈ s.continuations q true, c.e.opc = 0x15 → c.committed = true := by simp [continuations_nil hset]
    rw [autoRecovery_resume hm hact hset hstat, resume_eq hen hcs, hport]
    refine ⟨?_, ?_, ?_, rfl, rfl⟩ <;> rw [keepOuter_q, Option.elim_none, q_modQ_same, Queue.resumed]
    rfl
  · rw [autoRecovery_none hact, keepOuter_self]

end

section
/-! SUPPORT. The next entry of the ring where it is malformed (04 R87, R88, R121); what that says of O26. -/

namespace Sys2Proof.Machine

theorem exec_undefinedOpcode (s : State) (q : QNum) : exec (.undefinedOpcode q) s = whenUp s fun s => s.issueMalformed q := rfl

/-- What an issue leaves of registers, memory, page headers, time and the other queues. -/
theorem issueFrame_keeps {q : QNum} {s t : State} (h : IssueFrame q s t) : t.mem = s.mem ∧ t.regs = s.regs ∧
    (∀ o, t.page o = s.page o) ∧ t.timeLo = s.timeLo ∧ ∀ o, o ≠ q → t.q o = s.q o := by
  obtain ⟨h, -⟩ := h
  refine ⟨by rw [h], by rw [h], fun _ => by rw [h]; rfl, by rw [h]; rfl, fun o ho => ?_⟩
  have hqo : ¬ q.val = o.val := fun e => ho (Fin.ext e.symm)
  rw [h]
  simp [State.q, hqo]

theorem malformed_reason {e : Entry} {r : Nat} (h : e.malformed = some r) : r = 1 ∨ r = 2 := by
  unfold Entry.malformed at h
  split at h
  · cases h
    exact .inl rfl
  · split at h
    · cases h
    · cases h
      exact .inr rfl

/-- A malformed entry of the ring starts, and is refused (04 R88). -/
theorem issueMalformed_ring {s : State} {q : QNum} {e : Entry} {r : Nat} (hpick : s.seqPick = some q)
    (htrap : (s.thr q).trapDue = false) (hnext : s.nextEntry q = some e) (hbad : e.malformed = some r)
    (hspot : s.spot q = .ring) (hclear : s.Clear q) : s.issueMalformed q = (s.begin q e).1.badCmd q (s.taken q e).uid r := by
  obtain ⟨huid, -⟩ := begin_ring e hspot hclear
  have hissue : ¬ (s.seqPick ≠ some q ∨ (s.thr q).trapDue = true) := by simp [hpick, htrap]
  simp only [State.issueMalformed, if_neg hissue, hnext, hbad, hspot, huid, reduceCtorEq, false_and, if_false]
  rfl

/-- SEQ_Tn_BADCMD of a ring command (04 R121). -/
def badCmdWord (c : Cmd) (reason : Nat) : Word := BitVec.ofNat 32 (c.idx.toNat * 65536 + c.e.opc * 256 + reason)

/-- SEQ_Tn_BADCMD is written, and event 6 of SEQ is set (04 R121). -/
def State.recordBad (s : State) (q : QNum) (v : Word) : State := (s.wr R.SEQ_Tn_BADCMD v q.val).irq Pg.seq 6

section
variable (s : State) (q : QNum) (v : Word)
theorem recordBad_mem : (s.recordBad q v).mem = s.mem := rfl
theorem recordBad_rd : (s.recordBad q v).rd R.SEQ_Tn_BADCMD q.val = v := rd_wr_same s R.SEQ_Tn_BADCMD v q.val 0
theorem recordBad_regs : SameRegsBut [R.SEQ_Tn_BADCMD.addr q.val 0] s (s.recordBad q v) :=
  sameRegs_wr s R.SEQ_Tn_BADCMD v q.val 0
theorem recordBad_q (o : QNum) : (s.recordBad q v).q o = s.q o := rfl
theorem recordBad_thr : (s.recordBad q v).thr q = s.thr q := rfl
theorem recordBad_timeLo : (s.recordBad q v).timeLo = s.timeLo := rfl
theorem recordBad_page : (s.recordBad q v).page Pg.seq =
    { s.page Pg.seq with irqStat := (s.page Pg.seq).irqStat ||| 64 } :=
  page_modPage_same (s.wr R.SEQ_Tn_BADCMD v q.val) Pg.seq fun x => { x with irqStat := x.irqStat ||| 64 }
end

theorem dropStep_q (s : State) (uid : Nat) (o : QNum) : (s.dropStep uid).q o = s.q o := rfl

theorem ended_congr {s t : State} (h : t.timeLo = s.timeLo) (c : Cmd) (st : Byte) : t.ended c st = s.ended c st := by
  rw [State.ended, State.done, h]
  rfl

/-- The end of a command changes queues, threads, and what RND and SKN hold. -/
theorem dropStep_modQ_modThr_keeps (s : State) (uid : Nat) (q : QNum) (f : Queue → Queue) (g : Thread → Thread) :
    (((s.dropStep uid).modQ q f).modThr q g).mem = s.mem ∧ (((s.dropStep uid).modQ q f).modThr q g).regs = s.regs ∧
    (((s.dropStep uid).modQ q f).modThr q g).pages = s.pages := ⟨rfl, rfl, rfl⟩

/-- The command `c` of queue `q` has completed BAD_COMMAND for `reason`: its queue is bound off if it ran, and nothing else of
registers, memory and queues changes (04 R88, R121). -/
structure BadCommanded (q : QNum) (c : Cmd) (reason : Nat) (s t : State) : Prop where
  mem : t.mem = s.mem
  regs : SameRegsBut [R.SEQ_Tn_BADCMD.addr q.val 0] s t
  word : t.rd R.SEQ_Tn_BADCMD q.val = badCmdWord c reason
  page : t.page Pg.seq = { s.page Pg.seq with irqStat := (s.page Pg.seq).irqStat ||| 64 }
  queue : t.q q = { (s.q q).halting with cmds := [s.ended c St.badCommand] }
  others : ∀ o, o ≠ q → t.q o = s.q o

/-- The one command in flight, of the ring, completes BAD_COMMAND. -/
theorem badCmd_ring {s : State} {q : QNum} {c : Cmd} (hc : (s.q q).cmds = [c]) (hk : (s.q q).conts = []) (ho : c.out = none)
    (hring : c.ring = true) (hl : (s.thr q).levels = []) (reason : Nat) :
    BadCommanded q c reason s (s.badCmd q c.uid reason) := by
  have hlive : s.liveCmd q c.uid = some c := by simp [State.liveCmd, hc, hk, ho]
  have hbad : s.badCmd q c.uid reason = (s.recordBad q (badCmdWord c reason)).finish q c.uid St.badCommand := by
    simp only [State.badCmd, hlive, hring, if_true, Nat.add_zero, State.recordBad, badCmdWord]
  obtain ⟨f, hf⟩ := finish_halting (s := s.recordBad q (badCmdWord c reason)) (by rwa [recordBad_q])
    (by rwa [recordBad_q]) ho hring (by rwa [recordBad_thr]) (st := St.badCommand) (by decide)
  rw [ended_congr (recordBad_timeLo s q _)] at hf
  obtain ⟨hmem, hregs, hpages⟩ := dropStep_modQ_modThr_keeps (s.recordBad q (badCmdWord c reason)) c.uid q
    (fun x => { x.halting with cmds := [s.ended c St.badCommand] }) f
  rw [← hf, ← hbad] at hmem hregs hpages
  refine ⟨hmem.trans (recordBad_mem s q _), fun a d ha => ?_, ?_, ?_, ?_, fun o ho => ?_⟩
  · rw [hregs]
    exact recordBad_regs s q _ a d ha
  · rw [State.rd, hregs]
    exact recordBad_rd s q _
  · rw [State.page, hpages]
    exact recordBad_page s q _
  · rw [hbad, hf, q_modThr, q_modQ_same, dropStep_q, recordBad_q]
  · rw [hbad, hf, q_modThr, q_modQ_ne _ _ ho, dropStep_q, recordBad_q]

/-- A command of the ring that has only started has no line to resume at. -/
theorem ended_taken (s : State) (q : QNum) (e : Entry) (st : Byte) : s.ended (s.taken q e) st = s.done (s.taken q e) st := by
  have hresume : (if (s.taken q e).e.opc = 0x15 then BitVec.ofNat 32 (s.taken q e).resumeLine
      else (s.taken q e).resume) = 0 := by
    split <;> rfl
  rw [State.ended, hresume]
  rfl

end Sys2Proof.Machine

open Sys2Proof Sys2Proof.Machine

/-- Settles O26: the entry starts as any other of the ring, and its outcome halts. -/
theorem malformedEntryIsRefused : Obligations.MalformedEntryIsRefused := by
  unfold Obligations.MalformedEntryIsRefused
  intro s q e r hup hpick htrap hnext hbad hspot hclear
  obtain ⟨-, hm, -⟩ := ring_ready (ready_of_pick hpick) hspot htrap
  obtain ⟨-, hlevels⟩ := spot_ring hspot
  obtain ⟨-, hframe, hq, hthr⟩ := begin_ring e hspot hclear
  obtain ⟨hmem, hregs, hpage, htime, hother⟩ := issueFrame_keeps hframe
  have hissue := issueMalformed_ring hpick htrap hnext hbad hspot hclear
  have hbad' := badCmd_ring (s := (s.begin q e).1) (c := s.taken q e) (by rw [hq]) (by rw [hq]; exact hclear.2) rfl rfl
    (by rw [hthr]; exact hlevels) r
  rw [Gives, exec_undefinedOpcode, whenUp_up hup, hissue]
  generalize (s.begin q e).1.badCmd q _ r = t at hbad'
  obtain ⟨bmem, bregs, bword, bpage, bqueue, bothers⟩ := hbad'
  refine ⟨_, rfl, fun a => congrArg (sget (memDefault a) a) (bmem.trans hmem),
    fun a d ha => (bregs a d ha).trans (congrArg (sget d a) hregs), bword, malformed_reason hbad, ?_, ?_,
    fun o ho => (bothers o ho).trans (hother o ho)⟩
  · rw [page_keepOuter, bpage, hpage]
  · have hbound : ((s.begin q e).1.q q).halting = ((s.begin q e).1.q q).boundOff := if_pos (by rw [hq]; exact hm)
    rw [keepOuter_q, bqueue, hbound, ended_congr htime, ended_taken, hq]
    rfl

end

section
/-! SUPPORT. A command of the ring at its issue slot: the frame of its issue through what a command does to its queue, its thread
and its outcome (04 R90, 03 R59 to R73); what that says of O25. -/

namespace Sys2Proof.Machine

-- an issue as a command carries it on

/-- `s` with another queue `q`, other threads and turns, another mark of the boot list, and the next name of a command. -/
def State.issued (s : State) (q : QNum) (x : Queue) (b : Option (QNum × Nat)) (th : Vector Thread 16)
    (la : Vector (Option QNum) 4) : State :=
  { s with queues := s.queues.set q x, nextUid := s.nextUid + 1, sec := { s.sec with bootQ := b }
           seq := { s.seq with threads := th, lastAt := la } }

theorem issueFrame_iff {q : QNum} {s u : State} : IssueFrame q s u ↔
    (∃ x b th la, u = s.issued q x b th la) ∧ ∀ o, o ≠ q → u.thr o = { s.thr o with passed := (u.thr o).passed } := by
  constructor
  · rintro ⟨heq, hthr⟩
    exact ⟨⟨_, _, _, _, heq⟩, hthr⟩
  · rintro ⟨⟨x, b, th, la, rfl⟩, hthr⟩
    refine ⟨?_, hthr⟩
    simp [State.issued, State.q]

section
variable {q : QNum} {s u : State} (h : IssueFrame q s u)
include h

theorem IssueFrame.modQ (f : Queue → Queue) : IssueFrame q s (u.modQ q f) := by
  obtain ⟨⟨x, b, th, la, rfl⟩, hthr⟩ := issueFrame_iff.1 h
  refine issueFrame_iff.2 ⟨⟨f x, b, th, la, ?_⟩, hthr⟩
  simp [State.issued, State.modQ]

theorem IssueFrame.modThr (f : Thread → Thread) : IssueFrame q s (u.modThr q f) := by
  obtain ⟨⟨x, b, th, la, heq⟩, hthr⟩ := issueFrame_iff.1 h
  refine issueFrame_iff.2 ⟨⟨x, b, (u.modThr q f).seq.threads, la, ?_⟩, fun o ho => ?_⟩
  · rw [heq]
    rfl
  · rw [thr_modThr_ne _ _ ho]
    exact hthr o ho

/-- An issue and a change of a part of the state that no issue touches. -/
theorem IssueFrame.map {F : State → State} (hF : ∀ x b th la, F (s.issued q x b th la) = (F s).issued q x b th la)
    (hs : ∀ o, (F s).thr o = s.thr o) (hu : ∀ o, (F u).thr o = u.thr o) : IssueFrame q (F s) (F u) := by
  obtain ⟨⟨x, b, th, la, heq⟩, hthr⟩ := issueFrame_iff.1 h
  refine issueFrame_iff.2 ⟨⟨x, b, th, la, by rw [heq, hF]⟩, fun o ho => ?_⟩
  rw [hu, hs]
  exact hthr o ho

theorem IssueFrame.dropStep (uid : Nat) : IssueFrame q (s.dropStep uid) (u.dropStep uid) :=
  h.map (F := fun s => s.dropStep uid) (fun _ _ _ _ => rfl) (fun _ => rfl) fun _ => rfl

theorem IssueFrame.pending : u.pending = s.pending := (congrArg State.pending h.1 :)
theorem IssueFrame.chip : u.chip = s.chip := (congrArg State.chip h.1 :)
theorem IssueFrame.time : u.time = s.time := (congrArg State.time h.1 :)
theorem IssueFrame.bus : u.bus = s.bus := (congrArg State.bus h.1 :)
theorem IssueFrame.event : u.seq.event = s.seq.event := (congrArg (fun t : State => t.seq.event) h.1 :)

theorem IssueFrame.qPort (o : QNum) : u.qPort o = s.qPort o := by
  obtain ⟨⟨_, _, _, _, rfl⟩, -⟩ := issueFrame_iff.1 h
  rfl
end

-- a command of the ring that starts

/-- Thread `q` has just started the command `c` of its ring in `s`, alone in flight: `u`. -/
structure Started (q : QNum) (c : Cmd) (s u : State) : Prop where
  frame : IssueFrame q s u
  queue : u.q q = { s.q q with next := (s.q q).next + BitVec.ofNat 16 c.slots, cmds := [c] }
  cmds : (u.q q).cmds = [c]
  conts : (u.q q).conts = []
  mode : (u.q q).mode = .run
  wait : (u.thr q).wait = .none
  levels : (u.thr q).levels = []
  trap : (u.thr q).trap = none

section
variable {s : State} {q : QNum} {op : Nat} {e : Entry} (h : s.Issues q op e)
include h

theorem opc_of_issues : e.opc = op := by
  obtain ⟨-, hi, -⟩ := h
  obtain ⟨-, -, -, hop, -⟩ := pick_of_issuing hi
  exact hop

theorem slots_of_issues (hop : op ≠ 0x61) : e.slots = 1 := if_neg (by rwa [opc_of_issues h])

theorem started_begin : Started q (s.taken q e) s (s.begin q e).1 := by
  obtain ⟨-, hi, hs, hc⟩ := h
  obtain ⟨hpick, htrap, -⟩ := pick_of_issuing hi
  obtain ⟨-, hm, hw⟩ := ring_ready (ready_of_pick hpick) hs htrap
  obtain ⟨ht, hl⟩ := spot_ring hs
  obtain ⟨-, hf, hq, hthr⟩ := begin_ring e hs hc
  exact ⟨hf, hq, by rw [hq], by rw [hq]; exact hc.2, by rw [hq]; exact hm, by rw [hthr]; exact hw, by rw [hthr]; exact hl,
    by rw [hthr]; exact ht⟩

/-- A command of the ring whose place and port suit it is carried out. -/
theorem issue_begin (ha : allowedAt op .ring = true) (hp : needsPort op = true → (s.qPort q).isSome = true)
    (k : Entry → State → Option Nat → State) : s.issue q op k = k e (s.begin q e).1 (some (s.taken q e).uid) := by
  obtain ⟨-, hi, hs, hc⟩ := h
  obtain ⟨-, -, -, hop, -⟩ := pick_of_issuing hi
  obtain ⟨huid, hf, -⟩ := begin_ring e hs hc
  have hport : (s.begin q e).1.qPort q = s.qPort q := by rw [hf.1]; rfl
  have hbound : ¬ (needsPort op = true ∧ (s.qPort q).isNone = true) := fun hn => by
    have := hp hn.1
    simp [Option.isNone_iff_eq_none.1 hn.2] at this
  simp only [State.issue, hi, State.start, hs, huid, hport, hop, ha, hbound, not_true_eq_false, if_false]
  rfl

theorem issueCmd_begin (ha : allowedAt op .ring = true) (hp : needsPort op = true → (s.qPort q).isSome = true)
    (k : Entry → State → Nat → State) : s.issueCmd q op k = k e (s.begin q e).1 (s.taken q e).uid := by
  rw [State.issueCmd, issue_begin h ha hp]
end

/-- A change of the one command in flight. -/
theorem modCmd_one {s : State} {q : QNum} {c : Cmd} (hc : (s.q q).cmds = [c]) (hk : (s.q q).conts = []) (ho : c.out = none)
    (f : Cmd → Cmd) : s.modCmd q c.uid f = s.modQ q fun x => { x with cmds := [f c] } := by
  refine modQ_congr ?_
  simp [setCmd, hc, hk, ho]

theorem Gives.mono {c : Instr} {s : State} {P Q : State → Prop} (h : Gives c s P) (hPQ : ∀ t, P t → Q t) : Gives c s Q := by
  obtain ⟨t, ht, hP⟩ := h
  exact ⟨t, ht, hPQ t hP⟩

theorem sameMem_of_mem {s t : State} (h : t.mem = s.mem) : SameMem s t := fun a => congrArg (sget (memDefault a) a) h

/-- A command whose meaning leaves what its guard restores. -/
theorem gives_of_outer {i : Instr} {s t : State} {f : State → State} (he : exec i s = whenUp s f) (hup : s.Up) (ht : f s = t)
    (hp : t.pending = s.pending) (htap : t.chip = s.chip) {P : State → Prop} (hP : P t) : Gives i s P := by
  rw [Gives, he, whenUp_up hup, ht, keepOuter_eq hp (congrArg _ htap)]
  exact ⟨_, rfl, hP⟩

/-- A command whose meaning leaves the frame of an issue. -/
theorem gives_of_frame {i : Instr} {s r t : State} {q : QNum} {f : State → State} (he : exec i s = whenUp s f) (hup : s.Up)
    (ht : f s = t) (hf : IssueFrame q r t) (hp : r.pending = s.pending) (hchip : r.chip = s.chip) {P : State → Prop} (hP : P t) :
    Gives i s P :=
  gives_of_outer he hup ht (hf.pending.trans hp) (hf.chip.trans hchip) hP

/-- What an outcome may touch: the queues, the threads, and what RND and SKN hold for steps. -/
def OutcomeFrame (s t : State) : Prop :=
  t = { s with
    skn := { s.skn with waits := t.skn.waits }, rnd := { s.rnd with steps := t.rnd.steps }
    queues := t.queues, seq := { s.seq with threads := t.seq.threads } }

section
variable {s t : State} (h : OutcomeFrame s t)
include h
theorem OutcomeFrame.pending : t.pending = s.pending := (congrArg State.pending h :)
theorem OutcomeFrame.chip : t.chip = s.chip := (congrArg State.chip h :)
theorem OutcomeFrame.mem : t.mem = s.mem := (congrArg State.mem h :)
theorem OutcomeFrame.regs : t.regs = s.regs := (congrArg State.regs h :)
theorem OutcomeFrame.med : t.med = s.med := (congrArg State.med h :)
theorem OutcomeFrame.bus : t.bus = s.bus := (congrArg State.bus h :)
theorem OutcomeFrame.sec : t.sec = s.sec := (congrArg State.sec h :)
theorem OutcomeFrame.event : t.seq.event = s.seq.event := (congrArg (fun u : State => u.seq.event) h :)
end

/-- The one command in flight of queue `q` has its outcome: the queue is now `x`. -/
structure OutcomeOf (q : QNum) (c : Cmd) (x : Queue) (s t : State) : Prop where
  frame : OutcomeFrame s t
  queue : t.q q = x
  others : ∀ o, o ≠ q → t.q o = s.q o
  thr : t.thr q = { s.thr q with wait := (s.thr q).wait.after c.uid }

theorem outcomeOf_end (s : State) (q : QNum) (c : Cmd) (f : Queue → Queue) : OutcomeOf q c (f (s.q q)) s
    (((s.dropStep c.uid).modQ q f).modThr q fun t => { t with wait := t.wait.after c.uid }) := by
  refine ⟨rfl, ?_, fun o ho => ?_, ?_⟩
  · rw [q_modThr, q_modQ_same, dropStep_q]
  · rw [q_modThr, q_modQ_ne _ _ ho, dropStep_q]
  · rw [thr_modThr_same]
    rfl

/-- The one command in flight, that its thread waits for in the ring, ends with a status that does not halt. -/
theorem outcomeOf_finish {s : State} {q : QNum} {c : Cmd} (hc : (s.q q).cmds = [c]) (hk : (s.q q).conts = [])
    (ho : c.out = none) (hp : c.e.opc ≠ 0x15) (hl : (s.thr q).levels = []) {st : Byte} (hh : halting st = false) :
    OutcomeOf q c { s.q q with cmds := [s.done c st] } s (s.finish q c.uid st) := by
  rw [finish_one hc hk ho hp hl st hh]
  exact outcomeOf_end s q c fun x => { x with cmds := [s.done c st] }

/-- As `outcomeOf_finish`, for a status that halts. -/
theorem outcomeOf_halt {s : State} {q : QNum} {c : Cmd} (hc : (s.q q).cmds = [c]) (hk : (s.q q).conts = [])
    (ho : c.out = none) (hp : c.e.opc ≠ 0x15) (hr : c.parent = none) (hl : (s.thr q).levels = [])
    (hw : (s.thr q).wait.after c.uid = .none) (hm : (s.q q).mode = .run) {st : Byte} (hh : halting st = true) :
    OutcomeOf q c { s.q q with cmds := [s.done c st], mode := .bindoff, haltGiven := false } s (s.finish q c.uid st) := by
  rw [finish_halt hc hk ho hp hr hl hw hm st hh]
  exact outcomeOf_end s q c fun x => { x with cmds := [s.done c st], mode := .bindoff, haltGiven := false }

/-- The one command in flight, of the ring, has its outcome, which does not halt. -/
theorem completed_finish {q : QNum} {s u : State} {c : Cmd} (hf : IssueFrame q s u) (hc : (u.q q).cmds = [c])
    (hk : (u.q q).conts = []) (ho : c.out = none) (hp : c.e.opc ≠ 0x15) (hl : (u.thr q).levels = []) {st : Byte}
    (hh : halting st = false) : IssueFrame q (s.dropStep c.uid) (u.finish q c.uid st) ∧
      (u.finish q c.uid st).q q = { u.q q with cmds := [s.done c st] } ∧
      (u.finish q c.uid st).thr q = { u.thr q with wait := (u.thr q).wait.after c.uid } := by
  obtain ⟨-, -, -, htime, -⟩ := issueFrame_keeps hf
  rw [finish_one hc hk ho hp hl st hh]
  refine ⟨((hf.dropStep c.uid).modQ _).modThr _, ?_, ?_⟩
  · rw [q_modThr, q_modQ_same, dropStep_q, State.done, State.done, htime]
  · rw [thr_modThr_same]
    rfl

/-- A command of the ring whose meaning ends with its outcome, which does not halt. -/
theorem gives_ends {i : Instr} {s r v : State} {q : QNum} {c : Cmd} {st : Byte} {f : State → State}
    (he : exec i s = whenUp s f) (hup : s.Up) (ht : f s = v.finish q c.uid st) (hf : IssueFrame q r v)
    (hp : r.pending = s.pending) (hchip : r.chip = s.chip) (hc : (v.q q).cmds = [c]) (hk : (v.q q).conts = [])
    (ho : c.out = none) (hop : c.e.opc ≠ 0x15) (hl : (v.thr q).levels = []) (hh : halting st = false) : Gives i s fun t =>
      IssueFrame q (r.dropStep c.uid) t ∧ t.thr q = { v.thr q with wait := (v.thr q).wait.after c.uid } ∧
      t.q q = { v.q q with cmds := [r.done c st] } := by
  obtain ⟨hframe, hq, hthr⟩ := completed_finish hf hc hk ho hop hl hh
  exact gives_of_frame he hup ht hframe hp hchip ⟨hframe, hthr, hq⟩

/-- As `gives_ends`, for an outcome that halts: the queue is bound off. -/
theorem gives_halts {i : Instr} {s r v : State} {q : QNum} {c : Cmd} {st : Byte} {f : State → State}
    (he : exec i s = whenUp s f) (hup : s.Up) (ht : f s = v.finish q c.uid st) (hf : IssueFrame q r v)
    (hp : r.pending = s.pending) (hchip : r.chip = s.chip) (hc : (v.q q).cmds = [c]) (hk : (v.q q).conts = [])
    (ho : c.out = none) (hop : c.e.opc ≠ 0x15) (hr : c.parent = none) (hl : (v.thr q).levels = [])
    (hw : (v.thr q).wait.after c.uid = .none) (hm : (v.q q).mode = .run) (hh : halting st = true) : Gives i s fun t =>
      IssueFrame q (r.dropStep c.uid) t ∧
      t.q q = { v.q q with cmds := [r.done c st], mode := .bindoff, haltGiven := false } := by
  obtain ⟨-, -, -, htime, -⟩ := issueFrame_keeps hf
  have hend := finish_halt hc hk ho hop hr hl hw hm st hh
  have hframe : IssueFrame q (r.dropStep c.uid) (v.finish q c.uid st) := by
    rw [hend]
    exact ((hf.dropStep c.uid).modQ _).modThr _
  refine gives_of_frame he hup ht hframe hp hchip ⟨hframe, ?_⟩
  rw [hend, q_modThr, q_modQ_same, dropStep_q, State.done, State.done, htime]

/-- A command of the ring that has changed its queue by `f` completes OK at once. -/
theorem gives_completed {i : Instr} {s : State} {q : QNum} {op : Nat} {e : Entry} (h : s.Issues q op e) (hop : op ≠ 0x15)
    (hslots : op ≠ 0x61) {f : State → State} (he : exec i s = whenUp s f) {g : Queue → Queue} {d : Cmd}
    (hd : d.uid = s.nextUid) (hde : d.e = e) (ho : d.out = none)
    (hg : ∀ x, x.cmds = [s.taken q e] → (g x).cmds = [d] ∧ (g x).conts = x.conts)
    (hf : f s = ((s.begin q e).1.modQ q g).finish q (s.taken q e).uid St.ok) : Gives i s fun t =>
      IssueFrame q (s.dropStep s.nextUid) t ∧ (t.thr q).wait = .none ∧
      t.q q = { g { s.q q with next := (s.q q).next + 1, cmds := [s.taken q e] } with cmds := [s.done d St.ok] } := by
  obtain ⟨frame, queue, cmds, conts, -, wait, levels, -⟩ := started_begin h
  obtain ⟨hcmds, hconts⟩ := hg _ cmds
  refine (gives_ends he h.1 (hf.trans (by rw [hd]; rfl)) (frame.modQ g) rfl rfl (by rwa [q_modQ_same])
    (by rw [q_modQ_same, hconts, conts]) ho (by rwa [hde, opc_of_issues h]) (by rwa [thr_modQ])
    (st := St.ok) rfl).mono fun t ⟨hframe, hthr, hq⟩ => ⟨by rwa [hd] at hframe, ?_, ?_⟩
  · rw [hthr, thr_modQ, wait]
    rfl
  · rw [hq, q_modQ_same, queue, show (s.taken q e).slots = 1 from slots_of_issues h hslots]
    rfl

theorem q_waitFor (s : State) (q o : QNum) (uid : Nat) : (s.waitFor q uid).q o = s.q o := rfl
theorem thr_waitFor (s : State) (q : QNum) (uid : Nat) : (s.waitFor q uid).thr q = { s.thr q with wait := .outcome uid } :=
  thr_modThr_same s q _

-- the commands

section
variable (s : State) (q : QNum)
theorem exec_jobBegin : exec (.jobBegin q) s = whenUp s fun s => s.jobBegin q := rfl
theorem exec_jobEnd : exec (.jobEnd q) s = whenUp s fun s => s.jobEnd q := rfl
theorem exec_nop : exec (.nop q) s = whenUp s fun s => s.nop q := rfl
theorem exec_setProfile : exec (.setProfile q) s = whenUp s fun s => s.setProfile q := rfl
end

/-- A queue once JOB_BEGIN, the one command `c` in flight, has opened its job (04 R93). -/
def Queue.withJob (x : Queue) (e : Entry) (c : Cmd) : Queue :=
  { x with cmds := [{ c with job := BitVec.ofNat 16 e.sp }], jobOpen := true, jobNum := BitVec.ofNat 16 e.sp
           policy := e.w1.setWidth 8, retryUsed := 0 }

/-- JOB_BEGIN opens its job, and its own completion carries the number (04 R93, log entry 30). -/
theorem jobBegin_opens {s : State} {q : QNum} {e : Entry} (h : s.Issues q 0x01 e) (hsp : e.sp ≠ 0xFFFF)
    (hopen : (s.q q).jobOpen = false) : s.jobBegin q =
      ((s.begin q e).1.modQ q fun x => x.withJob e (s.taken q e)).finish q (s.taken q e).uid St.ok := by
  obtain ⟨-, queue, cmds, conts, -⟩ := started_begin h
  have hclosed : ¬ ((s.begin q e).1.q q).jobOpen = true := by simp [queue, hopen]
  rw [State.jobBegin, issueCmd_begin h rfl (fun hp => by cases hp), if_neg hsp, if_neg hclosed]
  dsimp only
  rw [modCmd_one (by rw [q_modQ_same]; exact cmds) (by rw [q_modQ_same]; exact conts) rfl, modQ_modQ]
  rfl

/-- SET_PROFILE of a profile that is valid (04 R100). -/
theorem setProfile_valid {s : State} {q : QNum} {e : Entry} {p : Port} (h : s.Issues q 0x30 e) (hport : s.qPort q = some p)
    (hvalid : ((s.hheP p).profiles[Fin.ofNat 16 (e.sp % 16)]).valid = true) : s.setProfile q =
      ((s.begin q e).1.modQ q fun x => { x with profile := e.sp % 16 }).finish q (s.taken q e).uid St.ok := by
  have hframe := (started_begin h).frame
  have hhhe : (s.begin q e).1.hheP p = s.hheP p := by rw [hframe.1]; rfl
  have hn : (Fin.ofNat 16 (e.sp % 16)).val = e.sp % 16 := Nat.mod_mod _ _
  rw [State.setProfile, issueCmd_begin h rfl fun _ => by rw [hport]; rfl]
  simp only [hframe.qPort, hport, hhhe, hvalid, if_true, hn]

end Sys2Proof.Machine

open Sys2Proof Sys2Proof.Machine

/-- Settles O25: each of the four starts, changes its queue, and completes. -/
theorem jobCommandsComplete : Obligations.JobCommandsComplete := by
  unfold Obligations.JobCommandsComplete
  intro s q e
  refine ⟨fun h hsp hopen => ?_, fun h => ?_, fun h => ?_, fun p h hport hvalid => ?_⟩
  · exact gives_completed h (by decide) (by decide) (exec_jobBegin s q) (g := fun x => x.withJob e (s.taken q e))
      rfl rfl rfl (fun _ _ => ⟨rfl, rfl⟩) (jobBegin_opens h hsp hopen)
  · refine gives_completed h (by decide) (by decide) (exec_jobEnd s q) (g := fun x => { x with jobOpen := false })
      rfl rfl rfl (fun _ hx => ⟨hx, rfl⟩) ?_
    rw [State.jobEnd, issueCmd_begin h rfl (fun hp => by cases hp)]
  · refine gives_completed h (by decide) (by decide) (exec_nop s q) (g := id) rfl rfl rfl (fun _ hx => ⟨hx, rfl⟩) ?_
    rw [State.nop, issue_begin h rfl (fun hp => by cases hp), modQ_self rfl]
    rfl
  · exact gives_completed h (by decide) (by decide) (exec_setProfile s q) (g := fun x => { x with profile := e.sp % 16 })
      rfl rfl rfl (fun _ hx => ⟨hx, rfl⟩) (setProfile_valid h hport hvalid)

end

section
/-! SUPPORT. A composition command or PRINT enters RND while RND draws another step (04 R94 to R97, 05 R131); what that says of
O27. -/

namespace Sys2Proof.Machine

section
variable {q : QNum} {s u : State} (h : IssueFrame q s u)
include h

theorem IssueFrame.setSteps (p : Port) (l : List Step) : IssueFrame q (s.setSteps p l) (u.setSteps p l) :=
  h.map (F := fun s => s.setSteps p l) (fun _ _ _ _ => rfl) (fun _ => rfl) fun _ => rfl

theorem IssueFrame.needsMet (e : Entry) : u.needsMet q e = s.needsMet q e := by
  obtain ⟨⟨_, _, _, _, rfl⟩, -⟩ := issueFrame_iff.1 h
  rfl

theorem IssueFrame.compStatic (p : Port) (e : Entry) : u.compStatic p e = s.compStatic p e := by
  obtain ⟨⟨_, _, _, _, rfl⟩, -⟩ := issueFrame_iff.1 h
  rfl

theorem IssueFrame.rndBusy (hb : s.RndBusy) : u.RndBusy := by
  obtain ⟨⟨_, _, _, _, rfl⟩, -⟩ := issueFrame_iff.1 h
  exact hb
end

-- steps that join

theorem steps_setSteps_same (s : State) (p : Port) (l : List Step) : (s.setSteps p l).steps p = l := by
  simp [State.steps, State.setSteps]

theorem steps_setSteps_ne (s : State) {p o : Port} (l : List Step) (h : o ≠ p) : (s.setSteps p l).steps o = s.steps o := by
  have : ¬ p.val = o.val := fun e => h (Fin.ext e.symm)
  simp [State.steps, State.setSteps, this]

/-- A port that holds no step, or whose front step is no PRINT that may ask, starts none (05 R127). -/
theorem startPrint_id {s : State} {p : Port} (h : ∀ y l, s.steps p = y :: l → y.e.opc = 0x15 →
    y.granted = true ∨ s.skn.waits.any (fun w => w.port == p) = true) : s.startPrint p = s := by
  unfold State.startPrint
  split
  · rfl
  · next y l hs =>
    refine if_pos ?_
    by_cases hop : y.e.opc = 0x15
    · rcases h y l hs hop with hg | hw
      · exact .inr (.inl hg)
      · exact .inr (.inr (.inr hw))
    · exact .inl hop

theorem foldl_startPrint_id {s : State} (h : ∀ o y l, s.steps o = y :: l → y.e.opc = 0x15 →
    y.granted = true ∨ s.skn.waits.any (fun w => w.port == o) = true) (ps : List Port) :
    ps.foldl (fun s p => s.startPrint p) s = s := by
  induction ps with
  | nil => rfl
  | cons p ps ih => rw [List.foldl_cons, startPrint_id (h p), ih]

/-- While RND draws a step it takes no other (05 R131). -/
theorem rndTake_drawing {s : State} {o : Port} (hcur : s.rnd.cur = some o) (hdraw : s.drawable o = true) (n : Nat) :
    s.rndTake n = s := by
  cases n with
  | zero => rfl
  | succ n => rw [State.rndTake, if_pos (by simp [hcur, hdraw])]

theorem rndGo_busy {s : State} (h : s.RndBusy) : s.rndGo = s := by
  obtain ⟨⟨o, hcur, hdraw⟩, hfront⟩ := h
  simp only [State.rndGo, rndTake_drawing hcur hdraw]
  exact foldl_startPrint_id hfront _

/-- A step behind others, or a composition step, leaves RND as busy as it was. -/
theorem rndBusy_join {s : State} (h : s.RndBusy) {p : Port} {x : Step} (hx : s.steps p = [] → x.e.opc ≠ 0x15) :
    (s.setSteps p (s.steps p ++ [x])).RndBusy := by
  obtain ⟨⟨o, hcur, hdraw⟩, hfront⟩ := h
  refine ⟨⟨o, hcur, ?_⟩, fun o' y l hs hop => ?_⟩
  · by_cases ho : o = p
    · subst ho
      cases hs : s.steps o with
      | nil => simp [State.drawable, State.frontIs, hs] at hdraw
      | cons y l =>
        simp only [State.drawable, State.frontIs, hs] at hdraw
        simp only [State.drawable, State.frontIs, steps_setSteps_same, List.cons_append]
        exact hdraw
    · simp only [State.drawable, State.frontIs, steps_setSteps_ne _ _ ho]
      exact hdraw
  · by_cases ho : o' = p
    · subst ho
      rw [steps_setSteps_same] at hs
      cases hsteps : s.steps o' with
      | nil =>
        rw [hsteps] at hs
        cases hs
        exact absurd hop (hx hsteps)
      | cons y' l' =>
        rw [hsteps] at hs
        cases hs
        exact hfront o' y l' hsteps hop
    · rw [steps_setSteps_ne _ _ ho] at hs
      exact hfront o' y l hs hop

theorem pushStep_busy {s : State} (h : s.RndBusy) {p : Port} {x : Step} (hx : s.steps p = [] → x.e.opc ≠ 0x15) :
    s.pushStep p x = s.setSteps p (s.steps p ++ [x]) := rndGo_busy (rndBusy_join h hx)

-- the commands

section
variable (s : State) (q : QNum)
theorem exec_bandRaw : exec (.bandRaw q) s = whenUp s fun s => s.compose q 0x10 := rfl
theorem exec_textRun : exec (.textRun q) s = whenUp s fun s => s.compose q 0x11 := rfl
theorem exec_logo : exec (.logo q) s = whenUp s fun s => s.compose q 0x12 := rfl
theorem exec_rule : exec (.rule q) s = whenUp s fun s => s.compose q 0x13 := rfl
theorem exec_bars : exec (.bars q) s = whenUp s fun s => s.compose q 0x14 := rfl
theorem exec_print : exec (.print q) s = whenUp s fun s => s.print q := rfl
end

/-- The step that the next command to start becomes (05 R131). -/
def State.newStep (s : State) (q : QNum) (e : Entry) : Step := { uid := s.nextUid, q := q, e := e }

section
variable {s : State} {q : QNum} {e : Entry} {p : Port} (hport : s.qPort q = some p) (hmet : s.needsMet q e = true)
  (hbusy : s.RndBusy)
include hport hmet hbusy

theorem compose_joins {op : Nat} (h : s.Issues q op e) (hop : op ∈ [0x10, 0x11, 0x12, 0x13, 0x14])
    (hstatic : s.compStatic p e = none) :
    s.compose q op = (s.begin q e).1.setSteps p (s.steps p ++ [s.newStep q e]) := by
  have hframe := (started_begin h).frame
  have hsteps : (s.begin q e).1.steps p = s.steps p := by rw [hframe.1]; rfl
  have hplace : allowedAt op .ring = true ∧ op ≠ 0x15 := by
    simp only [List.mem_cons, List.not_mem_nil, or_false] at hop
    rcases hop with rfl | rfl | rfl | rfl | rfl <;> exact ⟨rfl, by decide⟩
  rw [State.compose, issueCmd_begin h hplace.1 fun _ => by rw [hport]; rfl]
  simp only [hframe.qPort, hport, hframe.compStatic, hstatic, State.ifMet, hframe.needsMet, hmet, if_true]
  rw [pushStep_busy (hframe.rndBusy hbusy) fun _ => by rw [opc_of_issues h]; exact hplace.2, hsteps]
  rfl

theorem print_joins (h : s.Issues q 0x15 e) (hne : s.steps p ≠ []) (hn : e.sp ≠ 0) (hle : e.sp ≤ s.area p) :
    s.print q = ((s.begin q e).1.modThr q fun t => { t with wait := .commit s.nextUid }).setSteps p
      (s.steps p ++ [s.newStep q e]) := by
  have hframe := (started_begin h).frame
  have hsteps : ∀ f, ((s.begin q e).1.modThr q f).steps p = s.steps p := fun f => by rw [hframe.1]; rfl
  have harea : (s.begin q e).1.area p = s.area p := by rw [hframe.1]; rfl
  have hlines : ¬ (e.sp = 0 ∨ s.area p < e.sp) := by omega
  rw [State.print, issueCmd_begin h rfl fun _ => by rw [hport]; rfl]
  simp only [hframe.qPort, hport, harea, hlines, State.ifMet, hframe.needsMet, hmet, if_true, if_false]
  rw [pushStep_busy ((hframe.modThr _).rndBusy hbusy) fun hnil => absurd ((hsteps _).symm.trans hnil) hne, hsteps]
  rfl
end

end Sys2Proof.Machine

open Sys2Proof Sys2Proof.Machine

/-- Settles O27: the step joins those of its port, and RND, which draws, takes nothing up. -/
theorem compositionEntersRender : Obligations.CompositionEntersRender := by
  unfold Obligations.CompositionEntersRender
  intro s q e p hport hmet hbusy
  refine ⟨fun op c hmem h hstatic => ?_, fun h hne hn hle => ?_⟩
  · obtain ⟨frame, queue, -, -, -, wait, -⟩ := started_begin h
    have hop : op ∈ [0x10, 0x11, 0x12, 0x13, 0x14] := List.mem_map_of_mem (f := Prod.fst) hmem
    have hexec : exec c s = whenUp s fun s => s.compose q op := by
      simp only [List.mem_cons, Prod.mk.injEq, List.not_mem_nil, or_false] at hmem
      rcases hmem with ⟨rfl, rfl⟩ | ⟨rfl, rfl⟩ | ⟨rfl, rfl⟩ | ⟨rfl, rfl⟩ | ⟨rfl, rfl⟩ <;> rfl
    have hslots : e.slots = 1 := slots_of_issues h (by rintro rfl; exact absurd hop (by decide))
    exact gives_of_frame hexec h.1 (compose_joins hport hmet hbusy h hop hstatic) (frame.setSteps p _) rfl rfl
      ⟨frame.setSteps p _, wait, queue.trans (by rw [show (s.taken q e).slots = 1 from hslots]; rfl)⟩
  · obtain ⟨frame, queue, -⟩ := started_begin h
    have hframe := (frame.modThr fun t => { t with wait := .commit s.nextUid }).setSteps p (s.steps p ++ [s.newStep q e])
    refine gives_of_frame (exec_print s q) h.1 (print_joins hport hmet hbusy h hne hn hle) hframe rfl rfl ⟨hframe, ?_, ?_⟩
    · exact congrArg Thread.wait (thr_modThr_same _ q fun t => { t with wait := .commit s.nextUid })
    · exact queue.trans (by rw [show (s.taken q e).slots = 1 from slots_of_issues h (by decide)]; rfl)

end

section
/-! SUPPORT. Events, the waits for them, and FENCE (04 R109 to R112); what that says of O33. -/

namespace Sys2Proof.Machine

-- an issue that has set event bits

section
variable {q : QNum} {s u : State} (h : IssueFrame q s u)
include h

theorem IssueFrame.setEvent (v : Word) : IssueFrame q (s.setEvent v) (u.setEvent v) :=
  h.map (F := fun s => s.setEvent v) (fun _ _ _ _ => rfl) (fun _ => rfl) fun _ => rfl
end

theorem q_setEvent (s : State) (v : Word) (q : QNum) : (s.setEvent v).q q = s.q q := rfl
theorem thr_setEvent (s : State) (v : Word) (q : QNum) : (s.setEvent v).thr q = s.thr q := rfl

section
variable (s : State)
theorem exec_seqEventSet (bits : Word) : exec (.seqEventSet bits) s = whenPage Pg.seq s fun s => s.eventSet bits := rfl
theorem exec_seqEventClr (bits : Word) : exec (.seqEventClr bits) s = whenPage Pg.seq s fun s => s.eventClr bits := rfl
theorem exec_waitEvent (q : QNum) : exec (.waitEvent q) s = whenUp s fun s => s.waitEvent q := rfl
theorem exec_waitEventTimeout (q : QNum) : exec (.waitEventTimeout q) s = whenUp s fun s => s.waitEventTimeout q := rfl
theorem exec_fence (q : QNum) : exec (.fence q) s = whenUp s fun s => s.fence q := rfl
end

/-- No thread waits for an event. -/
def State.NoEventWait (s : State) : Prop := ∀ o u n, (s.thr o).wait ≠ .event u n

theorem eventEval_id {s : State} (h : s.NoEventWait) : s.eventEval = s := by
  have hfold (l : List QNum) : l.foldl (fun s q =>
      match (s.thr q).wait with
      | .event uid _ =>
        match s.liveCmd q uid with
        | some c => if c.e.eventMet s.seq.event then s.eventTaken q uid c.e else s
        | none => s
      | _ => s) s = s := by
    induction l with
    | nil => rfl
    | cons o l ih =>
      rw [List.foldl_cons]
      split
      · next uid n hw => exact absurd hw (h o uid n)
      · exact ih
  unfold State.eventEval
  split
  · rfl
  · exact hfold _

theorem Started.noEventWait {q : QNum} {c : Cmd} {s u : State} (h : Started q c s u) (hs : s.NoEventWait) : u.NoEventWait := by
  intro o uid n
  by_cases ho : o = q
  · rw [ho, h.wait]
    exact nofun
  · rw [h.frame.2 o ho]
    exact hs o uid n

/-- The bits that a PULSE has set, and no others, are cleared after it (04 R109). -/
theorem pulse_bits (ev bits : Word) : (ev ||| bits) &&& ~~~(bits &&& ~~~ev) = ev := by
  ext i hi
  simp only [BitVec.getElem_and, BitVec.getElem_or, BitVec.getElem_not]
  cases ev[i] <;> cases bits[i] <;> rfl

section
variable {s : State} (h : s.NoEventWait) (bits : Word)
include h
theorem eventSet_eq : s.eventSet bits = s.setEvent (s.seq.event ||| bits) := eventEval_id h
theorem eventClr_eq : s.eventClr bits = s.setEvent (s.seq.event &&& ~~~bits) := eventEval_id h
theorem eventToggle_eq : s.eventToggle bits = s.setEvent (s.seq.event ^^^ bits) := eventEval_id h
theorem eventPulse_eq : s.eventPulse bits = s.setEvent s.seq.event := by
  have heval : (s.setEvent (s.seq.event ||| bits)).eventEval = s.setEvent (s.seq.event ||| bits) := eventEval_id h
  simp only [State.eventPulse, heval]
  exact congrArg s.setEvent (pulse_bits s.seq.event bits)
end

-- SIGNAL and WAIT_EVENT

section
variable {s : State} {q : QNum} {e : Entry}

theorem signal_begin (h : s.Issues q 0x51 e) (k : State → Word → State) : s.signal q (e.flags % 4) k =
    (k (s.begin q e).1 e.w1).finish q (s.taken q e).uid St.ok := by
  obtain ⟨-, hi, -⟩ := id h
  simp only [State.signal, hi, if_true, issue_begin h rfl fun hp => by cases hp]
  rfl

/-- SIGNAL whose operation has left the event register at `v`. -/
theorem signal_gives {i : Instr} {k : State → Word → State} (h : s.Issues q 0x51 e)
    (hexec : exec i s = whenUp s fun s => s.signal q (e.flags % 4) k) {v : Word}
    (hk : k (s.begin q e).1 e.w1 = (s.begin q e).1.setEvent v) : Gives i s fun t =>
      IssueFrame q ((s.setEvent v).dropStep s.nextUid) t ∧ (t.thr q).wait = .none ∧
      t.q q = { s.q q with next := (s.q q).next + 1, cmds := [s.done (s.taken q e) St.ok] } := by
  obtain ⟨frame, queue, cmds, conts, -, wait, levels, -⟩ := started_begin h
  refine (gives_ends hexec h.1 (by rw [signal_begin h, hk]) (frame.setEvent v) rfl rfl cmds conts rfl
    (by rw [show (s.taken q e).e = e from rfl, opc_of_issues h]; decide) levels (st := St.ok) rfl).mono fun t ⟨hframe, hthr, hq⟩ => ?_
  refine ⟨hframe, ?_, ?_⟩
  · rw [hthr, thr_setEvent, wait]
    rfl
  · refine hq.trans ?_
    rw [q_setEvent, queue, show (s.taken q e).slots = 1 from slots_of_issues h (by decide)]
    rfl

/-- CONSUME clears the bits of MASK (04 R110). -/
def Entry.consumed (e : Entry) (ev : Word) : Word := if e.flags / 2 % 2 = 1 then ev &&& ~~~e.w1 else ev

theorem eventTaken_eq (s : State) (q : QNum) (uid : Nat) (e : Entry) : s.eventTaken q uid e =
    ((s.modThr q fun t => { t with timedOut := false }).setEvent (e.consumed s.seq.event)).finish q uid St.ok := by
  simp only [State.eventTaken, Entry.consumed]
  split
  · rfl
  · rfl

/-- WAIT_EVENT whose condition holds (04 R110). -/
theorem waitEvent_met (h : s.Issues q 0x52 e) (hmask : e.w1 ≠ 0) (hmet : e.eventMet s.seq.event = true) : s.waitEvent q =
    (((s.begin q e).1.modThr q fun t => { t with timedOut := false }).setEvent (e.consumed s.seq.event)).finish q
      (s.taken q e).uid St.ok := by
  have hframe := (started_begin h).frame
  rw [State.waitEvent, issueCmd_begin h rfl (fun hp => by cases hp), if_neg hmask, hframe.event, if_pos hmet, eventTaken_eq,
    hframe.event]

/-- WAIT_EVENT whose condition does not hold (04 R110). -/
theorem waitEvent_unmet (h : s.Issues q 0x52 e) (hmask : e.w1 ≠ 0) (hmet : e.eventMet s.seq.event = false) : s.waitEvent q =
    (s.begin q e).1.modThr q fun t => { t with wait := .event s.nextUid s.time } := by
  have hframe := (started_begin h).frame
  have htime : (s.begin q e).1.time = s.time := by rw [hframe.1]
  rw [State.waitEvent, issueCmd_begin h rfl (fun hp => by cases hp), if_neg hmask, hframe.event, hmet]
  simp only [Bool.false_eq_true, if_false, htime]
  rfl

/-- A wait for an event that has reached its limit (04 R110). -/
theorem waitEventTimeout_due {c : Cmd} {since : BitVec 64} (hold : s.Holds q c) (hw : (s.thr q).wait = .event c.uid since)
    (hms : wbits c.e.w2 0 16 ≠ 0) (hdue : wbits c.e.w2 0 16 * 100000 ≤ s.since since) (hseq : s.working Pg.seq = true) :
    s.waitEventTimeout q = (s.modThr q fun t => { t with timedOut := true }).finish q c.uid St.partly := by
  obtain ⟨hc, hk, -, ho, -⟩ := hold
  have hlive : s.liveCmd q c.uid = some c := by simp [State.liveCmd, hc, hk, ho]
  have hgo : ¬ (wbits c.e.w2 0 16 = 0 ∨ s.since since < wbits c.e.w2 0 16 * msTicks ∨ ¬ s.working Pg.seq = true) := by
    rintro (h | h | h)
    · exact hms h
    · exact absurd hdue (Nat.not_le.2 h)
    · exact h hseq
  simp only [State.waitEventTimeout, hw, hlive, if_neg hgo]

-- FENCE

/-- The one command in flight is a FENCE, which reports nothing: it completes OK, and no call follows (04 R112). -/
theorem closeCalls_fence {c : Cmd} (hc : (s.q q).cmds = [c]) (hk : (s.q q).conts = []) (ho : c.out = none)
    (hop : c.e.opc = 0x50) (hl : (s.thr q).levels = []) (htag : c.tag = 0) (hres : c.resume = 0) (n : Nat) :
    s.closeCalls q (n + 1) = s.finish q c.uid St.ok := by
  have hfence : s.fenceCheck q = s.finish1 q c.uid St.ok 0 0 := by
    simp [State.fenceCheck, hc, hk, ho, hop]
  have hdone : { c with out := some St.ok, outTime := s.timeLo, tag := 0, resume := 0 } = s.done c St.ok := by
    rw [State.done, ← htag, ← hres]
  have hone := finish1_one hc hk ho hl St.ok 0 0
  rw [hdone] at hone
  have hq := (outcomeOf_end s q c fun x => { x with cmds := [s.done c St.ok] }).queue
  rw [finish_one hc hk ho (by rw [hop]; decide) hl St.ok rfl, ← hone, State.closeCalls, hfence]
  rw [← hone] at hq
  simp only [hq, hk, List.append_nil, List.find?_singleton, State.done, Option.isNone_some, Bool.and_false, Bool.false_and,
    Bool.false_eq_true, if_false]

/-- FENCE with nothing before it (04 R112). -/
theorem fence_alone (h : s.Issues q 0x50 e) :
    s.fence q = ((s.begin q e).1.waitFor q s.nextUid).finish q (s.taken q e).uid St.ok := by
  obtain ⟨-, -, cmds, conts, -, -, levels, -⟩ := started_begin h
  rw [State.fence, issueCmd_begin h rfl fun hp => by cases hp]
  exact closeCalls_fence (s := (s.begin q e).1.waitFor q s.nextUid) (c := s.taken q e) cmds conts rfl (opc_of_issues h)
    (by rwa [thr_waitFor]) rfl rfl 5

end

end Sys2Proof.Machine

open Sys2Proof Sys2Proof.Machine

/-- Settles O33: where no thread waits, the evaluation of an event changes nothing; a wait and a FENCE end as the one
command in flight. -/
theorem eventsAndFence : Obligations.EventsAndFence := by
  unfold Obligations.EventsAndFence
  intro s q e bits
  refine ⟨fun hno => ⟨fun op c v hmem h hop => ?_, fun hopen => ?_⟩, fun h hmask => ⟨fun hmet => ?_, fun hmet => ?_⟩,
    fun c since hup hold hw hms hdue hseq => ?_, fun h => ?_⟩
  · have hno' := (started_begin h).noEventWait hno
    have hev := (started_begin h).frame.event
    subst hop
    simp only [List.mem_cons, Prod.mk.injEq, List.not_mem_nil, or_false] at hmem
    rcases hmem with ⟨hop, rfl, rfl⟩ | ⟨hop, rfl, rfl⟩ | ⟨hop, rfl, rfl⟩ | ⟨hop, rfl, rfl⟩
    · exact signal_gives h (by rw [hop]; rfl) (by rw [eventSet_eq hno', hev])
    · exact signal_gives h (by rw [hop]; rfl) (by rw [eventClr_eq hno', hev])
    · exact signal_gives h (by rw [hop]; rfl) (by rw [eventPulse_eq hno', hev])
    · exact signal_gives h (by rw [hop]; rfl) (by rw [eventToggle_eq hno', hev])
  · rw [exec_seqEventSet, exec_seqEventClr, whenPage_open hopen, whenPage_open hopen, eventSet_eq hno, eventClr_eq hno]
    exact ⟨rfl, rfl⟩
  · obtain ⟨frame, queue, cmds, conts, -, wait, levels, -⟩ := started_begin h
    refine (gives_ends (exec_waitEvent s q) h.1 (waitEvent_met h hmask hmet) ((frame.modThr _).setEvent _) rfl rfl
      (by rwa [q_setEvent]) (by rwa [q_setEvent]) rfl (by rw [show (s.taken q e).e = e from rfl, opc_of_issues h]; decide)
      (by rwa [thr_setEvent, thr_modThr_same]) (st := St.ok) rfl).mono fun t ⟨hframe, hthr, hq⟩ => ⟨hframe, ?_, ?_⟩
    · rw [hthr, thr_setEvent, thr_modThr_same]
    · rw [hq, q_setEvent, q_modThr, queue, show (s.taken q e).slots = 1 from slots_of_issues h (by decide)]
      rfl
  · obtain ⟨frame, queue, -⟩ := started_begin h
    refine gives_of_frame (exec_waitEvent s q) h.1 (waitEvent_unmet h hmask hmet) (frame.modThr _) rfl rfl
      ⟨frame.modThr _, ?_, ?_⟩
    · rw [thr_modThr_same]
    · rw [q_modThr, queue, show (s.taken q e).slots = 1 from slots_of_issues h (by decide)]
      rfl
  · obtain ⟨hc, hk, -, ho, -, -, ⟨hprint, -⟩, hl⟩ := id hold
    have hend := waitEventTimeout_due hold hw hms hdue hseq
    obtain ⟨hframe, hq, -, hthr⟩ := outcomeOf_finish (s := s.modThr q fun t => { t with timedOut := true }) hc hk ho hprint
      (by rwa [thr_modThr_same]) (st := St.partly) rfl
    rw [thr_modThr_same, hw] at hthr
    generalize State.finish _ q c.uid St.partly = t at hend hframe hq hthr
    refine gives_of_outer (exec_waitEventTimeout s q) hup hend hframe.pending hframe.chip
      ⟨hframe.event, sameMem_of_mem hframe.mem, hframe.regs, ?_, ?_, hq⟩
    · rw [hthr]
      exact if_pos rfl
    · rw [hthr]
  · obtain ⟨frame, queue, cmds, conts, -, wait, levels, -⟩ := started_begin h
    refine (gives_ends (exec_fence s q) h.1 (fence_alone h) (frame.modThr _) rfl rfl cmds conts rfl
      (by rw [show (s.taken q e).e = e from rfl, opc_of_issues h]; decide) (by rwa [thr_waitFor])
      (st := St.ok) rfl).mono fun t ⟨hframe, hthr, hq⟩ => ⟨hframe, ?_, ?_⟩
    · rw [hthr, thr_waitFor]
      exact if_pos rfl
    · rw [hq, q_waitFor, queue, show (s.taken q e).slots = 1 from slots_of_issues h (by decide)]
      rfl

end

section
/-! SUPPORT. WRITE_REG and KEYED of the ring: the write that a thread posts, a masked write of SKN_AGE, and the keyed check of
one carried write (04 R113, R114, 16 R410 to R412); what that says of O34. -/

namespace Sys2Proof.Machine

section
variable {q : QNum} {s u : State} (h : IssueFrame q s u)
include h

theorem IssueFrame.post (l : List Posted) : IssueFrame q (s.post l) (u.post l) :=
  h.map (F := fun s => s.post l) (fun _ _ _ _ => rfl) (fun _ => rfl) fun _ => rfl

theorem IssueFrame.wr (r : Reg) (v : Word) (i j : Nat) : IssueFrame q (s.wr r v i j) (u.wr r v i j) :=
  h.map (F := fun s => s.wr r v i j) (fun _ _ _ _ => rfl) (fun _ => rfl) fun _ => rfl

theorem IssueFrame.count (r : Reg) (i j : Nat) : IssueFrame q (s.count r i j) (u.count r i j) :=
  h.map (F := fun s => s.count r i j) (fun _ _ _ _ => rfl) (fun _ => rfl) fun _ => rfl

theorem IssueFrame.modSess (i : SlotNum) (f : SecSlot → SecSlot) : IssueFrame q (s.modSess i f) (u.modSess i f) :=
  h.map (F := fun s => s.modSess i f) (fun _ _ _ _ => rfl) (fun _ => rfl) fun _ => rfl
end

-- register addresses

theorem and_allOnes_word (w : Word) : w &&& 4294967295#32 = w := BitVec.and_allOnes

/-- Register pages lie above the memory regions (02 R29). -/
theorem areaOf_of_pageOf {a : Nat} {pg : PageIx} (h : pageOf a = some pg) : areaOf a = some (.page pg) := by
  have hpages : ∀ pg : PageIx, regBase ≤ pageBase pg := by decide
  have hbase : regBase ≤ a := by
    have hin := List.find?_some h
    simp only [Bool.and_eq_true, decide_eq_true_eq] at hin
    exact le_trans (hpages pg) hin.1
  have rise := memory_regions_rise
  have hotp : otpEnd ≤ regBase := by decide
  have hotp' : otpBase ≤ otpEnd := by decide
  unfold areaOf
  rw [if_neg (by omega), if_neg (by omega), if_neg (by omega), if_neg (by omega), if_neg (by omega), h]
  rfl

theorem addrGood_of_carried {e : Entry} (h : e.carriedBad = none) : e.addrBad = false := by
  unfold Entry.carriedBad at h
  split at h
  · cases h
  · split at h
    · cases h
    · split at h
      · cases h
      · next hgood => exact Bool.not_eq_true _ ▸ hgood

/-- SEQ reaches every register page, and posts there the writes of an aligned word (01 R13, 02 R30). -/
theorem busWrite_seq {e : Entry} (h : e.addrBad = false) (s : State) (q : QNum) (keyed : Bool) (v : Word) :
    s.busWrite (.seq q) keyed 4 e.w1 v = (s.post [Posted.mk (.seq q) e.w1 v 4 keyed], true) := by
  simp only [Entry.addrBad, Bool.or_eq_false_iff, bne_eq_false_iff_eq, Option.isNone_eq_false_iff] at h
  obtain ⟨halign, hpage⟩ := h
  obtain ⟨pg, hpg⟩ := Option.isSome_iff_exists.1 hpage
  simp [State.busWrite, areaOf_of_pageOf hpg, reach, sizeOk, halign, State.post]

/-- A write of a whole register, without READBACK, is posted (04 R113). -/
theorem runWrite_whole {e : Entry} (hbad : e.addrBad = false) (hmask : e.w3 = 0xFFFFFFFF) (hback : e.flags % 2 = 0) (s : State)
    (q : QNum) {keyed : Bool} (hkey : keyed = true ∨ kwBits e.w1.toNat = 0) :
    s.runWrite (.seq q) keyed e = (s.post [Posted.mk (.seq q) e.w1 e.w2 4 keyed], St.ok) := by
  have hopen : ¬ (¬ keyed = true ∧ e.w3 &&& kwBits e.w1.toNat ≠ 0) := by
    rintro ⟨hk, hb⟩
    rcases hkey with hkey | hkey
    · exact hk hkey
    · exact hb (by rw [hkey]; exact BitVec.and_zero)
  rw [State.runWrite, if_neg hopen]
  simp [State.writeMasked, hmask, hback, and_allOnes_word, busWrite_seq hbad]


-- SKN_AGE

/-- The address of SKN_AGE. -/
def ageAddr : Word := 0x40006040

theorem ageAddr_page : pageOf ageAddr.toNat = some Pg.skn := by decide +kernel
theorem ageAddr_area : areaOf ageAddr.toNat = some (.page Pg.skn) := areaOf_of_pageOf ageAddr_page
theorem ageAddr_find : findReg (pageRegs Pg.skn) ageAddr.toNat = some (R.SKN_AGE, 0, 0) := by decide +kernel
theorem ageAddr_noHeader : ¬ ageAddr.toNat - pageBase Pg.skn < 0x40 := by decide

/-- SKN_AGE once `v` has been written to it (05 R147). -/
def State.ageWritten (s : State) (v : Word) : State := s.wr R.SKN_AGE ((s.rd R.SKN_AGE &&& 0xFFFF0000) ||| (v &&& 0xFFFF))

theorem regWrite_age {s : State} (h : (s.page Pg.skn).st ≠ .resetting) (rq : Requester) (v : Word) :
    s.regWrite rq false ageAddr.toNat v = s.ageWritten v := by
  rw [regWrite_block rq false v ageAddr_page h ageAddr_noHeader ageAddr_find (by decide) (by decide)]
  have hv : R.SKN_AGE.holds 0 v = v := by simp [Reg.holds, R.SKN_AGE, and_allOnes_word]
  have hmerge (old : Word) : R.SKN_AGE.merge false old v = (old &&& 0xFFFF0000) ||| (v &&& 0xFFFF) := by
    simp [Reg.merge, Reg.plain, R.SKN_AGE, and_allOnes_word]
  show s.plainWrite false R.SKN_AGE 0 0 v = _
  rw [State.plainWrite, hv, hmerge]
  rfl

/-- A thread reads SKN_AGE once its writes to the page have taken effect (02 R518). -/
theorem busRead_age {s t : State} {q : QNum} (h : s.settleWrites (.seq q) (.page Pg.skn) = t) :
    s.busRead (.seq q) 4 ageAddr = (t, { rq := .seq q, addr := ageAddr, val := t.rd R.SKN_AGE }) := by
  have hread : t.regRead (.seq q) ageAddr.toNat = (t, t.rd R.SKN_AGE) :=
    regRead_block _ ageAddr_page ageAddr_noHeader ageAddr_find (by decide) (by decide)
  have hok : (reach (.seq q) false (.page Pg.skn) && sizeOk (.page Pg.skn) 4 ageAddr.toNat) = true := by
    simp [reach, sizeOk, ageAddr]
  simp [State.busRead, ageAddr_area, hok, h, hread]

/-- The write of SKN_AGE that a thread has posted takes effect (01 R18, R19). -/
theorem settleWrites_age {s : State} (h : s.bus.posted = []) (hs : (s.page Pg.skn).st ≠ .resetting) {q : QNum} {x : Posted}
    (hrq : x.rq = .seq q) (haddr : x.addr = ageAddr) (hkey : x.keyed = false) :
    (s.post [x]).settleWrites (.seq q) (.page Pg.skn) = s.ageWritten x.val := by
  have hposted : (s.post [x]).bus.posted = [x] := by simp [State.post, h]
  have harea : areaOf x.addr.toNat = some (.page Pg.skn) := by rw [haddr, ageAddr_area]
  have hempty : { s.post [x] with bus := { (s.post [x]).bus with posted := [] } } = s := by rw [← h]; rfl
  have hone := takeEffect_oldest hposted harea
  rw [hempty, State.perform, harea, hrq, hkey, haddr] at hone
  rw [State.settleWrites, hposted, List.length_singleton, State.takeEffects, State.takeEffects, hone]
  exact regWrite_age hs _ _

theorem ageAddr_good {e : Entry} (h : e.w1 = ageAddr) : e.addrBad = false := by
  rw [Entry.addrBad, h]
  decide +kernel

/-- The access of a masked write of SKN_AGE: the value that goes there (04 R113). -/
def State.ageMasked (s : State) (e : Entry) : Word := (s.rd R.SKN_AGE &&& ~~~e.w3) ||| (e.w2 &&& e.w3)

/-- WRITE_REG of SKN_AGE with nothing posted: a whole write reads nothing, and its value is the masked one all the same. -/
theorem runWrite_age {s : State} {e : Entry} (haddr : e.w1 = ageAddr) (h : s.bus.posted = [])
    (hs : (s.page Pg.skn).st ≠ .resetting) (q : QNum) : s.runWrite (.seq q) false e =
      (if e.flags % 2 = 1 then s.ageWritten (s.ageMasked e)
        else s.post [Posted.mk (.seq q) ageAddr (s.ageMasked e) 4 false], St.ok) := by
  have hplain : kwBits ageAddr.toNat = 0 := by decide +kernel
  have hopen : ¬ (¬ false = true ∧ e.w3 &&& kwBits e.w1.toNat ≠ 0) := by simp [haddr, hplain]
  have hread := busRead_age (settleWrites_nil h (.seq q) (.page Pg.skn))
  have hpost (v : Word) := busWrite_seq (ageAddr_good haddr) s q false v
  have hback := busRead_age (settleWrites_age h hs (x := Posted.mk (.seq q) ageAddr (s.ageMasked e) 4 false) rfl rfl rfl)
  have hmasked (hw : e.w3 = 0xFFFFFFFF) : (0 &&& ~~~e.w3) ||| (e.w2 &&& e.w3) = s.ageMasked e := by
    simp [State.ageMasked, hw]
  rw [haddr] at hpost
  rw [State.runWrite, if_neg hopen]
  simp only [State.writeMasked, haddr]
  by_cases hw : e.w3 = 0xFFFFFFFF
  · simp only [hw, if_true] at hmasked ⊢
    simp only [hmasked, hpost]
    split
    · simp only [hback]
    · rfl
  · simp only [hw, if_false, hread, hpost]
    split
    · exact congrArg (fun x => (x.1, St.ok)) hback
    · rfl


-- WRITE_REG

theorem exec_writeReg (s : State) (q : QNum) : exec (.writeReg q) s = whenUp s fun s => s.writeReg q := rfl
theorem exec_keyed (s : State) (q : QNum) : exec (.keyed q) s = whenUp s fun s => s.keyed q := rfl

section
variable {s : State} {q : QNum} {e : Entry}

theorem writeReg_begin (h : s.Issues q 0x60 e) (hbad : e.addrBad = false) {v : State} {st : Byte}
    (hrun : (s.begin q e).1.runWrite (.seq q) false e = (v, st)) : s.writeReg q = v.finish q (s.taken q e).uid st := by
  rw [State.writeReg, issue_begin h rfl fun hp => by cases hp]
  simp only [hbad, Bool.false_eq_true, if_false, hrun]
  rfl

/-- WRITE_REG of the ring whose accesses leave its queue and thread, and what an issue leaves of `r`. -/
theorem writeReg_gives (h : s.Issues q 0x60 e) (hbad : e.addrBad = false) {r v : State}
    (hrun : (s.begin q e).1.runWrite (.seq q) false e = (v, St.ok)) (hf : IssueFrame q r v) (hp : r.pending = s.pending)
    (hchip : r.chip = s.chip) (htime : r.timeLo = s.timeLo) (hq : v.q q = (s.begin q e).1.q q)
    (hthr : v.thr q = (s.begin q e).1.thr q) : Gives (.writeReg q) s fun t =>
      IssueFrame q (r.dropStep s.nextUid) t ∧ (t.thr q).wait = .none ∧
      t.q q = { s.q q with next := (s.q q).next + 1, cmds := [s.done (s.taken q e) St.ok] } := by
  obtain ⟨-, queue, cmds, conts, -, wait, levels, -⟩ := started_begin h
  refine (gives_ends (exec_writeReg s q) h.1 (writeReg_begin h hbad hrun) hf hp hchip (by rw [hq, cmds]) (by rw [hq, conts]) rfl
    (by rw [show (s.taken q e).e = e from rfl, opc_of_issues h]; decide) (by rw [hthr, levels]) (st := St.ok)
    rfl).mono fun t ⟨hframe, hthr', hq'⟩ => ⟨hframe, ?_, ?_⟩
  · rw [hthr', hthr, wait]
    rfl
  · rw [hq', hq, queue, show (s.taken q e).slots = 1 from slots_of_issues h (by decide), State.done, htime]
    rfl

theorem post_of_none {s : State} (h : s.bus.posted = []) (l : List Posted) :
    s.post l = { s with bus := { s.bus with posted := l } } := by
  rw [State.post, h, List.nil_append]

/-- WRITE_REG of SKN_AGE with nothing posted (04 R113). -/
theorem writeReg_age (h : s.Issues q 0x60 e) (haddr : e.w1 = ageAddr) (hposted : s.bus.posted = [])
    (hs : (s.page Pg.skn).st ≠ .resetting) : Gives (.writeReg q) s fun t =>
      IssueFrame q ((if e.flags % 2 = 1 then s.ageWritten (s.ageMasked e)
        else s.post [Posted.mk (.seq q) ageAddr (s.ageMasked e) 4 false]).dropStep s.nextUid) t ∧ (t.thr q).wait = .none ∧
      t.q q = { s.q q with next := (s.q q).next + 1, cmds := [s.done (s.taken q e) St.ok] } := by
  have hf := (started_begin h).frame
  obtain ⟨-, hregs, hpage, -⟩ := issueFrame_keeps hf
  have hrd : (s.begin q e).1.rd R.SKN_AGE = s.rd R.SKN_AGE := by rw [State.rd, hregs, State.rd]
  have hrun := runWrite_age (s := (s.begin q e).1) haddr (by rw [hf.1]; exact hposted) (by rwa [hpage]) q
  have hmasked : (s.begin q e).1.ageMasked e = s.ageMasked e := by rw [State.ageMasked, hrd, State.ageMasked]
  rw [hmasked, State.ageWritten, hrd] at hrun
  by_cases hb : e.flags % 2 = 1
  · rw [if_pos hb] at hrun ⊢
    exact writeReg_gives h (ageAddr_good haddr) hrun (hf.wr _ _ _ _) rfl rfl rfl rfl rfl
  · rw [if_neg hb] at hrun ⊢
    exact writeReg_gives h (ageAddr_good haddr) hrun (hf.post _) rfl rfl rfl rfl rfl
end

-- KEYED

section
variable {q : QNum} {s u : State} (h : IssueFrame q s u)
include h

theorem IssueFrame.keyedReason (by_ : KeyedBy) (i : SlotNum) (ctr : Word) (t b : List Byte) (m : Bool) :
    u.keyedReason by_ i ctr t b m = s.keyedReason by_ i ctr t b m := by
  obtain ⟨⟨_, _, _, _, rfl⟩, -⟩ := issueFrame_iff.1 h
  rfl

theorem IssueFrame.sess (i : SlotNum) : u.sess i = s.sess i := by
  obtain ⟨⟨_, _, _, _, rfl⟩, -⟩ := issueFrame_iff.1 h
  rfl
end

theorem bootQ_begin {s : State} {q : QNum} (e : Entry) (hp : s.spot q = .ring) : (s.begin q e).1.sec.bootQ =
    s.sec.bootQ.filter fun (b : QNum × Nat) => !(b.1 == q && decide (b.2 ≤ (s.q q).next.toNat)) := by
  obtain ⟨hturn, -⟩ := slot_frame s q e
  unfold State.begin
  simp only [hp]
  generalize (if 0x40 ≤ e.opc ∧ e.opc ≤ 0x44 then s.tookSlot q
    else (s.tookSlot q).modThr q fun t => { t with transfers := 0 }) = u at hturn
  have hsec : u.sec = s.sec := by rw [hturn.1]
  have hq : u.q q = s.q q := by rw [hturn.1]; rfl
  rw [State.modQ_sec]
  simp only [hsec, hq]

/-- The KEYED that starts leaves the mark of the boot list as far as it concerns the entries from it on (19 R478). -/
theorem fromBoot_begin {s : State} {q : QNum} (e : Entry) (hp : s.spot q = .ring) :
    (s.begin q e).1.fromBoot q (s.q q).next = s.fromBoot q (s.q q).next := by
  rw [State.fromBoot, bootQ_begin e hp, State.fromBoot]
  cases s.sec.bootQ with
  | none => rfl
  | some b =>
    by_cases hb : (b.1 == q && decide ((s.q q).next.toNat + 1 < b.2)) = true
    · have hkept : (!(b.1 == q && decide (b.2 ≤ (s.q q).next.toNat))) = true := by
        simp only [Bool.and_eq_true, decide_eq_true_eq] at hb
        have : ¬ b.2 ≤ (s.q q).next.toNat := by omega
        simp [this]
      simp [Option.filter, hkept]
    · simp only [Bool.not_eq_true] at hb
      simp only [Option.any_some, hb, Option.filter]
      split
      · exact hb
      · rfl

theorem sess_modSess_same (s : State) (i : SlotNum) (f : SecSlot → SecSlot) : (s.modSess i f).sess i = f (s.sess i) := by
  simp [State.sess, State.modSess]

theorem sess_modSess_ne (s : State) {i j : SlotNum} (f : SecSlot → SecSlot) (h : j ≠ i) : (s.modSess i f).sess j = s.sess j := by
  have : ¬ i.val = j.val := fun e => h (Fin.ext e.symm)
  simp [State.sess, State.modSess, this]

/-- What the failure of a keyed check of slot `i` leaves as it was (16 R418). -/
structure CheckFailed (i : SlotNum) (s t : State) : Prop where
  mem : t.mem = s.mem
  bus : t.bus = s.bus
  queues : t.queues = s.queues
  seq : t.seq = s.seq
  pending : t.pending = s.pending
  chip : t.chip = s.chip
  time : t.time = s.time
  others : ∀ j, j ≠ i → t.sess j = s.sess j

section
variable {i : SlotNum} {s t : State}
theorem CheckFailed.refl (i : SlotNum) (s : State) : CheckFailed i s s := ⟨rfl, rfl, rfl, rfl, rfl, rfl, rfl, fun _ _ => rfl⟩

theorem CheckFailed.wr (h : CheckFailed i s t) (r : Reg) (v : Word) (j k : Nat) : CheckFailed i s (t.wr r v j k) :=
  ⟨h.mem, h.bus, h.queues, h.seq, h.pending, h.chip, h.time, h.others⟩

theorem CheckFailed.count (h : CheckFailed i s t) (r : Reg) (j k : Nat) : CheckFailed i s (t.count r j k) := h.wr _ _ _ _

theorem CheckFailed.irq (h : CheckFailed i s t) (pg : PageIx) (b : Nat) : CheckFailed i s (t.irq pg b) :=
  ⟨h.mem, h.bus, h.queues, h.seq, h.pending, h.chip, h.time, h.others⟩

theorem CheckFailed.raise (h : CheckFailed i s t) (pg : PageIx) (k : Nat) : CheckFailed i s (t.raise pg k) :=
  ⟨h.mem, h.bus, h.queues, h.seq, h.pending, h.chip, h.time, h.others⟩

theorem CheckFailed.modSess (h : CheckFailed i s t) (f : SecSlot → SecSlot) : CheckFailed i s (t.modSess i f) :=
  ⟨h.mem, h.bus, h.queues, h.seq, h.pending, h.chip, h.time, fun j hj => (sess_modSess_ne t f hj).trans (h.others j hj)⟩

theorem CheckFailed.secFail (h : CheckFailed i s t) (by_ : KeyedBy) (r : SecReason) : CheckFailed i s (t.secFail by_ i r) := by
  have hlast := h.wr R.SEC_LASTFAIL (BitVec.ofNat 32 (r.code * 2 ^ 24 + i.val * 2 ^ 16 + by_.code)) 0 0
  have hcount := ((hlast.count R.SEC_AUTHFAIL 0 0).irq Pg.sec 4).raise Pg.sec 0
  unfold State.secFail
  dsimp only
  by_cases hr : r = .drain
  · subst hr
    exact hlast
  · simp only [hr, if_false]
    split
    · exact hcount
    · split
      · exact ((((hcount.count R.SEC_SSs_FAIL i.val 0).modSess _).modSess _).irq _ _).raise _ _
      · exact (hcount.count R.SEC_SSs_FAIL i.val 0).modSess _
end

theorem keyedCheck_fails {s : State} {by_ : KeyedBy} {i : SlotNum} {ctr : Word} {t b : List Byte} {m : Bool}
    (h : s.keyedReason by_ i ctr t b m ≠ none) :
    ∃ v, s.keyedCheck by_ i ctr t b m = (v, false) ∧ CheckFailed i s v := by
  obtain ⟨r, hr⟩ := Option.ne_none_iff_exists'.1 h
  simp only [State.keyedCheck, hr]
  refine ⟨_, rfl, ?_⟩
  split
  · exact ((CheckFailed.refl i s).modSess _).secFail by_ r
  · exact (CheckFailed.refl i s).secFail by_ r

section
variable (s : State) (q : QNum)
theorem q_post (l : List Posted) : (s.post l).q q = s.q q := rfl
theorem q_count (r : Reg) (i j : Nat) : (s.count r i j).q q = s.q q := rfl
theorem q_modSess (i : SlotNum) (f : SecSlot → SecSlot) : (s.modSess i f).q q = s.q q := rfl
end

section
variable {s : State} {q : QNum} {e : Entry}

/-- KEYED whose carried entry is a write of a register: its check comes first (04 R114). -/
theorem keyed_begin (h : s.Issues q 0x61 e) (hfree : s.keyedWaits q = false) (hcar : (s.taken q e).e2.carriedBad = none)
    {v : State} {st : Byte} (hrun : (s.begin q e).1.runKeyed (.seq (s.fromBoot q (s.q q).next)) (.seq q)
      (Fin.ofNat 8 (e.sp % 8)) e.w1 (natBytes 4 e.w2.toNat ++ natBytes 4 e.w3.toNat) (s.taken q e).e2 = (v, st)) :
    s.keyed q = v.finish q (s.taken q e).uid st := by
  obtain ⟨-, -, cmds, conts, -⟩ := started_begin h
  have hlive : (s.begin q e).1.liveCmd q (s.taken q e).uid = some (s.taken q e) := by
    simp [State.liveCmd, cmds, conts, State.taken]
  have hboot : (s.begin q e).1.fromBoot q (s.taken q e).idx = s.fromBoot q (s.q q).next := fromBoot_begin e h.2.2.1
  rw [State.keyed, hfree, issueCmd_begin h rfl fun hp => by cases hp]
  simp only [Bool.false_eq_true, if_false, hlive, hcar, hboot, hrun]

/-- KEYED that fails its check (16 R411). -/
theorem keyed_fails (h : s.Issues q 0x61 e) (hfree : s.keyedWaits q = false) (hcar : (s.taken q e).e2.carriedBad = none)
    (hreason : s.keyedReason (.seq (s.fromBoot q (s.q q).next)) (Fin.ofNat 8 (e.sp % 8)) e.w1
      (natBytes 4 e.w2.toNat ++ natBytes 4 e.w3.toNat) (s.taken q e).e2.bytes (makerReg (s.taken q e).e2.w1.toNat) ≠ none) :
    Gives (.keyed q) s fun t => SameMem s t ∧ t.bus = s.bus ∧ (∀ j, j ≠ Fin.ofNat 8 (e.sp % 8) → t.sess j = s.sess j) ∧
      t.q q = { s.q q with
        next := (s.q q).next + 2, cmds := [s.done (s.taken q e) St.authFail], mode := .bindoff, haltGiven := false } := by
  obtain ⟨frame, queue, cmds, conts, mode, wait, levels, -⟩ := started_begin h
  obtain ⟨hmem, -, -, htime, -⟩ := issueFrame_keeps frame
  obtain ⟨v, hcheck, hv⟩ := keyedCheck_fails ((frame.keyedReason _ _ _ _ _ _).trans_ne hreason)
  have hq : v.q q = (s.begin q e).1.q q := congrArg (fun l : Vector Queue 16 => l[q]) hv.queues
  have hthr : v.thr q = (s.begin q e).1.thr q := congrArg (fun x : SeqSt => x.threads[q]) hv.seq
  have hend := keyed_begin h hfree hcar (v := v) (st := St.authFail) (by
    rw [State.runKeyed, hcheck]
    rfl)
  obtain ⟨hframe, hqueue, -⟩ := outcomeOf_halt (s := v) (c := s.taken q e) (by rw [hq, cmds]) (by rw [hq, conts]) rfl
    (by rw [show (s.taken q e).e = e from rfl, opc_of_issues h]; decide) rfl (by rw [hthr, levels]) (by rw [hthr, wait]; rfl)
    (by rw [hq, mode]) (st := St.authFail) rfl
  generalize v.finish q (s.taken q e).uid St.authFail = t at hend hframe hqueue
  refine gives_of_outer (exec_keyed s q) h.1 hend (hframe.pending.trans (hv.pending.trans frame.pending))
    (hframe.chip.trans (hv.chip.trans frame.chip))
    ⟨sameMem_of_mem (hframe.mem.trans (hv.mem.trans hmem)), hframe.bus.trans (hv.bus.trans frame.bus), fun j hj => ?_, ?_⟩
  · exact (congrArg (fun x : SecSt => x.slots[j]) hframe.sec).trans ((hv.others j hj).trans (frame.sess j))
  · have hdone : v.done (s.taken q e) St.authFail = s.done (s.taken q e) St.authFail := by
      rw [State.done, State.done, State.timeLo, hv.time, frame.time, State.timeLo]
    rw [hqueue, hq, hdone, queue, show (s.taken q e).slots = 2 from if_pos (opc_of_issues h)]
    rfl

/-- KEYED whose carried write of a whole register passes its check (04 R114, 16 R412). -/
theorem keyed_passes (h : s.Issues q 0x61 e) (hfree : s.keyedWaits q = false) {e2 : Entry} (he2 : (s.taken q e).e2 = e2)
    (hcar : e2.carriedBad = none) (hmask : e2.w3 = 0xFFFFFFFF) (hback : e2.flags % 2 = 0) {i : SlotNum}
    (hi : i = Fin.ofNat 8 (e.sp % 8))
    (hreason : s.keyedReason (.seq (s.fromBoot q (s.q q).next)) i e.w1
      (natBytes 4 e.w2.toNat ++ natBytes 4 e.w3.toNat) e2.bytes (makerReg e2.w1.toNat) = none) :
    Gives (.keyed q) s fun t => SameMem s t ∧ SameRegsBut [R.SEC_SSs_OK.addr i.val 0] s t ∧
      t.bus.posted = s.bus.posted ++ [Posted.mk (.seq q) e2.w1 e2.w2 4 true] ∧
      t.sess i = { s.sess i with last := e.w1, run := 0, since := s.time } ∧ (∀ j, j ≠ i → t.sess j = s.sess j) ∧
      t.q q = { s.q q with next := (s.q q).next + 2, cmds := [s.done (s.taken q e) St.ok] } := by
  subst hi he2
  obtain ⟨frame, queue, cmds, conts, -, wait, levels, -⟩ := started_begin h
  have hcheck := (frame.keyedReason _ _ _ _ _ _).trans hreason
  have hbad := addrGood_of_carried hcar
  generalize hi : Fin.ofNat 8 (e.sp % 8) = i at hcheck
  generalize hf : (fun x : SecSlot => { x with last := e.w1, run := 0, since := s.time }) = f
  have hend := keyed_begin h hfree hcar (v := (((s.begin q e).1.modSess i f).count R.SEC_SSs_OK i.val).post
    [Posted.mk (.seq q) (s.taken q e).e2.w1 (s.taken q e).e2.w2 4 true]) (st := St.ok) (by
      simp only [State.runKeyed, State.keyedCheck, hi, hcheck, if_true, runWrite_whole hbad hmask hback _ q (.inl rfl),
        frame.time, hf])
  have hframe : IssueFrame q (((s.modSess i f).count R.SEC_SSs_OK i.val).post
      [Posted.mk (.seq q) (s.taken q e).e2.w1 (s.taken q e).e2.w2 4 true]) _ :=
    (((frame.modSess i f).count R.SEC_SSs_OK i.val 0).post _)
  refine (gives_ends (exec_keyed s q) h.1 hend hframe rfl rfl cmds conts rfl
    (by rw [show (s.taken q e).e = e from rfl, opc_of_issues h]; decide) levels (st := St.ok)
    rfl).mono fun t ⟨hframe, hthr, hq⟩ => ?_
  obtain ⟨hmem, hregs, -⟩ := issueFrame_keeps hframe
  refine ⟨sameMem_of_mem hmem, fun a d ha => ?_, congrArg BusSt.posted hframe.bus, ?_, fun j hj => ?_, ?_⟩
  · rw [hregs]
    exact sameRegs_wr (s.modSess i f) R.SEC_SSs_OK _ i.val 0 a d ha
  · exact (hframe.sess i).trans ((sess_modSess_same s i f).trans (by rw [← hf]))
  · exact (hframe.sess j).trans (sess_modSess_ne s f hj)
  · refine hq.trans ?_
    rw [q_post, q_count, q_modSess, queue, show (s.taken q e).slots = 2 from if_pos (opc_of_issues h)]
    rfl

end

end Sys2Proof.Machine

open Sys2Proof Sys2Proof.Machine

/-- Settles O34: the write is posted before the outcome; a whole write of SKN_AGE is a masked one with every bit. -/
theorem threadsWriteRegisters : Obligations.ThreadsWriteRegisters := by
  unfold Obligations.ThreadsWriteRegisters
  intro s q e
  refine ⟨fun h hbad => ⟨fun hmask hback hplain => ?_, fun hkey => ?_, fun v haddr hposted hs hv => ?_⟩, fun hup hwaits => ?_,
    fun e2 i reason h hfree he2 hi hcar hmask hback hreason => ?_⟩
  · have hf := (started_begin h).frame
    exact writeReg_gives h hbad (runWrite_whole hbad hmask hback _ q (.inr hplain)) (hf.post _) rfl rfl rfl rfl rfl
  · obtain ⟨frame, queue, cmds, conts, mode, wait, levels, -⟩ := started_begin h
    have hrun : (s.begin q e).1.runWrite (.seq q) false e = ((s.begin q e).1, St.authFail) := if_pos ⟨nofun, hkey⟩
    refine (gives_halts (exec_writeReg s q) h.1 (writeReg_begin h hbad hrun) frame rfl rfl cmds conts rfl
      (by rw [show (s.taken q e).e = e from rfl, opc_of_issues h]; decide) rfl levels (by rw [wait]; rfl) mode
      (st := St.authFail) rfl).mono fun t ⟨hframe, hq⟩ => ⟨hframe, ?_⟩
    rw [hq, queue, show (s.taken q e).slots = 1 from slots_of_issues h (by decide)]
    rfl
  · subst hv
    refine (writeReg_age h haddr hposted hs).mono fun t ⟨hframe, hw, hq⟩ => ⟨hw, hq, fun hb => ?_, fun hb => ?_⟩
    · rw [if_neg (by omega), post_of_none hposted] at hframe
      rw [haddr]
      exact hframe
    · rw [if_pos hb] at hframe
      exact hframe
  · rw [exec_keyed, whenUp_up hup, State.keyed, if_pos hwaits, keepOuter_self]
  · subst hi hreason he2
    exact ⟨keyed_passes h hfree rfl hcar hmask hback rfl, keyed_fails h hfree hcar⟩

end

section
/-! SUPPORT. VERIFY: the window that opens, and the close that waits in it (04 R101, 13 R332, R337 to R339); what that says of
O31. -/

namespace Sys2Proof.Machine

-- what the opening of a window touches

/-- Registers, page headers and the pipelines may differ; the windows do not. -/
def PipelineFrame (s t : State) : Prop := ∃ r g v, t = { s with regs := r, pages := g, cam := { s.cam with vp := v } }

section
variable {s t : State}
theorem PipelineFrame.refl (s : State) : PipelineFrame s s := ⟨s.regs, s.pages, s.cam.vp, rfl⟩

theorem PipelineFrame.wr (h : PipelineFrame s t) (r : Reg) (v : Word) (i j : Nat) : PipelineFrame s (t.wr r v i j) := by
  obtain ⟨r', g, v', rfl⟩ := h
  exact ⟨_, g, v', rfl⟩

theorem PipelineFrame.irq (h : PipelineFrame s t) (pg : PageIx) (b : Nat) : PipelineFrame s (t.irq pg b) := by
  obtain ⟨r, g, v, rfl⟩ := h
  exact ⟨r, _, v, rfl⟩

theorem PipelineFrame.modCtx (h : PipelineFrame s t) (v : VpNum) (x : Fin 2) (f : VpCtx → VpCtx) :
    PipelineFrame s (t.modCtx v x f) := by
  obtain ⟨r, g, v', rfl⟩ := h
  exact ⟨r, g, _, rfl⟩

theorem PipelineFrame.capsDrop (h : PipelineFrame s t) (p : Port) : PipelineFrame s (t.capsDrop p) := by
  obtain ⟨r, g, v, rfl⟩ := h
  exact ⟨r, g, _, rfl⟩

theorem PipelineFrame.stickAdd (h : PipelineFrame s t) (f : Fld) (i : Nat) : PipelineFrame s (t.stickAdd f i) := by
  unfold State.stickAdd
  split
  · exact h
  · exact h.wr f.reg _ i 0

/-- An issue, and a change of registers, headers and pipelines after it. -/
theorem PipelineFrame.issueFrame {q : QNum} {u : State} (h : PipelineFrame u t) (hf : IssueFrame q s u) :
    ∃ r, PipelineFrame s r ∧ IssueFrame q r t := by
  obtain ⟨r, g, v, rfl⟩ := h
  exact ⟨_, ⟨r, g, v, rfl⟩, hf.map (F := fun z => { z with regs := r, pages := g, cam := { z.cam with vp := v } })
    (fun _ _ _ _ => rfl) (fun _ => rfl) fun _ => rfl⟩

/-- A DEAD column goes on no priority list (13 R337). -/
theorem PipelineFrame.dotOut_dead (h : PipelineFrame s t) (v : VpNum) (x : Fin 2) (p : Port) (e : Nat) :
    PipelineFrame s (t.dotOut v x p e true) := by
  have hdead : PipelineFrame s (((t.wr R.VPn_DOLAST (BitVec.ofNat 32 (true.toNat * 2 ^ 31 + p.val * 65536 + e)) v.val).irq
      (Pg.vp v) 6).modCtx v x fun c => { c with deadCols := e :: c.deadCols }) := ((h.wr _ _ _ _).irq _ _).modCtx _ _ _
  unfold State.dotOut
  dsimp only
  rw [if_pos rfl, if_pos rfl]
  split
  · exact hdead
  · exact (hdead.stickAdd _ _).modCtx _ _ _

theorem PipelineFrame.foldl {α : Type} (f : State → α → State) (hf : ∀ u a, PipelineFrame s u → PipelineFrame s (f u a))
    (h : PipelineFrame s t) (l : List α) : PipelineFrame s (l.foldl f t) := by
  induction l generalizing t with
  | nil => exact h
  | cons a l ih => exact ih (hf t a h)
end

theorem winOpen_frame (s : State) (p : Port) (maxDot maxMis : Nat) :
    PipelineFrame (s.setWin p (some { maxDot := maxDot, maxMis := maxMis })) (s.winOpen p maxDot maxMis) := by
  have hstart : PipelineFrame (s.setWin p (some { maxDot := maxDot, maxMis := maxMis }))
      ((s.capsDrop p).setWin p (some { maxDot := maxDot, maxMis := maxMis })) :=
    PipelineFrame.capsDrop (.refl _) p
  unfold State.winOpen
  refine hstart.foldl _ (fun u c hu => ?_) _
  refine (((((hu.wr _ _ _ _).wr _ _ _ _).wr _ _ _ _).modCtx _ _ _)).foldl _ (fun u e hu => ?_) _
  split
  · exact hu.dotOut_dead _ _ _ _
  · exact hu

theorem win_setWin_same (s : State) (p : Port) (w : Option Win) : (s.setWin p w).win p = w := by
  simp [State.win, State.setWin]

theorem win_setWin_ne (s : State) {p o : Port} (w : Option Win) (h : o ≠ p) : (s.setWin p w).win o = s.win o := by
  have : ¬ p.val = o.val := fun e => h (Fin.ext e.symm)
  simp [State.win, State.setWin, this]

-- VERIFY

section
variable (s : State) (q : QNum)
theorem exec_verifyOpen : exec (.verifyOpen q) s = whenUp s fun s => s.verify q false := rfl
theorem exec_verifyClose : exec (.verifyClose q) s = whenUp s fun s => s.verify q true := rfl
end

section
variable {q : QNum} {s u : State} (h : IssueFrame q s u)
include h

theorem IssueFrame.setWin (p : Port) (w : Option Win) : IssueFrame q (s.setWin p w) (u.setWin p w) :=
  h.map (F := fun s => s.setWin p w) (fun _ _ _ _ => rfl) (fun _ => rfl) fun _ => rfl

theorem IssueFrame.win (p : Port) : u.win p = s.win p := (congrArg (fun t : State => t.cam.wins[p]) h.1 :)

theorem IssueFrame.winDone (p : Port) : u.winDone p = s.winDone p := by
  obtain ⟨⟨_, _, _, _, rfl⟩, -⟩ := issueFrame_iff.1 h
  rfl

theorem IssueFrame.vpRunning (p : Port) : ((u.vpOf p).filter fun v => u.running (Pg.vp v)) =
    (s.vpOf p).filter fun v => s.running (Pg.vp v) := by
  obtain ⟨⟨_, _, _, _, rfl⟩, -⟩ := issueFrame_iff.1 h
  rfl
end

section
variable {s : State} {q : QNum} {e : Entry} {p : Port} (h : s.Issues q 0x31 e) (hport : s.qPort q = some p)
include h hport

theorem verify_begin {close : Bool} (hclose : (e.flags % 2 == 1) = close) : s.verify q close =
    if close then (s.begin q e).1.verifyClose p q (s.taken q e).uid
    else (s.begin q e).1.verifyOpen p q (s.taken q e).uid e := by
  obtain ⟨-, hi, -⟩ := id h
  have hport' := ((started_begin h).frame.qPort q).trans hport
  simp only [State.verify, hi, hclose, bne_self_eq_false, Bool.false_eq_true, if_false]
  rw [issueCmd_begin h rfl fun _ => by rw [hport]; rfl]
  simp only [hport']

theorem verifyOpen_begin (hopen : e.flags % 2 = 0) (hnone : s.win p = none)
    (hvp : ∃ v ∈ s.vpOf p, s.running (Pg.vp v) = true) : s.verify q false =
      ((s.begin q e).1.winOpen p (wbits e.w1 0 16) (wbits e.w1 16 16)).finish q (s.taken q e).uid St.ok := by
  have hf := (started_begin h).frame
  obtain ⟨v, hv, hrun⟩ := hvp
  have hsome : ((s.vpOf p).filter fun v => s.running (Pg.vp v)).isEmpty = false :=
    List.isEmpty_eq_false_iff_exists_mem.2 ⟨v, List.mem_filter.2 ⟨hv, hrun⟩⟩
  rw [verify_begin h hport (by simp [hopen]), if_neg (by decide)]
  simp only [State.verifyOpen, hf.win, hnone, Option.isSome_none, Bool.false_eq_true, if_false, hf.vpRunning, hsome]

theorem verifyClose_none (hclose : e.flags % 2 = 1) (hnone : s.win p = none) : s.verify q true =
    (s.begin q e).1.finish q (s.taken q e).uid St.ok := by
  rw [verify_begin h hport (by simp [hclose]), if_pos rfl]
  simp only [State.verifyClose, (started_begin h).frame.win, hnone]

theorem verifyClose_waits {w : Win} (hclose : e.flags % 2 = 1) (hwin : s.win p = some w) (hfirst : w.closing = none)
    (hdone : s.winDone p = false) :
    s.verify q true = (s.begin q e).1.setWin p (some { w with closing := some (q, s.nextUid) }) := by
  have hf := (started_begin h).frame
  have hdone' : ((s.begin q e).1.setWin p (some { w with closing := some (q, s.nextUid) })).winDone p = false :=
    (hf.winDone p).trans hdone
  rw [verify_begin h hport (by simp [hclose]), if_pos rfl]
  simp only [State.verifyClose, hf.win, hwin, hfirst, Option.isSome_none, Bool.false_eq_true, if_false]
  rw [show (s.taken q e).uid = s.nextUid from rfl]
  simp only [State.winCheck, win_setWin_same, hdone', Bool.false_eq_true, if_false]
end

end Sys2Proof.Machine

open Sys2Proof Sys2Proof.Machine

/-- Settles O31: the opening touches registers, headers and pipelines beside the window. -/
theorem verifyWindows : Obligations.VerifyWindows := by
  unfold Obligations.VerifyWindows
  intro s q e p h hport
  refine ⟨fun hopen hnone hvp => ?_, fun hclose hnone => ?_, fun w hclose hwin hfirst hdone => ?_⟩
  · obtain ⟨frame, queue, cmds, conts, -, wait, levels, -⟩ := started_begin h
    have hopened := winOpen_frame (s.begin q e).1 p (wbits e.w1 0 16) (wbits e.w1 16 16)
    obtain ⟨_, ⟨r, g, v, rfl⟩, hframe⟩ := hopened.issueFrame (frame.setWin p _)
    obtain ⟨r', g', v', hu⟩ := hopened
    have hq : ((s.begin q e).1.winOpen p (wbits e.w1 0 16) (wbits e.w1 16 16)).q q = (s.begin q e).1.q q := by rw [hu]; rfl
    have hthr : ((s.begin q e).1.winOpen p (wbits e.w1 0 16) (wbits e.w1 16 16)).thr q = (s.begin q e).1.thr q := by
      rw [hu]
      rfl
    refine (gives_ends (exec_verifyOpen s q) h.1 (verifyOpen_begin h hport hopen hnone hvp) hframe rfl rfl
      (by rw [hq, cmds]) (by rw [hq, conts]) rfl (by rw [show (s.taken q e).e = e from rfl, opc_of_issues h]; decide)
      (by rw [hthr, levels]) (st := St.ok) rfl).mono fun t ⟨hft, hwait, hqueue⟩ => ?_
    obtain ⟨hmem, -, -, -, hother⟩ := issueFrame_keeps hft
    refine ⟨sameMem_of_mem hmem, (hft.win p).trans (win_setWin_same s p _),
      fun o ho => (hft.win o).trans (win_setWin_ne s _ ho), ?_, ?_, hother⟩
    · rw [hwait, hthr, wait]
      rfl
    · rw [hqueue]
      rfl
  · refine gives_completed h (by decide) (by decide) (exec_verifyClose s q) (g := id) rfl rfl rfl (fun _ hx => ⟨hx, rfl⟩) ?_
    rw [verifyClose_none h hport hclose hnone, modQ_self rfl]
  · obtain ⟨frame, queue, -, -, -, wait, -⟩ := started_begin h
    refine gives_of_frame (exec_verifyClose s q) h.1 (verifyClose_waits h hport hclose hwin hfirst hdone) (frame.setWin p _)
      rfl rfl ⟨frame.setWin p _, wait, queue.trans ?_⟩
    rw [show (s.taken q e).slots = 1 from slots_of_issues h (by decide)]
    rfl

end

section
/-! SUPPORT. Lists: entering one, transfers in one, and RET of the outermost level (04 R102 to R107); what that says of O32. -/

namespace Sys2Proof.Machine

-- what control flow leaves as it was

/-- The counters of the branch target cache (04 R116). -/
def btcCounters : List Nat := [R.SEQ_BTC_HIT.addr 0 0, R.SEQ_BTC_MISS.addr 0 0]

/-- Memory, registers but the counters of the branch target cache, time, and what no command touches. -/
structure CtlFrame (s t : State) : Prop where
  mem : t.mem = s.mem
  regs : SameRegsBut btcCounters s t
  time : t.time = s.time
  pending : t.pending = s.pending
  chip : t.chip = s.chip

section
variable {s t u : State}
theorem CtlFrame.refl (s : State) : CtlFrame s s := ⟨rfl, .refl _ _, rfl, rfl, rfl⟩

theorem CtlFrame.trans (h : CtlFrame s t) (h' : CtlFrame t u) : CtlFrame s u :=
  ⟨h'.mem.trans h.mem, h.regs.trans h'.regs fun _ hx => hx, h'.time.trans h.time, h'.pending.trans h.pending,
    h'.chip.trans h.chip⟩

theorem CtlFrame.modThr (h : CtlFrame s t) (q : QNum) (f : Thread → Thread) : CtlFrame s (t.modThr q f) :=
  ⟨h.mem, h.regs, h.time, h.pending, h.chip⟩

theorem CtlFrame.modQ (h : CtlFrame s t) (q : QNum) (f : Queue → Queue) : CtlFrame s (t.modQ q f) :=
  ⟨h.mem, h.regs, h.time, h.pending, h.chip⟩

theorem CtlFrame.dropStep (h : CtlFrame s t) (uid : Nat) : CtlFrame s (t.dropStep uid) :=
  ⟨h.mem, h.regs, h.time, h.pending, h.chip⟩

theorem CtlFrame.count (h : CtlFrame s t) {r : Reg} (hr : r.addr 0 0 ∈ btcCounters) : CtlFrame s (t.count r) :=
  ⟨h.mem, h.regs.wr _ hr, h.time, h.pending, h.chip⟩

theorem CtlFrame.of_issueFrame {q : QNum} (h : IssueFrame q s t) : CtlFrame s t := by
  obtain ⟨hmem, hregs, -⟩ := issueFrame_keeps h
  exact ⟨hmem, fun a d _ => by rw [hregs], h.time, h.pending, h.chip⟩
end

theorem gives_of_ctl {i : Instr} {s t : State} {f : State → State} (he : exec i s = whenUp s f) (hup : s.Up) (ht : f s = t)
    (h : CtlFrame s t) {P : State → Prop} (hP : P t) : Gives i s P := gives_of_outer he hup ht h.pending h.chip hP

theorem modThr_congr {s : State} {q : QNum} {f g : Thread → Thread} (h : f (s.thr q) = g (s.thr q)) :
    s.modThr q f = s.modThr q g := by
  have h' : f s.seq.threads[q] = g s.seq.threads[q] := h
  simp only [State.modThr, h']

/-- Thread `q` goes from `s` to entry `a` of a list: `t`. -/
structure WentTo (q : QNum) (a : Nat) (s t : State) : Prop where
  frame : CtlFrame s t
  queue : t.q q = s.q q
  thr : ∃ f j, t.thr q = { s.thr q with pc := a, fetched := f, jumped := j }

/-- A transfer outside a trap list (04 R102, R116). -/
theorem wentTo_transfer {s : State} {q : QNum} (htrap : (s.thr q).trap = none) (a : Nat) : WentTo q a s (s.transfer q a) := by
  unfold State.transfer
  rw [modThr_congr (g := fun t => { t with pc := a, fetched := none, jumped := false }) (by simp only [htrap])]
  dsimp only
  generalize hu : (s.modThr q fun t => { t with pc := a, fetched := none, jumped := false }) = u
  have hframe : CtlFrame s u := hu ▸ (CtlFrame.refl s).modThr q _
  have hq : u.q q = s.q q := hu ▸ q_modThr s q q _
  have hthr : u.thr q = { s.thr q with pc := a, fetched := none, jumped := false } := hu ▸ thr_modThr_same s q _
  split
  · exact ⟨hframe, hq, _, _, hthr⟩
  split
  next l _ =>
    have hhit : CtlFrame s ((u.count R.SEQ_BTC_HIT).modThr q fun t => { t with fetched := some (a, l.entry a) }) :=
      (hframe.count (by decide)).modThr q _
    refine ⟨⟨hhit.mem, hhit.regs, hhit.time, hhit.pending, hhit.chip⟩, hq, some (a, l.entry a), false, ?_⟩
    refine (thr_modThr_same (u.count R.SEQ_BTC_HIT) q fun t => { t with fetched := some (a, l.entry a) }).trans ?_
    rw [show (u.count R.SEQ_BTC_HIT).thr q = u.thr q from rfl, hthr]
  next =>
    refine ⟨(hframe.count (by decide)).modThr q _, hq, none, true, ?_⟩
    rw [thr_modThr_same, show (u.count R.SEQ_BTC_MISS).thr q = u.thr q from rfl, hthr]

-- a command of a list at its issue slot

/-- Thread `q`, in the list of the call `k`, has just started the command `c`: `u`. -/
structure ListStarted (q : QNum) (k c : Cmd) (s u : State) : Prop where
  frame : CtlFrame s u
  regs : u.regs = s.regs
  cmds : (u.q q).cmds = [k, c]
  conts : (u.q q).conts = []
  thr : ∃ n, u.thr q = { s.thr q with passed := 0, transfers := n, pc := (s.thr q).pc + 16, fetched := none, jumped := false } ∧
    (0x40 ≤ c.e.opc → c.e.opc ≤ 0x44 → n = (s.thr q).transfers)

theorem spot_list {s : State} {q : QNum} {l : Level} (ht : (s.thr q).trap = none) (hl : (s.thr q).levels = [l]) :
    s.spot q = .list := by
  simp [State.spot, ht, hl]

section
variable {s : State} {q : QNum} {op : Nat} {e : Entry} {l : Level} {k : Cmd} (h : s.ListIssues q op e l k)
include h

theorem listStarted_begin : ListStarted q k (s.listed k e) s (s.begin q e).1 ∧ (s.begin q e).2 = some s.nextUid := by
  obtain ⟨-, -, htrap, hlev, hcmds, hconts, huid, -⟩ := h
  obtain ⟨hturn, hthr⟩ := slot_frame s q e
  unfold State.begin
  simp only [spot_list htrap hlev]
  generalize (if 0x40 ≤ e.opc ∧ e.opc ≤ 0x44 then s.tookSlot q
      else (s.tookSlot q).modThr q fun t => { t with transfers := 0 }) = u at hturn hthr ⊢
  have hq : u.q q = s.q q := by rw [hturn.1]; rfl
  have hn : u.nextUid = s.nextUid := by rw [hturn.1]
  have hroot : ((u.thr q).levels.getLast?.map (·.call)).getD 0 = k.uid := by rw [hthr]; simp [hlev, huid]
  have hparent : (u.thr q).levels.head?.map (·.call) = some k.uid := by rw [hthr]; simp [hlev, huid]
  have hfind : (u.q q).cmds.find? (fun c => c.uid == k.uid) = some k := by simp [hq, hcmds]
  have hregs : u.regs = s.regs := by rw [hturn.1]
  have hframe : CtlFrame s u := by
    rw [hturn.1]
    exact ⟨rfl, .refl _ _, rfl, rfl, rfl⟩
  simp only [hroot, hparent, hfind, hn]
  refine ⟨⟨⟨hframe.mem, hframe.regs, hframe.time, hframe.pending, hframe.chip⟩, hregs, ?_, ?_,
    if 0x40 ≤ e.opc ∧ e.opc ≤ 0x44 then (s.thr q).transfers else 0, ?_, ?_⟩, trivial⟩
  · rw [q_modThr, q_modQ_same]
    exact congrArg (· ++ _) ((congrArg Queue.cmds hq).trans hcmds)
  · rw [q_modThr, q_modQ_same]
    exact (congrArg Queue.conts hq).trans hconts
  · rw [thr_modThr_same, thr_modQ, show State.thr { u with nextUid := s.nextUid + 1 } q = u.thr q from rfl, hthr]
  · exact fun h1 h2 => if_pos ⟨h1, h2⟩

/-- A command of a list that R89 allows there is carried out. -/
theorem issue_list (ha : allowedAt op .list = true) (hp : needsPort op = false) (f : Entry → State → Option Nat → State) :
    s.issue q op f = f e (s.begin q e).1 (some s.nextUid) := by
  obtain ⟨-, hi, htrap, hlev, -⟩ := id h
  obtain ⟨-, -, -, hop, -⟩ := pick_of_issuing hi
  simp only [State.issue, hi, State.start, spot_list htrap hlev, hop, ha, hp, (listStarted_begin h).2, not_true_eq_false, if_false,
    Bool.false_eq_true, false_and]
end

-- outcomes of a command of a list and of its call

theorem modCmd_call {s : State} {q : QNum} {k c : Cmd} (hc : (s.q q).cmds = [k, c]) (hk : (s.q q).conts = [])
    (hne : c.uid ≠ k.uid) (ho : k.out = none) (f : Cmd → Cmd) :
    s.modCmd q k.uid f = s.modQ q fun x => { x with cmds := [f k, c] } := by
  refine modQ_congr ?_
  simp [setCmd, hc, hk, ho, hne]

theorem modCmd_inner {s : State} {q : QNum} {k c : Cmd} (hc : (s.q q).cmds = [k, c]) (hk : (s.q q).conts = [])
    (hne : c.uid ≠ k.uid) (ho : c.out = none) (f : Cmd → Cmd) :
    s.modCmd q c.uid f = s.modQ q fun x => { x with cmds := [k, f c] } := by
  refine modQ_congr ?_
  simp [setCmd, hc, hk, ho, hne.symm]

/-- The command `c` of the list of the call `k`, both in flight, ends with a status that does not halt. -/
theorem finish_inner {s : State} {q : QNum} {k c : Cmd} (hc : (s.q q).cmds = [k, c]) (hk : (s.q q).conts = [])
    (hne : c.uid ≠ k.uid) (ho : c.out = none) (hopen : k.closed = false) (hkop : k.e.opc ≠ 0x50)
    (hop : c.e.opc ≠ 0x15) (hleave : (s.thr q).leaving = false) {st : Byte} (hh : halting st = false) :
    s.finish q c.uid st = ((s.dropStep c.uid).modQ q fun x => { x with cmds := [k, s.done c st] }).modThr q
      fun t => { t with wait := t.wait.after c.uid } := by
  have hlive : s.liveCmd q c.uid = some c := by simp [State.liveCmd, hc, hk, ho, hne.symm]
  have hone : s.finish1 q c.uid st c.tag c.resume = ((s.dropStep c.uid).modQ q fun x =>
      { x with cmds := [k, s.done c st] }).modThr q fun t => { t with wait := t.wait.after c.uid } := by
    unfold State.finish1
    rw [modCmd_inner (s := s.dropStep c.uid) hc hk hne ho]
    dsimp only
    rw [State.atEntry, if_neg]
    · rfl
    · rw [thr_modThr_same]
      exact fun hx => absurd (hleave.symm.trans hx.1) (by decide)
  unfold State.finish
  simp only [hlive, hop, if_false, hh, Bool.false_eq_true, hone]
  refine closeCalls_id (fun d hd hdop => ?_) (fun d hd hdcall hdclosed => ?_) 6
  · rw [q_modThr, q_modQ_same] at hd
    obtain rfl | rfl := List.mem_pair.1 hd
    · exact absurd hdop hkop
    · rfl
  · rw [q_modThr, q_modQ_same] at hd
    obtain rfl | rfl := List.mem_pair.1 (show d ∈ [k, s.done c st] by simpa [dropStep_q, hk] using hd)
    · exact absurd (hopen.symm.trans hdclosed) (by decide)
    · rfl

/-- What a call ran that ran one command (04 R107). -/
theorem ran_one {x : Queue} {k d : Cmd} (hc : x.cmds = [k, d]) (hcall : k.call = true) (hdcall : d.call = false)
    (hp : d.parent = some k.uid) : x.ran k.uid = [d] := by
  simp [Queue.ran, hc, hcall, hdcall, Queue.callsOf, hp]

theorem kids_one {x : Queue} {k d : Cmd} (hc : x.cmds = [k, d]) (hk : x.conts = []) (hkp : k.parent = none)
    (hp : d.parent = some k.uid) : x.kids k.uid = [d] := by
  simp [Queue.kids, hc, hk, hkp, hp]

/-- A call that ran one command, which completed OK, and was not left early completes OK (04 R107). -/
theorem callOutcome_ok {k d : Cmd} (hforced : k.forced = none) (hearly : k.early = false) (hdo : d.out = some St.ok) :
    callOutcome k [d] = (St.ok, 0, 0) := by
  have hhalt : halting (d.out.getD 0) = false := by rw [hdo]; rfl
  have hpart : (d.out == some St.partly) = false := by rw [hdo]; rfl
  simp only [callOutcome, hforced, List.find?_cons, List.find?_nil, hhalt, hpart, hearly, Bool.false_eq_true, if_false]

/-- The closed call `k` whose one command completed OK completes OK (04 R103, R107). -/
theorem closeCalls_call {s : State} {q : QNum} {k d : Cmd} (hc : (s.q q).cmds = [k, d]) (hk : (s.q q).conts = [])
    (hne : d.uid ≠ k.uid) (hcall : k.call = true) (hclosed : k.closed = true) (ho : k.out = none) (hcont : k.cont = false)
    (hearly : k.early = false) (hforced : k.forced = none) (hkp : k.parent = none) (hkop : k.e.opc ≠ 0x50)
    (hp : d.parent = some k.uid) (hdcall : d.call = false) (hdo : d.out = some St.ok) (hl : (s.thr q).levels = []) (n : Nat) :
    s.closeCalls q (n + 1) = ((s.dropStep k.uid).modQ q fun x =>
        { x with cmds := [{ s.done k St.ok with tag := 0, resume := 0 }, d] }).modThr q
      fun t => { t with wait := t.wait.after k.uid } := by
  have hfence : ∀ c ∈ (s.q q).cmds, c.e.opc = 0x50 → c.out.isSome = true := fun c hcm hop => by
    obtain rfl | rfl := List.mem_pair.1 (hc ▸ hcm)
    · exact absurd hop hkop
    · rw [hdo]
      rfl
  have hfind : ((s.q q).cmds ++ (s.q q).conts).find? (fun c =>
      c.call && c.closed && c.out.isNone && ((s.q q).kids c.uid).all fun x => x.out.isSome) = some k := by
    simp [hc, hk, hcall, hclosed, ho, kids_one hc hk hkp hp, hdo]
  have hone : s.finish1 q k.uid St.ok 0 0 = ((s.dropStep k.uid).modQ q fun x =>
      { x with cmds := [{ s.done k St.ok with tag := 0, resume := 0 }, d] }).modThr q
        fun t => { t with wait := t.wait.after k.uid } := by
    unfold State.finish1
    rw [modCmd_call (s := s.dropStep k.uid) hc hk hne ho]
    dsimp only
    rw [atEntry_id]
    · rfl
    · rw [thr_modThr_same]
      exact hl
  unfold State.closeCalls
  simp only [fenceCheck_id hfence, hfind, hcont, Bool.false_eq_true, if_false, ran_one hc hcall hdcall hp,
    callOutcome_ok hforced hearly hdo, hone,
    show halting St.ok = false from rfl, Bool.false_and]
  have hall : ∀ c ∈ [{ s.done k St.ok with tag := 0, resume := 0 }, d], c.out.isSome = true := fun c hcm => by
    obtain rfl | rfl := List.mem_pair.1 hcm
    · rfl
    · rw [hdo]
      rfl
  refine closeCalls_id (fun c hcm _ => hall c ?_) (fun c hcm _ _ => hall c ?_) n
  · rwa [q_modThr, q_modQ_same] at hcm
  · rw [q_modThr, q_modQ_same] at hcm
    simpa [dropStep_q, hk] using hcm

-- the commands

section
variable (s : State) (q : QNum)
theorem exec_call : exec (.call q) s = whenUp s fun s => s.callCmd q := rfl
theorem exec_ifState : exec (.ifState q) s = whenUp s fun s => s.ifState q := rfl
theorem exec_jump : exec (.jump q) s = whenUp s fun s => s.jump q := rfl
theorem exec_loop : exec (.loop q) s = whenUp s fun s => s.loop q := rfl
theorem exec_ret : exec (.ret q) s = whenUp s fun s => s.ret q := rfl
end

-- targets and the limit of transfers

section
variable {s u : State} (hregs : u.regs = s.regs)
include hregs

theorem targetBad_of_regs (a : Nat) : u.targetBad a = s.targetBad a := by
  unfold State.targetBad State.inCommandRing State.qEn State.qSize State.flag State.fld State.rd
  rw [hregs]

theorem limited_of_regs {q : QNum} (ht : (u.thr q).transfers = (s.thr q).transfers) : u.limited q = s.limited q := by
  unfold State.limited State.brLimit State.fld State.rd
  rw [hregs, ht]
end

/-- A counted transfer outside a trap list. -/
theorem countedTransfer_list {s : State} {q : QNum} (htrap : (s.thr q).trap = none) (a : Nat) :
    CtlFrame s (s.countedTransfer q a) ∧ (s.countedTransfer q a).q q = s.q q ∧
    ∃ f j, (s.countedTransfer q a).thr q =
      { s.thr q with transfers := (s.thr q).transfers + 1, pc := a, fetched := f, jumped := j } := by
  obtain ⟨hframe, hq, f, j, hthr⟩ := wentTo_transfer (s := s.modThr q fun t => { t with transfers := t.transfers + 1 })
    (by rwa [thr_modThr_same]) a
  rw [thr_modThr_same] at hthr
  exact ⟨((CtlFrame.refl s).modThr q _).trans hframe, hq, f, j, hthr⟩

-- entering a list from the ring

/-- The command `c` of the ring has taken its thread into a list at `a`. -/
structure Entered (q : QNum) (c : Cmd) (a : Nat) (s t : State) : Prop where
  frame : CtlFrame s t
  cmds : (t.q q).cmds = [{ c with call := true }]
  thr : ∃ f j, t.thr q = { s.thr q with levels := [⟨none, c.uid, {}⟩], pc := a, fetched := f, jumped := j }

theorem entered_enterList {s : State} {q : QNum} {c : Cmd} (hc : (s.q q).cmds = [c]) (hk : (s.q q).conts = [])
    (ho : c.out = none) (htrap : (s.thr q).trap = none) (hl : (s.thr q).levels = []) (a : Nat) :
    Entered q c a s (s.enterList q c.uid none a) := by
  unfold State.enterList
  rw [modCmd_one hc hk ho]
  generalize hu : ((s.modQ q fun x => { x with cmds := [{ c with call := true }] }).modThr q fun t =>
    { t with levels := Level.mk none c.uid {} :: t.levels }) = u
  have hthr : u.thr q = { s.thr q with levels := [⟨none, c.uid, {}⟩] } := by
    rw [← hu, thr_modThr_same, thr_modQ, hl]
  have hcmds : (u.q q).cmds = [{ c with call := true }] := by rw [← hu, q_modThr, q_modQ_same]
  have hframe : CtlFrame s u := hu ▸ ((CtlFrame.refl s).modQ q _).modThr q _
  obtain ⟨hgo, hq, f, j, hpc⟩ := wentTo_transfer (s := u) (q := q) (by rw [hthr]; exact htrap) a
  exact ⟨hframe.trans hgo, by rw [hq, hcmds], f, j, by rw [hpc, hthr]⟩

section
variable {s : State} {q : QNum} {e : Entry}

theorem transfers_begin {op : Nat} (h : s.Issues q op e) (hlo : 0x40 ≤ op) (hhi : op ≤ 0x44) :
    ((s.begin q e).1.thr q).transfers = (s.thr q).transfers := by
  obtain ⟨-, -, hs, hc⟩ := id h
  obtain ⟨-, -, -, hthr⟩ := begin_ring e hs hc
  rw [hthr, opc_of_issues h]
  exact if_pos ⟨hlo, hhi⟩

theorem regs_begin {op : Nat} (h : s.Issues q op e) : (s.begin q e).1.regs = s.regs :=
  (congrArg State.regs (started_begin h).frame.1 :)

/-- CALL with a good target, from the ring (04 R103). -/
theorem callCmd_enters (h : s.Issues q 0x41 e) (hgood : s.targetBad e.w1.toNat = none) :
    s.callCmd q = (s.begin q e).1.enterList q (s.taken q e).uid none e.w1.toNat := by
  obtain ⟨-, -, -, -, -, -, levels, -⟩ := started_begin h
  rw [State.callCmd, issueCmd_begin h rfl (fun hp => by cases hp)]
  simp only [targetBad_of_regs (regs_begin h), hgood, State.returnPoint, levels]
  rfl

/-- Why an IF_STATE is refused reads registers only. -/
theorem ifBad_begin (h : s.Issues q 0x44 e) : (s.begin q e).1.ifBad q e = s.ifBad q e := by
  unfold State.ifBad
  rw [targetBad_of_regs (regs_begin h), (started_begin h).frame.qPort q]

/-- IF_STATE with a selector that is always true, from the ring (04 R105): to its list, or on where it is inverted. -/
theorem ifState_ring (h : s.Issues q 0x44 e) (hsel : e.sel = 0) (hbad : s.ifBad q e = none) (hlim : s.limited q = false) :
    s.ifState q = if e.sp / 2 ^ 15 % 2 = 1 then (s.begin q e).1.finish q (s.taken q e).uid St.ok else
      ((s.begin q e).1.modThr q fun t => { t with transfers := t.transfers + 1 }).enterList q (s.taken q e).uid none e.w1.toNat := by
  have hlim' : (s.begin q e).1.limited q = false :=
    (limited_of_regs (regs_begin h) (transfers_begin h (by decide) (by decide))).trans hlim
  have hring : (s.spot q == .ring) = true := beq_iff_eq.2 h.2.2.1
  rw [State.ifState, issue_begin h rfl (fun hp => by cases hp)]
  simp only [ifBad_begin h, hbad, State.selTrue, hsel, hlim', hring, Bool.false_eq_true, if_false, State.outcome]
  simp
end

-- commands in a list

/-- The command `c` of the list of the call `k` has completed OK: `t`. -/
structure ListEnded (q : QNum) (k c : Cmd) (u t : State) : Prop where
  frame : CtlFrame u t
  regs : t.regs = u.regs
  cmds : (t.q q).cmds = [k, c]
  conts : (t.q q).conts = []
  thr : ∃ w, t.thr q = { u.thr q with wait := w }

section
variable {s u : State} {q : QNum} {op : Nat} {e : Entry} {l : Level} {k : Cmd} (h : s.ListIssues q op e l k)
include h

/-- The command that has started, with its thread `u` moved meanwhile, completes OK. -/
theorem listEnded_finish (hop : op ≠ 0x15) (hframe : CtlFrame s u) (hcmds : (u.q q).cmds = [k, s.listed k e])
    (hconts : (u.q q).conts = []) (hleave : (u.thr q).leaving = false) :
    ListEnded q k (s.done (s.listed k e) St.ok) u (u.finish q s.nextUid St.ok) := by
  obtain ⟨-, hi, -, -, -, -, -, hlt, hkop, -, -, hopen, -⟩ := h
  obtain ⟨-, -, -, heop, -⟩ := pick_of_issuing hi
  have hdone : u.done (s.listed k e) St.ok = s.done (s.listed k e) St.ok := by
    rw [State.done, State.done, State.timeLo, hframe.time, State.timeLo]
  have hend := finish_inner (c := s.listed k e) hcmds hconts (Nat.ne_of_gt hlt) rfl hopen (by rw [hkop]; decide)
    (show e.opc ≠ 0x15 by rwa [heop]) hleave (st := St.ok) rfl
  rw [show s.nextUid = (s.listed k e).uid from rfl, hend, hdone]
  refine ⟨(((CtlFrame.refl u).dropStep _).modQ q _).modThr q _, rfl, ?_, ?_, (u.thr q).wait.after s.nextUid, ?_⟩
  · rw [q_modThr, q_modQ_same]
  · rw [q_modThr, q_modQ_same]
    exact hconts
  · rw [thr_modThr_same]
    rfl

/-- Such a command stands at its entry, in the list of its call. -/
theorem begin_list (hlo : 0x40 ≤ op) (hhi : op ≤ 0x44) : (s.begin q e).1.regs = s.regs ∧ (s.begin q e).1.thr q =
    { s.thr q with passed := 0, pc := (s.thr q).pc + 16, fetched := none, jumped := false } := by
  obtain ⟨⟨-, hregs, -, -, n, hthr, hn⟩, -⟩ := listStarted_begin h
  obtain ⟨-, -, -, hop, -⟩ := pick_of_issuing h.2.1
  refine ⟨hregs, ?_⟩
  rw [hthr, hn (by rwa [State.listed, hop]) (by rwa [State.listed, hop])]

theorem limited_list (hlo : 0x40 ≤ op) (hhi : op ≤ 0x44) : (s.begin q e).1.limited q = s.limited q := by
  obtain ⟨hregs, hthr⟩ := begin_list h hlo hhi
  exact limited_of_regs hregs (by rw [hthr])
end

section
variable {s : State} {q : QNum} {e : Entry} {l : Level} {k : Cmd}

/-- JUMP in a list (04 R102). -/
theorem jump_list (h : s.ListIssues q 0x40 e l k) (hgood : s.targetBad e.w1.toNat = none) (hlim : s.limited q = false) :
    s.jump q = ((s.begin q e).1.countedTransfer q e.w1.toNat).finish q s.nextUid St.ok := by
  obtain ⟨hregs, -⟩ := begin_list h (by decide) (by decide)
  have hlim' := (limited_list h (by decide) (by decide)).trans hlim
  rw [State.jump, issue_list h rfl rfl]
  simp only [targetBad_of_regs hregs, hgood, hlim', Bool.false_eq_true, if_false, State.outcome]

theorem loopCtr_list {t : Thread} (ht : t.trap = none) (hl : t.levels = [l]) : t.loopCtr = l.loop := by
  simp only [Thread.loopCtr, ht, hl]

theorem setLoop_list (ht : (s.thr q).trap = none) (hl : (s.thr q).levels = [l]) (x : LoopCtr) :
    s.setLoop q x = s.modThr q fun t => { t with levels := [{ l with loop := x }] } := by
  refine modThr_congr ?_
  simp only [ht, hl]

/-- How often a LOOP with the counter `l` is still to go to its target (04 R104). -/
def Entry.loopsLeft (e : Entry) (l : LoopCtr) : Nat := if l.active then l.remain else e.sp - 1

/-- LOOP in a list (04 R104): on past itself, or to its target. -/
theorem loop_list (h : s.ListIssues q 0x43 e l k) (hgood : s.targetBad e.w1.toNat = none) (hlim : s.limited q = false)
    (hsp : e.sp ≠ 0) (hhere : l.loop.active = true → l.loop.origin = (s.thr q).pc) : s.loop q =
      if e.loopsLeft l.loop = 0 then
        ((s.begin q e).1.setLoop q { active := false, remain := 0, origin := (s.thr q).pc }).finish q s.nextUid St.ok
      else (((s.begin q e).1.setLoop q { active := true, remain := e.loopsLeft l.loop - 1, origin := (s.thr q).pc }
        ).countedTransfer q e.w1.toNat).finish q s.nextUid St.ok := by
  obtain ⟨hregs, hthr⟩ := begin_list h (by decide) (by decide)
  have hlim' := (limited_list h (by decide) (by decide)).trans hlim
  obtain ⟨-, -, htrap, hlev, -⟩ := id h
  have hctr : ((s.begin q e).1.thr q).loopCtr = l.loop := loopCtr_list (by rw [hthr]; exact htrap) (by rw [hthr]; exact hlev)
  have hpc : s.listPc q = (s.thr q).pc := by simp only [State.listPc, htrap]
  have hsame : ¬ (l.loop.active = true ∧ l.loop.origin ≠ (s.thr q).pc) := fun hx => hx.2 (hhere hx.1)
  rw [State.loop, issue_list h rfl rfl]
  simp only [targetBad_of_regs hregs, hgood, hlim', hctr, hpc, hsame, hsp, Bool.false_eq_true, if_false, State.outcome]
  rfl

/-- The loop counter of the level of a LOOP once it has run (04 R104). -/
def Entry.loopNext (e : Entry) (l : LoopCtr) (here : Nat) : LoopCtr :=
  { active := e.loopsLeft l != 0, remain := e.loopsLeft l - 1, origin := here }

/-- What a LOOP leaves (04 R104). -/
theorem loop_gives (h : s.ListIssues q 0x43 e l k) (hgood : s.targetBad e.w1.toNat = none) (hlim : s.limited q = false)
    (hsp : e.sp ≠ 0) (hhere : l.loop.active = true → l.loop.origin = (s.thr q).pc) : ∃ t, s.loop q = t ∧ CtlFrame s t ∧
      (t.q q).cmds = [k, s.done (s.listed k e) St.ok] ∧ (t.thr q).loopCtr = e.loopNext l.loop (s.thr q).pc ∧
      (t.thr q).pc = if e.loopsLeft l.loop = 0 then (s.thr q).pc + 16 else e.w1.toNat := by
  obtain ⟨⟨hframe, hregs, hcmds, hconts, -⟩, -⟩ := listStarted_begin h
  obtain ⟨-, hthr⟩ := begin_list h (by decide) (by decide)
  obtain ⟨-, -, htrap, hlev, -, -, -, -, -, -, hleave, -⟩ := id h
  have hset := setLoop_list (s := (s.begin q e).1) (q := q) (l := l) (by rw [hthr]; exact htrap) (by rw [hthr]; exact hlev)
    (e.loopNext l.loop (s.thr q).pc)
  generalize hu : (s.begin q e).1.setLoop q (e.loopNext l.loop (s.thr q).pc) = u at hset
  have huframe : CtlFrame s u := hset ▸ hframe.modThr q _
  have huq : u.q q = (s.begin q e).1.q q := by rw [hset, q_modThr]
  have huthr : u.thr q = { s.thr q with
      passed := 0, pc := (s.thr q).pc + 16, fetched := none, jumped := false
      levels := [{ l with loop := e.loopNext l.loop (s.thr q).pc }] } := by rw [hset, thr_modThr_same, hthr]
  have hend : ∀ v, CtlFrame u v → v.q q = u.q q → (v.thr q).leaving = false → ListEnded q k (s.done (s.listed k e) St.ok) v
      (v.finish q s.nextUid St.ok) := fun v hv hq hl =>
    listEnded_finish h (by decide) (huframe.trans hv) (by rw [hq, huq]; exact hcmds) (by rw [hq, huq]; exact hconts) hl
  rw [loop_list h hgood hlim hsp hhere]
  split
  next h0 =>
    have hx : e.loopNext l.loop (s.thr q).pc = { active := false, remain := 0, origin := (s.thr q).pc } := by
      simp [Entry.loopNext, h0]
    obtain ⟨hfin, -, hcmds', -, w, hthr'⟩ := hend u (.refl u) rfl (by rw [huthr]; exact hleave)
    rw [← hx, hu]
    refine ⟨_, rfl, huframe.trans hfin, hcmds', ?_, ?_⟩
    · rw [hthr', huthr]
      refine loopCtr_list (l := { l with loop := e.loopNext l.loop (s.thr q).pc }) ?_ rfl
      exact htrap
    · rw [hthr', huthr]
  next h0 =>
    have hx : e.loopNext l.loop (s.thr q).pc = { active := true, remain := e.loopsLeft l.loop - 1, origin := (s.thr q).pc } := by
      simp [Entry.loopNext, h0]
    obtain ⟨hgo, hq, f, j, hpc⟩ := countedTransfer_list (s := u) (q := q) (by rw [huthr]; exact htrap) e.w1.toNat
    obtain ⟨hfin, -, hcmds', -, w, hthr'⟩ := hend _ hgo hq (by rw [hpc, huthr]; exact hleave)
    rw [← hx, hu]
    refine ⟨_, rfl, (huframe.trans hgo).trans hfin, hcmds', ?_, ?_⟩
    · rw [hthr', hpc, huthr]
      refine loopCtr_list (l := { l with loop := e.loopNext l.loop (s.thr q).pc }) ?_ rfl
      exact htrap
    · rw [hthr', hpc]

/-- RET of the outermost level (04 R103). -/
theorem ret_list (h : s.ListIssues q 0x42 e l k) (hret : l.ret = none) : ∃ t, s.ret q = t ∧ CtlFrame s t ∧ t.regs = s.regs ∧
    (t.thr q).levels = [] ∧
    (t.q q).cmds = [{ s.done k St.ok with closed := true, tag := 0, resume := 0 }, s.done (s.listed k e) St.ok] := by
  obtain ⟨⟨hframe, hregs, hcmds, hconts, -⟩, -⟩ := listStarted_begin h
  obtain ⟨-, hthr⟩ := begin_list h (by decide) (by decide)
  obtain ⟨-, hi, htrap, hlev, -, -, huid, hlt, hkop, hcall, hleave, hopen, hearly, hforced, hcont, hkp, ho⟩ := id h
  have hend := listEnded_finish h (by decide) hframe hcmds hconts (by rw [hthr]; exact hleave)
  rw [State.ret, issue_list h rfl rfl]
  dsimp only
  generalize (s.begin q e).1.finish q s.nextUid St.ok = v at hend ⊢
  obtain ⟨hframe', hregs', hcmds', hconts', w, hthr'⟩ := hend
  have hlev' : (v.thr q).levels = [l] := by rw [hthr', hthr]; exact hlev
  simp only [hlev', hret]
  rw [← huid, modCmd_call (s := v.modThr q fun t => { t with levels := [] }) hcmds' hconts' (Nat.ne_of_gt hlt) ho]
  generalize hy : ((v.modThr q fun t => { t with levels := [] }).modQ q fun x =>
    { x with cmds := [{ k with closed := true }, s.done (s.listed k e) St.ok] }) = y
  have hframe'' : CtlFrame s y := hy ▸ ((hframe.trans hframe').modThr q _).modQ q _
  have hregs'' : y.regs = s.regs := hy ▸ hregs'.trans hregs
  have hlev'' : (y.thr q).levels = [] := by rw [← hy, thr_modQ, thr_modThr_same]
  have hcmds'' : (y.q q).cmds = [{ k with closed := true }, s.done (s.listed k e) St.ok] := by rw [← hy, q_modQ_same]
  have hconts'' : (y.q q).conts = [] := by rw [← hy, q_modQ_same]; exact hconts'
  have htime : y.timeLo = s.timeLo := by rw [State.timeLo, hframe''.time, State.timeLo]
  clear hy
  have hclose := closeCalls_call hcmds'' hconts'' (Nat.ne_of_gt hlt) hcall rfl ho hcont hearly hforced hkp (by rw [hkop]; decide)
    rfl rfl rfl hlev'' 5
  rw [hclose]
  refine ⟨_, rfl, ?_, hregs'', ?_, ?_⟩
  · exact (((hframe''.dropStep _).modQ q _).modThr q _).modThr q _
  · rw [thr_modThr_same, thr_modThr_same]
    exact hlev''
  · rw [q_modThr, q_modThr, q_modQ_same, State.done, htime]
    rfl
end

end Sys2Proof.Machine

open Sys2Proof Sys2Proof.Machine

/-- Settles O32: each is carried out where its thread stands, by a transfer that moves only the cache's counters. -/
theorem listsTransferControl : Obligations.ListsTransferControl := by
  unfold Obligations.ListsTransferControl
  intro s q e l k hgood
  refine ⟨fun h => ?_, fun h hsel hbad hlim => ⟨fun hinv => ?_, fun hinv => ?_⟩, fun h hlim => ?_, fun h hlim hsp hhere => ?_,
    fun h hret => ?_⟩
  · obtain ⟨frame, -, cmds, conts, -, wait, levels, trap⟩ := started_begin h
    obtain ⟨hframe, hcmds, f, j, hthr⟩ := entered_enterList cmds conts rfl trap levels e.w1.toNat
    have hgo := (CtlFrame.of_issueFrame frame).trans hframe
    exact gives_of_ctl (exec_call s q) h.1 (callCmd_enters h hgood) hgo
      ⟨sameMem_of_mem hgo.mem, hgo.regs, by rw [hthr]; rfl, by rw [hthr], by rw [hthr]; exact wait, hcmds⟩
  · obtain ⟨frame, -, cmds, conts, -, -, levels, trap⟩ := started_begin h
    have hthr0 := thr_modThr_same (s.begin q e).1 q fun t => { t with transfers := t.transfers + 1 }
    obtain ⟨hframe, hcmds, f, j, hthr⟩ := entered_enterList (c := s.taken q e)
      (s := (s.begin q e).1.modThr q fun t => { t with transfers := t.transfers + 1 }) cmds conts rfl
      (by rw [hthr0]; exact trap) (by rw [hthr0]; exact levels) e.w1.toNat
    have hgo := ((CtlFrame.of_issueFrame frame).modThr q _).trans hframe
    refine gives_of_ctl (exec_ifState s q) h.1 ((ifState_ring h hsel hbad hlim).trans (if_neg (by rw [hinv]; decide))) hgo
      ⟨sameMem_of_mem hgo.mem, hgo.regs, by rw [hthr]; rfl, by rw [hthr], ?_, hcmds⟩
    rw [hthr, hthr0]
    exact congrArg (· + 1) (transfers_begin h (by decide) (by decide))
  · obtain ⟨frame, -, cmds, conts, -, -, levels, -⟩ := started_begin h
    exact (gives_ends (exec_ifState s q) h.1 ((ifState_ring h hsel hbad hlim).trans (if_pos hinv)) frame rfl rfl cmds conts rfl
      (by rw [show (s.taken q e).e = e from rfl, opc_of_issues h]; decide) levels (st := St.ok) rfl).mono
      fun t ⟨hframe, hthr, hq⟩ => ⟨hframe, by rw [hthr]; exact levels, by rw [hq]⟩
  · obtain ⟨⟨hframe, hregs, hcmds, hconts, -⟩, -⟩ := listStarted_begin h
    obtain ⟨-, hthr⟩ := begin_list h (by decide) (by decide)
    obtain ⟨-, -, htrap, hlev, -, -, -, -, -, -, hleave, -⟩ := id h
    obtain ⟨hgo, hq, f, j, hpc⟩ := countedTransfer_list (s := (s.begin q e).1) (q := q) (by rw [hthr]; exact htrap) e.w1.toNat
    obtain ⟨hfin, -, hcmds', -, w, hthr'⟩ := listEnded_finish h (by decide) (hframe.trans hgo) (by rw [hq]; exact hcmds)
      (by rw [hq]; exact hconts) (by rw [hpc, hthr]; exact hleave)
    have hall := (hframe.trans hgo).trans hfin
    rw [hpc, hthr] at hthr'
    exact gives_of_ctl (exec_jump s q) h.1 (jump_list h hgood hlim) hall
      ⟨sameMem_of_mem hall.mem, hall.regs, by rw [hthr']; exact hlev, by rw [hthr'], by rw [hthr'], hcmds'⟩
  · obtain ⟨t, ht, hframe, hcmds, hctr, hpc⟩ := loop_gives h hgood hlim hsp hhere
    refine gives_of_ctl (exec_loop s q) h.1 ht hframe ⟨sameMem_of_mem hframe.mem, hframe.regs, hcmds, by rw [hctr]; rfl, ?_⟩
    rw [show (if l.loop.active then l.loop.remain else e.sp - 1) = e.loopsLeft l.loop from rfl]
    cases hn : e.loopsLeft l.loop with
    | zero => exact ⟨by rw [hpc, if_pos hn], by rw [hctr]; simp [Entry.loopNext, hn]⟩
    | succ r => exact ⟨by rw [hpc, if_neg (by rw [hn]; exact Nat.succ_ne_zero r)], by rw [hctr]; simp [Entry.loopNext, hn],
        by rw [hctr]; simp [Entry.loopNext, hn]⟩
  · obtain ⟨t, ht, hframe, hregs, hlev, hcmds⟩ := ret_list h hret
    exact gives_of_ctl (exec_ret s q) h.1 ht hframe ⟨sameMem_of_mem hframe.mem, hregs, hlev, hcmds⟩

end

section
/-! SUPPORT. The media commands at their axis (04 R98, R99, 10 R254, R255, R265); what that says of O29 and O30. -/

namespace Sys2Proof.Machine

-- what an axis command leaves as it was

/-- Only axis `a`, the sets and the pages may differ. -/
structure AxisFrame (a : AxNum) (s t : State) : Prop where
  rest : t = { s with active := t.active, pendSet := t.pendSet, pages := t.pages, ax := t.ax }
  others : ∀ b, b ≠ a → t.axS b = s.axS b

theorem axS_modAx_same (s : State) (a : AxNum) (f : AxSt → AxSt) : (s.modAx a f).axS a = f (s.axS a) := by
  simp [State.axS, State.modAx]

theorem axS_modAx_ne (s : State) {a b : AxNum} (f : AxSt → AxSt) (h : b ≠ a) : (s.modAx a f).axS b = s.axS b := by
  have : ¬ a.val = b.val := fun e => h (Fin.ext e.symm)
  simp [State.axS, State.modAx, this]

section
variable {a : AxNum} {s t u : State}

theorem AxisFrame.refl (a : AxNum) (s : State) : AxisFrame a s s := ⟨rfl, fun _ _ => rfl⟩

theorem AxisFrame.trans (h : AxisFrame a s t) (h' : AxisFrame a t u) : AxisFrame a s u :=
  ⟨by rw [h'.rest, h.rest], fun b hb => (h'.others b hb).trans (h.others b hb)⟩

theorem AxisFrame.modAx (h : AxisFrame a s t) (f : AxSt → AxSt) : AxisFrame a s (t.modAx a f) :=
  ⟨by rw [h.rest]; rfl, fun b hb => (axS_modAx_ne t f hb).trans (h.others b hb)⟩

theorem AxisFrame.axStart (h : AxisFrame a s t) (act : AxAct) (neg : Bool) : AxisFrame a s (t.axStart a act neg) := by
  unfold State.axStart
  exact h.modAx _

theorem AxisFrame.axMoveTo (h : AxisFrame a s t) (target : Word) : AxisFrame a s (t.axMoveTo a target) :=
  (h.axStart _ _).modAx _

theorem setPages_ax : ∀ a : AxNum, setPages (Pg.ax a) = [Pg.ax a] := by decide

/-- A pending set of an axis becomes active: the axes stay (02 R43). -/
theorem AxisFrame.activate (h : AxisFrame a s t) : AxisFrame a s (t.activate (Pg.ax a)) := by
  by_cases hp : (t.page (Pg.ax a)).pend = true
  · rw [activate_alone (setPages_ax a) hp]
    exact h.trans ⟨rfl, fun _ _ => rfl⟩
  · rwa [State.activate, if_pos hp]

/-- What becomes active rests on the sets and the pages alone. -/
theorem activate_active (ha : t.active = s.active) (hp : t.pendSet = s.pendSet) (hg : t.pages = s.pages) :
    (t.activate (Pg.ax a)).active = (s.activate (Pg.ax a)).active := by
  have hpage : t.page (Pg.ax a) = s.page (Pg.ax a) := by rw [State.page, hg, State.page]
  by_cases hs : (s.page (Pg.ax a)).pend = true
  · rw [activate_alone (setPages_ax a) hs, activate_alone (setPages_ax a) (by rwa [hpage])]
    simp only [State.irq, State.modPage, ha, hp]
  · rw [State.activate, if_pos (by rwa [hpage]), State.activate, if_pos hs, ha]

/-- The next motion of axis `a`: from rest, in direction `neg`. -/
structure StartsAx (a : AxNum) (act : AxAct) (neg : Bool) (s t : State) : Prop where
  act : (t.axS a).act = act
  neg : (t.axS a).neg = neg
  v : (t.axS a).v = 0
  job : (t.axS a).job = (s.axS a).job

theorem startsAx_axStart (s : State) (a : AxNum) (act : AxAct) (neg : Bool) : StartsAx a act neg s (s.axStart a act neg) := by
  unfold State.axStart
  constructor <;> rw [axS_modAx_same]

theorem startsAx_axMoveTo (s : State) (a : AxNum) (target : Word) :
    StartsAx a .move (decide (sdiff target (s.axPos a) < 0)) s (s.axMoveTo a target) ∧
    ((s.axMoveTo a target).axS a).target = target := by
  obtain ⟨hact, hneg, hv, hjob⟩ := startsAx_axStart s a .move (decide (sdiff target (s.axPos a) < 0))
  unfold State.axMoveTo
  refine ⟨⟨?_, ?_, ?_, ?_⟩, ?_⟩ <;> rw [axS_modAx_same]
  · exact hact
  · exact hneg
  · exact hv
  · exact hjob
end

-- a job reaches an idle axis

/-- The axis takes the job that reaches it: the only waiting one, at the present position (10 R249, R254). -/
def State.axTakes (s : State) (a : AxNum) (j : AxJob) : State :=
  ((s.modAx a fun x => { x with waiting := x.waiting ++ [j] }).activate (Pg.ax a)).modAx a fun y =>
    { y with waiting := [], job := some j, host := false, endSt := St.ok, phaseFrom := s.axPos a }

/-- An idle axis in RUN with no command waiting, and a job of a command in flight for it. -/
structure AxReady (a : AxNum) (j : AxJob) (s : State) : Prop where
  run : s.running (Pg.ax a) = true
  moc : s.running Pg.moc = true
  idle : s.axIdle a = true
  waiting : (s.axS a).waiting = []
  live : (s.liveCmd j.q j.uid).isSome = true

section
variable {s : State} {a : AxNum} {j : AxJob}

theorem axisFrame_axTakes (s : State) (a : AxNum) (j : AxJob) : AxisFrame a s (s.axTakes a j) :=
  (((AxisFrame.refl a s).modAx _).activate).modAx _

theorem job_axTakes (s : State) (a : AxNum) (j : AxJob) : ((s.axTakes a j).axS a).job = some j := by
  rw [State.axTakes, axS_modAx_same]

theorem regs_axTakes (s : State) (a : AxNum) (j : AxJob) : (s.axTakes a j).regs = s.regs := by
  rw [(axisFrame_axTakes s a j).rest]

theorem axPos_axTakes (s : State) (a : AxNum) (j : AxJob) : (s.axTakes a j).axPos a = s.axPos a := by
  rw [State.axPos, State.axPos, State.rd, State.rd, regs_axTakes]

theorem lineSteps_axTakes (s : State) (a : AxNum) (j : AxJob) (n : Int) :
    (s.axTakes a j).lineSteps a n = (s.activate (Pg.ax a)).lineSteps a n := by
  have h : (s.axTakes a j).active = (s.activate (Pg.ax a)).active := activate_active rfl rfl rfl
  unfold State.lineSteps State.lpitch State.rdAct
  rw [h]

/-- The job stands at the axis, which is ready for it. -/
theorem axSubmit_ready (h : AxReady a j s) : ∃ u : State, s.axSubmit a j = u.axNextN a 2 ∧ u.axPos a = s.axPos a ∧
    u.atHome a = s.atHome a ∧ (u.activate (Pg.ax a)).modAx a (fun y =>
      { y with waiting := [], job := some j, host := false, endSt := St.ok, phaseFrom := s.axPos a }) = s.axTakes a j ∧ (u.axS a).waiting = [j] ∧ (u.liveCmd j.q j.uid).isNone = false ∧ u.running (Pg.ax a) = true ∧
    u.running Pg.moc = true ∧ u.axIdle a = true := by
  obtain ⟨run, moc, idle, waiting, live⟩ := h
  have hwait : ((s.modAx a fun x => { x with waiting := x.waiting ++ [j] }).axS a).waiting = [j] := by
    rw [axS_modAx_same]
    exact congrArg (· ++ [j]) waiting
  refine ⟨s.modAx a fun x => { x with waiting := x.waiting ++ [j] }, ?_, rfl, rfl, rfl, hwait, ?_, run, moc, ?_⟩
  · rw [State.axSubmit, if_neg (by simp [run]), State.axNext, hwait]
    rfl
  · exact Option.isNone_eq_false_iff.2 live
  · unfold State.axIdle
    rw [axS_modAx_same]
    exact idle

variable (h : AxReady a j s)
include h

/-- FEED on an idle axis (04 R98, 10 R255). -/
theorem axSubmit_feed {lines : Bool} {n d : Int} (hk : j.kind = .feed lines n)
    (hd : d = if lines then (s.activate (Pg.ax a)).lineSteps a n else n) (hne : BitVec.ofInt 32 d ≠ 0) :
    s.axSubmit a j = (s.axTakes a j).axMoveTo a (s.axPos a + BitVec.ofInt 32 d) := by
  obtain ⟨u, hsub, hpos, -, htakes, hwait, hlive, hrun, hmoc, hidle⟩ := axSubmit_ready h
  have hgo : s.axPos a + BitVec.ofInt 32 d ≠ s.axPos a := fun hx => hne (by simpa using hx)
  have hsteps : (if lines then (s.axTakes a j).lineSteps a n else n) = d := by rw [hd, lineSteps_axTakes]
  rw [hsub]
  unfold State.axNextN
  simp only [hwait, hlive, hrun, hmoc, hidle, hpos, htakes, Bool.false_eq_true, Bool.true_or, Bool.and_true, not_true_eq_false,
    if_false, hk, hsteps, hgo]

/-- The search of a WAIT_MEDIA on an idle axis (04 R99, 10 R256). -/
theorem axSubmit_search {limit : Nat} {off : Option Int} (hk : j.kind = .search limit off) :
    s.axSubmit a j = (s.axTakes a j).axStart a .search false := by
  obtain ⟨u, hsub, hpos, -, htakes, hwait, hlive, hrun, hmoc, hidle⟩ := axSubmit_ready h
  rw [hsub]
  unfold State.axNextN
  simp only [hwait, hlive, hrun, hmoc, hidle, hpos, htakes, Bool.false_eq_true, Bool.true_or, Bool.and_true, not_true_eq_false,
    if_false, hk]

/-- CUT on an idle axis: its stroke from home, else the search for home (04 R98, 10 R265). -/
theorem axSubmit_cut {part : Bool} (hk : j.kind = .cut part) : s.axSubmit a j =
    if s.atHome a then ((s.axTakes a j).axMoveTo a (s.axPos a + BitVec.ofNat 32
        (if part then (s.axTakes a j).act F.AXn_CUT_CUTP a.val else (s.axTakes a j).act F.AXn_CUT_CUTF a.val))).modAx a
          fun y => { y with cut := some 2 }
    else ((s.axTakes a j).axStart a .home true).modAx a fun y => { y with cut := some 1 } := by
  obtain ⟨u, hsub, hpos, hhome, htakes, hwait, hlive, hrun, hmoc, hidle⟩ := axSubmit_ready h
  have hhome' : (s.axTakes a j).atHome a = s.atHome a := by
    unfold State.atHome State.flag State.fld State.rd
    rw [regs_axTakes]
  rw [hsub]
  unfold State.axNextN
  simp only [hwait, hlive, hrun, hmoc, hidle, hpos, htakes, Bool.false_eq_true, Bool.true_or, Bool.and_true, not_true_eq_false,
    if_false, hk, hhome']

/-- What CUT makes of its axis (10 R265). -/
theorem axSubmit_cut_starts {part : Bool} (hk : j.kind = .cut part) : AxisFrame a s (s.axSubmit a j) ∧
    ((s.axSubmit a j).axS a).job = some j ∧ ((s.axSubmit a j).axS a).v = 0 ∧
    if s.atHome a then ((s.axSubmit a j).axS a).act = .move ∧ ((s.axSubmit a j).axS a).cut = some 2
    else ((s.axSubmit a j).axS a).act = .home ∧ ((s.axSubmit a j).axS a).neg = true ∧ ((s.axSubmit a j).axS a).cut = some 1 := by
  have htakes := axisFrame_axTakes s a j
  rw [axSubmit_cut h hk]
  split
  next =>
    generalize s.axPos a + _ = target
    obtain ⟨⟨hact, -, hv, hjob⟩, -⟩ := startsAx_axMoveTo (s.axTakes a j) a target
    refine ⟨(htakes.axMoveTo _).modAx _, ?_⟩
    rw [axS_modAx_same]
    exact ⟨hjob.trans (job_axTakes s a j), hv, hact, rfl⟩
  next =>
    obtain ⟨hact, hneg, hv, hjob⟩ := startsAx_axStart (s.axTakes a j) a .home true
    refine ⟨(htakes.axStart _ _).modAx _, ?_⟩
    rw [axS_modAx_same]
    exact ⟨hjob.trans (job_axTakes s a j), hv, hact, hneg, rfl⟩
end

-- the commands

section
variable (s : State) (q : QNum)
theorem exec_feed : exec (.feed q) s = whenUp s fun s => s.feed q := rfl
theorem exec_cut : exec (.cut q) s = whenUp s fun s => s.cut q := rfl
theorem exec_waitMedia : exec (.waitMedia q) s = whenUp s fun s => s.waitMedia q := rfl
theorem exec_waitMediaTimeout : exec (.waitMediaTimeout q) s = whenUp s fun s => s.waitTimeout q := rfl
theorem exec_mediaOrderSatisfied : exec (.mediaOrderSatisfied q) s = whenUp s fun s => s.mediaSatisfied q := rfl
end

section
variable {q : QNum} {s u : State} (h : IssueFrame q s u)
include h

theorem IssueFrame.axisBad (e : Entry) (p : Option Port) : u.axisBad e p = s.axisBad e p := by
  obtain ⟨⟨_, _, _, _, rfl⟩, -⟩ := issueFrame_iff.1 h
  rfl

theorem IssueFrame.mediaAx (e : Entry) (p : Option Port) : u.mediaAx e p = s.mediaAx e p := by
  obtain ⟨⟨_, _, _, _, rfl⟩, -⟩ := issueFrame_iff.1 h
  rfl

theorem IssueFrame.axS (a : AxNum) : u.axS a = s.axS a := by
  obtain ⟨⟨_, _, _, _, rfl⟩, -⟩ := issueFrame_iff.1 h
  rfl

theorem IssueFrame.axPos (a : AxNum) : u.axPos a = s.axPos a := by
  obtain ⟨⟨_, _, _, _, rfl⟩, -⟩ := issueFrame_iff.1 h
  rfl

theorem IssueFrame.atHome (a : AxNum) : u.atHome a = s.atHome a := by
  obtain ⟨⟨_, _, _, _, rfl⟩, -⟩ := issueFrame_iff.1 h
  rfl

theorem IssueFrame.lineSteps (a : AxNum) (n : Int) :
    (u.activate (Pg.ax a)).lineSteps a n = (s.activate (Pg.ax a)).lineSteps a n := by
  have hactive : (u.activate (Pg.ax a)).active = (s.activate (Pg.ax a)).active := by
    obtain ⟨⟨_, _, _, _, rfl⟩, -⟩ := issueFrame_iff.1 h
    exact activate_active rfl rfl rfl
  unfold State.lineSteps State.lpitch State.rdAct
  rw [hactive]

theorem IssueFrame.axReady {a : AxNum} {j : AxJob} (hrun : s.running (Pg.ax a) = true) (hmoc : s.running Pg.moc = true)
    (hidle : s.axIdle a = true) (hw : (s.axS a).waiting = []) (hlive : (u.liveCmd j.q j.uid).isSome = true) : AxReady a j u := by
  obtain ⟨⟨_, _, _, _, rfl⟩, -⟩ := issueFrame_iff.1 h
  exact ⟨hrun, hmoc, hidle, hw, hlive⟩
end

section
variable {s : State} {q : QNum} {op : Nat} {e : Entry} (h : s.Issues q op e)
include h

/-- A media command whose order is satisfied is in the ring, at its issue slot (04 R91). -/
theorem next_of_issues : s.nextEntry q = some e := by
  obtain ⟨-, -, hnext, -⟩ := pick_of_issuing h.2.1
  exact hnext

/-- The thread has taken the command up and waits for its outcome. -/
theorem started_waits : IssueFrame q s ((s.begin q e).1.waitFor q s.nextUid) ∧
    (((s.begin q e).1.waitFor q s.nextUid).q q).cmds = [s.taken q e] ∧
    (((s.begin q e).1.waitFor q s.nextUid).thr q).wait = .outcome s.nextUid ∧
    (((s.begin q e).1.waitFor q s.nextUid).liveCmd q s.nextUid).isSome = true := by
  obtain ⟨frame, -, cmds, -⟩ := started_begin h
  refine ⟨frame.modThr _, cmds, by rw [thr_waitFor], ?_⟩
  rw [State.liveCmd, q_waitFor, cmds]
  simp [State.taken]
end

section
variable {s : State} {q : QNum} {e : Entry} {cmd : Instr}

theorem exec_media_feed (h : s.Issues q 0x20 e) (hc : cmd = .feed q ∨ cmd = .mediaOrderSatisfied q) :
    ∃ f, exec cmd s = whenUp s f ∧ f s = s.feed q := by
  obtain rfl | rfl := hc
  · exact ⟨_, exec_feed s q, rfl⟩
  · refine ⟨_, exec_mediaOrderSatisfied s q, ?_⟩
    simp [State.mediaSatisfied, next_of_issues h, Entry.mediaOrdered, opc_of_issues h]

theorem exec_media_cut (h : s.Issues q 0x21 e) (hc : cmd = .cut q ∨ cmd = .mediaOrderSatisfied q) :
    ∃ f, exec cmd s = whenUp s f ∧ f s = s.cut q := by
  obtain rfl | rfl := hc
  · exact ⟨_, exec_cut s q, rfl⟩
  · refine ⟨_, exec_mediaOrderSatisfied s q, ?_⟩
    simp [State.mediaSatisfied, next_of_issues h, Entry.mediaOrdered, opc_of_issues h]

theorem exec_media_wait (h : s.Issues q 0x22 e) (hc : cmd = .waitMedia q ∨ cmd = .mediaOrderSatisfied q) :
    ∃ f, exec cmd s = whenUp s f ∧ f s = s.waitMedia q := by
  obtain rfl | rfl := hc
  · exact ⟨_, exec_waitMedia s q, rfl⟩
  · refine ⟨_, exec_mediaOrderSatisfied s q, ?_⟩
    simp [State.mediaSatisfied, next_of_issues h, Entry.mediaOrdered, opc_of_issues h]

variable {a : AxNum}

theorem feed_submits (h : s.Issues q 0x20 e) (hport : e.flags % 2 = 0 → (s.qPort q).isSome = true)
    (hbad : s.axisBad e (s.qPort q) = none) (hax : s.mediaAx e (s.qPort q) = some a) (hmet : s.needsMet q e = true)
    (hw : e.w1 ≠ 0) : s.feed q = ((s.begin q e).1.waitFor q s.nextUid).axSubmit a
      ⟨q, s.nextUid, s.qPort q, .feed (e.flags % 2 == 0) e.w1.toInt⟩ := by
  obtain ⟨frame, -⟩ := started_begin h
  have hdist : e.w1.toInt ≠ 0 := fun hx => hw (BitVec.toInt_inj.1 (by simpa using hx))
  have hbound : ¬ ((e.flags % 2 == 0) = true ∧ (s.qPort q).isNone = true) := fun hx => by
    have := hport (by simpa using hx.1)
    simp [Option.isNone_iff_eq_none.1 hx.2] at this
  rw [State.feed, issueCmd_begin h rfl (fun hp => by cases hp), State.feedCmd]
  simp only [frame.qPort, frame.axisBad, frame.mediaAx, hbound, hbad, hax, if_false, State.ifMet, frame.needsMet, hmet, if_true, hdist]
  rfl

theorem cut_submits (h : s.Issues q 0x21 e)
    (hbad : s.axisBad e (s.qPort q) = none) (hax : s.mediaAx e (s.qPort q) = some a) (hmet : s.needsMet q e = true) :
    s.cut q = ((s.begin q e).1.waitFor q s.nextUid).axSubmit a ⟨q, s.nextUid, s.qPort q, .cut (e.flags % 2 == 1)⟩ := by
  obtain ⟨frame, -⟩ := started_begin h
  rw [State.cut, issueCmd_begin h rfl (fun hp => by cases hp), State.cutCmd]
  simp only [frame.qPort, frame.axisBad, frame.mediaAx, hbad, hax, State.ifMet, frame.needsMet, hmet, if_true]
  rfl

/-- FEED and CUT need their axis and MOC (03 R516). -/
theorem running_of_needsMet (hop : e.opc = 0x20 ∨ e.opc = 0x21) (hax : s.mediaAx e (s.qPort q) = some a)
    (hmet : s.needsMet q e = true) : s.running (Pg.ax a) = true ∧ s.running Pg.moc = true := by
  have hneeds : s.needs e (s.qPort q) = [Pg.ax a, Pg.moc] := by
    obtain ho | ho := hop <;> simp [State.needs, ho, hax]
  simp only [State.needsMet, State.needsAll, hneeds, List.all_cons, List.all_nil, Bool.and_true, Bool.and_eq_true] at hmet
  exact hmet.2.2
end

section
variable {s v t : State} {q : QNum} {a : AxNum} (h : AxisFrame a v t)
include h
theorem AxisFrame.pending : t.pending = v.pending := (congrArg State.pending h.rest :)
theorem AxisFrame.chip : t.chip = v.chip := (congrArg State.chip h.rest :)
theorem AxisFrame.mem : t.mem = v.mem := (congrArg State.mem h.rest :)
theorem AxisFrame.regs : t.regs = v.regs := (congrArg State.regs h.rest :)
theorem AxisFrame.med : t.med = v.med := (congrArg State.med h.rest :)

theorem AxisFrame.queue (o : QNum) : t.q o = v.q o := by
  rw [h.rest]
  rfl

theorem AxisFrame.thread (o : QNum) : t.thr o = v.thr o := by
  rw [h.rest]
  rfl

/-- A job given to an axis by a command under way: memory, registers and the other axes stay. -/
theorem kept_of_issue (hf : IssueFrame q s v) : SameMem s t ∧ t.regs = s.regs ∧ ∀ b, b ≠ a → t.axS b = s.axS b := by
  obtain ⟨hmem, hregs, -⟩ := issueFrame_keeps hf
  exact ⟨sameMem_of_mem (h.mem.trans hmem), h.regs.trans hregs, fun b hb => (h.others b hb).trans (hf.axS b)⟩
end

end Sys2Proof.Machine

open Sys2Proof Sys2Proof.Machine

/-- Settles O29: the command reaches its idle axis, which takes the job and starts. -/
theorem feedAndCutStart : Obligations.FeedAndCutStart := by
  unfold Obligations.FeedAndCutStart
  intro s q e a cmd hbad hax hmet hidle hw
  refine ⟨fun d hd hport hw1 hne h hc => ?_, fun h hc => ?_⟩
  · obtain ⟨f, hexec, hf⟩ := exec_media_feed h hc
    obtain ⟨hrun, hmoc⟩ := running_of_needsMet (.inl (opc_of_issues h)) hax hmet
    obtain ⟨hframe, hcmds, hwait, hlive⟩ := started_waits h
    have hsub := feed_submits h hport hbad hax hmet hw1
    generalize (s.begin q e).1.waitFor q s.nextUid = v at hframe hcmds hwait hlive hsub
    have hd' : d = if (e.flags % 2 == 0) = true then (v.activate (Pg.ax a)).lineSteps a e.w1.toInt else e.w1.toInt := by
      rw [hd, hframe.lineSteps]
      simp only [beq_iff_eq]
    obtain ⟨j, hj⟩ : ∃ j : AxJob, j = ⟨q, s.nextUid, s.qPort q, .feed (e.flags % 2 == 0) e.w1.toInt⟩ := ⟨_, rfl⟩
    rw [← hj, axSubmit_feed (j := j) (hframe.axReady hrun hmoc hidle hw (by rwa [hj])) (by rw [hj]) hd' hne] at hsub
    obtain ⟨⟨hact, -, hv, hjob⟩, htarget⟩ := startsAx_axMoveTo (v.axTakes a j) a (v.axPos a + BitVec.ofInt 32 d)
    have haxis := (axisFrame_axTakes v a j).axMoveTo (v.axPos a + BitVec.ofInt 32 d)
    obtain ⟨hmem, hregs, hothers⟩ := kept_of_issue haxis hframe
    exact gives_of_outer hexec h.1 (hf.trans hsub) (haxis.pending.trans hframe.pending) (haxis.chip.trans hframe.chip)
      ⟨hmem, hregs, by rw [haxis.thread, hwait], by rw [haxis.queue, hcmds], hact, hv,
        by rw [htarget, hframe.axPos], by rw [hjob, job_axTakes, hj], hothers⟩
  · obtain ⟨f, hexec, hf⟩ := exec_media_cut h hc
    obtain ⟨hrun, hmoc⟩ := running_of_needsMet (.inr (opc_of_issues h)) hax hmet
    obtain ⟨hframe, hcmds, hwait, hlive⟩ := started_waits h
    have hsub := cut_submits h hbad hax hmet
    generalize (s.begin q e).1.waitFor q s.nextUid = v at hframe hcmds hwait hlive hsub
    obtain ⟨j, hj⟩ : ∃ j : AxJob, j = ⟨q, s.nextUid, s.qPort q, .cut (e.flags % 2 == 1)⟩ := ⟨_, rfl⟩
    rw [← hj] at hsub
    obtain ⟨haxis, hjob, hv, hphase⟩ := axSubmit_cut_starts (j := j) (hframe.axReady hrun hmoc hidle hw (by rwa [hj])) (by rw [hj])
    obtain ⟨hmem, hregs, hothers⟩ := kept_of_issue haxis hframe
    exact gives_of_outer hexec h.1 (hf.trans hsub) (haxis.pending.trans hframe.pending) (haxis.chip.trans hframe.chip)
      ⟨hmem, hregs, by rw [haxis.thread, hwait], by rw [haxis.queue, hcmds], by rw [hjob, hj], hv,
        by rwa [hframe.atHome] at hphase, hothers⟩

end

section
/-! SUPPORT. WAIT_MEDIA (04 R99, 10 R256); what that says of O30. -/

namespace Sys2Proof.Machine

/-- A wait of WAIT_MEDIA joins those of MED. -/
def State.addWait (s : State) (w : MediaWait) : State := s.modWaits fun l => l ++ [w]

section
variable {q : QNum} {s u : State} (h : IssueFrame q s u)
include h

theorem IssueFrame.waitBad (e : Entry) (p : Port) : u.waitBad e p = s.waitBad e p := by
  obtain ⟨⟨_, _, _, _, rfl⟩, -⟩ := issueFrame_iff.1 h
  rfl

theorem IssueFrame.mediaHolds (p : Port) (ev : Nat) : u.mediaHolds p ev = s.mediaHolds p ev := by
  obtain ⟨⟨_, _, _, _, rfl⟩, -⟩ := issueFrame_iff.1 h
  rfl

theorem IssueFrame.feedAx (p : Port) : u.feedAx p = s.feedAx p := by
  obtain ⟨⟨_, _, _, _, rfl⟩, -⟩ := issueFrame_iff.1 h
  rfl

theorem IssueFrame.med : u.med = s.med := (congrArg State.med h.1 :)

theorem IssueFrame.addWait (w : MediaWait) : IssueFrame q (s.addWait w) (u.addWait w) :=
  h.map (F := fun s => s.addWait w) (fun _ _ _ _ => rfl) (fun _ => rfl) fun _ => rfl
end

section
variable {s : State} {q : QNum} {e : Entry} {p : Port} {uid : Nat}

theorem waitStart_holds (hh : s.mediaHolds p (e.sp % 16) = true) : s.waitStart q uid e p = s.finish q uid St.ok := by
  rw [State.waitStart, if_pos hh]

theorem waitStart_waits (hh : s.mediaHolds p (e.sp % 16) = false) (hfeed : e.flags % 2 = 0) :
    s.waitStart q uid e p = s.addWait (MediaWait.mk q uid p (e.sp % 16) none
      (if e.w1 = 0 then none else some (s.time + BitVec.ofNat 64 (e.w1.toNat * 100000)))) := by
  have hzero : e.w1.toNat = 0 ↔ e.w1 = 0 := by simp [← BitVec.toNat_inj]
  simp only [State.waitStart, hh, hfeed, hzero, State.addWait, Bool.false_eq_true, if_false, msTicks]
  rfl

theorem waitStart_searches {a : AxNum} (hh : s.mediaHolds p (e.sp % 16) = false) (hfeed : e.flags % 2 = 1)
    (hax : s.feedAx p = some a) : ∃ off, s.waitStart q uid e p =
      (s.addWait (MediaWait.mk q uid p (e.sp % 16) (some a) none)).axSubmit a ⟨q, uid, some p, .search e.w1.toNat off⟩ := by
  refine ⟨if e.flags / 2 % 2 = 1 then some e.w2.toInt else none, ?_⟩
  simp only [State.waitStart, hh, hfeed, hax, Bool.false_eq_true, if_false, if_true]
  rfl

theorem waitMedia_starts (h : s.Issues q 0x22 e) (hp : s.qPort q = some p) (hbad : s.waitBad e p = false)
    (hmet : s.needsMet q e = true) : s.waitMedia q = ((s.begin q e).1.waitFor q s.nextUid).waitStart q s.nextUid e p := by
  obtain ⟨frame, -⟩ := started_begin h
  rw [State.waitMedia, issueCmd_begin h rfl (fun _ => by rw [hp]; rfl), State.waitMediaCmd]
  simp only [frame.qPort, hp, frame.waitBad, hbad, State.ifMet, frame.needsMet, hmet, Bool.false_eq_true, if_false, if_true]
  rfl

/-- A WAIT_MEDIA that feeds needs the feed axis and MOC (03 R516). -/
theorem running_of_waitMet {a : AxNum} (hop : e.opc = 0x22) (hp : s.qPort q = some p) (hax : s.feedAx p = some a)
    (hfeed : e.flags % 2 = 1) (hmet : s.needsMet q e = true) : s.running (Pg.ax a) = true ∧ s.running Pg.moc = true := by
  have hneeds : s.needs e (s.qPort q) = [Pg.med, Pg.ax a, Pg.moc] := by simp [State.needs, hop, hp, hax, hfeed]
  simp only [State.needsMet, State.needsAll, hneeds, List.all_cons, List.all_nil, Bool.and_true, Bool.and_eq_true] at hmet
  exact hmet.2.2.2

/-- The one wait that is due is given up (04 R99). -/
theorem waitTimeout_due {w : MediaWait} {d : BitVec 64} (hw : s.med.waits = [w]) (hq : w.q = q) (hd : w.due = some d)
    (hdue : d.toNat ≤ s.time.toNat) : s.waitTimeout q = (s.modWaits fun _ => []).finish q w.uid St.mediaTimeout := by
  unfold State.waitTimeout
  simp only [hw, List.find?_cons, hq, hd, hdue, beq_self_eq_true, decide_true, Bool.and_self]
  simp [State.modWaits, hw]
end

end Sys2Proof.Machine

open Sys2Proof Sys2Proof.Machine

/-- Settles O30: media order is satisfied, and the wait starts, or is met; a wait that is due is given up. -/
theorem waitMediaWaits : Obligations.WaitMediaWaits := by
  unfold Obligations.WaitMediaWaits
  intro s q e p cmd hp
  refine ⟨fun h hbad hmet hc => ?_, fun c w d hup hholds hwaits hq hu hd hdue hwait => ?_⟩
  · obtain ⟨f, hexec, hf⟩ := exec_media_wait h hc
    obtain ⟨frame, queue, cmds, conts, -, -, levels, -⟩ := started_begin h
    obtain ⟨hframe, hcmds, hwait, hlive⟩ := started_waits h
    have hstart := waitMedia_starts h hp hbad hmet
    have hqueue : ((s.begin q e).1.waitFor q s.nextUid).q q =
        { s.q q with next := (s.q q).next + 1, cmds := [s.taken q e] } := by
      rw [q_waitFor, queue, show (s.taken q e).slots = 1 from slots_of_issues h (by decide)]
      rfl
    have hlevels : (((s.begin q e).1.waitFor q s.nextUid).thr q).levels = [] := by rw [thr_waitFor]; exact levels
    generalize (s.begin q e).1.waitFor q s.nextUid = v at hframe hcmds hwait hlive hstart hqueue hlevels
    refine ⟨fun hh => ?_, fun hh hfeed => ?_, fun a hh hfeed hax hidle hw => ?_⟩
    · rw [waitStart_holds (by rw [hframe.mediaHolds, hh])] at hstart
      refine (gives_ends (c := s.taken q e) hexec h.1 (hf.trans hstart) hframe rfl rfl hcmds (by rw [hqueue]; exact h.2.2.2.2) rfl
        (by rw [show (s.taken q e).e = e from rfl, opc_of_issues h]; decide) hlevels (st := St.ok) rfl).mono
        fun t ⟨hfr, hthr, htq⟩ => ⟨hfr, ?_, by rw [htq, hqueue]⟩
      rw [hthr, hwait]
      exact if_pos rfl
    · rw [waitStart_waits (by rw [hframe.mediaHolds, hh]) hfeed, hframe.time] at hstart
      exact gives_of_frame hexec h.1 (hf.trans hstart) (hframe.addWait _) rfl rfl ⟨hframe.addWait _, hwait, hqueue⟩
    · obtain ⟨hrun, hmoc⟩ := running_of_waitMet (opc_of_issues h) hp hax hfeed hmet
      obtain ⟨off, hsearch⟩ := waitStart_searches (s := v) (q := q) (uid := s.nextUid) (e := e) (p := p)
        (by rw [hframe.mediaHolds, hh]) hfeed (by rw [hframe.feedAx, hax])
      rw [hsearch] at hstart
      obtain ⟨w, hw'⟩ : ∃ w : MediaWait, w = MediaWait.mk q s.nextUid p (e.sp % 16) (some a) none := ⟨_, rfl⟩
      obtain ⟨j, hj⟩ : ∃ j : AxJob, j = ⟨q, s.nextUid, some p, .search e.w1.toNat off⟩ := ⟨_, rfl⟩
      have hadd := hframe.addWait w
      rw [← hw', ← hj, axSubmit_search (j := j) (hadd.axReady hrun hmoc hidle hw (by rw [hj]; exact hlive)) (by rw [hj])] at hstart
      obtain ⟨hact, hneg, hv, hjob⟩ := startsAx_axStart ((v.addWait w).axTakes a j) a .search false
      have haxis := (axisFrame_axTakes (v.addWait w) a j).axStart .search false
      obtain ⟨hmem, hregs, hothers⟩ := kept_of_issue haxis hadd
      refine gives_of_outer hexec h.1 (hf.trans hstart) (haxis.pending.trans hadd.pending) (haxis.chip.trans hadd.chip)
        ⟨hmem, hregs, by rw [haxis.thread]; exact hwait, by rw [haxis.queue]; exact hcmds, ?_, hact, hneg, hv,
          by rw [hjob, job_axTakes, hj]; rfl, hothers⟩
      rw [haxis.med, hadd.med, hw']
      rfl
  · obtain ⟨hcmds, hconts, hmode, ho, hparent, -, ⟨hprint, -⟩, hlevels⟩ := hholds
    have hafter : (s.thr q).wait.after c.uid = .none := by
      rw [hwait]
      exact if_pos rfl
    have hend := outcomeOf_halt (s := s.modWaits fun _ => []) (st := St.mediaTimeout) hcmds hconts ho hprint hparent hlevels
      hafter hmode rfl
    obtain ⟨hframe, hqueue, -, hthr⟩ := hend
    refine gives_of_outer (exec_waitMediaTimeout s q) hup (waitTimeout_due hwaits hq hd hdue) ?_ ?_ ?_
    all_goals rw [hu]
    · exact hframe.pending
    · exact hframe.chip
    · exact ⟨sameMem_of_mem hframe.mem, hframe.regs, hframe.med, by rw [hthr]; exact hafter, hqueue⟩

end

section
/-! SUPPORT. Entries of lists in flash, and the trap list (04 R116 to R119, 14 R347 to R352); what that says of O35. -/

namespace Sys2Proof.Machine

-- demand reads

/-- No word of flash has an error, no bank has failed, no operation runs, and nothing is undefined. -/
structure FlashClean (s : State) : Prop where
  bank0 : s.bankFailed 0 = false
  bank1 : s.bankFailed 1 = false
  ecc : s.flc.ecc = []
  undef : s.flc.undef = []
  op : s.flc.op = none

/-- `t` is `s` with another state of FLC, whose cells read as before. -/
def FlashFrame (s t : State) : Prop := ∃ f : FlcSt, t = { s with flc := f } ∧ f.op = s.flc.op ∧ f.undef = s.flc.undef

theorem not_resetting {s : State} {pg : PageIx} (h : s.running pg = true) : ¬ (s.page pg).st = .resetting := by
  intro hx
  simp [State.running, hx] at h

section
variable {s : State} (h : FlashClean s)
include h

theorem bankFailed_clean (b : Nat) : s.bankFailed b = false := by
  match b with
  | 0 => exact h.bank0
  | 1 => exact h.bank1
  | b + 2 => simp [State.bankFailed]

theorem spoiled_clean (a : Nat) : s.spoiled a = none := by simp [State.spoiled, h.op, h.undef]

theorem eccAt_clean (a : Nat) : s.eccAt a = 0 := by
  simp [State.eccAt, bankFailed_clean h, spoiled_clean h, h.ecc, sget]

theorem arrayLine_clean (a : Nat) : s.arrayLine a = (s, 0) := by
  simp [State.arrayLine, List.range_succ, eccAt_clean h]

/-- A demand read of a line that no buffer holds, from a bank that is free (14 R347, R348). -/
theorem flashRead_clean (hrun : s.running Pg.flc = true) (hbuf : s.flc.bufs[(0 : Fin 3)] = []) (a : Nat) :
    ∃ t, s.flashRead .seq a = (t, .data 0) ∧ FlashFrame s t := by
  have hst : ¬ (s.page Pg.flc).st = .resetting := not_resetting hrun
  have hbusy : s.bankBusy (flashBank a) = false := by simp [State.bankBusy, h.op]
  unfold State.flashRead
  dsimp only
  rw [if_neg hst, if_neg (by simp [hbusy])]
  split
  next l hfind =>
    simp [flashIx, hbuf] at hfind
  next =>
    rw [arrayLine_clean]
    · exact ⟨_, rfl, _, rfl, by simp [h.op], rfl⟩
    · exact ⟨h.bank0, h.bank1, h.ecc, h.undef, by simp [h.op]⟩
end

/-- A demand read from a bank that runs an operation asks for a suspend (14 R351, R352). -/
theorem flashRead_busy {s : State} {o : FlcOp} (hst : (s.page Pg.flc).st ≠ .resetting) (hop : s.flc.op = some o)
    (hs : o.suspSince = none) {a : Nat} (hb : o.bank = flashBank a) (cls : FlashClass) :
    s.flashRead cls a = ({ s with flc := { s.flc with op := some { o with spend := true } } }, .subst) := by
  have hbusy : s.bankBusy (flashBank a) = true := by simp [State.bankBusy, hop, hs, hb]
  simp [State.flashRead, hst, hbusy, hop]

-- the entry that a line brings

section
variable {s t : State}

theorem flashEntry_frame (h : FlashFrame s t) (a : Nat) : t.flashEntry a = s.flashEntry a := by
  obtain ⟨f, rfl, hop, hundef⟩ := h
  have hcell : ∀ a, State.cell { s with flc := f } a = s.cell a := fun a => by
    simp [State.cell, State.spoiled, State.otpCell, hop, hundef]
    rfl
  have hcells : ∀ n a, State.cells { s with flc := f } a n = s.cells a n := fun n => by
    induction n with
    | zero => exact fun _ => rfl
    | succ n ih => exact fun a => by rw [State.cells, State.cells, hcell, ih]
  simp only [State.flashEntry, hcells]

/-- Thread `q` has got the entry of its list at which it stands. -/
structure GotEntry (q : QNum) (s t : State) : Prop where
  mem : t.mem = s.mem
  regs : t.regs = s.regs
  queues : t.queues = s.queues
  pending : t.pending = s.pending
  chip : t.chip = s.chip
  thr : t.thr q = { s.thr q with fetched := some (s.listPc q, s.flashEntry (s.listPc q)), retry := none, jumped := false }
  others : ∀ o, o ≠ q → t.thr o = s.thr o

/-- The line of the next entry of a list has come without an uncorrectable word (04 R116, R117). -/
theorem gotEntry_fetchGot (q : QNum) (s : State) : GotEntry q s (s.fetchGot q 0) := by
  unfold State.fetchGot
  dsimp only
  rw [if_neg (by simp)]
  generalize hu : s.modThr q _ = u
  have hgot : GotEntry q s u := by
    subst hu
    exact ⟨rfl, rfl, rfl, rfl, rfl, thr_modThr_same s q _, fun o ho => thr_modThr_ne s _ ho⟩
  split
  · exact ⟨hgot.mem, hgot.regs, hgot.queues, hgot.pending, hgot.chip, hgot.thr, hgot.others⟩
  · exact hgot

theorem GotEntry.of_flash {q : QNum} {u : State} (h : FlashFrame s u) (h' : GotEntry q u t) : GotEntry q s t := by
  have hentry := flashEntry_frame h
  obtain ⟨f, rfl, -⟩ := h
  exact ⟨h'.mem, h'.regs, h'.queues, h'.pending, h'.chip, h'.thr.trans (by rw [hentry]; rfl), h'.others⟩
end

-- the commands

section
variable (s : State) (q : QNum)
theorem exec_btcInvalidate : exec .btcInvalidate s = whenPage Pg.seq s fun s => s.btcEmpty := rfl
theorem exec_listEntryFetch : exec (.listEntryFetch q) s = whenUp s fun s => s.listFetch q := rfl
theorem exec_seqFlashRetry : exec (.seqFlashRetry q) s = whenUp s fun s => s.seqFlashRetry q := rfl
theorem exec_trapListStart : exec (.trapListStart q) s = whenUp s fun s => s.trapStart q := rfl
end

section
variable {s u : State} {q : QNum}

theorem listFetch_data (hwants : s.wantsFetch q = true) (hretry : (s.thr q).retry = none)
    (hread : s.flashRead .seq (s.listPc q) = (u, .data 0)) : s.listFetch q = u.fetchGot q 0 := by
  simp only [State.listFetch, hwants, hretry, hread, if_true, Option.isSome_none, Bool.false_eq_true, if_false]

theorem listFetch_subst (hwants : s.wantsFetch q = true) (hretry : (s.thr q).retry = none)
    (hread : s.flashRead .seq (s.listPc q) = (u, .subst)) :
    s.listFetch q = u.modThr q fun t => { t with retry := some ⟨s.listPc q, 1⟩ } := by
  simp only [State.listFetch, hwants, hretry, hread, if_true, Option.isSome_none, Bool.false_eq_true, if_false]

theorem seqFlashRetry_data {r : Retry} (hretry : (s.thr q).retry = some r) (hrun : s.running Pg.seq = true)
    (hread : (s.count R.SEQ_FLRETRY).flashRead .seq r.addr = (u, .data 0)) : s.seqFlashRetry q = u.fetchGot q 0 := by
  simp only [State.seqFlashRetry, hretry, hrun, hread, not_true_eq_false, if_false]

theorem seqFlashRetry_subst {r : Retry} (hretry : (s.thr q).retry = some r) (hrun : s.running Pg.seq = true)
    (hread : (s.count R.SEQ_FLRETRY).flashRead .seq r.addr = (u, .subst)) (hn : r.count + 1 < 1024) :
    s.seqFlashRetry q = u.modThr q fun t => { t with retry := some ⟨r.addr, r.count + 1⟩ } := by
  simp only [State.seqFlashRetry, hretry, hrun, hread, not_true_eq_false, if_false, Nat.not_le.2 hn]

theorem flashClean_count (h : FlashClean s) : FlashClean (s.count R.SEQ_FLRETRY) := by
  have hbank (b : Nat) : (s.count R.SEQ_FLRETRY).bankFailed b = s.bankFailed b := by
    have h0 : (s.count R.SEQ_FLRETRY).rd F.LCS_CASTON_FLB0.reg = s.rd F.LCS_CASTON_FLB0.reg := rd_wr_ne s _ (by decide)
    have h1 : (s.count R.SEQ_FLRETRY).rd F.LCS_CASTON_FLB1.reg = s.rd F.LCS_CASTON_FLB1.reg := rd_wr_ne s _ (by decide)
    simp only [State.bankFailed, State.flag, State.fld, h0, h1]
  exact ⟨(hbank 0).trans h.bank0, (hbank 1).trans h.bank1, h.ecc, h.undef, h.op⟩

/-- A trap list starts at its base (04 R119). -/
theorem trapStart_due (hpick : s.seqPick = some q) (hdue : (s.thr q).trapDue = true) :
    s.trapStart q = (s.tookSlot q).modThr q fun t => { t with trapDue := false, fresh := false
                                                              trap := some { pc := s.fld F.SEQ_Tn_TRAP_BASE q.val * 16 }
                                                              fetched := none, retry := none, jumped := false } := by
  rw [State.trapStart, if_neg (by simp [hpick, hdue])]
end

end Sys2Proof.Machine
open Sys2Proof Sys2Proof.Machine

/-- Settles O35: a free bank brings the entry at once or at a retry, a busy one only the next retry. -/
theorem listEntriesComeFromFlash : Obligations.ListEntriesComeFromFlash := by
  unfold Obligations.ListEntriesComeFromFlash
  intro s q
  refine ⟨fun h => ?_, fun hup hflc h0 h1 hecc hundef hbuf => ⟨fun hwants hretry hop => ?_, fun o hop hsusp hbank hseq =>
    ⟨fun hwants hretry => ?_, fun n hretry hn => ?_⟩, fun n hop hseq hretry hflash => ?_⟩, fun hup hpick hdue => ?_⟩
  · rw [exec_btcInvalidate, whenPage_open h]
    rfl
  · obtain ⟨u, hread, hu⟩ := flashRead_clean ⟨h0, h1, hecc, hundef, hop⟩ hflc hbuf (s.listPc q)
    obtain ⟨hmem, hregs, hqueues, hpending, hchip, hthr, hothers⟩ := (gotEntry_fetchGot q u).of_flash hu
    exact gives_of_outer (exec_listEntryFetch s q) hup (listFetch_data hwants hretry hread) hpending hchip
      ⟨sameMem_of_mem hmem, hregs, by rw [State.q, hqueues, State.q], hthr, hothers⟩
  · rw [exec_listEntryFetch, whenUp_up hup, listFetch_subst hwants hretry (flashRead_busy (not_resetting hflc) hop hsusp hbank .seq)]
    rfl
  · rw [exec_seqFlashRetry, whenUp_up hup, seqFlashRetry_subst hretry hseq
      (flashRead_busy (s := s.count R.SEQ_FLRETRY) (not_resetting hflc) hop hsusp hbank .seq) hn]
    rfl
  · obtain ⟨u, hread, hu⟩ := flashRead_clean (flashClean_count ⟨h0, h1, hecc, hundef, hop⟩) hflc hbuf (s.listPc q)
    obtain ⟨hmem, hregs, hqueues, hpending, hchip, hthr, -⟩ := (gotEntry_fetchGot q u).of_flash hu
    exact gives_of_outer (exec_seqFlashRetry s q) hup (seqFlashRetry_data hretry hseq hread) hpending hchip
      ⟨sameMem_of_mem hmem, hregs, by rw [hthr]; rfl, by rw [hthr]⟩
  · obtain ⟨⟨hturn, hothers⟩, hthr⟩ := tookSlot_frame s q
    refine gives_of_outer (exec_trapListStart s q) hup (trapStart_due hpick hdue) ?_ ?_ ⟨?_, ?_, ?_, ?_, ?_, fun o ho => ?_⟩
    · exact (congrArg State.pending hturn :)
    · exact (congrArg State.chip hturn :)
    · exact sameMem_of_mem (congrArg State.mem hturn :)
    · exact (congrArg State.regs hturn :)
    · exact (congrArg State.queues hturn :)
    · exact (congrArg State.pages hturn :)
    · rw [thr_modThr_same, hthr]
    · rw [thr_modThr_ne _ _ ho]
      exact hothers o ho

end

section
/-! SUPPORT. RND between its steps: what it takes up, the bands that SKN grants, aging, and retries (05 R129 to R131, R145); what
O36 says of them. -/

namespace Sys2Proof.Machine

-- what RND takes up

/-- `s` with another port drawn and another last turn of RND. -/
def State.turned (s : State) (c l : Option Port) : State := { s with rnd := { s.rnd with last := l, cur := c } }

/-- RND takes up nothing: it draws, or no composition step may start; and no PRINT may ask for its bands. -/
structure NoStart (s : State) : Prop where
  take : (∃ o, s.rnd.cur = some o ∧ s.drawable o = true) ∨ ∀ o, s.startable o = false
  print : ∀ o y l, s.steps o = y :: l → y.e.opc = 0x15 → y.granted = true ∨ s.skn.waits.any (fun w => w.port == o) = true

theorem rndTake_turned {s : State} (h : ∀ o, s.startable o = false) (n : Nat) : ∃ c l, s.rndTake n = s.turned c l := by
  have hall : ∀ c l, ∃ c' l', (s.turned c l).rndTake n = s.turned c' l' := by
    induction n with
    | zero => exact fun c l => ⟨c, l, rfl⟩
    | succ n ih =>
      intro c l
      rw [State.rndTake]
      split
      · exact ⟨c, l, rfl⟩
      split
      · exact ⟨c, l, rfl⟩
      next p hp =>
        have hdraw : (s.turned c l).drawable p = true := by
          have hor := List.find?_some hp
          rw [Bool.or_eq_true] at hor
          exact hor.resolve_right fun hx => Bool.noConfusion ((h p).symm.trans hx)
        simp only [hdraw, if_true]
        exact ih (some p) (some p)
  exact hall s.rnd.cur s.rnd.last

theorem rndGo_turned {s : State} (h : NoStart s) : ∃ c l, s.rndGo = s.turned c l := by
  have htake : ∀ n, ∃ c l, s.rndTake n = s.turned c l := fun n => by
    rcases h.take with ⟨o, hc, hd⟩ | hnone
    · exact ⟨s.rnd.cur, s.rnd.last, rndTake_drawing hc hd n⟩
    · exact rndTake_turned hnone n
  obtain ⟨c, l, ht⟩ := htake ((List.finRange 4).foldl (fun n p => n + (s.steps p).length) 4)
  refine ⟨c, l, ?_⟩
  rw [State.rndGo]
  rw [ht]
  exact foldl_startPrint_id (s := s.turned c l) h.print _

/-- RND that draws, or has nothing to draw, stays as it is. -/
theorem rndGo_still {s : State} (h : NoStart s)
    (hcur : (∃ o, s.rnd.cur = some o ∧ s.drawable o = true) ∨ ∀ o, s.drawable o = false ∧ s.startable o = false) :
    s.rndGo = s := by
  have htake : ∀ n, s.rndTake n = s := fun n => by
    rcases hcur with ⟨o, hc, hd⟩ | hnone
    · exact rndTake_drawing hc hd n
    · cases n with
      | zero => rfl
      | succ n =>
        have hfind : s.rndOrder.find? (fun p => s.drawable p || s.startable p) = none := by
          rw [List.find?_eq_none]
          exact fun p _ => by simp [hnone p]
        have hany : s.rnd.cur.any s.drawable = false := by
          cases s.rnd.cur with
          | none => rfl
          | some o => exact (hnone o).1
        rw [State.rndTake, hany, if_neg (by decide), hfind]
  rw [State.rndGo]
  rw [htake]
  exact foldl_startPrint_id h.print _

theorem startable_empty {s : State} {p : Port} (h : s.steps p = []) : s.startable p = false := by
  simp [State.startable, State.frontIs, h]

theorem drawable_empty {s : State} {p : Port} (h : s.steps p = []) : s.drawable p = false := by
  simp [State.drawable, State.frontIs, h]

theorem startable_granted {s : State} {p : Port} {x : Step} {l : List Step} (h : s.steps p = x :: l) (hg : x.granted = true) :
    s.startable p = false := by
  simp [State.startable, State.frontIs, h, hg]

/-- With a granted step at the front of the one port whose steps changed, nothing starts. -/
theorem noStart_of_still {s t : State} {p : Port} {y : Step} {l : List Step} (h : s.RndStill p)
    (hsteps : ∀ o, o ≠ p → t.steps o = s.steps o) (hp : t.steps p = y :: l) (hg : y.granted = true)
    (hwaits : ∀ o, o ≠ p → t.skn.waits.any (fun w => w.port == o) = s.skn.waits.any (fun w => w.port == o))
    (hcur : t.rnd.cur = s.rnd.cur) (hdraw : ∀ o, o ≠ p → s.drawable o = true → t.drawable o = true) : NoStart t := by
  rcases h with hempty | ⟨⟨o, ho, hc, hd⟩, hprint⟩
  · refine ⟨.inr fun o => ?_, fun o y' l' hs _ => ?_⟩
    · by_cases ho : o = p
      · exact ho ▸ startable_granted hp hg
      · exact startable_empty ((hsteps o ho).trans (hempty o ho))
    · by_cases ho : o = p
      · rw [ho, hp] at hs
        cases hs
        exact .inl hg
      · rw [hsteps o ho, hempty o ho] at hs
        cases hs
  · refine ⟨.inl ⟨o, hcur.trans hc, hdraw o ho hd⟩, fun o' y' l' hs hop => ?_⟩
    by_cases ho' : o' = p
    · rw [ho', hp] at hs
      cases hs
      exact .inl hg
    · rw [hsteps o' ho'] at hs
      rw [hwaits o' ho']
      exact hprint o' y' l' ho' hs hop

-- the bands that a step gets

section
variable (s : State) (p : Port)

theorem freeRes_sorted : (s.freeRes p).Pairwise (· < ·) := (List.sortedLT_finRange 128).pairwise.filter _

theorem freePool_sorted : s.freePool.Pairwise (· < ·) := (List.sortedLT_finRange 128).pairwise.filter _

/-- Reserved bands come before the pool (05 R126, R129). -/
theorem resPool_sorted : (s.freeRes p ++ s.freePool).Pairwise (· < ·) := by
  refine List.pairwise_append.2 ⟨freeRes_sorted s p, freePool_sorted s, fun a ha b hb => ?_⟩
  simp only [State.freeRes, State.freePool, List.mem_filter, Bool.and_eq_true, beq_iff_eq, decide_eq_true_eq] at ha hb
  have hp := p.isLt
  exact Fin.lt_def.2 (by omega)

theorem free_of_resPool {b : Fin 128} (h : b ∈ s.freeRes p ++ s.freePool) : (s.band b).st = .free := by
  simp only [State.freeRes, State.freePool, List.mem_append, List.mem_filter, Bool.and_eq_true, beq_iff_eq] at h
  rcases h with h | h
  · exact h.2.2
  · exact h.2.2
end

/-- A strictly rising list of bands is what a filter by its members gives. -/
theorem filter_mem_sorted {l : List (Fin 128)} (h : l.Pairwise (· < ·)) : (List.finRange 128).filter (fun b => l.contains b) = l := by
  have hsort := (List.sortedLT_finRange 128).pairwise.filter fun b => l.contains b
  refine List.Perm.eq_of_pairwise (le := (· < ·)) (fun a b _ _ hab hba => absurd hab (Fin.lt_asymm hba)) hsort h ?_
  refine (List.perm_ext_iff_of_nodup (hsort.imp Fin.ne_of_lt) (h.imp Fin.ne_of_lt)).2 fun b => ?_
  simp

theorem band_modBand_same (s : State) (b : Fin 128) (f : Band → Band) : (s.modBand b f).band b = f (s.band b) := by
  simp [State.band, State.modBand]

theorem band_modBand_ne (s : State) {b c : Fin 128} (f : Band → Band) (h : c ≠ b) : (s.modBand b f).band c = s.band c := by
  have : ¬ b.val = c.val := fun e => h (Fin.ext e.symm)
  simp [State.band, State.modBand, this]

/-- Bands given to window slots (05 R129). -/
def State.giveBands (s : State) (p : Port) (l : List (Fin 4 × Fin 128)) : State :=
  l.foldl (fun s e => s.modBand e.2 fun _ => { st := .compose, port := p, slot := e.1 }) s

/-- `t` is `s` with other bands and another least pool level. -/
def BandFrame (s t : State) : Prop := ∃ v r, t = { s with regs := r, skn := { s.skn with bands := v } }

theorem bandFrame_giveBands (s : State) (p : Port) (l : List (Fin 4 × Fin 128)) : BandFrame s (s.giveBands p l) := by
  induction l generalizing s with
  | nil => exact ⟨s.skn.bands, s.regs, rfl⟩
  | cons e l ih =>
    obtain ⟨v, r, h⟩ := ih (s.modBand e.2 fun _ => { st := .compose, port := p, slot := e.1 })
    exact ⟨v, r, h⟩

theorem giveBands_out {s : State} {p : Port} {l : List (Fin 4 × Fin 128)} {b : Fin 128} (h : b ∉ l.map Prod.snd) :
    (s.giveBands p l).band b = s.band b := by
  induction l generalizing s with
  | nil => rfl
  | cons e l ih =>
    rw [List.map_cons, List.mem_cons, not_or] at h
    exact (ih h.2).trans (band_modBand_ne s _ h.1)

theorem giveBands_in {s : State} {p : Port} {l : List (Fin 4 × Fin 128)} (hn : (l.map Prod.snd).Nodup) {e : Fin 4 × Fin 128}
    (h : e ∈ l) : (s.giveBands p l).band e.2 = { st := .compose, port := p, slot := e.1 } := by
  induction l generalizing s with
  | nil => cases h
  | cons a l ih =>
    rw [List.map_cons, List.nodup_cons] at hn
    rcases List.mem_cons.1 h with rfl | h
    · exact (giveBands_out hn.1).trans (band_modBand_same s _ _)
    · exact ih hn.2 h

theorem acquire_gives (s : State) (p : Port) (l : List (Fin 4 × Fin 128)) :
    ∃ r, s.acquire p l = { s.giveBands p l with regs := r } := by
  unfold State.acquire
  dsimp only
  split
  · exact ⟨_, rfl⟩
  · exact ⟨_, rfl⟩

theorem map_snd_zip_take {α β : Type} (l : List α) (m : List β) (h : l.length ≤ m.length) :
    (l.zip m).map Prod.snd = m.take l.length := by
  rw [List.zip_eq_zip_take_min, Nat.min_eq_left h, List.take_length, List.map_snd_zip]
  rw [List.length_take, Nat.min_eq_left h]

section
variable {s : State} {p : Port}

/-- The bands that become free no more when `pool` is given are those given (05 R129). -/
theorem got_giveBands {slots : List (Fin 4)} {pool : List (Fin 128)} (hsort : pool.Pairwise (· < ·))
    (hfree : ∀ b ∈ pool, (s.band b).st = .free) (h : slots.length ≤ pool.length) :
    ((List.finRange 128).filter fun b =>
      (s.band b).st == .free && ((s.giveBands p (slots.zip pool)).band b).st != .free) = pool.take slots.length := by
  have hnodup : ((slots.zip pool).map Prod.snd).Nodup := by
    rw [map_snd_zip_take _ _ h]
    exact (hsort.imp Fin.ne_of_lt).sublist (List.take_sublist _ _)
  rw [← filter_mem_sorted (hsort.sublist (List.take_sublist slots.length pool))]
  refine List.filter_congr fun b _ => ?_
  rw [← map_snd_zip_take _ _ h]
  by_cases hb : b ∈ (slots.zip pool).map Prod.snd
  · obtain ⟨e, he, rfl⟩ := List.mem_map.1 hb
    have hpool := List.of_mem_zip he
    rw [giveBands_in hnodup he, hfree _ hpool.2, List.contains_iff_mem.2 hb]
    rfl
  · rw [giveBands_out hb, Bool.eq_false_iff.2 fun hc => hb (List.contains_iff_mem.1 hc)]
    cases hst : (s.band b).st <;> rfl

theorem pool_sorted {n : Nat} {pool : List (Fin 128)}
    (hpool : pool = if n ≤ (s.freeRes p).length then s.freeRes p else s.freeRes p ++ s.freePool) : pool.Pairwise (· < ·) := by
  rw [hpool]
  split
  · exact freeRes_sorted s p
  · exact resPool_sorted s p

/-- The front step of a port gets its bands, and waits no longer (05 R130). -/
theorem grantFor_some {y h : Nat} {u : State} (ht : s.tryGrant p (s.newSlots p y h) (s.barred p) = some u) :
    ∃ r, s.grantFor p y h = State.modFront { u with
      regs := r, skn := { u.skn with waits := u.skn.waits.filter fun w => w.port != p } } p fun x =>
        { x with granted := true
                 got := (List.finRange 128).filter fun b => (s.band b).st == .free && (u.band b).st != .free } := by
  unfold State.grantFor
  simp only [ht]
  split
  · split
    · exact ⟨_, rfl⟩
    · exact ⟨_, rfl⟩
  · exact ⟨_, rfl⟩

/-- A step that waits goes on waiting when its bands are not free (05 R130). -/
theorem grantFor_none {y h : Nat} (ht : s.tryGrant p (s.newSlots p y h) (s.barred p) = none)
    (hw : s.skn.waits.any (fun w => w.port == p) = true) : s.grantFor p y h = s := by
  unfold State.grantFor
  simp only [ht, hw, if_true]

theorem barred_alone {w : BandWait} (hw : s.skn.waits = [w]) (hp : w.port = p) : s.barred p = false := by
  simp [State.barred, hw, hp]

theorem grantWaits_alone {w : BandWait} (hw : s.skn.waits = [w]) (hp : w.port = p) : s.grantWaits = s.grantFor p w.y w.h := by
  rw [State.grantWaits, hw, List.foldl_cons, List.foldl_nil, hp]

/-- The bands from which a step that no aged one bars is served (05 R129). -/
theorem tryGrant_fits {slots : List (Fin 4)} {pool : List (Fin 128)}
    (hpool : pool = if slots.length ≤ (s.freeRes p).length then s.freeRes p else s.freeRes p ++ s.freePool)
    (h : slots.length ≤ pool.length) : ∃ r, s.tryGrant p slots false = some { s.giveBands p (slots.zip pool) with regs := r } := by
  unfold State.tryGrant
  by_cases he : slots = []
  · subst he
    exact ⟨s.regs, rfl⟩
  · obtain ⟨r, hr⟩ := acquire_gives s p (slots.zip pool)
    refine ⟨r, ?_⟩
    rw [if_neg (by simpa using he)]
    simp only [Bool.false_eq_true, or_false, ← hpool, h, if_true, hr]

theorem tryGrant_lacks {slots : List (Fin 4)} {pool : List (Fin 128)}
    (hpool : pool = if slots.length ≤ (s.freeRes p).length then s.freeRes p else s.freeRes p ++ s.freePool)
    (h : pool.length < slots.length) : s.tryGrant p slots false = none := by
  unfold State.tryGrant
  rw [if_neg (by rintro he; rw [List.isEmpty_iff.1 he] at h; exact absurd h (Nat.not_lt_zero _))]
  simp only [Bool.false_eq_true, or_false, ← hpool, Nat.not_le.2 h, if_false]
end

-- the commands

section
variable (s : State) (p : Port)
theorem exec_bandWaitGrant : exec .bandWaitGrant s = whenUp s fun s => s.bandWaitGrant := rfl
theorem exec_stepAged : exec (.stepAged p) s = whenUp s fun s => s.stepAged p := rfl
theorem exec_drawComplete : exec (.drawComplete p) s = whenUp s fun s => s.drawComplete p := rfl
theorem exec_rndFlashRetry : exec (.rndFlashRetry p) s = whenUp s fun s => s.rndFlashRetry p := rfl
end

section
variable {s : State} {p : Port} {w : BandWait} {x : Step} {l : List Step} {pool : List (Fin 128)}

/-- What BAND_WAIT_GRANT leaves where the one waiting step gets its bands. -/
theorem bandWaitGrant_grants (hrun : s.running Pg.skn = true) (hw : s.skn.waits = [w]) (hwp : w.port = p)
    (hx : s.steps p = x :: l) (hstill : s.RndStill p)
    (hpool : pool = if (s.newSlots p w.y w.h).length ≤ (s.freeRes p).length then s.freeRes p else s.freeRes p ++ s.freePool)
    (hfit : (s.newSlots p w.y w.h).length ≤ pool.length) : ∃ r c t, s.bandWaitGrant = State.turned
      ({ s.giveBands p ((s.newSlots p w.y w.h).zip pool) with
        regs := r, skn := { (s.giveBands p ((s.newSlots p w.y w.h).zip pool)).skn with waits := [] } }.setSteps p
          ({ x with granted := true, got := pool.take (s.newSlots p w.y w.h).length } :: l)) c t := by
  obtain ⟨r, htry⟩ := tryGrant_fits hpool hfit
  obtain ⟨r', hgrant⟩ := grantFor_some (y := w.y) (h := w.h) (by rw [barred_alone hw hwp]; exact htry)
  have hsort := pool_sorted hpool
  have hfree : ∀ b ∈ pool, (s.band b).st = .free := fun b hb => by
    refine free_of_resPool s p ?_
    rw [hpool] at hb
    split at hb
    · exact List.mem_append_left _ hb
    · exact hb
  have hgot := got_giveBands (p := p) hsort hfree hfit
  generalize (s.newSlots p w.y w.h) = slots at *
  obtain ⟨v, r₀, hv⟩ := bandFrame_giveBands s p (slots.zip pool)
  generalize s.giveBands p (slots.zip pool) = g at *
  have hwaits : g.skn.waits.filter (fun w => w.port != p) = [] := by rw [hv]; simp [hw, hwp]
  have hfront : s.grantFor p w.y w.h = State.setSteps { g with regs := r', skn := { g.skn with waits := [] } } p
      ({ x with granted := true, got := pool.take slots.length } :: l) := by
    rw [hgrant, State.modFront, show State.steps { g with regs := r', skn := _ } p = x :: l by rw [hv]; exact hx]
    simp only [hwaits, ← hgot]
    rfl
  rw [State.bandWaitGrant, if_pos hrun, grantWaits_alone hw hwp, hfront]
  have hstart : NoStart (State.setSteps { g with regs := r', skn := { g.skn with waits := [] } } p
      ({ x with granted := true, got := pool.take slots.length } :: l)) := by
    refine noStart_of_still hstill (fun o ho => ?_) (steps_setSteps_same _ _ _) rfl (fun o ho => ?_) ?_ (fun o ho hd => ?_)
    · rw [steps_setSteps_ne _ _ ho, hv]
      rfl
    · simp [State.setSteps, hw, hwp, Ne.symm ho]
    · rw [hv]
      rfl
    · simp only [State.drawable, State.frontIs, steps_setSteps_ne _ _ ho]
      rw [hv]
      exact hd
  obtain ⟨c, t, hgo⟩ := rndGo_turned hstart
  exact ⟨r', c, t, hgo⟩

theorem bandWaitGrant_waits (hw : s.skn.waits = [w]) (hwp : w.port = p)
    (hx : s.steps p = x :: l) (hg : x.granted = false) (hstill : s.RndStill p)
    (hpool : pool = if (s.newSlots p w.y w.h).length ≤ (s.freeRes p).length then s.freeRes p else s.freeRes p ++ s.freePool)
    (hlack : pool.length < (s.newSlots p w.y w.h).length) : s.bandWaitGrant = s := by
  have hany : s.skn.waits.any (fun w => w.port == p) = true := by simp [hw, hwp]
  have hgrant : s.grantFor p w.y w.h = s :=
    grantFor_none (by rw [barred_alone hw hwp]; exact tryGrant_lacks hpool hlack) hany
  have hstart : s.startable p = false := by simp [State.startable, hany]
  have hdraw : s.drawable p = false := by simp [State.drawable, State.frontIs, hx, hg]
  rw [State.bandWaitGrant]
  split
  · rw [grantWaits_alone hw hwp, hgrant]
    rcases hstill with hempty | ⟨⟨o, ho, hc, hd⟩, hprint⟩
    · have hidle : ∀ o, s.drawable o = false ∧ s.startable o = false := fun o => by
        by_cases ho : o = p
        · exact ho ▸ ⟨hdraw, hstart⟩
        · exact ⟨drawable_empty (hempty o ho), startable_empty (hempty o ho)⟩
      refine rndGo_still ⟨.inr fun o => (hidle o).2, fun o y l' hs _ => ?_⟩ (.inr hidle)
      by_cases ho : o = p
      · exact .inr (ho ▸ hany)
      · rw [hempty o ho] at hs
        cases hs
    · refine rndGo_still ⟨.inl ⟨o, hc, hd⟩, fun o' y l' hs hop => ?_⟩ (.inl ⟨o, hc, hd⟩)
      by_cases ho' : o' = p
      · exact .inr (ho' ▸ hany)
      · exact hprint o' y l' ho' hs hop
  · rfl
end

/-- The one waiting step of a port that has not aged (05 R130). -/
theorem find_wait {p : Port} {w : BandWait} {l r : List BandWait} (hl : ∀ v ∈ l ++ r, v.port ≠ p) (hp : w.port = p)
    (ha : w.aged = false) : (l ++ w :: r).find? (fun w => w.port == p && !w.aged) = some w := by
  have hnone : l.find? (fun w => w.port == p && !w.aged) = none := by
    rw [List.find?_eq_none]
    exact fun v hv => by simp [hl v (List.mem_append_left _ hv)]
  rw [List.find?_append, hnone, Option.none_or, List.find?_cons_of_pos (by simp [hp, ha])]

theorem map_aged {p : Port} {w : BandWait} {l r : List BandWait} (hl : ∀ v ∈ l ++ r, v.port ≠ p) (hp : w.port = p) :
    (l ++ w :: r).map (fun x => if x.port == p then { x with aged := true } else x) = l ++ { w with aged := true } :: r := by
  have hsame : ∀ m : List BandWait, (∀ v ∈ m, v.port ≠ p) →
      m.map (fun x => if x.port == p then { x with aged := true } else x) = m := fun m hm => by
    refine (List.map_congr_left fun v hv => ?_).trans (List.map_id m)
    simp [hm v hv]
  rw [List.map_append, List.map_cons, hsame l fun v hv => hl v (List.mem_append_left _ hv),
    hsame r fun v hv => hl v (List.mem_append_right _ hv)]
  simp [hp]

section
variable {s : State} {p : Port} {w : BandWait} {l r : List BandWait} (hw : s.skn.waits = l ++ w :: r)
  (hl : ∀ v ∈ l ++ r, v.port ≠ p) (hp : w.port = p) (ha : w.aged = false)
include hw hl hp ha

theorem stepAged_late (h : s.fld F.SKN_AGE_AGE * 100 ≤ s.since w.since) :
    s.stepAged p = { s with skn := { s.skn with waits := l ++ { w with aged := true } :: r } }.irq Pg.skn 4 := by
  unfold State.stepAged
  simp only [hw, find_wait hl hp ha, map_aged hl hp, usTicks, ge_iff_le, h, if_true]

theorem stepAged_early (h : s.since w.since < s.fld F.SKN_AGE_AGE * 100) : s.stepAged p = s := by
  unfold State.stepAged
  simp only [hw, find_wait hl hp ha, usTicks, ge_iff_le, Nat.not_le.2 h, if_false]
end

-- retries

section
variable {s : State} {p : Port} {x : Step} {l : List Step} {r : Retry} (hx : s.steps p = x :: l)
include hx

theorem modFront_cons (f : Step → Step) : s.modFront p f = s.setSteps p (f x :: l) := by
  simp only [State.modFront, hx]

theorem rndFlashRetry_waits {o : FlcOp} (hr : x.retry = some r) (hst : (s.page Pg.flc).st ≠ .resetting) (hop : s.flc.op = some o)
    (hs : o.suspSince = none) (hb : o.bank = flashBank r.addr) (hn : r.count + 1 < 1024) : s.rndFlashRetry p =
      ({ s.count R.RND_FLRETRY with flc := { s.flc with op := some { o with spend := true } } }).setSteps p
        ({ x with retry := some { r with count := r.count + 1 } } :: l) := by
  have hread := flashRead_busy (s := s.count R.RND_FLRETRY) hst hop hs hb .rnd
  simp only [State.rndFlashRetry, hx, hr, hread, ge_iff_le, Nat.not_le.2 hn, if_false]
  rw [modFront_cons (x := x) (l := l) (by exact hx)]
  rfl
end

/-- What a demand read may touch: counters, flags, reports and FLC's own state. -/
structure ReadFrame (s t : State) : Prop where
  rest : t = { s with regs := t.regs, pages := t.pages, reports := t.reports, flc := t.flc }
  st : ∀ i, (t.page i).st = (s.page i).st

section
variable {s t u : State}

theorem ReadFrame.refl (s : State) : ReadFrame s s := ⟨rfl, fun _ => rfl⟩

theorem ReadFrame.trans (h : ReadFrame s t) (h' : ReadFrame t u) : ReadFrame s u :=
  ⟨by rw [h'.rest, h.rest], fun i => (h'.st i).trans (h.st i)⟩

theorem ReadFrame.flc (s : State) (f : FlcSt) : ReadFrame s { s with flc := f } := ⟨rfl, fun _ => rfl⟩

theorem ReadFrame.wr (s : State) (r : Reg) (v : Word) : ReadFrame s (s.wr r v) := ⟨rfl, fun _ => rfl⟩

theorem ReadFrame.raise (s : State) (pg : PageIx) (k : Nat) : ReadFrame s (s.raise pg k) := ⟨rfl, fun _ => rfl⟩

theorem ReadFrame.irq (s : State) (pg : PageIx) (b : Nat) : ReadFrame s (s.irq pg b) := by
  refine ⟨rfl, fun i => ?_⟩
  by_cases hi : i = pg
  · rw [hi, State.irq, page_modPage_same]
  · rw [State.irq, page_modPage_ne _ _ hi]

theorem readFrame_earlyWarn (s : State) (w : Fin 4) : ReadFrame s (s.earlyWarn w) := by
  unfold State.earlyWarn
  split
  · exact .refl s
  · exact ((ReadFrame.flc s _).trans (.irq _ _ _)).trans (.raise _ _ _)

theorem readFrame_corrected (s : State) (b : Nat) : ReadFrame s (s.corrected b) := by
  unfold State.corrected
  dsimp only
  split
  · exact (ReadFrame.wr s _ _).trans (readFrame_earlyWarn _ _)
  · exact .wr s _ _

theorem readFrame_uncorrectable (s : State) (a : Nat) : ReadFrame s (s.uncorrectable a) :=
  (((ReadFrame.wr s _ _).trans (.wr _ _ _)).trans (.irq _ _ _)).trans (.raise _ _ _)

theorem readFrame_arrayLine (s : State) (a : Nat) : ReadFrame s (s.arrayLine a).1 := by
  unfold State.arrayLine
  refine List.foldlRecOn (motive := fun acc : State × BitVec 4 => ReadFrame s acc.1) _ _ (.refl s) fun acc h k _ => ?_
  split
  · exact h
  · exact h.trans (readFrame_corrected _ _)
  · exact h.trans (readFrame_uncorrectable _ _)

/-- A bank that runs no operation brings data (14 R351). -/
theorem flashRead_free (hst : (s.page Pg.flc).st ≠ .resetting) (hop : s.flc.op = none) (cls : FlashClass) (a : Nat) :
    ∃ t e, s.flashRead cls a = (t, .data e) ∧ ReadFrame s t := by
  have hbusy : s.bankBusy (flashBank a) = false := by simp [State.bankBusy, hop]
  unfold State.flashRead
  dsimp only
  rw [if_neg hst, if_neg (by simp [hbusy])]
  split
  · exact ⟨_, _, rfl, rfl, fun _ => rfl⟩
  · exact ⟨_, _, rfl, ((ReadFrame.flc s _).trans (readFrame_arrayLine _ _)).trans (.flc _ _)⟩
end

section
variable {s : State} {p : Port} {x : Step} {l : List Step} {r : Retry}

/-- The line of a granted step comes: the step goes on (05 R145). -/
theorem rndFlashRetry_comes (hx : s.steps p = x :: l) (hr : x.retry = some r) (hst : (s.page Pg.flc).st ≠ .resetting)
    (hop : s.flc.op = none) (hg : x.granted = true) (hstill : s.RndStill p) : ∃ t c o, ReadFrame s t ∧
      s.rndFlashRetry p = (t.setSteps p ({ x with retry := none } :: l)).turned c o := by
  obtain ⟨t, e, hread, hframe⟩ := flashRead_free (s := s.count R.RND_FLRETRY) hst hop .rnd r.addr
  have hst' : ReadFrame s t := (ReadFrame.wr s _ _).trans hframe
  have hrest := hst'.rest
  have hstart : NoStart (t.setSteps p ({ x with retry := none } :: l)) := by
    refine noStart_of_still hstill (fun o ho => ?_) (steps_setSteps_same _ _ _) hg (fun o ho => ?_) ?_ (fun o ho hd => ?_)
    · rw [steps_setSteps_ne _ _ ho, hrest]
      rfl
    · rw [hrest]
      rfl
    · rw [hrest]
      rfl
    · have hwork : t.working Pg.rnd = s.working Pg.rnd := by rw [State.working, hst'.st, State.working]
      rw [State.drawable, Bool.and_eq_true] at hd ⊢
      refine ⟨hwork.trans hd.1, ?_⟩
      simp only [State.frontIs, steps_setSteps_ne _ _ ho]
      rw [hrest]
      exact hd.2
  obtain ⟨c, o, hgo⟩ := rndGo_turned hstart
  refine ⟨t, c, o, hst', ?_⟩
  simp only [State.rndFlashRetry, hx, hr, hread]
  rw [modFront_cons (x := x) (l := l) (by rw [hrest]; exact hx), hgo]
end

theorem rd_bind_ok {α β : Type} {m : Rd α} {s t : State} {v : α} (h : m s = (.ok v, t)) (f : α → Rd β) : (m >>= f) s = f v t := by
  show (ExceptT.bindCont f (m s).1) (m s).2 = _
  rw [h]
  rfl

theorem rd_bind_error {α β : Type} {m : Rd α} {s t : State} {e : RdErr} (h : m s = (.error e, t)) (f : α → Rd β) :
    (m >>= f) s = (.error e, t) := by
  show (ExceptT.bindCont f (m s).1) (m s).2 = _
  rw [h]
  rfl

/-- The header check that waits for a status line tries it again (05 R145). -/
theorem retryDir_waits {s : State} {p : Port} {n : Nat} {o : FlcOp} (hp : s.steps p = [])
    (hchk : s.rnd.dirChk = some ⟨s.dirBase, n⟩) (hst : (s.page Pg.flc).st ≠ .resetting) (hop : s.flc.op = some o)
    (hs : o.suspSince = none) (hb : o.bank = flashBank s.dirBase) (hn : n + 1 < 1024) : s.rndFlashRetry p =
      { s.count R.RND_FLRETRY with
        flc := { s.flc with op := some { o with spend := true } }
        rnd := { s.rnd with dirChk := some ⟨s.dirBase, n + 1⟩ } } := by
  have hbase : (s.count R.RND_FLRETRY).dirBase = s.dirBase := by
    have hrd : (s.count R.RND_FLRETRY).rd F.RND_DIR_BASE.reg = s.rd F.RND_DIR_BASE.reg := rd_wr_ne s _ (by decide)
    simp only [State.dirBase, State.fld, hrd]
  have hread := flashRead_busy (s := s.count R.RND_FLRETRY) hst hop hs hb .rnd
  have hlow : s.dirBase < flashEnd := by
    have hfld : s.fld F.RND_DIR_BASE < 2 ^ 12 := Nat.mod_lt _ (by decide)
    unfold State.dirBase flashEnd
    omega
  have hline : s.dirBase / 32 * 32 = s.dirBase := by
    unfold State.dirBase
    omega
  have hbyte : rdByte s.dirBase (s.count R.RND_FLRETRY) = (.error (.subst s.dirBase), { s.count R.RND_FLRETRY with
      flc := { s.flc with op := some { o with spend := true } } }) := by
    simp only [rdByte, hlow, if_true, hread, hline]
    rfl
  have hhead : rdHeader s.dirBase (s.count R.RND_FLRETRY) = (.error (.subst s.dirBase), { s.count R.RND_FLRETRY with
      flc := { s.flc with op := some { o with spend := true } } }) :=
    rd_bind_error (rd_bind_error (rd_bind_error hbyte _) _) _
  simp only [State.rndFlashRetry, hp, State.retryDir, hchk, State.checkDir, hbase, hhead]
  have hcount : (s.count R.RND_FLRETRY).rnd = s.rnd := rfl
  simp only [hcount, hchk, if_true, true_and, ge_iff_le, Nat.not_le.2 hn, if_false]

end Sys2Proof.Machine
end

section
/-! SUPPORT. Reads of RND that find sound flash or working memory: what they bring rests on the bytes read alone (05 R145). -/

namespace Sys2Proof.Machine

-- sound flash

/-- The reads of RND leave all as it was, but for FLC's buffers where flash is sound. -/
def Reads (s t : State) : Prop := t = s ∨ s.FlashSound ∧ t.FlashSound ∧ ∃ f, t = { s with flc := f }

theorem Reads.refl (s : State) : Reads s s := .inl rfl

theorem Reads.trans {s t u : State} (h : Reads s t) (h' : Reads t u) : Reads s u := by
  rcases h with rfl | ⟨hs, ht, f, hf⟩
  · exact h'
  rcases h' with rfl | ⟨-, hu, f', hf'⟩
  · exact .inr ⟨hs, ht, f, hf⟩
  · exact .inr ⟨hs, hu, f', by rw [hf', hf]⟩

theorem Reads.rest {s t : State} (h : Reads s t) : ∃ f, t = { s with flc := f } := by
  rcases h with rfl | ⟨-, -, hf⟩
  · exact ⟨t.flc, rfl⟩
  · exact hf

theorem Reads.sound {s t : State} (h : Reads s t) (hs : s.FlashSound) : t.FlashSound := by
  rcases h with rfl | ⟨-, ht, -⟩
  · exact hs
  · exact ht

theorem bufs_setBuf (s : State) (c : Fin 3) (l : List BufLine) : (s.setBuf c l).flc.bufs[c] = l := by simp [State.setBuf]

section
variable {s : State} (h : s.FlashSound)
include h

theorem flashClean_of_sound : FlashClean s := by
  obtain ⟨-, hop, hundef, hecc, h0, h1, -⟩ := h
  exact ⟨h0, h1, hecc, hundef, hop⟩

theorem cell_of_sound (a : Nat) : s.cell a = s.byte a := by
  simp [State.cell, spoiled_clean (flashClean_of_sound h), State.otpCell, (flashClean_of_sound h).op]

/-- A demand read of RND from sound flash brings a line without errors, and flash stays sound. -/
theorem flashRead_sound (a : Nat) : ∃ t, s.flashRead .rnd a = (t, .data 0) ∧ Reads s t := by
  have hclean := flashClean_of_sound h
  obtain ⟨hst, hop, hundef, hecc, h0, h1, hbufs⟩ := id h
  have hbusy : s.bankBusy (flashBank a) = false := by simp [State.bankBusy, hop]
  unfold State.flashRead
  dsimp only
  rw [if_neg hst, if_neg (by simp [hbusy])]
  split
  next l hfind =>
    have hl := hbufs l (List.mem_of_find?_eq_some hfind)
    rw [hl]
    refine ⟨_, rfl, .inr ⟨h, ⟨hst, by simp [State.setBuf, hop], hundef, hecc, h0, h1, fun m hm => ?_⟩, _, rfl⟩⟩
    change m ∈ (State.setBuf _ 1 _).flc.bufs[(1 : Fin 3)] at hm
    rw [bufs_setBuf] at hm
    rcases List.mem_cons.1 hm with rfl | hm
    · exact hl
    · exact hbufs m (List.mem_filter.1 hm).1
  next =>
    rw [arrayLine_clean]
    · refine ⟨_, rfl, .inr ⟨h, ⟨hst, by simp [State.setBuf, hop], hundef, hecc, h0, h1, fun m hm => ?_⟩, _, rfl⟩⟩
      change m ∈ (State.setBuf _ 1 _).flc.bufs[(1 : Fin 3)] at hm
      rw [bufs_setBuf] at hm
      rcases List.mem_cons.1 (List.mem_of_mem_take hm) with rfl | hm
      · rfl
      · exact hbufs m hm
    · exact ⟨h0, h1, hecc, hundef, by simp [hop]⟩
end

/-- RND can read at `a`: outside flash, or flash is sound. -/
def State.Legible (s : State) (a : Nat) : Prop := flashEnd ≤ a ∨ s.FlashSound

theorem State.Legible.add {s : State} {a : Nat} (h : s.Legible a) (n : Nat) : s.Legible (a + n) :=
  h.imp (fun h => h.trans (Nat.le_add_right a n)) id

theorem rdByte_legible {s : State} {a : Nat} (h : s.Legible a) : ∃ t, rdByte a s = (.ok (s.byte a), t) ∧ Reads s t := by
  by_cases ha : a < flashEnd
  · have hs := h.resolve_left (Nat.not_le.2 ha)
    obtain ⟨t, hread, ht⟩ := flashRead_sound hs a
    refine ⟨t, ?_, ht⟩
    have hbyte : t.cell a = s.byte a := by
      rw [cell_of_sound (ht.sound hs)]
      obtain ⟨f, rfl⟩ := ht.rest
      rfl
    have hgood : (FlashRes.data 0).bad a = false := by simp [FlashRes.bad]
    simp only [rdByte, ha, if_true, hread, hgood, Bool.false_eq_true, if_false, hbyte]
  · exact ⟨s, by simp only [rdByte, ha, if_false], .refl s⟩

-- programs that read

/-- `t` shows RND what `s` does: the registers, the directory, where the areas lie, and the bytes at which `A` holds. -/
structure View (A : Nat → Prop) (s t : State) : Prop where
  regs : t.regs = s.regs
  origin : t.skn.o = s.skn.o
  dir : t.rnd.dirValid = s.rnd.dirValid ∧ t.rnd.nAtlas = s.rnd.nAtlas ∧ t.rnd.nLogo = s.rnd.nLogo ∧
    t.rnd.atlasTab = s.rnd.atlasTab ∧ t.rnd.logoTab = s.rnd.logoTab
  byte : ∀ a, A a → t.byte a = s.byte a
  sound : s.FlashSound → t.FlashSound

section
variable {A : Nat → Prop} {s t u : State}

theorem View.refl (A : Nat → Prop) (s : State) : View A s s := ⟨rfl, rfl, ⟨rfl, rfl, rfl, rfl, rfl⟩, fun _ _ => rfl, id⟩

theorem View.reads (h : View A s t) (h' : Reads t u) : View A s u := by
  have hs := h'.sound
  obtain ⟨f, rfl⟩ := h'.rest
  exact ⟨h.regs, h.origin, h.dir, h.byte, fun hx => hs (h.sound hx)⟩

theorem View.legible (h : View A s t) {a : Nat} (ha : s.Legible a) : t.Legible a := ha.imp id h.sound
end

/-- Wherever RND sees what `s` shows, `m` brings `v` by reading. -/
def Answers {α : Type} (A : Nat → Prop) (s : State) (m : Rd α) (v : α) : Prop :=
  ∀ u, View A s u → ∃ t, m u = (.ok v, t) ∧ Reads u t

section
variable {A : Nat → Prop} {s : State} {α β : Type}

theorem answers_pure (v : α) : Answers A s (pure v) v := fun u _ => ⟨u, rfl, .refl u⟩

theorem answers_bind {m : Rd α} {f : α → Rd β} {v : α} {w : β} (h : Answers A s m v) (h' : Answers A s (f v) w) :
    Answers A s (m >>= f) w := fun u hu => by
  obtain ⟨t, ht, hut⟩ := h u hu
  obtain ⟨t', ht', htt'⟩ := h' t (hu.reads hut)
  exact ⟨t', (rd_bind_ok ht f).trans ht', hut.trans htt'⟩

/-- What a program sees of its state is what it sees of every state that looks the same. -/
theorem answers_get {f : State → Rd β} {w : β} (hf : ∀ u, View A s u → f u = f s) (h : Answers A s (f s) w) :
    Answers A s ((fun u => (.ok u, u) : Rd State) >>= f) w := fun u hu => by
  obtain ⟨t, ht, hut⟩ := h u hu
  exact ⟨t, (rd_bind_ok (m := (fun u => (.ok u, u) : Rd State)) rfl f).trans ((congrFun (hf u hu) u).trans ht), hut⟩

theorem answers_rdByte {a : Nat} (hA : A a) (h : s.Legible a) : Answers A s (rdByte a) (s.byte a) := fun u hu => by
  rw [← hu.byte a hA]
  exact rdByte_legible (hu.legible h)

theorem answers_rdBytes {a n : Nat} (hA : ∀ k < n, A (a + k)) (h : s.Legible a) : Answers A s (rdBytes a n) (s.bytes a n) := by
  induction n generalizing a with
  | zero => exact answers_pure _
  | succ n ih =>
    refine answers_bind (answers_rdByte (hA 0 (Nat.succ_pos n)) h) (answers_bind (ih (fun k hk => ?_) (h.add 1)) (answers_pure _))
    rw [Nat.add_right_comm]
    exact hA (k + 1) (Nat.succ_lt_succ hk)

theorem answers_rdNat {a n : Nat} (hA : ∀ k < n, A (a + k)) (h : s.Legible a) :
    Answers A s (rdNat a n) (leNat (s.bytes a n)) := answers_bind (answers_rdBytes hA h) (answers_pure _)

/-- A read whose failure would not end the program brings its value all the same. -/
theorem answers_rdTry {m : Rd α} {v : α} (h : Answers A s m v) : Answers A s (rdTry m) (.ok v) := fun u hu => by
  obtain ⟨t, ht, hut⟩ := h u hu
  exact ⟨t, by simp only [rdTry, ht], hut⟩
end

-- what a step's entry names

/-- `m` brings some value wherever RND sees what `s` shows. -/
def Answered {α : Type} (A : Nat → Prop) (s : State) (m : Rd α) : Prop := ∃ v, Answers A s m v

section
variable {A : Nat → Prop} {s : State} {α β : Type}

theorem answered_pure (v : α) : Answered A s (pure v) := ⟨v, answers_pure v⟩

theorem answered_bind {m : Rd α} {f : α → Rd β} (h : Answered A s m) (h' : ∀ v, Answered A s (f v)) : Answered A s (m >>= f) := by
  obtain ⟨v, hv⟩ := h
  obtain ⟨w, hw⟩ := h' v
  exact ⟨w, answers_bind hv hw⟩

theorem answered_rdBytes {a : Nat} (h : s.Legible a) (n : Nat) : Answered (fun _ => True) s (rdBytes a n) :=
  ⟨_, answers_rdBytes (fun _ _ => trivial) h⟩

theorem answered_rdNat {a : Nat} (h : s.Legible a) (n : Nat) : Answered (fun _ => True) s (rdNat a n) :=
  ⟨_, answers_rdNat (fun _ _ => trivial) h⟩

theorem answered_ite {c : Prop} [Decidable c] {m n : Rd α} (hm : Answered A s m) (hn : Answered A s n) :
    Answered A s (if c then m else n) := by
  split
  · exact hm
  · exact hn

theorem answered_rdDirEntry (h : s.FlashSound) (valid : Bool) (base tab n cnt : Nat) :
    Answered (fun _ => True) s (rdDirEntry valid base tab n cnt) :=
  answered_ite (answered_pure _) (answered_bind (answered_rdNat (.inr h) _) fun _ =>
    answered_ite (answered_pure _) (answered_pure _))

theorem answered_rdAtlas (h : s.FlashSound) (a : Nat) : Answered (fun _ => True) s (rdAtlas a) := by
  unfold rdAtlas
  iterate 8 refine answered_bind (answered_rdNat (.inr h) _) fun _ => ?_
  exact answered_ite (answered_pure _) (answered_pure _)

theorem answered_rdLogo {a : Nat} (h : s.Legible a) : Answered (fun _ => True) s (rdLogo a) := by
  unfold rdLogo
  refine answered_bind (answered_rdNat h _) fun _ => ?_
  iterate 6 refine answered_bind (answered_rdNat (h.add _) _) fun _ => ?_
  exact answered_ite (answered_pure _) (answered_pure _)

theorem answered_rdCells (h : s.FlashSound) (a : Atlas) (wide : Bool) (str xm track n : Nat) (k i : Nat) (x : Int) :
    Answered (fun _ => True) s (rdCells a wide str xm track n k i x) := by
  induction k generalizing i x with
  | zero => exact answered_pure _
  | succ k ih =>
    unfold rdCells
    dsimp only
    refine answered_ite (answered_bind (answered_rdNat (.inr h) _) ?_) (answered_bind (answered_rdNat (.inr h) _) ?_)
    all_goals
      intro c
      split
      · exact answered_ite (answered_bind (answered_pure _) fun _ => answered_bind (ih _ _) fun _ => answered_pure _)
          (answered_bind (answered_rdNat (.inr h) _) fun _ => answered_bind (ih _ _) fun _ => answered_pure _)
      · exact answered_bind (answered_pure _) fun _ => answered_bind (ih _ _) fun _ => answered_pure _

/-- The object of a step that reads where RND can is read (05 R131, R519). -/
theorem answered_rdObject {p : Port} {e : Entry}
    (h : e.opc = 0x13 ∨ (e.needsDir = false ∧ 0x01000000 ≤ e.w1.toNat) ∨ s.FlashSound) : Answered (fun _ => True) s (rdObject p e) := by
  unfold rdObject
  refine Exists.imp (fun v hv => answers_get (fun u hu => ?_) hv) ?_
  · obtain ⟨hv, hna, hnl, hat, hlt⟩ := hu.dir
    have harea : u.area p = s.area p := by rw [State.area, State.area, hu.origin]
    have hel : u.nEl p = s.nEl p := by unfold State.nEl State.fld State.rd; rw [hu.regs]
    have hbase : u.dirBase = s.dirBase := by unfold State.dirBase State.fld State.rd; rw [hu.regs]
    simp only [hv, hna, hnl, hat, hlt, harea, hel, hbase]
  show Answered (fun _ => True) s _
  have hsound : e.needsDir = true → e.opc ≠ 0x13 → s.FlashSound := fun hn ho =>
    (h.resolve_left ho).resolve_left fun hx => Bool.noConfusion (hn.symm.trans hx.1)
  have hlegible : e.opc ≠ 0x13 → s.Legible e.w1.toNat := fun ho => (h.resolve_left ho).imp And.right id
  dsimp only
  split
  next => exact answered_pure _
  next => exact answered_pure _
  next => exact answered_pure _
  next hop =>
    have hs := hsound (by simp [Entry.needsDir, hop]) (by rw [hop]; decide)
    refine answered_bind (answered_rdDirEntry hs _ _ _ _ _) fun d => ?_
    split
    · exact answered_pure _
    refine answered_bind (answered_rdAtlas hs _) fun t => ?_
    split
    · exact answered_pure _
    exact answered_ite (answered_pure _) (answered_bind (answered_rdCells hs _ _ _ _ _ _ _ _ _) fun _ => answered_pure _)
  next hop =>
    have hlogo : ∀ a, s.Legible a → Answered (fun _ => True) s (do
        match ← rdLogo a with
        | none => pure (.error 3)
        | some l =>
          if flashEnd ≤ a ∧ ¬ inWram a (16 + l.size) then pure (.error 9)
          else if e.y + l.h > s.area p then pure (.error 0xA)
          else pure (.ok (.logo l)) : Rd (Except Nat Obj)) := fun a ha => by
      refine answered_bind (answered_rdLogo ha) fun l => ?_
      split
      · exact answered_pure _
      · exact answered_ite (answered_pure _) (answered_ite (answered_pure _) (answered_pure _))
    by_cases hfl : e.flags % 2 = 1
    · rw [if_pos hfl, pure_bind]
      exact hlogo _ (hlegible (by rw [hop]; decide))
    · have hs := hsound (by simp [Entry.needsDir, hop]; omega) (by rw [hop]; decide)
      rw [if_neg hfl]
      refine answered_bind (answered_rdDirEntry hs _ _ _ _ _) fun d => ?_
      split
      · exact answered_pure _
      · exact hlogo _ (.inr hs)
  next hop =>
    have hne : e.opc ≠ 0x13 := by assumption
    refine answered_bind (answered_rdBytes (hlegible hne) _) fun l => ?_
    exact answered_ite (answered_pure _) (answered_ite (answered_pure _) (answered_ite (answered_pure _) (answered_pure _)))
end

-- what RND has checked of an object

/-- Whatever `m` brings, `P` holds of it. -/
def Yields {α : Type} (m : Rd α) (P : α → Prop) : Prop := ∀ s v t, m s = (.ok v, t) → P v

section
variable {α β : Type} {P : β → Prop} {Q : α → Prop}

theorem yields_pure {v : β} (h : P v) : Yields (pure v) P := fun _ _ _ hv => by
  cases hv
  exact h

theorem yields_bind {m : Rd α} {f : α → Rd β} (hm : Yields m Q) (h : ∀ v, Q v → Yields (f v) P) : Yields (m >>= f) P :=
  fun s w t hw => by
    rcases hm' : m s with ⟨r, u⟩
    cases r with
    | error e =>
      rw [rd_bind_error hm'] at hw
      cases hw
    | ok v =>
      rw [rd_bind_ok hm'] at hw
      exact h v (hm s v u hm') u w t hw

theorem yields_ite {c : Prop} [Decidable c] {m n : Rd β} (hm : c → Yields m P) (hn : ¬ c → Yields n P) :
    Yields (if c then m else n) P := by
  split
  next hc => exact hm hc
  next hc => exact hn hc

theorem yields_step {m : Rd α} {f : α → Rd β} (h : ∀ v, Yields (f v) P) : Yields (m >>= f) P :=
  yields_bind (Q := fun _ => True) (fun _ _ _ _ => trivial) fun v _ => h v
end

/-- The glyphs of an atlas lie in the flash window (05 R137). -/
structure Atlas.Sane (a : Atlas) : Prop where
  bits : a.bpp = 1 ∨ a.bpp = 2
  inside : a.data + a.count * a.h * ((a.w * a.bpp + 7) / 8) ≤ flashEnd
  dflt : a.dflt < a.count ∨ a.dflt = 0xFFFF

/-- A logo holds its bit map (05 R139). -/
structure Logo.Sane (l : Logo) : Prop where
  bits : l.bpp = 1 ∨ l.bpp = 2
  size : l.rle = false → l.h * ((l.w * l.bpp + 31) / 32 * 4) ≤ l.size

theorem yields_rdAtlas (a : Nat) : Yields (rdAtlas a) fun t => ∀ x, t = some x → x.Sane := by
  unfold rdAtlas
  iterate 8 refine yields_step fun _ => ?_
  refine yields_ite (fun _ => yields_pure fun x hx => by cases hx) fun hbad => yields_pure fun x hx => ?_
  cases hx
  simp only [not_or, not_and, not_not] at hbad
  obtain ⟨-, -, hbits, -, -, -, hin⟩ := hbad
  refine ⟨or_iff_not_imp_left.2 hbits, ?_, ?_⟩
  · have := of_decide_eq_true hin
    dsimp only
    omega
  · dsimp only
    split
    next h => exact .inl h
    next => exact .inr rfl

theorem yields_rdLogo (a : Nat) : Yields (rdLogo a) fun t => ∀ x, t = some x → x.Sane ∧ x.data = a + 16 ∧
    (a < flashEnd → a + 16 + x.size ≤ flashEnd) := by
  unfold rdLogo
  iterate 7 refine yields_step fun _ => ?_
  refine yields_ite (fun _ => yields_pure fun x hx => by cases hx) fun hbad => yields_pure fun x hx => ?_
  cases hx
  simp only [not_or, not_and, not_not] at hbad
  obtain ⟨-, -, -, -, hbits, hfl, -, -, hsize, hin⟩ := hbad
  refine ⟨⟨or_iff_not_imp_left.2 hbits, fun hrle => ?_⟩, rfl, fun ha => ?_⟩
  · exact Nat.not_lt.1 (hsize (by have := of_decide_eq_false hrle; omega))
  · have := of_decide_eq_true (hin ha)
    dsimp only
    omega

/-- The cells of a text lie on the head, and their glyphs in the atlas (05 R138). -/
theorem yields_rdCells {a : Atlas} (ha : a.Sane) (wide : Bool) (str xm track n k i : Nat) (x : Int) :
    Yields (rdCells a wide str xm track n k i x) fun r => ∀ c ∈ r.1, c.glyph < a.count ∧ c.x + a.w * xm ≤ n := by
  induction k generalizing i x with
  | zero => exact yields_pure fun c hc => by cases hc
  | succ k ih =>
    have hglyph : ∀ c, (if a.first ≤ c ∧ c < a.first + a.count then c - a.first else a.dflt) < a.count ∨
        (if a.first ≤ c ∧ c < a.first + a.count then c - a.first else a.dflt) = 0xFFFF := fun c => by
      split
      · omega
      · exact ha.dflt
    have hcell : ∀ g dx, g < a.count ∨ g = 0xFFFF → Yields (do
        let (l, part) ← rdCells a wide str xm track n k (i + 1) (x + dx)
        let out := x < 0 ∨ x + (a.w * xm : Nat) > n
        pure (if out then (l, true) else if g = 0xFFFF then (l, part) else (⟨x.toNat, g⟩ :: l, part)) : Rd (List TextCell × Bool))
        fun r => ∀ c ∈ r.1, c.glyph < a.count ∧ c.x + a.w * xm ≤ n := fun g dx hg => by
      refine yields_bind (ih _ _) fun ⟨l, part⟩ hr => yields_pure ?_
      split
      · exact hr
      next hout =>
        split
        · exact hr
        next hne =>
          intro c hc
          rcases List.mem_cons.1 hc with rfl | hc
          · refine ⟨hg.resolve_right hne, ?_⟩
            dsimp only
            omega
          · exact hr c hc
    unfold rdCells
    dsimp only
    refine yields_ite (fun _ => yields_step fun c => ?_) fun _ => yields_step fun c => ?_
    all_goals
      split
      · exact yields_ite (fun _ => yields_step fun _ => hcell _ _ (hglyph c)) fun _ => yields_step fun _ => hcell _ _ (hglyph c)
      · exact yields_step fun _ => hcell _ _ (hglyph c)

/-- What RND has made sure of, of the object that a step draws (05 R131, R519). -/
def Obj.Sane (o : Obj) (s : State) (p : Port) (e : Entry) : Prop :=
  match o with
  | .text a cells _ => e.opc = 0x11 ∧ a.Sane ∧ ∀ c ∈ cells, c.glyph < a.count ∧ c.x + a.w * e.xm ≤ s.nEl p
  | .logo l => e.opc = 0x12 ∧ l.Sane ∧ (e.needsDir = false → l.data = e.w1.toNat + 16) ∧
      (l.data + l.size ≤ flashEnd ∨ wramBase ≤ l.data ∧ l.data + l.size ≤ wramEnd)
  | .bars ws => e.x + (if e.flags % 2 = 1 then wbits e.w3 0 16 else ws.foldl (· + ·) 0) ≤ s.nEl p
  | _ => True

theorem rdObject_sane {s t : State} {p : Port} {e : Entry} {o : Obj} (h : rdObject p e s = (.ok (.ok o), t)) : o.Sane s p e := by
  unfold rdObject at h
  rw [rd_bind_ok (m := (fun u => (.ok u, u) : Rd State)) rfl] at h
  suffices hy : ∀ m : Rd (Except Nat Obj), Yields m (fun r => ∀ o, r = .ok o → o.Sane s p e) → m s = (.ok (.ok o), t) →
      o.Sane s p e by
    refine hy _ ?_ h
    dsimp only
    split
    next =>
      refine yields_pure fun o ho => ?_
      split at ho
      · cases ho
      · cases ho
        split <;> trivial
    next =>
      refine yields_pure fun o ho => ?_
      split at ho
      · cases ho
      · cases ho
        trivial
    next => exact yields_pure fun o ho => by cases ho; trivial
    next hop =>
      refine yields_step fun d => ?_
      split
      · exact yields_pure fun o ho => by cases ho
      refine yields_bind (yields_rdAtlas _) fun a ha => ?_
      split
      · exact yields_pure fun o ho => by cases ho
      refine yields_ite (fun _ => yields_pure fun o ho => by cases ho) fun _ => ?_
      refine yields_bind (yields_rdCells (ha _ rfl) _ _ _ _ _ _ _ _) fun ⟨l, part⟩ hcells => yields_pure fun o ho => ?_
      cases ho
      exact ⟨hop, ha _ rfl, hcells⟩
    next hop =>
      have hlogo : ∀ a, (e.needsDir = false → a = e.w1.toNat) → Yields (do
          match ← rdLogo a with
          | none => pure (.error 3)
          | some l =>
            if flashEnd ≤ a ∧ ¬ inWram a (16 + l.size) then pure (.error 9)
            else if e.y + l.h > s.area p then pure (.error 0xA)
            else pure (.ok (.logo l)) : Rd (Except Nat Obj)) fun r => ∀ o, r = .ok o → o.Sane s p e := fun a ha => by
        refine yields_bind (yields_rdLogo a) fun l hl => ?_
        split
        · exact yields_pure fun o ho => by cases ho
        next l =>
          obtain ⟨hsane, hdata, hflash⟩ := hl l rfl
          refine yields_ite (fun _ => yields_pure fun o ho => by cases ho) fun hin => ?_
          refine yields_ite (fun _ => yields_pure fun o ho => by cases ho) fun _ => yields_pure fun o ho => ?_
          cases ho
          refine ⟨hop, hsane, fun hn => by rw [hdata, ha hn], ?_⟩
          rw [hdata]
          by_cases hlow : a < flashEnd
          · exact .inl (hflash hlow)
          · have hwram := Classical.not_not.1 fun hx => hin ⟨Nat.not_lt.1 hlow, hx⟩
            rw [inWram, Bool.and_eq_true, decide_eq_true_eq, decide_eq_true_eq] at hwram
            exact .inr ⟨by omega, by omega⟩
      by_cases hfl : e.flags % 2 = 1
      · rw [if_pos hfl, pure_bind]
        exact hlogo _ fun _ => rfl
      · rw [if_neg hfl]
        refine yields_step fun d => ?_
        split
        · exact yields_pure fun o ho => by cases ho
        · exact hlogo _ fun hn => by simp [Entry.needsDir, hop] at hn; omega
    next =>
      refine yields_step fun l => ?_
      refine yields_ite (fun _ => yields_pure fun o ho => by cases ho) fun _ => ?_
      refine yields_ite (fun _ => yields_pure fun o ho => by cases ho) fun hx => ?_
      refine yields_ite (fun _ => yields_pure fun o ho => by cases ho) fun _ => yields_pure fun o ho => ?_
      cases ho
      exact Nat.not_lt.1 hx
  exact fun m hm heq => hm s _ t heq o rfl

end Sys2Proof.Machine
end

section
/-! SUPPORT. The dots of the Skein: where a dot lies, what a first write of a line and a written dot change, and what the
operations that draw leave (05 R123 to R125, R133). -/

namespace Sys2Proof.Machine

-- where a dot lies

section
variable {l d : Nat} (b : Fin 128) (hl : l < 64) (hd : d < 6144)
include hl hd

theorem skeinBandOf_dot : skeinBandOf (skeinLine b l + d / 4) = b := by
  have hb := b.isLt
  apply Fin.ext
  simp only [skeinBandOf, skeinLine, Fin.val_ofNat, skeinBase]
  omega

theorem skeinRowOf_dot : skeinRowOf (skeinLine b l + d / 4) = l := by
  simp only [skeinRowOf, skeinLine, skeinBase]
  omega

/-- A dot is two bits of its byte, where its band is not FREE and its line not blank (05 R125). -/
theorem dot_eq (s : State) : s.dot b l d = if (s.band b).st = .free ∨ ¬ (s.band b).written.getLsbD l then 0
    else wbits ((s.byte (skeinLine b l + d / 4)).setWidth 32) (2 * (d % 4)) 2 := by
  simp only [State.dot, State.skeinByte, skeinBandOf_dot b hl hd, skeinRowOf_dot b hl hd]
  split
  · simp [wbits, bitsN]
  · rfl

theorem skeinLine_inside : 0x10000000 ≤ skeinLine b l + d / 4 ∧ skeinLine b l + d / 4 < 0x10C00000 := by
  have hb := b.isLt
  simp only [skeinLine, skeinBase]
  omega
end

/-- Lines of the Skein do not overlap. -/
theorem skeinLine_apart {b b' : Fin 128} {l l' k k' : Nat} (hl : l < 64) (hl' : l' < 64) (hk : k < 0x600) (hk' : k' < 0x600)
    (h : skeinLine b l + k = skeinLine b' l' + k') : b = b' ∧ l = l' ∧ k = k' := by
  simp only [skeinLine] at h
  exact ⟨Fin.ext (by omega), by omega, by omega⟩

-- a line loses its blank mark

section
variable (s : State) (b : Fin 128) (l : Nat)

/-- Writing a line for the first time changes its band's marks and memory. -/
theorem unblank_frame : ∃ m v, s.unblank b l = { s with mem := m, skn := { s.skn with bands := v } } := by
  unfold State.unblank
  split
  · exact ⟨_, _, rfl⟩
  · exact ⟨_, _, rfl⟩

theorem unblank_written (h : (s.band b).written.getLsbD l = true) : s.unblank b l = s := if_pos h

theorem unblank_blank (h : ¬ (s.band b).written.getLsbD l = true) : s.unblank b l =
    State.modBand { s with mem := srange (skeinLine b l) (skeinLine b l + 0x600) [] s.mem } b
      fun x => { x with written := x.written ||| (1 <<< l) } := if_neg h

theorem band_unblank (c : Fin 128) :
    ((s.unblank b l).band c).st = (s.band c).st ∧ ((s.unblank b l).band c).port = (s.band c).port ∧
    ((s.unblank b l).band c).slot = (s.band c).slot := by
  by_cases h : (s.band b).written.getLsbD l = true
  · rw [unblank_written s b l h]
    exact ⟨rfl, rfl, rfl⟩
  · rw [unblank_blank s b l h]
    by_cases hc : c = b
    · rw [hc, band_modBand_same]
      exact ⟨rfl, rfl, rfl⟩
    · rw [band_modBand_ne _ _ hc]
      exact ⟨rfl, rfl, rfl⟩

theorem byte_unblank {a : Nat} (h : a < skeinLine b l ∨ skeinLine b l + 0x600 ≤ a) : (s.unblank b l).byte a = s.byte a := by
  by_cases hw : (s.band b).written.getLsbD l = true
  · rw [unblank_written s b l hw]
  · rw [unblank_blank s b l hw]
    show sget _ a (srange _ _ _ _) = _
    rw [sget_srange _ _ (by omega), if_neg (by omega)]
    rfl

theorem byte_unblank_blank (h : ¬ (s.band b).written.getLsbD l = true) {k : Nat} (hl : l < 64) (hk : k < 0x600) :
    (s.unblank b l).byte (skeinLine b l + k) = 0 := by
  have hb := b.isLt
  have hin : 0x10000000 ≤ skeinLine b l + k ∧ skeinLine b l + k < 0x10C00000 := by
    simp only [skeinLine, skeinBase]
    omega
  rw [unblank_blank s b l h]
  show sget _ _ (srange _ _ _ _) = _
  rw [sget_srange _ _ (by omega), if_pos (by omega), sget, memDefault, if_neg (by rw [flashEnd]; omega), if_neg]
  rw [Bool.and_eq_true, Bool.and_eq_true, decide_eq_true_eq]
  rintro ⟨⟨hlow, -⟩, -⟩
  rw [elemBase] at hlow
  omega

variable {l} (hl : l < 64)
include hl

theorem written_unblank (c : Fin 128) (k : Nat) :
    ((s.unblank b l).band c).written.getLsbD k = ((s.band c).written.getLsbD k || (decide (c = b) && decide (k = l))) := by
  by_cases hw : (s.band b).written.getLsbD l = true
  · rw [unblank_written s b l hw]
    by_cases hc : c = b ∧ k = l
    · rw [hc.1, hc.2, hw, Bool.true_or]
    · rw [← Bool.decide_and, decide_eq_false hc, Bool.or_false]
  · rw [unblank_blank s b l hw]
    by_cases hc : c = b
    · have hbit : ((1 <<< l : Nat) : BitVec 64).getLsbD k = decide (k = l) := by
        rw [BitVec.natCast_eq_ofNat, BitVec.getLsbD_ofNat, Nat.one_shiftLeft, Nat.testBit_two_pow]
        by_cases hk : l = k
        · simp [← hk, hl]
        · simp [hk, Ne.symm hk]
      rw [hc, band_modBand_same, BitVec.getLsbD_or, hbit, decide_eq_true rfl, Bool.true_and]
      rfl
    · rw [band_modBand_ne _ _ hc, decide_eq_false hc, Bool.false_and, Bool.or_false]
      rfl

/-- A line that loses its blank mark becomes white: no dot changes (05 R124, R125). -/
theorem dot_unblank {c : Fin 128} {k d : Nat} (hk : k < 64) (hd : d < 6144) : (s.unblank b l).dot c k d = s.dot c k d := by
  rw [dot_eq c hk hd, dot_eq c hk hd, (band_unblank s b l c).1, written_unblank s b hl]
  by_cases hw : (s.band b).written.getLsbD l = true
  · rw [unblank_written s b l hw]
    by_cases hc : c = b ∧ k = l
    · rw [hc.1, hc.2, hw, Bool.true_or]
    · rw [← Bool.decide_and, decide_eq_false hc, Bool.or_false]
  · by_cases hc : c = b ∧ k = l
    · obtain ⟨rfl, rfl⟩ := hc
      rw [byte_unblank_blank s c k hw hl (by omega)]
      simp [hw, wbits, bitsN]
    · rw [← Bool.decide_and, decide_eq_false hc, Bool.or_false, byte_unblank s b l]
      by_contra hin
      have hin' : skeinLine c k + d / 4 = skeinLine b l + (skeinLine c k + d / 4 - skeinLine b l) := by omega
      obtain ⟨hb, hkl, -⟩ := skeinLine_apart hk hl (by omega) (by omega) hin'
      exact hc ⟨hb, hkl⟩
end

-- a dot is written

/-- The masks that write the two bits of dot `i` of a byte. -/
theorem dotMask : ∀ i j : Fin 4, ∀ n : Fin 2,
    (BitVec.ofNat 8 (3 * 2 ^ (2 * i.val))).getLsbD (2 * j.val + n.val) = decide (j = i) := by decide

theorem dotCode : ∀ i j c : Fin 4, ∀ n : Fin 2,
    (BitVec.ofNat 8 (c.val * 2 ^ (2 * i.val))).getLsbD (2 * j.val + n.val) = (decide (j = i) && c.val.testBit n.val) := by decide

/-- Writing dot `i` of a byte changes that dot alone. -/
theorem wbits_dotByte (x : Byte) (i j c : Fin 4) :
    wbits (((x &&& ~~~(BitVec.ofNat 8 (3 * 2 ^ (2 * i.val)))) ||| BitVec.ofNat 8 (c.val * 2 ^ (2 * i.val))).setWidth 32) (2 * j.val) 2 =
      if j = i then c.val else wbits (x.setWidth 32) (2 * j.val) 2 := by
  have hbit : ∀ (y : Byte) (n : Nat), (wbits (y.setWidth 32) (2 * j.val) 2).testBit n = (decide (n < 2) && y.getLsbD (2 * j.val + n)) :=
    fun y n => by
      have hy : (y.setWidth 32).toNat = y.toNat := by
        rw [BitVec.toNat_setWidth]
        exact Nat.mod_eq_of_lt (y.isLt.trans (by decide))
      rw [wbits, bitsN, hy, Nat.testBit_mod_two_pow, Nat.testBit_div_two_pow, Nat.add_comm n]
      rfl
  apply Nat.eq_of_testBit_eq
  intro n
  rw [hbit]
  by_cases hn : n < 2
  · have hm := dotMask i j ⟨n, hn⟩
    have hc := dotCode i j c ⟨n, hn⟩
    have hlt : 2 * j.val + n < 8 := by omega
    dsimp only at hm hc
    rw [BitVec.getLsbD_or, BitVec.getLsbD_and, BitVec.getLsbD_not, hm, hc]
    by_cases hij : j = i
    · simp [hij, hn]
    · rw [if_neg hij, hbit]
      simp [hij, hn, hlt]
  · have hsmall : ∀ v < 4, v.testBit n = false := fun v hv =>
      Nat.testBit_lt_two_pow (hv.trans_le (Nat.pow_le_pow_right (by decide) (Nat.not_lt.1 hn) : 2 ^ 2 ≤ 2 ^ n))
    rw [decide_eq_false hn, Bool.false_and]
    split
    · exact (hsmall _ c.isLt).symm
    · exact (hsmall _ (Nat.mod_lt _ (by decide))).symm

theorem band_setDot (s : State) (b c : Fin 128) (l d v : Nat) : (s.setDot b l d v).band c = s.band c := rfl

/-- A dot written on a line that is not blank is the one dot that changes. -/
theorem dot_setDot (s : State) {b c : Fin 128} {l k d e v : Nat} (hl : l < 64) (hk : k < 64) (hd : d < 6144) (he : e < 6144) (hv : v < 4)
    (hst : (s.band b).st ≠ .free) (hw : (s.band b).written.getLsbD l = true) :
    (s.setDot b l d v).dot c k e = if c = b ∧ k = l ∧ e = d then v else s.dot c k e := by
  rw [dot_eq c hk he, dot_eq c hk he, band_setDot]
  by_cases hsame : c = b ∧ k = l ∧ e / 4 = d / 4
  · obtain ⟨rfl, rfl, hed⟩ := hsame
    have hbyte := wbits_dotByte (s.byte (skeinLine c k + d / 4)) ⟨d % 4, by omega⟩ ⟨e % 4, by omega⟩ ⟨v, hv⟩
    simp only [Fin.mk.injEq] at hbyte
    have hiff : e % 4 = d % 4 ↔ e = d := by omega
    have hvis : ¬ ((s.band c).st = .free ∨ ¬ (s.band c).written.getLsbD k = true) := by simp [hst, hw]
    rw [if_neg hvis, if_neg hvis, hed, State.setDot, byte_setByte_same, hbyte]
    simp only [hiff, true_and]
  · have hne : ¬ (c = b ∧ k = l ∧ e = d) := fun h => hsame ⟨h.1, h.2.1, by rw [h.2.2]⟩
    rw [if_neg hne, State.setDot, byte_setByte_ne _ _ fun h => hsame (skeinLine_apart hk hl (by omega) (by omega) h)]

-- the lines of a composition area

section
variable {s : State} {p : Port} {b : Fin 128} {k y l : Nat}

theorem of_slotBand (h : s.slotBand p k = some b) : (s.band b).st = .compose ∧ (s.band b).slot.val = k := by
  have h := List.find?_some h
  simp only [Bool.and_eq_true, beq_iff_eq] at h
  exact ⟨h.1.1, h.2⟩

theorem areaLine_some (h : s.areaLine p y = some (b, l)) :
    s.slotBand p ((s.skn.o[p] + y) / 64) = some b ∧ l = (s.skn.o[p] + y) % 64 := by
  rw [State.areaLine, Option.map_eq_some_iff] at h
  obtain ⟨c, hc, h⟩ := h
  cases h
  exact ⟨hc, rfl⟩

theorem areaLine_lt (h : s.areaLine p y = some (b, l)) : l < 64 := by
  rw [(areaLine_some h).2]
  exact Nat.mod_lt _ (by decide)

/-- A line of a band is area line `y` exactly where area line `y` lies in it (05 R127, R128). -/
theorem areaY_iff (hl : l < 64) : s.areaY p b l = some y ↔ s.areaLine p y = some (b, l) := by
  constructor
  · intro h
    unfold State.areaY at h
    split at h
    next hb =>
      obtain ⟨hslot, ho⟩ := hb
      cases h
      rw [State.areaLine, Nat.add_sub_cancel' ho, show (64 * (s.band b).slot.val + l) / 64 = (s.band b).slot.val by omega, hslot,
        show (64 * (s.band b).slot.val + l) % 64 = l by omega]
      rfl
    · cases h
  · intro h
    obtain ⟨hslot, hrow⟩ := areaLine_some h
    have hval := (of_slotBand hslot).2
    rw [State.areaY, hval, if_pos ⟨hslot, by omega⟩]
    congr 1
    omega

theorem areaLine_congr {t : State} (ho : t.skn.o = s.skn.o)
    (hb : ∀ b, (t.band b).st = (s.band b).st ∧ (t.band b).port = (s.band b).port ∧ (t.band b).slot = (s.band b).slot) (y : Nat) :
    t.areaLine p y = s.areaLine p y := by
  unfold State.areaLine State.slotBand
  simp only [ho, fun b => (hb b).1, fun b => (hb b).2.1, fun b => (hb b).2.2]
end

-- pictures

/-- `t` is `s` after drawing in the composition area of `p`: dot `d` of area line `y` that held `v` holds `g y d v`, every other
dot and every byte outside the Skein what it held; beside the Skein only FLC's buffers and RND's turns differ. -/
structure Pic (p : Port) (s t : State) (g : Nat → Nat → Nat → Nat) : Prop where
  frame : ∃ m v f c l, t = State.turned { s with mem := m, skn := { s.skn with bands := v }, flc := f } c l
  sound : s.FlashSound → t.FlashSound
  out : SameMemBut 0x10000000 0xC00000 s t
  band : ∀ b, (t.band b).st = (s.band b).st ∧ (t.band b).port = (s.band b).port ∧ (t.band b).slot = (s.band b).slot
  dot : ∀ b l d, l < 64 → d < 6144 → t.dot b l d =
    match s.areaY p b l with
    | some y => g y d (s.dot b l d)
    | none => s.dot b l d

section
variable {p : Port} {s t : State} {g g' : Nat → Nat → Nat → Nat}

theorem Pic.refl (p : Port) (s : State) : Pic p s s fun _ _ v => v :=
  ⟨⟨_, _, _, _, _, rfl⟩, id, fun _ _ => rfl, fun _ => ⟨rfl, rfl, rfl⟩, fun b l d _ _ => by split <;> rfl⟩

theorem Pic.turned (h : Pic p s t g) (c l : Option Port) : Pic p s (t.turned c l) g := by
  refine ⟨?_, h.sound, h.out, h.band, h.dot⟩
  obtain ⟨m, v, f, -, -, rfl⟩ := h.frame
  exact ⟨m, v, f, c, l, rfl⟩

/-- A picture is known by the dots of the lines that have a band. -/
theorem Pic.congr (h : Pic p s t g)
    (hg : ∀ y d v, (s.areaLine p y).isSome = true → d < 6144 → g' y d v = g y d v) : Pic p s t g' := by
  refine ⟨h.frame, h.sound, h.out, h.band, fun b l d hl hd => ?_⟩
  rw [h.dot b l d hl hd]
  split
  next y hy => exact (hg y d _ (by rw [(areaY_iff hl).1 hy]; rfl) hd).symm
  next => rfl

theorem Pic.areaLine (h : Pic p s t g) (y : Nat) : t.areaLine p y = s.areaLine p y := by
  refine areaLine_congr ?_ h.band y
  obtain ⟨m, v, f, c, l, rfl⟩ := h.frame
  rfl

theorem Pic.reads {u : State} (h : Pic p s t g) (h' : Reads t u) : Pic p s u g := by
  have hsound := h'.sound
  obtain ⟨f, rfl⟩ := h'.rest
  refine ⟨?_, fun hs => hsound (h.sound hs), h.out, h.band, h.dot⟩
  obtain ⟨m, v, f', c, l, rfl⟩ := h.frame
  exact ⟨m, v, f, c, l, rfl⟩

/-- Outside the Skein. -/
def OffSkein (a : Nat) : Prop := a < 0x10000000 ∨ 0x10C00000 ≤ a

theorem Pic.view (h : Pic p s t g) : View OffSkein s t := by
  have hout := h.out
  have hsound := h.sound
  obtain ⟨m, v, f, c, l, rfl⟩ := h.frame
  exact ⟨rfl, rfl, ⟨rfl, rfl, rfl, rfl, rfl⟩, fun a ha => hout a ha, hsound⟩

theorem Pic.unblank (h : Pic p s t g) {b : Fin 128} {l : Nat} (hl : l < 64) : Pic p s (t.unblank b l) g := by
  refine ⟨?_, fun hs => ?_, fun a ha => ?_, fun c => ?_, fun c k d hk hd => ?_⟩
  · obtain ⟨m', v', h'⟩ := unblank_frame t b l
    obtain ⟨m, v, f, c, o, rfl⟩ := h.frame
    exact ⟨m', v', f, c, o, h'⟩
  · have ht := h.sound hs
    obtain ⟨m', v', h'⟩ := unblank_frame t b l
    rw [h']
    exact ht
  · have hb := b.isLt
    rw [byte_unblank t b l (by simp only [skeinLine, skeinBase]; omega)]
    exact h.out a ha
  · obtain ⟨h1, h2, h3⟩ := band_unblank t b l c
    obtain ⟨h1', h2', h3'⟩ := h.band c
    exact ⟨h1.trans h1', h2.trans h2', h3.trans h3'⟩
  · rw [dot_unblank t b hl hk hd]
    exact h.dot c k d hk hd

/-- A dot written on a line of the area. -/
theorem Pic.setDot (h : Pic p s t g) {b : Fin 128} {y l d v : Nat} (ha : s.areaLine p y = some (b, l)) (hd : d < 6144) (hv : v < 4)
    (hw : (t.band b).written.getLsbD l = true) (hsame : g' y d (s.dot b l d) = v)
    (hother : ∀ y' d' v, ¬ (y' = y ∧ d' = d) → g' y' d' v = g y' d' v) : Pic p s (t.setDot b l d v) g' := by
  have hl := areaLine_lt ha
  have hst : (t.band b).st ≠ .free := by
    rw [(h.band b).1, (of_slotBand (areaLine_some ha).1).1]
    decide
  refine ⟨?_, h.sound, fun a hx => ?_, h.band, fun c k e hk he => ?_⟩
  · obtain ⟨m, v, f, c, o, rfl⟩ := h.frame
    exact ⟨_, v, f, c, o, rfl⟩
  · have hin := skeinLine_inside b hl hd
    rw [State.setDot, byte_setByte_ne _ _ (by omega)]
    exact h.out a hx
  · rw [dot_setDot t hl hk hd he hv hst hw]
    by_cases hc : c = b ∧ k = l ∧ e = d
    · obtain ⟨rfl, rfl, rfl⟩ := hc
      rw [if_pos ⟨rfl, rfl, rfl⟩, (areaY_iff hl).2 ha]
      exact hsame.symm
    · rw [if_neg hc, h.dot c k e hk he]
      split
      next y' hy' =>
        refine (hother y' e _ fun hx => ?_).symm
        obtain ⟨rfl, rfl⟩ := hx
        rw [(areaY_iff hk).1 hy'] at ha
        cases ha
        exact hc ⟨rfl, rfl, rfl⟩
      next => rfl
end

theorem layDot_lt (u v : Nat) : layDot u v < 4 := by
  unfold layDot
  split
  · decide
  split <;> decide

/-- What a fold over places keeps. -/
theorem foldl_range_inv {α : Type} {f : α → Nat → α} {P : Nat → α → Prop} {a : α} {n : Nat} (h0 : P 0 a)
    (hs : ∀ k a, k < n → P k a → P (k + 1) (f a k)) : P n ((List.range n).foldl f a) := by
  induction n with
  | zero => exact h0
  | succ n ih =>
    rw [List.range_succ, List.foldl_append]
    exact hs n _ (Nat.lt_succ_self n) (ih fun k a hk => hs k a (Nat.lt_succ_of_lt hk))

theorem foldl_zipIdx_inv {α β : Type} {f : α → β × Nat → α} {P : Nat → α → Prop} {a : α} (l : List β) (x : β) (h0 : P 0 a)
    (hs : ∀ k a, k < l.length → P k a → P (k + 1) (f a (l.getD k x, k))) : P l.length (l.zipIdx.foldl f a) := by
  have hmap : l.zipIdx = (List.range l.length).map fun k => (l.getD k x, k) := by
    apply List.ext_getElem
    · simp
    · intro k hk _
      rw [List.length_zipIdx] at hk
      rw [List.getElem_zipIdx, List.getElem_map, List.getElem_range, List.getD_eq_getElem _ _ hk, Nat.zero_add]
  rw [hmap, List.foldl_map]
  exact foldl_range_inv h0 hs

section
variable {p : Port} {s t : State} {g : Nat → Nat → Nat → Nat}

theorem Pic.lay (h : Pic p s t g) {y d : Nat} (c : Nat) (hd : d < 6144) :
    Pic p s (t.lay p y d c) fun y' d' v => if y' = y ∧ d' = d then layDot (g y' d' v) c else g y' d' v := by
  unfold State.lay
  rw [h.areaLine]
  cases ha : s.areaLine p y with
  | none =>
    refine h.congr fun y' d' v hy _ => if_neg fun hx => ?_
    rw [hx.1, ha] at hy
    cases hy
  | some x =>
    obtain ⟨b, l⟩ := x
    have hl := areaLine_lt ha
    refine (h.unblank (b := b) hl).setDot ha hd (layDot_lt _ _) ?_ ?_ fun y' d' v hx => if_neg hx
    · rw [written_unblank t b hl]
      simp
    · rw [if_pos ⟨rfl, rfl⟩, dot_unblank t b hl hl hd, h.dot b l d hl hd, (areaY_iff hl).2 ha]

/-- A rectangle without MERGE becomes white, with MERGE it stays (05 R133). -/
def cleared (merge : Bool) (x y w h : Nat) (g : Nat → Nat → Nat → Nat) (y' d v : Nat) : Nat :=
  if merge then g y' d v else if x ≤ d ∧ d < x + w ∧ y ≤ y' ∧ y' < y + h then 0 else g y' d v

/-- A stretch of one line of the area becomes white. -/
theorem Pic.clearRow (h : Pic p s t g) {b : Fin 128} {y l x w : Nat} (ha : s.areaLine p y = some (b, l))
    (hw : (t.band b).written.getLsbD l = true) (hx : x + w ≤ 6144 ∨ w = 0) :
    Pic p s ((List.range w).foldl (fun u c => u.setDot b l (x + c) 0) t)
      fun y' d v => if y' = y ∧ x ≤ d ∧ d < x + w then 0 else g y' d v := by
  have hfold := foldl_range_inv (f := fun u c => u.setDot b l (x + c) 0) (n := w)
    (P := fun (c : Nat) (u : State) => (u.band b).written.getLsbD l = true ∧
      Pic p s u fun y' d v => if y' = y ∧ x ≤ d ∧ d < x + c then 0 else g y' d v)
    ⟨hw, h.congr fun y' d v _ _ => if_neg (by omega)⟩ fun c u hc hu => ?_
  · exact hfold.2
  · obtain ⟨hwr, hu⟩ := hu
    refine ⟨hwr, hu.setDot ha (by omega) (by decide) hwr (if_pos ⟨rfl, by omega, by omega⟩) fun y' d' v hne => ?_⟩
    have hiff : (y' = y ∧ x ≤ d' ∧ d' < x + (c + 1)) ↔ (y' = y ∧ x ≤ d' ∧ d' < x + c) := by omega
    simp only [hiff]

theorem Pic.clearRect (h : Pic p s t g) {x w : Nat} (y n : Nat) (merge : Bool) (hx : x + w ≤ 6144 ∨ w = 0) :
    Pic p s (t.clearRect p x y w n merge) (cleared merge x y w n g) := by
  refine foldl_range_inv (P := fun k u => Pic p s u (cleared merge x y w k g)) (h.congr fun y' d v _ _ => ?_) fun k u hk hu => ?_
  · rw [cleared, if_neg (by omega : ¬ (x ≤ d ∧ d < x + w ∧ y ≤ y' ∧ y' < y + 0)), ite_self]
  dsimp only
  rw [hu.areaLine]
  cases ha : s.areaLine p (y + k) with
  | none =>
    refine hu.congr fun y' d v hy _ => ?_
    have hne : y' ≠ y + k := fun he => by rw [he, ha] at hy; cases hy
    have hiff : y' < y + (k + 1) ↔ y' < y + k := by omega
    simp only [cleared, hiff]
  | some z =>
    obtain ⟨b, l⟩ := z
    have hl := areaLine_lt ha
    have hub := hu.unblank (b := b) hl
    cases merge with
    | true => exact hub
    | false =>
      refine (hub.clearRow ha (by rw [written_unblank u b hl]; simp) hx).congr fun y' d v _ _ => ?_
      by_cases hrow : y' = y + k ∧ x ≤ d ∧ d < x + w
      · rw [if_pos hrow, cleared, if_neg (by decide), if_pos (by omega)]
      · have hiff : (x ≤ d ∧ d < x + w ∧ y ≤ y' ∧ y' < y + (k + 1)) ↔ (x ≤ d ∧ d < x + w ∧ y ≤ y' ∧ y' < y + k) := by omega
        simp only [if_neg hrow, cleared, hiff]

/-- The dots of rows laid from line `y` and dot `x` on. -/
def laidOver (x y : Nat) (rows : List (List Nat)) (g : Nat → Nat → Nat → Nat) (y' d v : Nat) : Nat :=
  if y ≤ y' ∧ x ≤ d then laid (g y' d v) ((rows.getD (y' - y) []).getD (d - x) 0) else g y' d v

theorem laid_white (u : Nat) : laid u 0 = u := rfl

/-- One row of dots laid. -/
theorem Pic.layRow (h : Pic p s t g) {x : Nat} (y : Nat) (row : List Nat) (hx : x + row.length ≤ 6144 ∨ row = []) :
    Pic p s (row.zipIdx.foldl (fun u c => if c.1 = 0 then u else u.lay p y (x + c.2) c.1) t)
      fun y' d v => if y' = y ∧ x ≤ d then laid (g y' d v) (row.getD (d - x) 0) else g y' d v := by
  have hfold := foldl_zipIdx_inv (f := fun u c => if c.1 = 0 then u else u.lay p y (x + c.2) c.1)
    (P := fun k u => Pic p s u fun y' d v => if y' = y ∧ x ≤ d ∧ d < x + k then laid (g y' d v) (row.getD (d - x) 0) else g y' d v)
    row 0 (h.congr fun y' d v _ _ => if_neg (by omega)) fun k u hk hu => ?_
  · refine hfold.congr fun y' d v _ _ => ?_
    by_cases hd : d < x + row.length
    · simp only [hd, and_true]
    · have hout : row.getD (d - x) 0 = 0 := by
        rw [List.getD_eq_default]
        omega
      rw [hout, laid_white, ite_self, if_neg (by omega)]
  · have hin : x + k < 6144 := by
      rcases hx with hx | rfl
      · omega
      · cases hk
    have hnew : ∀ y' d, ¬ (y' = y ∧ d = x + k) → ((y' = y ∧ x ≤ d ∧ d < x + (k + 1)) ↔ (y' = y ∧ x ≤ d ∧ d < x + k)) := by omega
    dsimp only
    split
    next hc =>
      refine hu.congr fun y' d v _ _ => ?_
      by_cases hat : y' = y ∧ d = x + k
      · rw [if_pos (by omega), if_neg (by omega), hat.2, Nat.add_sub_cancel_left, hc, laid_white]
      · simp only [hnew y' d hat]
    next hc =>
      refine (hu.lay _ hin).congr fun y' d v _ _ => ?_
      by_cases hat : y' = y ∧ d = x + k
      · rw [if_pos (by omega), if_pos hat, if_neg (by omega), hat.2, Nat.add_sub_cancel_left, laid, if_neg hc]
      · simp only [hnew y' d hat, if_neg hat]

theorem Pic.layRows (h : Pic p s t g) {x : Nat} (y : Nat) (rows : List (List Nat))
    (hx : ∀ row ∈ rows, x + row.length ≤ 6144 ∨ row = []) : Pic p s (t.layRows p x y rows) (laidOver x y rows g) := by
  have hfold := foldl_zipIdx_inv
    (f := fun u row => row.1.zipIdx.foldl (fun u c => if c.1 = 0 then u else u.lay p (y + row.2) (x + c.2) c.1) u)
    (P := fun k u => Pic p s u fun y' d v => if y' < y + k then laidOver x y rows g y' d v else g y' d v)
    rows [] (h.congr fun y' d v _ _ => ?_) fun k u hk hu => ?_
  · refine hfold.congr fun y' d v _ _ => ?_
    split
    · rfl
    · have hout : rows.getD (y' - y) [] = [] := by
        rw [List.getD_eq_default]
        omega
      rw [laidOver, hout, List.getD_nil, laid_white, ite_self]
  · split
    · rw [laidOver, if_neg (by omega)]
    · rfl
  · have hmem : rows.getD k [] ∈ rows := by
      rw [List.getD_eq_getElem _ _ hk]
      exact List.getElem_mem hk
    refine (hu.layRow (y + k) _ (hx _ hmem)).congr fun y' d v _ _ => ?_
    by_cases hat : y' = y + k
    · subst hat
      rw [if_pos (by omega), laidOver, Nat.add_sub_cancel_left]
      simp only [Nat.lt_irrefl, if_false, true_and, Nat.le_add_right]
    · have hiff : y' < y + (k + 1) ↔ y' < y + k := by omega
      simp only [hiff, hat, false_and, if_false]
end

end Sys2Proof.Machine
end

section
/-! SUPPORT. Drawing an object: what the programs of RND that read and lay dots leave of the Skein (05 R133, R138 to R144). -/

namespace Sys2Proof.Machine

-- bits of a source

theorem take_drop_bytes (s : State) {a i n m : Nat} (h : i + n ≤ m) : ((s.bytes a m).drop i).take n = s.bytes (a + i) n := by
  induction i generalizing a m with
  | zero =>
    rw [List.drop_zero, Nat.add_zero]
    induction n generalizing a m with
    | zero => rfl
    | succ n ih =>
      obtain ⟨m, rfl⟩ := Nat.exists_eq_add_of_le' (show 1 ≤ m by omega)
      rw [State.bytes, List.take_succ_cons, ih (by omega), State.bytes]
  | succ i ih =>
    obtain ⟨m, rfl⟩ := Nat.exists_eq_add_of_le' (show 1 ≤ m by omega)
    rw [State.bytes, List.drop_succ_cons, ih (by omega), Nat.add_right_comm, Nat.add_assoc]

/-- Bits that lie in one byte of a number read from memory. -/
theorem bitsN_leNat_bytes (s : State) {a n i k : Nat} (hi : i / 8 < n) (hk : i % 8 + k ≤ 8) :
    bitsN (leNat (s.bytes a n)) i k = s.srcBits a i k := by
  induction n generalizing a i with
  | zero => exact absurd hi (Nat.not_lt_zero _)
  | succ n ih =>
    have hb := (s.byte a).isLt
    rw [State.bytes, leNat]
    by_cases hlow : i < 8
    · have h256 : 256 * leNat (s.bytes (a + 1) n) = 2 ^ i * (2 ^ k * (2 ^ (8 - i - k) * leNat (s.bytes (a + 1) n))) := by
        rw [← Nat.mul_assoc, ← Nat.mul_assoc, ← Nat.pow_add, ← Nat.pow_add, show i + k + (8 - i - k) = 8 by omega]
      rw [bitsN, h256, Nat.add_mul_div_left _ _ (Nat.two_pow_pos i), Nat.add_mul_mod_self_left, State.srcBits,
        Nat.div_eq_of_lt hlow, Nat.mod_eq_of_lt hlow, Nat.add_zero]
    · have hpow : 2 ^ i = 256 * 2 ^ (i - 8) := by
        rw [show (256 : Nat) = 2 ^ 8 from rfl, ← Nat.pow_add, Nat.add_sub_cancel' (Nat.not_lt.1 hlow)]
      have hdiv : ((s.byte a).toNat + 256 * leNat (s.bytes (a + 1) n)) / 256 = leNat (s.bytes (a + 1) n) := by omega
      have hrest := ih (a := a + 1) (i := i - 8) (by omega) (by omega)
      rw [bitsN] at hrest
      rw [bitsN, hpow, ← Nat.div_div_eq_div_mul, hdiv, hrest, State.srcBits, State.srcBits,
        show (i - 8) % 8 = i % 8 by omega, show a + 1 + (i - 8) / 8 = a + i / 8 by omega]

theorem getD_map_range {α : Type} (f : Nat → α) (x : α) {n i : Nat} (h : i < n) : ((List.range n).map f).getD i x = f i := by
  rw [List.getD_eq_getElem _ _ (by simpa using h), List.getElem_map, List.getElem_range]

theorem getD_rowDots {bpp w v c : Nat} (map : Nat → Nat) (hc : c < w) : (rowDots bpp w v map).getD c 0 = map (bitsN v (c * bpp) bpp) :=
  getD_map_range _ _ hc

theorem getD_take {α : Type} (l : List α) (n c : Nat) (x : α) : (l.take n).getD c x = if c < n then l.getD c x else x := by
  rw [List.getD_eq_getElem?_getD, List.getElem?_take, List.getD_eq_getElem?_getD]
  split <;> rfl

theorem getD_map_take {α : Type} (l : List (List α)) (n k : Nat) : (l.map (·.take n)).getD k [] = (l.getD k []).take n := by
  have hmap := List.getD_map (l := l) (d := []) (n := k) (f := fun x => x.take n)
  rwa [List.take_nil] at hmap

/-- Place `i` of a list whose elements are each repeated. -/
theorem getD_stretch {α : Type} {n : Nat} (hn : 0 < n) (l : List α) (i : Nat) (x : α) : (stretch n l).getD i x = l.getD (i / n) x := by
  induction l generalizing i with
  | nil => simp [stretch]
  | cons a l ih =>
    have hcons : stretch n (a :: l) = List.replicate n a ++ stretch n l := rfl
    rw [hcons]
    by_cases hi : i < n
    · rw [List.getD_append _ _ _ _ (by simpa using hi), Nat.div_eq_of_lt hi, List.getD_cons_zero,
        List.getD_eq_getElem _ _ (by simpa using hi), List.getElem_replicate]
    · have hle := Nat.not_lt.1 hi
      rw [List.getD_append_right _ _ _ _ (by simpa using hle), List.length_replicate, ih, Nat.div_eq_sub_div hn hle,
        List.getD_cons_succ]

theorem length_stretch {α : Type} (n : Nat) (l : List α) : (stretch n l).length = l.length * n := by
  induction l with
  | nil => simp [stretch]
  | cons a l ih =>
    have hcons : stretch n (a :: l) = List.replicate n a ++ stretch n l := rfl
    rw [hcons, List.length_append, List.length_replicate, ih, List.length_cons, Nat.succ_mul, Nat.add_comm]

-- programs that draw

/-- From a picture `g` of `s`, `m` brings `v` and leaves the picture `g'`. -/
def Draws {α : Type} (p : Port) (s : State) (g : Nat → Nat → Nat → Nat) (m : Rd α) (v : α) (g' : Nat → Nat → Nat → Nat) : Prop :=
  ∀ t, Pic p s t g → ∃ u, m t = (.ok v, u) ∧ Pic p s u g'

section
variable {p : Port} {s : State} {g g' g'' : Nat → Nat → Nat → Nat} {α β : Type}

theorem draws_pure (v : α) : Draws p s g (pure v) v g := fun t ht => ⟨t, rfl, ht⟩

theorem draws_bind {m : Rd α} {f : α → Rd β} {v : α} {w : β} (h : Draws p s g m v g') (h' : Draws p s g' (f v) w g'') :
    Draws p s g (m >>= f) w g'' := fun t ht => by
  obtain ⟨u, hu, hpic⟩ := h t ht
  obtain ⟨u', hu', hpic'⟩ := h' u hpic
  exact ⟨u', (rd_bind_ok hu f).trans hu', hpic'⟩

theorem draws_modify {f : State → State} (h : ∀ t, Pic p s t g → Pic p s (f t) g') : Draws p s g (rdModify f) () g' :=
  fun t ht => ⟨f t, rfl, h t ht⟩

theorem draws_read {m : Rd α} {v : α} (h : Answers OffSkein s m v) : Draws p s g m v g := fun t ht => by
  obtain ⟨u, hu, hread⟩ := h t ht.view
  exact ⟨u, hu, ht.reads hread⟩

theorem Draws.congr {m : Rd α} {v : α} (h : Draws p s g m v g')
    (hg : ∀ y d v, (s.areaLine p y).isSome = true → d < 6144 → g'' y d v = g' y d v) : Draws p s g m v g'' := fun t ht => by
  obtain ⟨u, hu, hpic⟩ := h t ht
  exact ⟨u, hu, hpic.congr hg⟩

/-- Bytes that RND can read and drawing does not change. -/
structure Source (s : State) (a n : Nat) : Prop where
  legible : s.Legible a
  off : ∀ k < n, OffSkein (a + k)

theorem Source.part {a n : Nat} (h : Source s a n) {i m : Nat} (hm : i + m ≤ n) : Source s (a + i) m :=
  ⟨h.legible.add i, fun k hk => by rw [Nat.add_assoc]; exact h.off (i + k) (by omega)⟩

theorem Source.rdNat {a n : Nat} (h : Source s a n) : Answers OffSkein s (rdNat a n) (leNat (s.bytes a n)) :=
  answers_rdNat h.off h.legible

/-- The rows of a bit map laid from line `y` on: `code r c` is dot `c` of row `r`. -/
def mapped (x y w n : Nat) (code : Nat → Nat → Nat) (g : Nat → Nat → Nat → Nat) (y' d v : Nat) : Nat :=
  if x ≤ d ∧ d < x + w ∧ y ≤ y' ∧ y' < y + n then laid (g y' d v) (code (y' - y) (d - x)) else g y' d v

theorem draws_drawMap {bpp w keep rb stride a x y n : Nat} {map : Nat → Nat} (hbits : bpp = 1 ∨ bpp = 2) (hkeep : keep ≤ w)
    (hrb : w * bpp ≤ 8 * rb) (hx : x + keep ≤ 6144 ∨ keep = 0) (k r : Nat) (hr : r + k = n)
    (hsrc : ∀ r < n, Source s (a + r * stride) rb) :
    Draws p s (mapped x y keep r (fun r c => map (s.srcBits (a + r * stride) (c * bpp) bpp)) g)
      (drawMap p x y bpp w keep rb stride map a k r) ()
      (mapped x y keep n (fun r c => map (s.srcBits (a + r * stride) (c * bpp) bpp)) g) := by
  induction k generalizing r with
  | zero =>
    cases hr
    exact draws_pure ()
  | succ k ih =>
    refine draws_bind (draws_read (hsrc r (by omega)).rdNat) (draws_bind (draws_modify fun t ht => ?_) (ih (r + 1) (by omega)))
    have hlen : ((rowDots bpp w (leNat (s.bytes (a + r * stride) rb)) map).take keep).length = keep := by
      simp [rowDots, hkeep]
    refine (ht.layRows (y + r) _ fun row hrow => ?_).congr fun y' d v _ _ => ?_
    · rw [List.mem_singleton] at hrow
      subst hrow
      rw [hlen]
      exact hx.imp id fun h => List.eq_nil_of_length_eq_zero (by rw [hlen, h])
    · have hcode : d - x < keep → ((rowDots bpp w (leNat (s.bytes (a + r * stride) rb)) map).take keep).getD (d - x) 0 =
          map (s.srcBits (a + r * stride) ((d - x) * bpp) bpp) := fun hd => by
        have hin : (d - x) * bpp / 8 < rb ∧ (d - x) * bpp % 8 + bpp ≤ 8 := by
          rcases hbits with rfl | rfl <;> omega
        rw [getD_take, if_pos hd, getD_rowDots map (by omega), bitsN_leNat_bytes s hin.1 hin.2]
      unfold laidOver mapped
      by_cases hat : y' = y + r
      · subst hat
        by_cases hd : x ≤ d
        · by_cases hdk : d < x + keep
          · rw [if_pos (by omega), if_pos ⟨Nat.le_refl _, hd⟩, if_neg (by omega), Nat.sub_self, Nat.add_sub_cancel_left,
              List.getD_cons_zero, hcode (by omega)]
          · rw [if_neg (by omega), if_pos ⟨Nat.le_refl _, hd⟩, if_neg (by omega), Nat.sub_self, List.getD_cons_zero, getD_take,
              if_neg (by omega), laid_white]
        · rw [if_neg (by omega), if_neg (by omega), if_neg (by omega)]
      · have hiff : (x ≤ d ∧ d < x + keep ∧ y ≤ y' ∧ y' < y + (r + 1)) ↔ (x ≤ d ∧ d < x + keep ∧ y ≤ y' ∧ y' < y + r) := by omega
        have hrow : y + r ≤ y' ∧ x ≤ d → ([(rowDots bpp w (leNat (s.bytes (a + r * stride) rb)) map).take keep].getD (y' - (y + r)) []) = [] :=
          fun h => List.getD_eq_default _ _ (by rw [List.length_singleton]; omega)
        simp only [hiff]
        by_cases hh : y + r ≤ y' ∧ x ≤ d
        · rw [hrow hh, List.getD_nil, laid_white, ite_self]
        · rw [if_neg hh]

theorem draws_map {bpp w keep rb stride a x y n : Nat} {map : Nat → Nat} (hbits : bpp = 1 ∨ bpp = 2) (hkeep : keep ≤ w)
    (hrb : w * bpp ≤ 8 * rb) (hx : x + keep ≤ 6144 ∨ keep = 0) (hsrc : ∀ r < n, Source s (a + r * stride) rb) :
    Draws p s g (drawMap p x y bpp w keep rb stride map a n 0) ()
      (mapped x y keep n (fun r c => map (s.srcBits (a + r * stride) (c * bpp) bpp)) g) := fun t ht =>
  draws_drawMap hbits hkeep hrb hx n 0 (Nat.zero_add n) hsrc t (ht.congr fun y' d v _ _ => if_neg (by omega))

theorem mapped_congr {x y w n : Nat} {code code' : Nat → Nat → Nat} (h : ∀ r c, r < n → c < w → code r c = code' r c) (y' d v : Nat) :
    mapped x y w n code g y' d v = mapped x y w n code' g y' d v := by
  unfold mapped
  split
  next hin => rw [h _ _ (by omega) (by omega)]
  next => rfl

/-- Rows laid that are no wider than `w` and no more than `n`. -/
theorem laidOver_eq {x y w n : Nat} {rows : List (List Nat)} (hn : rows.length ≤ n) (hw : ∀ row ∈ rows, row.length ≤ w) (y' d v : Nat) :
    laidOver x y rows g y' d v = mapped x y w n (fun r c => (rows.getD r []).getD c 0) g y' d v := by
  unfold laidOver mapped
  by_cases hin : y ≤ y' ∧ x ≤ d
  · rw [if_pos hin]
    split
    · rfl
    next hout =>
      have hwhite : (rows.getD (y' - y) []).getD (d - x) 0 = 0 := by
        by_cases hrow : y' - y < rows.length
        · have := hw _ (List.getElem_mem hrow)
          rw [List.getD_eq_getElem _ _ hrow, List.getD_eq_default _ _ (by omega)]
        · rw [List.getD_eq_default _ _ (Nat.not_lt.1 hrow), List.getD_nil]
      rw [hwhite, laid_white]
  · rw [if_neg hin, if_neg (by omega)]

/-- The dots of a rectangle laid over what it held, or over white without MERGE (05 R133). -/
def boxed (merge : Bool) (x y w n : Nat) (code : Nat → Nat → Nat) (y' d v : Nat) : Nat :=
  if x ≤ d ∧ d < x + w ∧ y ≤ y' ∧ y' < y + n then laid (if merge then v else 0) (code (y' - y) (d - x)) else v

theorem mapped_cleared (merge : Bool) (x y w n : Nat) (code : Nat → Nat → Nat) (y' d v : Nat) :
    mapped x y w n code (cleared merge x y w n fun _ _ v => v) y' d v = boxed merge x y w n code y' d v := by
  unfold mapped cleared boxed
  split
  next => rfl
  next => rw [ite_self]
end

-- the objects

section
variable {p : Port} {s : State} {e : Entry} {rows : List (List Nat)} {n : Nat}

theorem draws_raw (hfit : Obj.raw.Fits s p e rows) : Draws p s (fun _ _ v => v) (drawObject p e n .raw) .full (Obj.raw.over s p e rows) := by
  obtain ⟨hbase, hw, hx⟩ := hfit
  have hsrc : ∀ r < e.sp, Source s (e.w1.toNat + r * wbits e.w3 16 16) (wbits e.w3 0 16 / 4) := fun r _ =>
    ⟨.inl (by rw [flashEnd]; omega), fun k _ => .inr (by omega)⟩
  have hdraw : Draws p s (fun _ _ v => v) (drawObject p e n .raw) .full _ :=
    draws_bind (draws_modify fun t ht => ht.clearRect _ _ _ (.inl hx))
      (draws_bind (draws_map (.inr rfl) (Nat.le_refl _) (by omega) (.inl hx) hsrc) (draws_pure _))
  refine hdraw.congr fun y d v _ _ => ?_
  rw [mapped_cleared]
  simp only [boxed, Obj.over, Nat.mul_comm _ 2]

theorem draws_rule (hfit : Obj.rule.Fits s p e rows) : Draws p s (fun _ _ v => v) (drawObject p e n .rule) .full (Obj.rule.over s p e rows) := by
  have hx : e.x + wbits e.w3 0 16 ≤ 6144 := hfit
  have hdraw : Draws p s (fun _ _ v => v) (drawObject p e n .rule) .full _ :=
    draws_bind (draws_modify fun t ht => (ht.clearRect _ _ _ (.inl hx)).layRows _ _ fun row hrow => .inl (by
      rw [List.eq_of_mem_replicate hrow, List.length_map, List.length_range]
      exact hx)) (draws_pure _)
  refine hdraw.congr fun y d v _ _ => ?_
  rw [laidOver_eq (w := wbits e.w3 0 16) (n := e.sp) (by simp) fun row hrow => by
    rw [List.eq_of_mem_replicate hrow, List.length_map, List.length_range]]
  rw [mapped_congr (code' := fun _ c => if wbits e.w1 16 16 = 0 ∨ c % (wbits e.w1 0 16 + wbits e.w1 16 16) < wbits e.w1 0 16
    then wbits e.w3 16 2 else 0) fun r c hr hc => ?_]
  · rw [mapped_cleared]
    rfl
  · rw [List.getD_replicate _ hr, getD_map_range _ _ hc]

-- bar codes

/-- The dots along a bar code, bar `i` of the code first. -/
theorem getD_bars (ink : Nat) (ws : List Nat) (i k : Nat) :
    ((ws.zipIdx i).flatMap fun m => List.replicate m.1 (if m.2 % 2 = 0 then ink else 0)).getD k 0 = barAt ink ws (decide (i % 2 = 0)) k := by
  induction ws generalizing i k with
  | nil => rfl
  | cons w ws ih =>
    rw [List.zipIdx_cons, List.flatMap_cons, barAt]
    by_cases hk : k < w
    · rw [if_pos hk, List.getD_append _ _ _ _ (by simpa using hk), List.getD_replicate _ hk]
      simp only [decide_eq_true_eq]
    · have hpar : decide ((i + 1) % 2 = 0) = !decide (i % 2 = 0) := by
        rw [← decide_not]
        exact decide_eq_decide.2 (by omega)
      rw [if_neg hk, List.getD_append_right _ _ _ _ (by simpa using hk), List.length_replicate, ih, hpar]

theorem length_bars (ink : Nat) (ws : List Nat) :
    (ws.zipIdx.flatMap fun m => List.replicate m.1 (if m.2 % 2 = 0 then ink else 0)).length = ws.foldl (· + ·) 0 := by
  rw [← List.sum_eq_foldl, List.length_flatMap]
  simp only [List.length_replicate]
  rw [show (fun m : Nat × Nat => m.1) = Prod.fst from rfl, List.zipIdx_map_fst]

/-- Rows of one width, cleared and laid (05 R142). -/
theorem pic_rows {t : State} {x w y n : Nat} (merge : Bool) {l : List (List Nat)} (hpic : Pic p s t fun _ _ v => v)
    (hx : x + w ≤ 6144) (hn : l.length = n) (hw : ∀ row ∈ l, row.length = w) :
    Pic p s ((t.clearRect p x y (l.headD []).length l.length merge).layRows p x y l)
      (boxed merge x y w n fun r c => (l.getD r []).getD c 0) := by
  have hclear : Pic p s (t.clearRect p x y (l.headD []).length l.length merge) (cleared merge x y w n fun _ _ v => v) := by
    cases l with
    | nil =>
      subst hn
      refine (hpic.clearRect y 0 merge (.inr rfl)).congr fun y' d v _ _ => ?_
      rw [cleared, cleared, List.length_nil, if_neg (show ¬ (x ≤ d ∧ d < x + w ∧ y ≤ y' ∧ y' < y + 0) by omega),
        if_neg (show ¬ (x ≤ d ∧ d < x + 0 ∧ y ≤ y' ∧ y' < y + 0) by omega)]
    | cons row l =>
      rw [List.headD_cons, hw row List.mem_cons_self, hn]
      exact hpic.clearRect y n merge (.inl hx)
  refine (hclear.layRows y l fun row hrow => .inl (by rw [hw row hrow]; exact hx)).congr fun y' d v _ _ => ?_
  rw [laidOver_eq hn.le fun row hrow => (hw row hrow).le, mapped_cleared]

theorem boxed_congr {merge : Bool} {x y w n : Nat} {code code' : Nat → Nat → Nat}
    (h : ∀ r c, r < n → c < w → code r c = code' r c) (y' d v : Nat) : boxed merge x y w n code y' d v = boxed merge x y w n code' y' d v := by
  unfold boxed
  split
  next hin => rw [h _ _ (by omega) (by omega)]
  next => rfl

theorem draws_bars {ws : List Nat} (hsane : (Obj.bars ws).Sane s p e) (hfit : (Obj.bars ws).Fits s p e rows) :
    Draws p s (fun _ _ v => v) (drawObject p e n (.bars ws)) .full ((Obj.bars ws).over s p e rows) := by
  have hx : e.x + (if e.flags % 2 = 1 then wbits e.w3 0 16 else ws.foldl (· + ·) 0) ≤ 6144 := Nat.le_trans hsane hfit
  have hlen := length_bars (wbits e.w3 16 2) ws
  have hbar := getD_bars (wbits e.w3 16 2) ws 0
  unfold drawObject
  dsimp only
  generalize (ws.zipIdx.flatMap fun m => List.replicate m.1 (if m.2 % 2 = 0 then wbits e.w3 16 2 else 0)) = seq at hlen hbar ⊢
  by_cases hfl : e.flags % 2 = 1
  · rw [if_pos hfl] at hx ⊢
    refine Draws.congr (draws_bind (draws_modify fun t ht => pic_rows e.merge ht hx (by rw [List.length_map, hlen]) fun row hrow => ?_)
      (draws_pure _)) fun y d v _ _ => ?_
    · obtain ⟨k, -, rfl⟩ := List.mem_map.1 hrow
      exact List.length_replicate
    · rw [boxed_congr (code' := fun r _ => barAt (wbits e.w3 16 2) ws true r) fun r c hr hc => ?_]
      · simp only [Obj.over, if_pos hfl, boxed]
      · rw [← hlen] at hr
        have hrow : (seq.map (List.replicate (wbits e.w3 0 16))).getD r [] = List.replicate (wbits e.w3 0 16) (seq.getD r 0) := by
          rw [List.getD_eq_getElem _ _ (by rwa [List.length_map]), List.getElem_map, List.getD_eq_getElem _ _ hr]
        rw [hrow, List.getD_replicate _ hc, hbar]
        rfl
  · rw [if_neg hfl] at hx ⊢
    refine Draws.congr (draws_bind (draws_modify fun t ht => pic_rows e.merge ht hx List.length_replicate fun row hrow => ?_)
      (draws_pure _)) fun y d v _ _ => ?_
    · rw [List.eq_of_mem_replicate hrow, hlen]
    · rw [boxed_congr (code' := fun _ c => barAt (wbits e.w3 16 2) ws true c) fun r c hr hc => ?_]
      · simp only [Obj.over, if_neg hfl, boxed]
      · rw [List.getD_replicate _ hr, hbar]
        rfl

-- texts

/-- A dot of a cell laid (05 R138). -/
def celled (s : State) (e : Entry) (a : Atlas) (y d u : Nat) (c : TextCell) : Nat :=
  if c.x ≤ d ∧ d < c.x + a.w * e.xm then
    laid u (glyphMap a.bpp (wbits e.w3 8 2) (s.srcBits (a.data + (c.glyph * a.h + (y - e.y) / e.ym) * ((a.w * a.bpp + 7) / 8))
      ((d - c.x) / e.xm * a.bpp) a.bpp))
  else u

/-- The cells of a text laid in order. -/
def texted (s : State) (e : Entry) (a : Atlas) (cells : List TextCell) (g : Nat → Nat → Nat → Nat) (y d v : Nat) : Nat :=
  if e.y ≤ y ∧ y < e.y + a.h * e.ym then cells.foldl (celled s e a y d) (g y d v) else g y d v

theorem glyph_source {a : Atlas} (ha : a.Sane) (hs : s.FlashSound) {k : Nat} (hk : k < a.count) :
    Source s (a.data + k * a.h * ((a.w * a.bpp + 7) / 8)) (a.h * ((a.w * a.bpp + 7) / 8)) := by
  have hin := ha.inside
  rw [flashEnd] at hin
  have hle : (k * a.h + a.h) * ((a.w * a.bpp + 7) / 8) ≤ a.count * a.h * ((a.w * a.bpp + 7) / 8) :=
    Nat.mul_le_mul_right _ (by rw [← Nat.succ_mul]; exact Nat.mul_le_mul_right _ hk)
  rw [Nat.add_mul] at hle
  exact ⟨.inr hs, fun i hi => .inl (by omega)⟩

/-- The rows of a glyph, magnified. -/
def glyphRows (e : Entry) (a : Atlas) (bytes : List Byte) : List (List Nat) :=
  stretch e.ym ((List.range a.h).map fun r =>
    stretch e.xm (rowDots a.bpp a.w (leNat ((bytes.drop (r * ((a.w * a.bpp + 7) / 8))).take ((a.w * a.bpp + 7) / 8)))
      (glyphMap a.bpp (wbits e.w3 8 2))))

theorem length_glyphRows (e : Entry) (a : Atlas) (bytes : List Byte) : (glyphRows e a bytes).length = a.h * e.ym := by
  rw [glyphRows, length_stretch, List.length_map, List.length_range]

theorem length_glyphRow {e : Entry} {a : Atlas} {bytes : List Byte} {row : List Nat} (h : row ∈ glyphRows e a bytes) :
    row.length = a.w * e.xm := by
  obtain ⟨r, hr, hrow⟩ := List.mem_flatMap.1 h
  obtain ⟨k, -, rfl⟩ := List.mem_map.1 hr
  rw [List.eq_of_mem_replicate hrow, length_stretch, rowDots, List.length_map, List.length_range]

/-- A dot of a magnified glyph comes from the bits of the glyph's row (05 R137, R138). -/
theorem getD_glyphRows {a : Atlas} (ha : a.Sane) (base : Nat) {r c : Nat} (hr : r < a.h * e.ym) (hc : c < a.w * e.xm) :
    ((glyphRows e a (s.bytes base (a.h * ((a.w * a.bpp + 7) / 8)))).getD r []).getD c 0 =
      glyphMap a.bpp (wbits e.w3 8 2) (s.srcBits (base + r / e.ym * ((a.w * a.bpp + 7) / 8)) (c / e.xm * a.bpp) a.bpp) := by
  have hxm : 0 < e.xm := Nat.succ_pos _
  have hym : 0 < e.ym := Nat.succ_pos _
  have hrow : r / e.ym < a.h := (Nat.div_lt_iff_lt_mul hym).2 hr
  have hcol : c / e.xm < a.w := (Nat.div_lt_iff_lt_mul hxm).2 hc
  have hfit : r / e.ym * ((a.w * a.bpp + 7) / 8) + (a.w * a.bpp + 7) / 8 ≤ a.h * ((a.w * a.bpp + 7) / 8) := by
    rw [← Nat.succ_mul]
    exact Nat.mul_le_mul_right _ hrow
  have hin : c / e.xm * a.bpp / 8 < (a.w * a.bpp + 7) / 8 ∧ c / e.xm * a.bpp % 8 + a.bpp ≤ 8 := by
    rcases ha.bits with h | h <;> rw [h] <;> omega
  rw [glyphRows, getD_stretch hym, getD_map_range _ _ hrow, getD_stretch hxm, getD_rowDots _ hcol, take_drop_bytes s hfit,
    bitsN_leNat_bytes s hin.1 hin.2]

theorem draws_cells {a : Atlas} (ha : a.Sane) (hs : s.FlashSound) {cells : List TextCell}
    (hcells : ∀ c ∈ cells, c.glyph < a.count ∧ c.x + a.w * e.xm ≤ 6144) (g : Nat → Nat → Nat → Nat) :
    Draws p s g (drawCells p e a cells) () (texted s e a cells g) := by
  induction cells generalizing g with
  | nil => exact (draws_pure ()).congr fun y d v _ _ => ite_self _
  | cons c cells ih =>
    obtain ⟨hglyph, hx⟩ := hcells c List.mem_cons_self
    have hsrc := glyph_source ha hs hglyph
    refine Draws.congr (draws_bind (draws_read (answers_rdBytes hsrc.off hsrc.legible))
      (draws_bind (draws_modify fun t ht => ht.layRows e.y (glyphRows e a _) fun row hrow => .inl (by rwa [length_glyphRow hrow]))
        (ih (fun c hc => hcells c (List.mem_cons_of_mem _ hc)) _))) fun y d v _ _ => ?_
    unfold texted
    rw [laidOver_eq (length_glyphRows e a _).le fun row hrow => (length_glyphRow hrow).le,
      mapped_congr fun r k hr hk => getD_glyphRows ha _ hr hk, mapped]
    by_cases hin : e.y ≤ y ∧ y < e.y + a.h * e.ym
    · rw [if_pos hin, if_pos hin, List.foldl_cons, celled]
      simp only [hin.1, hin.2, and_true, Nat.add_mul, Nat.add_assoc]
    · rw [if_neg hin, if_neg hin, if_neg (by omega)]

theorem foldl_max_le {b : Nat} (f : TextCell → Nat) (l : List TextCell) (h : ∀ c ∈ l, f c ≤ b) {m : Nat} (hm : m ≤ b) :
    l.foldl (fun m c => max m (f c)) m ≤ b := by
  induction l generalizing m with
  | nil => exact hm
  | cons c l ih => exact ih (fun c hc => h c (List.mem_cons_of_mem _ hc)) (Nat.max_le.2 ⟨hm, h c List.mem_cons_self⟩)

theorem cleared_span (merge : Bool) (lo hi y n y' d v : Nat) : cleared merge lo y (hi - lo) n (fun _ _ v => v) y' d v =
    if y ≤ y' ∧ y' < y + n ∧ lo ≤ d ∧ d < hi then (if merge then v else 0) else v := by
  have hiff : (lo ≤ d ∧ d < lo + (hi - lo) ∧ y ≤ y' ∧ y' < y + n) ↔ (y ≤ y' ∧ y' < y + n ∧ lo ≤ d ∧ d < hi) := by omega
  rw [cleared]
  simp only [hiff]
  by_cases hin : y ≤ y' ∧ y' < y + n ∧ lo ≤ d ∧ d < hi
  · rw [if_pos hin, if_pos hin]
  · rw [if_neg hin, if_neg hin, ite_self]

theorem draws_text {a : Atlas} {cells : List TextCell} {part : Bool} (hsane : (Obj.text a cells part).Sane s p e)
    (hfit : (Obj.text a cells part).Fits s p e rows) (hs : s.FlashSound) :
    Draws p s (fun _ _ v => v) (drawObject p e (s.nEl p) (.text a cells part)) (if part then .part else .full)
      ((Obj.text a cells part).over s p e rows) := by
  obtain ⟨-, ha, hcells⟩ := hsane
  have hhead : s.nEl p ≤ 6144 := hfit
  have hhi : cells.foldl (fun m c => max m (c.x + a.w * e.xm)) 0 ≤ s.nEl p :=
    foldl_max_le _ cells (fun c hc => (hcells c hc).2) (Nat.zero_le _)
  have hdraw := fun g => draws_cells (p := p) ha hs (fun c hc => ⟨(hcells c hc).1, (hcells c hc).2.trans hhead⟩) g
  cases cells with
  | nil =>
    refine Draws.congr (draws_bind (draws_pure ()) (draws_pure _)) fun y d v _ _ => ?_
    simp [Obj.over]
  | cons c cells =>
    refine Draws.congr (draws_bind (draws_modify fun t ht => ht.clearRect e.y (a.h * e.ym) e.merge (by omega))
      (draws_bind (hdraw _) (draws_pure _))) fun y d v _ _ => ?_
    simp only [texted, Obj.over, cleared_span]
    by_cases hin : e.y ≤ y ∧ y < e.y + a.h * e.ym
    · rw [if_pos hin, if_pos hin]
      simp only [hin.1, hin.2, true_and]
      rfl
    · rw [if_neg hin, if_neg hin, if_neg fun h => hin ⟨h.1, h.2.1⟩]

end

-- run-length streams

/-- A stream that decodes without breaking: full lines, no more than asked for (05 R143). -/
structure Rle.Shaped (r : Rle) (w h : Nat) : Prop where
  lines : r.lines.length ≤ h
  width : ∀ row ∈ r.lines, row.length ≤ w
  cur : r.cur.length ≤ w
  last : r.lines.length = h → r.cur = []

section
variable {r r' : Rle} {w h : Nat}

theorem Rle.Shaped.rows (hr : r.Shaped w h) : r.rows.length ≤ h ∧ ∀ row ∈ r.rows, row.length ≤ w := by
  have hlines := hr.lines
  unfold Rle.rows
  by_cases hcur : r.cur = []
  · rw [hcur]
    simpa using ⟨hlines, hr.width⟩
  · have hmore : r.lines.length ≠ h := fun he => hcur (hr.last he)
    rw [if_neg (by simpa using hcur)]
    refine ⟨by simp only [List.length_append, List.length_reverse, List.length_singleton]; omega, fun row hrow => ?_⟩
    rcases List.mem_append.1 hrow with hrow | hrow
    · exact hr.width row (List.mem_reverse.1 hrow)
    · rw [List.mem_singleton] at hrow
      rw [hrow, List.length_reverse]
      exact hr.cur

theorem Rle.Shaped.addLine (hr : r.Shaped w h) (hless : r.lines.length < h) {row : List Nat} (hrow : row.length ≤ w) :
    Rle.Shaped { r with lines := row :: r.lines, cur := [] } w h :=
  ⟨hless, fun x hx => (List.mem_cons.1 hx).elim (fun h => h ▸ hrow) (hr.width x), Nat.zero_le _, fun _ => rfl⟩

theorem Rle.Shaped.run (hr : r.Shaped w h) (hless : r.lines.length < h) {code n : Nat} (hrun : r.run w code n = some r') :
    r'.Shaped w h := by
  unfold Rle.run at hrun
  split at hrun
  · cases hrun
  next hfit =>
    have hlen : (List.replicate n code ++ r.cur).length ≤ w := by
      rw [List.length_append, List.length_replicate]
      omega
    dsimp only at hrun
    split at hrun
    · cases hrun
      exact hr.addLine hless (by rwa [List.length_reverse])
    · cases hrun
      exact ⟨hr.lines, hr.width, hlen, fun he => absurd he (Nat.ne_of_lt hless)⟩

theorem Rle.Shaped.eol (hr : r.Shaped w h) (hless : r.lines.length < h) : (r.eol w).Shaped w h :=
  hr.addLine hless (by
    have := hr.cur
    rw [List.length_append, List.length_reverse, List.length_replicate]
    omega)

theorem Rle.Shaped.fill (hr : r.Shaped w h) (n : Nat) (hn : r.lines.length + n ≤ h) : (r.fill w n).Shaped w h := by
  induction n generalizing r with
  | zero => exact hr
  | succ n ih => exact ih (hr.eol (by omega)) (by simp only [Rle.eol, List.length_cons]; omega)

/-- Dots of a literal fill at most the current line. -/
theorem Rle.Shaped.lits (l : List Nat) (hr : r.Shaped w h) (hless : r.lines.length < h) (hlits : r.lits w l = some r') :
    r'.Shaped w h := by
  induction l generalizing r with
  | nil =>
    cases hlits
    exact hr
  | cons d l ih =>
    rw [Rle.lits] at hlits
    split at hlits
    next x hx =>
      have hxs := hr.run hless hx
      split at hlits
      · cases hlits
      next hopen =>
        by_cases hl : l = []
        · subst hl
          cases hlits
          exact hxs
        · refine ih hxs (lt_of_le_of_ne hxs.lines fun he => hopen ?_) hlits
          rw [hxs.last he]
          exact ⟨rfl, by simpa using hl⟩
    next => cases hlits

theorem Rle.Shaped.repeat (hr : r.Shaped w h) (n : Nat) (hcur : r.cur = []) (hn : r.lines.length + n ≤ h) :
    Rle.Shaped { r with lines := List.replicate n (r.lines.headD (List.replicate w 0)) ++ r.lines } w h := by
  refine ⟨?_, fun row hrow => ?_, hr.cur, fun _ => hcur⟩
  · rw [List.length_append, List.length_replicate]
    omega
  · rcases List.mem_append.1 hrow with hrow | hrow
    · rw [List.eq_of_mem_replicate hrow]
      cases hl : r.lines with
      | nil => simp
      | cons x l => exact hr.width x (by rw [hl]; exact List.mem_cons_self)
    · exact hr.width row hrow
end

theorem yields_rleDecode {stop w h : Nat} (fuel pos : Nat) {r : Rle} (hr : r.Shaped w h) :
    Yields (rleDecode stop w h fuel pos r) fun r' => r'.failed = none → r'.broken = false → r'.Shaped w h := by
  induction fuel generalizing pos r with
  | zero => exact yields_pure fun _ _ => ⟨hr.lines, hr.width, hr.cur, hr.last⟩
  | succ fuel ih =>
    unfold rleDecode
    dsimp only
    have hbrk : Yields (pure { r with broken := true } : Rd Rle) fun r' => r'.failed = none → r'.broken = false → r'.Shaped w h :=
      yields_pure fun _ hx => Bool.noConfusion hx
    have hfail : ∀ e, Yields (pure { r with failed := some e } : Rd Rle) fun r' => r'.failed = none → r'.broken = false → r'.Shaped w h :=
      fun e => yields_pure fun hx => by cases hx
    have hgo : ∀ pos' (o : Option Rle), (∀ x, o = some x → x.Shaped w h) → Yields (match o with
        | some r' => rleDecode stop w h fuel pos' r'
        | none => pure { r with broken := true } : Rd Rle) fun r' => r'.failed = none → r'.broken = false → r'.Shaped w h :=
      fun pos' o ho => by
        cases o with
        | none => exact hbrk
        | some x => exact ih pos' (ho x rfl)
    refine yields_ite (fun _ => yields_pure fun _ _ => hr) fun hless => ?_
    rw [Nat.not_le] at hless
    refine yields_ite (fun _ => hbrk) fun _ => yields_step fun c => ?_
    split
    · exact hfail _
    refine yields_step fun l => ?_
    split
    · exact hfail _
    · exact hbrk
    refine yields_ite (fun _ => hgo _ _ fun x hx => hr.run hless hx) fun _ => ?_
    refine yields_ite (fun _ => hgo _ (some _) fun x hx => by cases hx; exact hr.eol hless) fun _ => ?_
    refine yields_ite (fun _ => yields_ite (fun _ => hbrk) fun hfit => hgo _ (some _) fun x hx => ?_) fun _ => ?_
    · cases hx
      exact hr.repeat _ (by simpa using fun hc => hfit (.inl hc)) (by omega)
    refine yields_ite (fun _ => yields_ite (fun _ => hbrk) fun _ => hgo _ _ fun x hx => hr.run hless hx) fun _ => ?_
    refine yields_ite (fun _ => yields_pure fun _ _ => hr.fill _ (by omega)) fun _ => ?_
    exact yields_ite (fun _ => hbrk) fun _ => hgo _ _ fun x hx => hr.lits _ hless hx

section
variable {s : State}

theorem answered_rdToken {base n : Nat} (hsrc : Source s base n) (i k : Nat) :
    Answered OffSkein s (rdTry (rdToken (base + n) (base + i) k)) := by
  unfold rdToken
  by_cases hk : base + i + 1 + k > base + n
  · rw [if_pos hk]
    exact ⟨_, answers_rdTry (answers_pure _)⟩
  · have hpart := hsrc.part (i := i + 1) (m := k) (by omega)
    rw [if_neg hk]
    exact ⟨_, answers_rdTry (answers_bind (answers_rdBytes hpart.off hpart.legible) (answers_pure _))⟩

/-- What a stream outside the Skein decodes to does not depend on what is drawn meanwhile. -/
theorem answered_rleDecode {base n : Nat} (hsrc : Source s base n) (w h fuel i : Nat) (r : Rle) :
    Answered OffSkein s (rleDecode (base + n) w h fuel (base + i) r) := by
  induction fuel generalizing i r with
  | zero => exact answered_pure _
  | succ fuel ih =>
    unfold rleDecode
    dsimp only
    have hgo : ∀ k (o : Option Rle), Answered OffSkein s (match o with
        | some r' => rleDecode (base + n) w h fuel (base + i + 1 + k) r'
        | none => pure { r with broken := true } : Rd Rle) := fun k o => by
      cases o with
      | none => exact answered_pure _
      | some x =>
        rw [Nat.add_assoc, Nat.add_assoc]
        exact ih _ x
    refine answered_ite (answered_pure _) ?_
    by_cases hend : base + i ≥ base + n
    · rw [if_pos hend]
      exact answered_pure _
    rw [if_neg hend]
    have hbyte := hsrc.part (i := i) (m := 1) (by omega)
    refine answered_bind ⟨_, answers_rdTry (answers_rdByte (hbyte.off 0 Nat.one_pos) hbyte.legible)⟩ fun c => ?_
    split
    · exact answered_pure _
    refine answered_bind (answered_rdToken hsrc _ _) fun l => ?_
    split
    · exact answered_pure _
    · exact answered_pure _
    refine answered_ite (hgo _ _) (answered_ite (hgo _ (some _)) (answered_ite (answered_ite (answered_pure _) (hgo _ (some _))) ?_))
    exact answered_ite (answered_ite (answered_pure _) (hgo _ _)) (answered_ite (answered_pure _)
      (answered_ite (answered_pure _) (hgo _ _)))

theorem answers_stream {base n w h : Nat} (hsrc : Source s base n) {r : Rle}
    (hr : (rleDecode (base + n) w h (n + 1) base {} s).1 = .ok r) :
    Answers OffSkein s (rleDecode (base + n) w h (n + 1) base {}) r := by
  obtain ⟨v, hv⟩ : Answered OffSkein s (rleDecode (base + n) w h (n + 1) base {}) := answered_rleDecode hsrc w h (n + 1) 0 {}
  obtain ⟨t, ht, -⟩ := hv s (.refl _ s)
  rw [ht] at hr
  cases hr
  exact hv

theorem shaped_stream {stop base w h fuel : Nat} {r : Rle} (hr : (rleDecode stop w h fuel base {} s).1 = .ok r)
    (hf : r.failed = none) (hb : r.broken = false) : r.Shaped w h := by
  rcases hrun : rleDecode stop w h fuel base {} s with ⟨v, t⟩
  rw [hrun] at hr
  cases hr
  exact yields_rleDecode fuel base ⟨Nat.zero_le _, (fun _ hx => by cases hx), Nat.zero_le _, fun _ => rfl⟩ s r t hrun hf hb
end

section
variable {p : Port} {s : State} {e : Entry} {rows : List (List Nat)}

theorem draws_rle {n : Nat} (hfit : Obj.rle.Fits s p e rows) : Draws p s (fun _ _ v => v) (drawObject p e n .rle) .full (Obj.rle.over s p e rows) := by
  obtain ⟨hbase, hx, r, hr, hf, hb, rfl⟩ := hfit
  obtain ⟨hlen, hwidth⟩ := (shaped_stream hr hf hb).rows
  have hsrc : Source s e.w1.toNat (wbits e.w3 16 16 * 64) := ⟨.inl (by rw [flashEnd]; omega), fun k _ => .inr (by omega)⟩
  have hends : r.ends (.bad 3) .full = (pure .full : Rd Drawn) := by
    rw [Rle.ends, hf, hb]
    rfl
  refine Draws.congr (draws_bind (draws_modify fun t ht => ht.clearRect _ _ _ (.inl hx))
    (draws_bind (draws_read (answers_stream hsrc hr)) (draws_bind (draws_modify fun t ht => ht.layRows _ _ fun row hrow => .inl ?_)
      (by rw [hends]; exact draws_pure _)))) fun y d v _ _ => ?_
  · have := hwidth row hrow
    omega
  · rw [laidOver_eq hlen hwidth, mapped_cleared]
    rfl

theorem draws_logo {l : Logo} (hsane : (Obj.logo l).Sane s p e) (hfit : (Obj.logo l).Fits s p e rows) (hread : s.Legible l.data) :
    Draws p s (fun _ _ v => v) (drawObject p e (s.nEl p) (.logo l)) (if min l.w (s.nEl p - e.x) < l.w then .part else .full)
      ((Obj.logo l).over s p e rows) := by
  obtain ⟨-, hlogo, -, hwhere⟩ := hsane
  obtain ⟨hhead, hstream⟩ := hfit
  have hsrc : Source s l.data l.size := by
    refine ⟨hread, fun k hk => ?_⟩
    rw [flashEnd, wramBase, wramEnd] at hwhere
    rcases hwhere with h | h
    · exact .inl (by omega)
    · exact .inr (by omega)
  have hx : e.x + min l.w (s.nEl p - e.x) ≤ 6144 ∨ min l.w (s.nEl p - e.x) = 0 := by omega
  have hclear : ∀ t, Pic p s t (fun _ _ v => v) → Pic p s (t.clearRect p e.x e.y (min l.w (s.nEl p - e.x)) l.h e.merge) _ :=
    fun t ht => ht.clearRect _ _ _ hx
  unfold drawObject
  dsimp only
  cases hrle : l.rle with
  | true =>
    obtain ⟨r, hr, hf, hb, rfl⟩ := hstream hrle
    obtain ⟨hlen, -⟩ := (shaped_stream hr hf hb).rows
    have hends : ∀ good : Drawn, r.ends (.bad 3) good = (pure good : Rd Drawn) := fun good => by
      rw [Rle.ends, hf, hb]
      rfl
    have hwidth : ∀ row ∈ r.rows.map (·.take (min l.w (s.nEl p - e.x))), row.length ≤ min l.w (s.nEl p - e.x) := fun row hrow => by
      obtain ⟨x, -, rfl⟩ := List.mem_map.1 hrow
      exact List.length_take_le _ _
    refine Draws.congr (draws_bind (draws_modify hclear) (draws_bind (draws_read (answers_stream hsrc hr))
      (draws_bind (draws_modify fun t ht => ht.layRows _ _ fun row hrow => ?_) (by rw [hends]; exact draws_pure _)))) fun y d v _ _ => ?_
    · have := hwidth row hrow
      exact hx.imp (by omega) fun h => List.eq_nil_of_length_eq_zero (by omega)
    · rw [laidOver_eq (n := l.h) (by rwa [List.length_map]) hwidth, mapped_congr (code' := fun r' c => (r.rows.getD r' []).getD c 0) fun k c hk hc => ?_,
        mapped_cleared]
      · simp only [Obj.over, hrle, if_true, boxed]
      · rw [getD_map_take, getD_take, if_pos hc]
  | false =>
    have hsize := hlogo.size hrle
    have hrows : ∀ r < l.h, Source s (l.data + r * ((l.w * l.bpp + 31) / 32 * 4)) ((l.w * l.bpp + 31) / 32 * 4) := fun r hr => by
      refine hsrc.part (le_trans ?_ hsize)
      rw [← Nat.succ_mul]
      exact Nat.mul_le_mul_right _ hr
    refine Draws.congr (draws_bind (draws_modify hclear)
      (draws_bind (draws_map hlogo.bits (Nat.min_le_left _ _) (by omega) hx hrows) (draws_pure _))) fun y d v _ _ => ?_
    rw [mapped_cleared]
    simp only [Obj.over, hrle, boxed, Bool.false_eq_true, if_false]

/-- A granted step's object, once it has been read and lies on the head, is drawn (05 R133). -/
theorem draws_object {o : Obj} (hsane : o.Sane s p e) (hfit : o.Fits s p e rows)
    (hread : e.opc = 0x13 ∨ (e.needsDir = false ∧ 0x01000000 ≤ e.w1.toNat) ∨ s.FlashSound) :
    Draws p s (fun _ _ v => v) (drawObject p e (s.nEl p) o) (if o.partly s p e then .part else .full) (o.over s p e rows) := by
  cases o with
  | raw => exact draws_raw hfit
  | rle => exact draws_rle hfit
  | rule => exact draws_rule hfit
  | bars ws => exact draws_bars hsane hfit
  | print k => exact hfit.elim
  | text a cells part =>
    obtain ⟨hop, -, -⟩ := id hsane
    have hs : s.FlashSound := (hread.resolve_left (by rw [hop]; decide)).resolve_left fun h => by simp [Entry.needsDir, hop] at h
    exact draws_text hsane hfit hs
  | logo l =>
    obtain ⟨hop, -, hdata, -⟩ := id hsane
    have hlegible : s.Legible l.data := (hread.resolve_left (by rw [hop]; decide)).imp
      (fun h => by rw [hdata h.1, flashEnd]; omega) id
    have hcut : (min l.w (s.nEl p - e.x) < l.w) = (s.nEl p - e.x < l.w) := by
      rw [eq_iff_iff]
      omega
    have hdraw := draws_logo hsane hfit hlegible
    simp only [hcut] at hdraw
    simp only [Obj.partly, decide_eq_true_eq]
    exact hdraw
end

end Sys2Proof.Machine
end

section
/-! SUPPORT. DRAW_COMPLETE of the one step that RND holds (05 R131, R133, 04 R96); what O36 says. -/

namespace Sys2Proof.Machine

/-- Port `p` holds the one step of RND, a composition step that waits for nothing more. -/
structure Alone (s : State) (p : Port) (x : Step) : Prop where
  steps : s.steps p = [x]
  others : ∀ o, o ≠ p → s.steps o = []
  work : s.working Pg.rnd = true
  granted : x.granted = true
  retry : x.retry = none
  dir : s.dirWait x = false
  opc : x.e.opc ≠ 0x15

section
variable {s : State} {p : Port} {x : Step}

theorem Alone.drawable (h : Alone s p x) : s.drawable p = true := by
  simp [State.drawable, State.frontIs, h.work, h.steps, h.opc, h.granted, h.retry, h.dir]

theorem Alone.turned (h : Alone s p x) (c l : Option Port) : Alone (s.turned c l) p x := ⟨h.steps, h.others, h.work, h.granted, h.retry, h.dir, h.opc⟩

/-- A command whose meaning leaves what its guard restores. -/
theorem next_of_outer {i : Instr} {s t : State} {f : State → State} (he : exec i s = whenUp s f) (hup : s.Up) (ht : f s = t)
    (hp : t.pending = s.pending) (hchip : t.chip = s.chip) : exec i s = .next t := by
  rw [he, whenUp_up hup, ht, keepOuter_eq hp (congrArg _ hchip)]

theorem mem_rndOrder (s : State) (p : Port) : p ∈ s.rndOrder := by
  have hall : ∀ l p : Port, p ∈ (List.finRange 4).map fun k => (Fin.ofNat 4 (l.val + 1 + k.val) : Port) := by decide
  unfold State.rndOrder
  split
  · exact hall _ p
  · exact List.mem_finRange p

/-- RND draws the one step that it holds (05 R131). -/
theorem Alone.rndTake (h : Alone s p x) (n : Nat) : ∃ l, s.rndTake (n + 1) = s.turned (some p) l := by
  have hfind : s.rndOrder.find? (fun o => s.drawable o || s.startable o) = some p := by
    have hp : (s.drawable p || s.startable p) = true := by rw [h.drawable, Bool.true_or]
    obtain ⟨o, ho⟩ := Option.isSome_iff_exists.1
      (List.find?_isSome (p := fun o => s.drawable o || s.startable o) |>.2 ⟨p, mem_rndOrder s p, hp⟩)
    have hop : o = p := by
      by_contra hne
      have hpred := List.find?_some ho
      rw [drawable_empty (h.others o hne), startable_empty (h.others o hne)] at hpred
      cases hpred
    rw [ho, hop]
  unfold State.rndTake
  split
  next hcur =>
    obtain ⟨o, ho, hd⟩ := Option.any_eq_true _ _ |>.1 hcur
    have hop : o = p := by
      by_contra hne
      rw [drawable_empty (h.others o hne)] at hd
      cases hd
    exact ⟨s.rnd.last, by rw [← hop, ← ho]; rfl⟩
  next =>
    rw [hfind]
    simp only [h.drawable, if_true]
    exact ⟨some p, rndTake_drawing (s := s.turned (some p) (some p)) rfl (h.turned _ _).drawable n⟩

theorem Alone.rndGo (h : Alone s p x) : ∃ l, s.rndGo = s.turned (some p) l := by
  obtain ⟨n, hn⟩ : ∃ n, (List.finRange 4).foldl (fun n p => n + (s.steps p).length) 4 = n + 1 :=
    Nat.exists_eq_succ_of_ne_zero (by simp [List.finRange_succ])
  obtain ⟨l, hl⟩ := h.rndTake n
  refine ⟨l, ?_⟩
  rw [State.rndGo]
  rw [hn, hl]
  refine foldl_startPrint_id (s := s.turned (some p) l) (fun o y r hs _ => .inl ?_) _
  by_cases ho : o = p
  · rw [ho] at hs
    cases h.steps.symm.trans hs
    exact h.granted
  · cases (h.others o ho).symm.trans hs

/-- What DRAW_COMPLETE comes to once the object of the one step is read and drawn. -/
theorem Alone.draws (h : Alone s p x) : ∃ l,
    (∀ o u d w, rdObject p x.e (s.turned (some p) l) = (.ok (.ok o), u) → drawObject p x.e (s.nEl p) o u = (.ok d, w) →
      s.drawComplete p = (w.drawnStep x d).rndGo) ∧
    ∀ r u, rdObject p x.e (s.turned (some p) l) = (.ok (.error r), u) → s.drawComplete p = (u.drawnStep x (.bad r)).rndGo := by
  obtain ⟨l, hl⟩ := h.rndGo
  have hgo : ¬ ((s.turned (some p) l).rnd.cur ≠ some p ∨ ¬ (s.turned (some p) l).drawable p = true) := by
    rw [(h.turned _ _).drawable]
    simp [State.turned]
  have hel : (s.turned (some p) l).nEl p = s.nEl p := rfl
  refine ⟨l, fun o u d w hobj hdraw => ?_, fun r u hobj => ?_⟩
  · unfold State.drawComplete
    simp only [hl]
    rw [if_neg hgo, (h.turned _ _).steps]
    simp only [rd_bind_ok hobj, hel, hdraw]
  · unfold State.drawComplete
    simp only [hl]
    rw [if_neg hgo, (h.turned _ _).steps]
    simp only [rd_bind_ok hobj]
    rfl

/-- RND without steps does nothing. -/
theorem rndGo_empty (h : ∀ o, s.steps o = []) : s.rndGo = s :=
  rndGo_still ⟨.inr fun o => startable_empty (h o), fun o y l hs _ => by rw [h o] at hs; cases hs⟩
    (.inr fun o => ⟨drawable_empty (h o), startable_empty (h o)⟩)

theorem steps_dropStep (s : State) (uid : Nat) (o : Port) : (s.dropStep uid).steps o = (s.steps o).filter fun x => x.uid != uid := by
  simp [State.steps, State.dropStep]

/-- The one step that RND holds leaves when its command has its outcome. -/
theorem Alone.dropped (h : Alone s p x) {t : State} (ht : t.rnd.steps = (s.dropStep x.uid).rnd.steps) (o : Port) : t.steps o = [] := by
  have hdrop : t.steps o = (s.dropStep x.uid).steps o := congrArg (fun v : Vector (List Step) 4 => v[o]) ht
  rw [hdrop, steps_dropStep]
  by_cases ho : o = p
  · rw [ho, h.steps]
    simp
  · rw [h.others o ho]
    rfl

-- the object is drawn

variable {c : Cmd} {rows : List (List Nat)}

theorem drawnStep_done (s : State) (x : Step) (b : Bool) : s.drawnStep x (if b then .part else .full) =
    (s.count R.RND_STEPS).finish x.q x.uid (if b then St.partly else St.ok) := by
  cases b <;> rfl

/-- What drawing leaves of the queues, the threads and the steps. -/
theorem Pic.rest {t : State} {g : Nat → Nat → Nat → Nat} (h : Pic p s t g) : t.queues = s.queues ∧ t.seq = s.seq ∧ t.regs = s.regs ∧
    t.rnd.steps = s.rnd.steps ∧ t.pending = s.pending ∧ t.chip = s.chip ∧ t.time = s.time := by
  obtain ⟨m, v, f, k, l, rfl⟩ := h.frame
  exact ⟨rfl, rfl, rfl, rfl, rfl, rfl, rfl⟩

/-- A state with the memory and the bands of the drawing shows the picture. -/
theorem Pic.drew {t u : State} {o : Obj} (h : Pic p s t (o.over s p x.e rows)) (hmem : u.mem = t.mem) (hbands : u.skn.bands = t.skn.bands) :
    Drew o p x.e rows s u := by
  have hbyte : ∀ a, u.byte a = t.byte a := fun a => congrArg (sget (memDefault a) a) hmem
  have hband : ∀ b, u.band b = t.band b := fun b => congrArg (fun v : Vector Band 128 => v[b]) hbands
  have hdot : ∀ b l d, u.dot b l d = t.dot b l d := fun b l d => by simp only [State.dot, State.skeinByte, hbyte, hband]
  refine ⟨fun a ha => (hbyte a).trans (h.out a ha), fun b => ⟨by rw [hband]; exact h.band b, fun l d hl hd => ?_⟩⟩
  rw [hdot]
  exact h.dot b l d hl hd

/-- The state that DRAW_COMPLETE leaves where the object has been drawn: `w` is that of the drawing. -/
def State.drawnDone (w : State) (x : Step) (c : Cmd) (st : Byte) : State :=
  (((w.count R.RND_STEPS).dropStep c.uid).modQ x.q fun y => { y with cmds := [w.done c st] }).modThr x.q
    fun t => { t with wait := t.wait.after c.uid }

/-- The object of the one step is drawn, and its command completes (04 R96, 05 R133). -/
theorem Alone.drawn (h : Alone s p x) (hc : s.Holds x.q c) (hu : c.uid = x.uid) {o : Obj}
    (hobj : (rdObject p x.e s).1 = .ok (.ok o)) (hfit : o.Fits s p x.e rows)
    (hread : x.e.opc = 0x13 ∨ (x.e.needsDir = false ∧ 0x01000000 ≤ x.e.w1.toNat) ∨ s.FlashSound) :
    ∃ w, Pic p s w (o.over s p x.e rows) ∧
      (∀ o', (w.drawnDone x c (if o.partly s p x.e then St.partly else St.ok)).steps o' = []) ∧
      s.drawComplete p = w.drawnDone x c (if o.partly s p x.e then St.partly else St.ok) := by
  obtain ⟨l, hdraws, -⟩ := h.draws
  obtain ⟨v, hv⟩ := answered_rdObject (p := p) hread
  obtain ⟨t, ht, -⟩ := hv s (.refl _ s)
  have hvo : v = .ok o := by
    rw [ht] at hobj
    cases hobj
    rfl
  subst hvo
  have hview : View (fun _ => True) s (s.turned (some p) l) := ⟨rfl, rfl, ⟨rfl, rfl, rfl, rfl, rfl⟩, fun _ _ => rfl, id⟩
  obtain ⟨u, hu', hreads⟩ := hv _ hview
  obtain ⟨w, hw, hpic⟩ := draws_object (rdObject_sane ht) hfit hread u (((Pic.refl p s).turned (some p) l).reads hreads)
  obtain ⟨hqueues, hseq, -, hsteps, -, -, htime⟩ := hpic.rest
  obtain ⟨hcmds, hconts, -, hout, -, -, ⟨hprint, -⟩, hlevels⟩ := hc
  have hq : (w.count R.RND_STEPS).q x.q = s.q x.q := congrArg (fun v : Vector Queue 16 => v[x.q]) hqueues
  have hthr : ((w.count R.RND_STEPS).thr x.q).levels = [] := by
    have : (w.count R.RND_STEPS).thr x.q = s.thr x.q := congrArg (fun v : SeqSt => v.threads[x.q]) hseq
    rw [this, hlevels]
  have hend := finish_one (s := w.count R.RND_STEPS) (by rw [hq]; exact hcmds) (by rw [hq]; exact hconts) hout hprint hthr
    (if o.partly s p x.e then St.partly else St.ok) (by cases o.partly s p x.e <;> rfl)
  have hempty := h.dropped (t := w.drawnDone x c (if o.partly s p x.e then St.partly else St.ok)) (by
    show (w.dropStep c.uid).rnd.steps = _
    simp only [State.dropStep, hsteps, hu])
  refine ⟨w, hpic, hempty, ?_⟩
  rw [hdraws o u _ w hu' hw, drawnStep_done, ← hu, hend]
  exact rndGo_empty hempty

-- the area no longer holds the object

theorem rdObject_outside {e : Entry} (hop : e.opc = 0x10 ∨ e.opc = 0x13) (h : s.area p < e.y + e.sp) :
    rdObject p e s = (.ok (.error 0xA), s) := by
  unfold rdObject
  rw [rd_bind_ok (m := (fun u => (.ok u, u) : Rd State)) rfl]
  rcases hop with hop | hop
  · simp only [hop, if_pos h]
    rfl
  · simp only [hop, if_pos h]
    rfl

theorem ending_keeps (s : State) (uid : Nat) (q : QNum) (f : Queue → Queue) (g : Thread → Thread) :
    (((s.dropStep uid).modQ q f).modThr q g).pending = s.pending ∧ (((s.dropStep uid).modQ q f).modThr q g).chip = s.chip ∧
    (((s.dropStep uid).modQ q f).modThr q g).rnd = (s.dropStep uid).rnd := ⟨rfl, rfl, rfl⟩

theorem recordBad_keeps (s : State) (q : QNum) (v : Word) (uid : Nat) : (s.recordBad q v).pending = s.pending ∧
    (s.recordBad q v).chip = s.chip ∧ ((s.recordBad q v).dropStep uid).rnd = (s.dropStep uid).rnd := ⟨rfl, rfl, rfl⟩

theorem rdObject_print {e : Entry} (hop : e.opc = 0x15) : rdObject p e s = (.ok (.ok (.print e.sp)), s) := by
  unfold rdObject
  rw [rd_bind_ok (m := (fun u => (.ok u, u) : Rd State)) rfl]
  simp only [hop]
  rfl

theorem ended_done (hop : c.e.opc ≠ 0x15) (st : Byte) : s.ended c st = s.done c st := by
  rw [State.ended, if_neg hop]
  rfl

theorem badCmdWord_reason (c : Cmd) {reason : Nat} (h : reason < 128) : wbits (badCmdWord c reason) 0 7 = reason := by
  rw [wbits, bitsN, badCmdWord, BitVec.toNat_ofNat]
  omega

theorem steps_ne_badcmd (q : QNum) : R.RND_STEPS.addr 0 0 ∉ [R.SEQ_Tn_BADCMD.addr q.val 0] := by
  revert q
  decide

/-- The one command in flight, of the ring, completes BAD_COMMAND: what RND holds of it goes. -/
theorem badCmd_keeps {q : QNum} (hc : (s.q q).cmds = [c]) (hk : (s.q q).conts = []) (ho : c.out = none)
    (hring : c.ring = true) (hl : (s.thr q).levels = []) (reason : Nat) : (s.badCmd q c.uid reason).pending = s.pending ∧
      (s.badCmd q c.uid reason).chip = s.chip ∧ (s.badCmd q c.uid reason).rnd = (s.dropStep c.uid).rnd := by
  have hlive : s.liveCmd q c.uid = some c := by simp [State.liveCmd, hc, hk, ho]
  have hbad : s.badCmd q c.uid reason = (s.recordBad q (badCmdWord c reason)).finish q c.uid St.badCommand := by
    simp only [State.badCmd, hlive, hring, if_true, Nat.add_zero, State.recordBad, badCmdWord]
  obtain ⟨f, hf⟩ := finish_halting (s := s.recordBad q (badCmdWord c reason)) (by rwa [recordBad_q])
    (by rwa [recordBad_q]) ho hring (by rwa [recordBad_thr]) (st := St.badCommand) (by decide)
  obtain ⟨hpending, hchip, hrnd⟩ := ending_keeps (s.recordBad q (badCmdWord c reason)) c.uid q _ f
  obtain ⟨hpending', hchip', hrnd'⟩ := recordBad_keeps s q (badCmdWord c reason) c.uid
  rw [hbad, hf]
  exact ⟨hpending.trans hpending', hchip.trans hchip', hrnd.trans hrnd'⟩

/-- A step that the area no longer holds ends BAD_COMMAND with reason 0xA (05 R519). -/
theorem Alone.outside (h : Alone s p x) (hc : s.Holds x.q c) (hu : c.uid = x.uid) (hop : x.e.opc = 0x10 ∨ x.e.opc = 0x13)
    (hout : s.area p < x.e.y + x.e.sp) : ∃ t, s.drawComplete p = t ∧ t.pending = s.pending ∧ t.chip = s.chip ∧
      (∀ o, t.steps o = []) ∧ BadCommanded x.q c 0xA (s.count R.RND_STEPS) t := by
  obtain ⟨l, -, hdraws⟩ := h.draws
  obtain ⟨hcmds, hconts, -, hnone, hparent, -, -, hlevels⟩ := hc
  have hring : c.ring = true := by simp [Cmd.ring, hparent]
  have hobj := rdObject_outside (s := s.turned (some p) l) hop hout
  have hbad := badCmd_ring (s := (s.turned (some p) l).count R.RND_STEPS) (q := x.q) hcmds hconts hnone hring hlevels 0xA
  obtain ⟨hpending, hchip, hrnd⟩ := badCmd_keeps (s := (s.turned (some p) l).count R.RND_STEPS) (q := x.q) hcmds hconts hnone hring hlevels 0xA
  have hdone : s.drawComplete p = (((s.turned (some p) l).count R.RND_STEPS).badCmd x.q c.uid 0xA).rndGo := by
    rw [hdraws _ _ hobj, hu]
    rfl
  have hsteps := h.dropped (t := ((s.turned (some p) l).count R.RND_STEPS).badCmd x.q c.uid 0xA) (by rw [hrnd, hu]; rfl)
  rw [rndGo_empty hsteps] at hdone
  exact ⟨_, hdone, hpending, hchip, hsteps, ⟨hbad.mem, hbad.regs, hbad.word, hbad.page, hbad.queue, hbad.others⟩⟩
end

end Sys2Proof.Machine

open Sys2Proof Sys2Proof.Machine

/-- Settles O36: what SKN grants is what the pool of bands holds; what RND draws of an object is, dot by dot, the picture of the object,
as each line of an area lies on one line of a band of its own. -/
theorem renderStepsProceed : Obligations.RenderStepsProceed := by
  unfold Obligations.RenderStepsProceed
  intro s p hup
  refine ⟨fun w x l pool n hrun hw hwp hx hg hstill hn hpool => ⟨fun hfit => ?_, fun hlack => ?_⟩, fun hrun => ?_,
    fun w l r hw hl hp ha => ⟨fun hage => ?_, fun hage => ?_⟩,
    fun x c hsteps hothers hwork hg hretry hholds hu => ⟨fun o rows hobj hfit hdir hread => ?_, fun hop hout => ?_⟩,
    fun x l r hx hr hst => ⟨fun o hop hs hb hcount => ?_, fun hop hg hstill => ?_⟩,
    fun n o hp hchk hst hop hs hb hcount => ?_⟩
  · subst hn
    obtain ⟨r, c, t, hgrant⟩ := bandWaitGrant_grants hrun hw hwp hx hstill hpool hfit
    obtain ⟨v, r', hgive⟩ := bandFrame_giveBands s p ((s.newSlots p w.y w.h).zip pool)
    have hnodup : ((s.newSlots p w.y w.h).zip pool).map Prod.snd = pool.take (s.newSlots p w.y w.h).length := map_snd_zip_take _ _ hfit
    refine gives_of_outer (exec_bandWaitGrant s) hup hgrant ?_ ?_ ⟨?_, rfl, steps_setSteps_same _ _ _, fun e he => ?_, fun b hb => ?_, ?_, ?_⟩
    · rw [hgive]
      rfl
    · rw [hgive]
      rfl
    · rw [hgive]
      exact fun _ => rfl
    · refine giveBands_in ?_ he
      rw [hnodup]
      exact ((pool_sorted hpool).imp Fin.ne_of_lt).sublist (List.take_sublist _ _)
    · exact giveBands_out (by rwa [hnodup])
    · rw [hgive]
      rfl
    · rw [hgive]
      rfl
  · subst hn
    exact next_of_outer (exec_bandWaitGrant s) hup (bandWaitGrant_waits hw hwp hx hg hstill hpool hlack) rfl rfl
  · exact next_of_outer (exec_bandWaitGrant s) hup (if_neg (by rw [hrun]; decide)) rfl rfl
  · exact next_of_outer (exec_stepAged s p) hup (stepAged_late hw hl hp ha hage) rfl rfl
  · exact next_of_outer (exec_stepAged s p) hup (stepAged_early hw hl hp ha hage) rfl rfl
  · have hopc : x.e.opc ≠ 0x15 := fun hop => by
      rw [rdObject_print hop] at hobj
      cases hobj
      exact hfit
    obtain ⟨w, hpic, hempty, hdone⟩ := (Alone.mk hsteps hothers hwork hg hretry hdir hopc).drawn hholds hu hobj hfit hread
    obtain ⟨-, -, hregs, -, hpending, hchip, htime⟩ := hpic.rest
    refine gives_of_outer (exec_drawComplete s p) hup hdone hpending hchip ⟨?_, hempty p, ?_, hpic.drew rfl rfl⟩
    · have hcmds : ((w.drawnDone x c (if o.partly s p x.e then St.partly else St.ok)).q x.q).cmds =
          [w.done c (if o.partly s p x.e then St.partly else St.ok)] := by
        rw [State.drawnDone, q_modThr, q_modQ_same]
      rw [hcmds, State.done, State.done, State.timeLo, State.timeLo, htime]
    · show (w.count R.RND_STEPS).regs = _
      simp only [State.count, State.rd, State.wr_regs, hregs]
  · have hdir : s.dirWait x = false := by rcases hop with hop | hop <;> simp [State.dirWait, Entry.needsDir, hop]
    have hopc : x.e.opc ≠ 0x15 := by rcases hop with hop | hop <;> rw [hop] <;> decide
    obtain ⟨t, hdone, hpending, hchip, hempty, hmem, hregs, hword, -, hqueue, -⟩ :=
      (Alone.mk hsteps hothers hwork hg hretry hdir hopc).outside hholds hu hop hout
    refine gives_of_outer (exec_drawComplete s p) hup hdone hpending hchip ⟨sameMem_of_mem hmem, ?_, hempty p, ?_, ?_⟩
    · obtain ⟨-, -, -, -, -, -, ⟨hprint, -⟩, -⟩ := hholds
      have hcmds : (t.q x.q).cmds = [(s.count R.RND_STEPS).ended c St.badCommand] := congrArg Queue.cmds hqueue
      rw [hcmds, ended_done hprint]
      rfl
    · rw [hword]
      exact badCmdWord_reason c (by decide)
    · exact (hregs _ _ (steps_ne_badcmd x.q)).trans (rd_wr_same s R.RND_STEPS _ 0 0)
  · exact next_of_outer (exec_rndFlashRetry s p) hup (rndFlashRetry_waits hx hr hst hop hs hb hcount) rfl rfl
  · obtain ⟨t, c, o, hframe, hretry⟩ := rndFlashRetry_comes hx hr hst hop hg hstill
    have hrest := hframe.rest
    refine gives_of_outer (exec_rndFlashRetry s p) hup hretry ?_ ?_ ⟨?_, steps_setSteps_same _ _ _, ?_, ?_⟩
    · rw [hrest]
      rfl
    · rw [hrest]
      rfl
    · rw [hrest]
      exact fun _ => rfl
    · rw [hrest]
      rfl
    · rw [hrest]
      rfl
  · exact next_of_outer (exec_rndFlashRetry s p) hup (retryDir_waits hp hchk hst hop hs hb hcount) rfl rfl

end

section
/-! SUPPORT. The commit of a PRINT (04 R97, 05 R127): the lines that it appends, a measurement slot that gives way (09 R234), and
RND without the step; what that says of O28. -/

namespace Sys2Proof.Machine

-- the lines

section
variable {s : State} {p : Port} {n : Nat} (h : ∀ k < n, (s.slotBand p ((s.skn.o[p] + k) / 64)).isSome = true)
include h

/-- Where every line has its band, none is left out (05 R127). -/
theorem map_some_commitLines (uid : Nat) (q : QNum) (profile : Nat) (verify : Option Nat) :
    (s.commitLines p uid q n profile verify).map some = (List.range n).map fun k =>
      (s.slotBand p ((s.skn.o[p] + k) / 64)).map fun b =>
        { uid := uid, q := q, k := k, band := b, row := Fin.ofNat 64 ((s.skn.o[p] + k) % 64), profile := profile,
          verify := verify.map (· + k) } := by
  rw [State.commitLines, List.map_filterMap_some_eq_filter_map_isSome, List.filter_eq_self]
  intro l hl
  obtain ⟨k, hk, rfl⟩ := List.mem_map.1 hl
  rw [Option.isSome_map]
  exact h k (List.mem_range.1 hk)

theorem length_commitLines (uid : Nat) (q : QNum) (profile : Nat) (verify : Option Nat) :
    (s.commitLines p uid q n profile verify).length = n := by
  simpa using congrArg List.length (map_some_commitLines h uid q profile verify)

theorem getElem?_commitLines (uid : Nat) (q : QNum) (profile : Nat) {k : Nat} {b : Fin 128} (hk : k < n)
    (hb : s.slotBand p ((s.skn.o[p] + k) / 64) = some b) : (s.commitLines p uid q n profile none)[k]? =
      some ⟨uid, q, k, b, Fin.ofNat 64 ((s.skn.o[p] + k) % 64), profile, none⟩ := by
  have hget := congrArg (·[k]?) (map_some_commitLines h uid q profile none)
  simp only [List.getElem?_map, List.getElem?_range hk, Option.map_some, hb, Option.map_none] at hget
  exact Option.map_injective (Option.some_injective _) hget
end

section
variable (s : State) (p : Port) (uid : Nat) (q : QNum) (n profile : Nat) (verify : Option Nat)

theorem lines_commit_same : (s.commit p uid q n profile verify).lines p = s.lines p ++ s.commitLines p uid q n profile verify := by
  simp [State.commit, State.lines, State.modCmd, State.modQ]

theorem origin_commit_same : (s.commit p uid q n profile verify).skn.o[p] = (s.skn.o[p] + n) % 64 := by
  simp [State.commit, State.modCmd, State.modQ]

variable {p} {o : Port} (h : o ≠ p)
include h

theorem lines_commit_ne : (s.commit p uid q n profile verify).lines o = s.lines o := by
  have : ¬ p.val = o.val := fun e => h (Fin.ext e.symm)
  simp [State.commit, State.lines, State.modCmd, State.modQ, this]

theorem origin_commit_ne : (s.commit p uid q n profile verify).skn.o[o] = s.skn.o[o] := by
  have : ¬ p.val = o.val := fun e => h (Fin.ext e.symm)
  simp [State.commit, State.modCmd, State.modQ, this]
end

-- a measurement slot that gives way

/-- `t` is `s` but for registers and the state of SBA, of EHM, and of the head ports, which keep their HOLD. -/
structure SlotFrame (s t : State) : Prop where
  rest : t = { s with sba := t.sba, hp := t.hp, ehm := t.ehm, regs := t.regs }
  hold : ∀ o, (t.hpP o).hold = (s.hpP o).hold

section
variable {s t u : State}

theorem SlotFrame.refl (s : State) : SlotFrame s s := ⟨rfl, fun _ => rfl⟩

theorem SlotFrame.trans (h : SlotFrame s t) (h' : SlotFrame t u) : SlotFrame s u :=
  ⟨by rw [h'.rest, h.rest], fun o => (h'.hold o).trans (h.hold o)⟩

theorem SlotFrame.wr (h : SlotFrame s t) (r : Reg) (v : Word) (i : Nat) : SlotFrame s (t.wr r v i) :=
  h.trans ⟨rfl, fun _ => rfl⟩

theorem SlotFrame.modEhm (h : SlotFrame s t) (p : Port) (f : EhmPort → EhmPort) : SlotFrame s (t.modEhm p f) :=
  h.trans ⟨rfl, fun _ => rfl⟩

theorem slotFrame_padsQuiet (s : State) (p : Port) : SlotFrame s (s.padsQuiet p) := by
  refine ⟨rfl, fun o => ?_⟩
  by_cases ho : o = p
  · simp [ho, State.hpP, State.padsQuiet, State.modHp]
  · have : ¬ p.val = o.val := fun e => ho (Fin.ext e.symm)
    simp [State.hpP, State.padsQuiet, State.modHp, this]

theorem slotFrame_dropSlot (s : State) (p : Port) (counter : Reg) : SlotFrame s (s.dropSlot p counter) := by
  unfold State.dropSlot
  split
  · exact .refl s
  next x _ =>
    have hquiet : SlotFrame s ((if x.grant.isSome then s.endResv p else s).padsQuiet p) := by
      refine SlotFrame.trans ?_ (slotFrame_padsQuiet _ p)
      split
      · exact ⟨rfl, fun _ => rfl⟩
      · exact .refl s
    dsimp only
    split
    · exact ((((hquiet.wr _ _ _).modEhm _ _).wr _ _ _).modEhm _ _).wr _ _ _
    · exact ((hquiet.wr _ _ _).modEhm _ _).wr _ _ _

/-- A commit makes a measurement yield (09 R234). -/
theorem slotFrame_measureYield (s : State) (p : Port) : SlotFrame s (s.measureYield p) := by
  unfold State.measureYield
  split
  · exact .refl s
  · split
    · exact ⟨rfl, fun _ => rfl⟩
    · exact slotFrame_dropSlot s p _

theorem slotFrame_govGrew (s : State) (p : Port) : SlotFrame s (s.govGrew p) := ⟨rfl, fun _ => rfl⟩
end

-- RND without the step

theorem drawable_congr {s t : State} {o : Port} (hpages : t.pages = s.pages) (hchk : t.rnd.dirChk = s.rnd.dirChk)
    (hsteps : t.steps o = s.steps o) : t.drawable o = s.drawable o := by
  have hpage : t.page Pg.rnd = s.page Pg.rnd := congrArg (fun v : Vector PageSt 44 => v[Pg.rnd]) hpages
  have hwork : t.working Pg.rnd = s.working Pg.rnd := by rw [State.working, hpage, State.working]
  have hwait : t.dirWait = s.dirWait := funext fun x => by simp only [State.dirWait, hchk]
  rw [State.drawable, State.frontIs, hwork, hsteps, hwait]
  rfl

/-- RND takes up nothing of another port when a port holds no step any more. -/
theorem rndGo_left {s t : State} {p : Port} (h : s.RndStill p) (hrnd : t.rnd = (s.setSteps p []).rnd) (hpages : t.pages = s.pages)
    (hwaits : t.skn.waits = s.skn.waits) : t.rndGo = t := by
  have hsteps : ∀ o, t.steps o = (s.setSteps p []).steps o := fun o => congrArg (fun r : RndSt => r.steps[o]) hrnd
  have hp : t.steps p = [] := (hsteps p).trans (steps_setSteps_same s p [])
  have hne : ∀ o, o ≠ p → t.steps o = s.steps o := fun o ho => (hsteps o).trans (steps_setSteps_ne s [] ho)
  rcases h with hempty | ⟨⟨o, ho, hcur, hdraw⟩, hprint⟩
  · refine rndGo_empty fun o => ?_
    by_cases ho : o = p
    · exact ho ▸ hp
    · exact (hne o ho).trans (hempty o ho)
  · have hchk : t.rnd.dirChk = s.rnd.dirChk := by rw [hrnd]; rfl
    refine rndGo_busy ⟨⟨o, ?_, (drawable_congr hpages hchk (hne o ho)).trans hdraw⟩, fun o' y l hs hop => ?_⟩
    · rw [hrnd]
      exact hcur
    · by_cases ho' : o' = p
      · rw [ho', hp] at hs
        cases hs
      · rw [hwaits]
        exact hprint o' y l ho' ((hne o' ho').symm.trans hs) hop

-- the command

theorem atEntry_stays {s : State} {q : QNum} (h : (s.thr q).leaving = false) : s.atEntry q = s := by
  simp [State.atEntry, h]

/-- `s` with the lines of the PRINT `c` committed outside a verification window, its step gone and its thread going on. -/
def State.printed (s : State) (p : Port) (q : QNum) (c : Cmd) : State :=
  ((s.setSteps p []).commit p c.uid q c.e.sp (s.q q).profile none).modThr q fun t => { t with wait := .none }

/-- PRINT_COMMIT of the step at the front of its port, with no window and no HOLD (05 R127). -/
theorem printCommit_eq {s : State} {q : QNum} {p : Port} {x : Step} {c : Cmd} (hwait : (s.thr q).wait = .commit c.uid)
    (hport : s.qPort q = some p) (hsteps : s.steps p = [x]) (hu : x.uid = c.uid) (hg : x.granted = true) (hstill : s.RndStill p)
    (hleave : (s.thr q).leaving = false) (hrun : s.running Pg.skn = true) (hlive : s.liveCmd q c.uid = some c)
    (hwin : s.win p = none) (hhold : (s.hpP p).hold = none) :
    s.printCommit q = ((s.printed p q c).measureYield p).govGrew p ∧
      SlotFrame (s.printed p q c) (((s.printed p q c).measureYield p).govGrew p) := by
  have hframe := (slotFrame_measureYield (s.printed p q c) p).trans (slotFrame_govGrew _ p)
  refine ⟨?_, hframe⟩
  have hthr : ((s.printed p q c).thr q).leaving = false := by
    rw [State.printed, thr_modThr_same]
    exact hleave
  have hhold' := (hframe.hold p).trans (show ((s.printed p q c).hpP p).hold = none from hhold)
  have hgo : (((s.printed p q c).measureYield p).govGrew p).rndGo = ((s.printed p q c).measureYield p).govGrew p :=
    rndGo_left hstill (by rw [hframe.rest]; rfl) (by rw [hframe.rest]; rfl) (by rw [hframe.rest]; rfl)
  have hready : ¬ (x.uid ≠ c.uid ∨ ¬ x.granted = true ∨ ¬ s.running Pg.skn = true) := by simp [hu, hg, hrun]
  simp only [State.printCommit, hwait, hport, hsteps, hlive]
  rw [if_neg hready]
  simp only [hwin, Option.filter_none, Option.map_none]
  rw [← State.printed, atEntry_stays hthr, hhold']
  exact hgo

end Sys2Proof.Machine

open Sys2Proof Sys2Proof.Machine

/-- Settles O28: beside the commit itself, a measurement slot gives way, and RND, which keeps no step of the port, takes nothing up. -/
theorem printCommits : Obligations.PrintCommits := by
  unfold Obligations.PrintCommits
  intro s q p x c hup hwait hport hsteps hg hstill hleave hrun hcmds hconts hu ho hwin hhold hbands
  have hlive : s.liveCmd q c.uid = some c := by simp [State.liveCmd, hcmds, hconts, ho]
  rw [← hu] at hwait
  obtain ⟨hcommit, hframe⟩ := printCommit_eq hwait hport hsteps hu.symm hg hstill hleave hrun hlive hwin hhold
  have hexec : exec (.printCommit q) s = whenUp s fun s => s.printCommit q := rfl
  have hrest := hframe.rest
  generalize ((s.printed p q c).measureYield p).govGrew p = t at hcommit hrest
  have hskn : t.skn = (s.printed p q c).skn := by rw [hrest]
  have hlines : t.lines p = s.lines p ++ s.commitLines p c.uid q c.e.sp (s.q q).profile none :=
    (congrArg (fun k : SknSt => k.lines[p]) hskn).trans (lines_commit_same (s.setSteps p []) p c.uid q c.e.sp _ none)
  refine gives_of_outer hexec hup hcommit (by rw [hrest]; rfl) (by rw [hrest]; rfl) ⟨?_, ?_, ?_, ?_, ?_, ?_, ?_, ?_, ?_⟩
  · rw [hrest]
    exact fun _ => rfl
  · rw [hskn]
    exact origin_commit_same (s.setSteps p []) p c.uid q c.e.sp _ none
  · have hthr : t.thr q = (s.printed p q c).thr q := by rw [hrest]; rfl
    rw [hthr, State.printed, thr_modThr_same]
  · have hrnd : t.steps p = (s.setSteps p []).steps p := by rw [hrest]; rfl
    exact hrnd.trans (steps_setSteps_same s p [])
  · have hq : t.q q = ((s.setSteps p []).modCmd q c.uid fun c' => { c' with committed := true, lines := c.e.sp }).q q := by
      rw [hrest]
      rfl
    rw [hq, modCmd_one (s := s.setSteps p []) hcmds hconts ho, q_modQ_same]
  · rw [hlines, List.length_append, length_commitLines hbands]
  · intro i hi
    rw [hlines, List.getElem?_append_left hi]
  · intro k b hk hb
    rw [hlines, List.getElem?_append_right (Nat.le_add_right _ _), Nat.add_sub_cancel_left]
    exact getElem?_commitLines hbands c.uid q _ hk hb
  · intro o hne
    exact ⟨(congrArg (fun k : SknSt => k.lines[o]) hskn).trans (lines_commit_ne (s.setSteps p []) c.uid q c.e.sp _ none hne),
      (congrArg (fun k : SknSt => k.o[o]) hskn).trans (origin_commit_ne (s.setSteps p []) c.uid q c.e.sp _ none hne)⟩

end

section
/-! SUPPORT. The header check of the resource directory where flash is sound (05 R134); what that says of O37. -/

namespace Sys2Proof.Machine

theorem cells_of_sound {s : State} (h : s.FlashSound) (a n : Nat) : s.cells a n = s.bytes a n := by
  induction n generalizing a with
  | zero => rfl
  | succ n ih => rw [State.cells, State.bytes, cell_of_sound h, ih]

/-- Counts and tables of the header at `base`, if it passes the check (05 R134). -/
def State.header (s : State) (base : Nat) : Option (Nat × Nat × Nat × Nat) :=
  if leNat (s.cells base 4) = 0x44524B49 ∧ leNat (s.cells (base + 4) 2) = 1 ∧ leNat (s.cells (base + 6) 2) ≤ 256 ∧
      leNat (s.cells (base + 8) 2) ≤ 1024 then
    some (leNat (s.cells (base + 6) 2), leNat (s.cells (base + 8) 2), leNat (s.cells (base + 12) 4), leNat (s.cells (base + 16) 4))
  else none

section
variable {s : State} (h : s.FlashSound)
include h

theorem answers_rdNat_cells (a n : Nat) : Answers (fun _ => True) s (rdNat a n) (leNat (s.cells a n)) := by
  rw [cells_of_sound h]
  exact answers_rdNat (fun _ _ => trivial) (.inr h)

/-- Sound flash brings the header as its cells hold it. -/
theorem answers_rdHeader (base : Nat) : Answers (fun _ => True) s (rdHeader base) (s.header base) := by
  unfold rdHeader
  iterate 6 refine answers_bind (answers_rdNat_cells h _ _) ?_
  unfold State.header
  split
  · exact answers_pure _
  · exact answers_pure _

variable (hsteps : ∀ p, s.steps p = [])
include hsteps

/-- A header that passes the check names the directory's counts and tables, and RND without steps takes nothing up. -/
theorem checkDir_passes {na nl ta tl : Nat} (hhead : s.header s.dirBase = some (na, nl, ta, tl)) : ∃ f, s.checkDir =
    { s with
      flc := f
      rnd := { s.rnd with dirValid := true, nAtlas := na, nLogo := nl, atlasTab := ta, logoTab := tl, dirChk := none } } := by
  obtain ⟨t, hread, ht⟩ := answers_rdHeader h s.dirBase s (.refl _ s)
  obtain ⟨f, rfl⟩ := ht.rest
  refine ⟨f, ?_⟩
  rw [hhead] at hread
  simp only [State.checkDir, hread]
  exact rndGo_empty hsteps

/-- A header that fails the check leaves no directory and sets DIRERR. -/
theorem checkDir_fails (hhead : s.header s.dirBase = none) : ∃ f, s.checkDir =
    { s with flc := f, rnd := { s.rnd with dirValid := false, nAtlas := 0, nLogo := 0, dirChk := none } }.irq Pg.rnd 4 := by
  obtain ⟨t, hread, ht⟩ := answers_rdHeader h s.dirBase s (.refl _ s)
  obtain ⟨f, rfl⟩ := ht.rest
  refine ⟨f, ?_⟩
  rw [hhead] at hread
  simp only [State.checkDir, hread]
  exact rndGo_empty hsteps
end

theorem bankFailed_wr (s : State) {r : Reg} {i j : Nat} (v : Word) (h : R.LCS_CASTON.addr 0 0 ≠ r.addr i j) (b : Nat) :
    (s.wr r v i j).bankFailed b = s.bankFailed b := by
  have hrd : (s.wr r v i j).rd R.LCS_CASTON = s.rd R.LCS_CASTON := rd_wr_ne s v h
  simp only [State.bankFailed, State.flag, State.fld, F.LCS_CASTON_FLB0, F.LCS_CASTON_FLB1, hrd]

theorem State.FlashSound.wr {s : State} (h : s.FlashSound) {r : Reg} {i j : Nat} (v : Word) (hr : R.LCS_CASTON.addr 0 0 ≠ r.addr i j) :
    (s.wr r v i j).FlashSound := by
  obtain ⟨hst, hop, hundef, hecc, h0, h1, hbufs⟩ := h
  exact ⟨hst, hop, hundef, hecc, (bankFailed_wr s v hr 0).trans h0, (bankFailed_wr s v hr 1).trans h1, hbufs⟩

theorem flashSound_idle {s : State} (hrun : s.running Pg.flc = true) (hop : s.flc.op = none) (h0 : s.bankFailed 0 = false)
    (h1 : s.bankFailed 1 = false) (hecc : s.flc.ecc = []) (hundef : s.flc.undef = []) (hbufs : s.flc.bufs[(1 : Fin 3)] = []) :
    s.FlashSound := by
  have hst : (s.page Pg.flc).st = .run := of_decide_eq_true hrun
  exact ⟨by rw [hst]; decide, hop, hundef, hecc, h0, h1, by simp [hbufs]⟩

/-- What a write of RND_DIR stores, before the check of an RND in RUN (05 R134). -/
def State.dirStored (s : State) (v : Word) : State :=
  { s.wr R.RND_DIR (v &&& 0x00FFF000) with rnd := { s.rnd with dirChk := none } }

theorem dirBase_dirStored (s : State) (v : Word) : (s.dirStored v).dirBase = wbits v 12 12 * 4096 := by
  have hmask : wbits (v &&& 0x00FFF000) 12 12 = wbits v 12 12 := by
    refine Nat.eq_of_testBit_eq fun k => ?_
    have hk : ∀ k < 12, (0x00FFF000 : Word).getLsbD (12 + k) = true := by decide
    rw [testBit_wbits, testBit_wbits, BitVec.getLsbD_and]
    by_cases h : k < 12
    · rw [hk k h, Bool.and_true]
    · simp [h]
  have hrd : (s.dirStored v).rd R.RND_DIR = v &&& 0x00FFF000 := rd_wr_same s _ _ 0 0
  rw [State.dirBase, State.fld, show F.RND_DIR_BASE.reg = R.RND_DIR from rfl, hrd]
  exact congrArg (· * 4096) hmask

theorem rndDirWrite_run {s : State} {v : Word} (h : s.running Pg.rnd = true) : s.rndDirWrite v = (s.dirStored v).checkDir :=
  if_pos h

theorem exec_rndDirCheck {s : State} {v : Word} (h : s.Open Pg.rnd) : exec (.rndDirCheck v) s = whenUp s fun s => s.rndDirWrite v := by
  have hexec : exec (.rndDirCheck v) s = whenPage Pg.rnd s fun s => s.rndDirWrite v := rfl
  rw [hexec, whenPage_open h, whenUp_up h.1]

end Sys2Proof.Machine

open Sys2Proof Sys2Proof.Machine

/-- Settles O37: sound flash brings the header as it is stored, and RND, which holds no step, only takes its check's end. -/
theorem directoryIsChecked : Obligations.DirectoryIsChecked := by
  unfold Obligations.DirectoryIsChecked
  intro s v base hopen hbase
  refine ⟨fun hrun hsteps hop hflc h0 h1 hecc hundef hbufs => ?_, fun hrun => ?_⟩
  · have hsound : (s.dirStored v).FlashSound :=
      (flashSound_idle hflc hop h0 h1 hecc hundef hbufs).wr (v &&& 0x00FFF000) (by decide)
    have hhead : (s.dirStored v).header (s.dirStored v).dirBase = s.header base := by
      rw [dirBase_dirStored, hbase]
      rfl
    have hregs : SameRegsBut [R.RND_DIR.addr 0 0] s (s.dirStored v) := sameRegs_wr s R.RND_DIR _ 0 0
    have hrd : (s.dirStored v).rd R.RND_DIR = v &&& 0x00FFF000 := rd_wr_same s _ _ 0 0
    by_cases hgood : leNat (s.cells base 4) = 0x44524B49 ∧ leNat (s.cells (base + 4) 2) = 1 ∧
        leNat (s.cells (base + 6) 2) ≤ 256 ∧ leNat (s.cells (base + 8) 2) ≤ 1024
    · obtain ⟨f, hcheck⟩ := checkDir_passes hsound hsteps (hhead.trans (if_pos hgood))
      exact gives_of_outer (exec_rndDirCheck hopen) hopen.1 ((rndDirWrite_run hrun).trans hcheck) rfl rfl
        ⟨fun _ => rfl, hrd, hregs, iff_of_true rfl hgood, fun _ => ⟨rfl, rfl, rfl, rfl, rfl⟩, nofun⟩
    · obtain ⟨f, hcheck⟩ := checkDir_fails hsound hsteps (hhead.trans (if_neg hgood))
      exact gives_of_outer (exec_rndDirCheck hopen) hopen.1 ((rndDirWrite_run hrun).trans hcheck) rfl rfl
        ⟨fun _ => rfl, hrd, hregs, iff_of_false nofun hgood, nofun, fun _ => rfl⟩
  · exact next_of_outer (exec_rndDirCheck hopen) hopen.1 (if_neg (Bool.eq_false_iff.1 hrun)) rfl rfl

end

section
/-! SUPPORT. The engine of one port of the HHE (06 R159 to R170): profiles, enabling, disabling, pause, stop, and a line computed
ahead; what that says of O38. -/

namespace Sys2Proof.Machine

-- the parts of one port

section
variable (s : State) {p o : Port}

@[simp] theorem hheP_modHhe_same (f : HhePort → HhePort) : (s.modHhe p f).hheP p = f (s.hheP p) := by
  simp [State.hheP]

theorem hheP_modHhe_ne (f : HhePort → HhePort) (h : o ≠ p) : (s.modHhe p f).hheP o = s.hheP o := by
  have : ¬ p.val = o.val := fun e => h (Fin.ext e.symm)
  simp [State.hheP, this]

/-- What a change of port `p` leaves where the HHE is touched no further. -/
theorem hheP_same {s t : State} {f : HhePort → HhePort} (h : t.hhe = (s.modHhe p f).hhe) : t.hheP p = f (s.hheP p) :=
  (congrArg (fun v : Vector HhePort 4 => v[p]) h).trans (hheP_modHhe_same s f)

theorem hheP_other {s t : State} {f : HhePort → HhePort} (h : t.hhe = (s.modHhe p f).hhe) (ho : o ≠ p) : t.hheP o = s.hheP o :=
  (congrArg (fun v : Vector HhePort 4 => v[o]) h).trans (hheP_modHhe_ne s f ho)

@[simp] theorem hpP_modHp_same (f : HpSt → HpSt) : (s.modHp p f).hpP p = f (s.hpP p) := by
  simp [State.hpP]

@[simp] theorem ehmP_modEhm_same (f : EhmPort → EhmPort) : (s.modEhm p f).ehmP p = f (s.ehmP p) := by
  simp [State.ehmP, State.modEhm]
end

theorem page_irq_same (s : State) (pg : PageIx) (b : Nat) :
    (s.irq pg b).page pg = { s.page pg with irqStat := (s.page pg).irqStat ||| BitVec.ofNat 32 (2 ^ b) } :=
  page_modPage_same s pg _

/-- A write of an open page whose meaning leaves what its guard restores. -/
theorem gives_of_page {i : Instr} {s t : State} {pg : PageIx} {f : State → State} (he : exec i s = whenPage pg s f) (ho : s.Open pg)
    (ht : f s = t) (hp : t.pending = s.pending) (hchip : t.chip = s.chip) {P : State → Prop} (hP : P t) : Gives i s P :=
  gives_of_outer he ho.1 ((if_neg ho.2).trans ht) hp hchip hP

-- profiles (R160, R161)

/-- The four words that a write of PRj_CTL publishes: three from the store, and the one written. -/
def State.staged (s : State) (p : Port) (j : Fin 16) (ctl : Word) : Profile :=
  { e := s.rd R.HHE_Pp_PRj_E p.val j.val, a := s.rd R.HHE_Pp_PRj_A p.val j.val, n := s.rd R.HHE_Pp_PRj_N p.val j.val, ctl := ctl }

theorem staged_ne_ctl : ∀ (p : Port) (j : Fin 16), ∀ r ∈ [R.HHE_Pp_PRj_E, R.HHE_Pp_PRj_A, R.HHE_Pp_PRj_N],
    r.addr p.val j.val ≠ R.HHE_Pp_PRj_CTL.addr p.val j.val := by decide

theorem hheStat_ne_ctl : ∀ (p : Port) (j : Fin 16), R.HHE_STAT.addr 0 0 ≠ R.HHE_Pp_PRj_CTL.addr p.val j.val := by decide

section
variable {s : State} {p : Port} {j : Fin 16} {ctl : Word}

theorem profilePublish_eq : s.profilePublish p j ctl =
    if (s.staged p j (ctl &&& 0x8000FFFF)).valid ∧ (s.staged p j (ctl &&& 0x8000FFFF)).eSlice = 0 then
      ((s.wr R.HHE_Pp_PRj_CTL (ctl &&& 0x8000FFFF) p.val j.val).wr R.HHE_STAT
        (s.rd R.HHE_STAT ||| BitVec.ofNat 32 (16 * 2 ^ p.val))).irq Pg.hhe 5
    else (s.wr R.HHE_Pp_PRj_CTL (ctl &&& 0x8000FFFF) p.val j.val).modHhe p fun h =>
      { h with profiles := h.profiles.set j (s.staged p j (ctl &&& 0x8000FFFF)) } := by
  have hword : ∀ r ∈ [R.HHE_Pp_PRj_E, R.HHE_Pp_PRj_A, R.HHE_Pp_PRj_N],
      (s.wr R.HHE_Pp_PRj_CTL (ctl &&& 0x8000FFFF) p.val j.val).rd r p.val j.val = s.rd r p.val j.val :=
    fun r hr => rd_wr_ne s _ (staged_ne_ctl p j r hr)
  rw [State.profilePublish, rd_wr_ne s _ (hheStat_ne_ctl p j), hword R.HHE_Pp_PRj_E (by simp), hword R.HHE_Pp_PRj_A (by simp),
    hword R.HHE_Pp_PRj_N (by simp), rd_wr_same]
  rfl
end

-- enabling (R170)

theorem enable_ne_state : ∀ p : Port, R.HHE_Pp_CFG.addr p.val 0 ≠ R.HHE_Pp_STAT.addr p.val 0 := by decide

theorem flag_hhePortEnable (s : State) (p : Port) : (s.hhePortEnable p).flag F.HHE_Pp_CFG_EN p.val = true := by
  have hkeep (t : State) (f : Fld) (b : Bool) (hf : f.reg = R.HHE_Pp_STAT) :
      (t.setBit f b p.val).flag F.HHE_Pp_CFG_EN p.val = t.flag F.HHE_Pp_CFG_EN p.val := by
    have hne : F.HHE_Pp_CFG_EN.reg.addr p.val 0 ≠ f.reg.addr p.val 0 := hf ▸ enable_ne_state p
    simp only [State.flag, State.setBit, State.setFld, fld_wr_ne t _ _ hne]
  calc (s.hhePortEnable p).flag F.HHE_Pp_CFG_EN p.val
      = (s.setBit F.HHE_Pp_CFG_EN true p.val).flag F.HHE_Pp_CFG_EN p.val :=
        (hkeep _ F.HHE_Pp_STAT_TSTALE false rfl).trans (hkeep _ F.HHE_Pp_STAT_VHSTALE false rfl)
    _ = true := flag_setBit_same s true p.val 0 rfl (by decide)

theorem hhe_hhePortEnable (s : State) (p : Port) : (s.hhePortEnable p).hhe = (s.modHhe p fun x =>
    { x with mode := .idle, ring := [], lastStart := none, gap0 := 0, gap1 := 0, demand := false }).hhe := rfl

-- what a measurement slot, a pending trigger and a HOLD touch when the HHE stops computing for a port (R170)

/-- The registers in which a port's dropped measurement slot (09 R235) and its discarded trigger (07 R191) leave a mark. -/
def dropRegs (p : Port) : List Nat :=
  [R.EHM_Pp_LAST.addr p.val 0, R.EHM_Pp_CUR.addr p.val 0, R.EHM_Pp_DISC.addr p.val 0, R.HPn_STARVE.addr p.val 0]

/-- `t` is `s` but for interrupts, those registers, and the state of SBA, of EHM, and of the head ports, where port `p` keeps its
line in progress and its HOLD. -/
structure PortFrame (p : Port) (s t : State) : Prop where
  rest : t = { s with pages := t.pages, sba := t.sba, hp := t.hp, ehm := t.ehm, regs := t.regs }
  regs : SameRegsBut (dropRegs p) s t
  cur : (t.hpP p).cur = (s.hpP p).cur
  hold : (t.hpP p).hold = (s.hpP p).hold

section
variable {s t u : State} {p : Port}

theorem PortFrame.refl (p : Port) (s : State) : PortFrame p s s := ⟨rfl, fun _ _ _ => rfl, rfl, rfl⟩

theorem PortFrame.trans (h : PortFrame p s t) (h' : PortFrame p t u) : PortFrame p s u :=
  ⟨by rw [h'.rest, h.rest], h.regs.trans h'.regs fun _ => id, h'.cur.trans h.cur, h'.hold.trans h.hold⟩

theorem PortFrame.wr (h : PortFrame p s t) {r : Reg} (hr : r.addr p.val 0 ∈ dropRegs p) (v : Word) :
    PortFrame p s (t.wr r v p.val) :=
  h.trans ⟨rfl, fun _ _ ha => sget_sput_ne _ _ _ (fun e => ha (by rwa [e])) _, rfl, rfl⟩

theorem PortFrame.modEhm (h : PortFrame p s t) (f : EhmPort → EhmPort) : PortFrame p s (t.modEhm p f) :=
  h.trans ⟨rfl, fun _ _ _ => rfl, rfl, rfl⟩

theorem PortFrame.modSba (h : PortFrame p s t) (f : SbaPort → SbaPort) : PortFrame p s (t.modSba p f) :=
  h.trans ⟨rfl, fun _ _ _ => rfl, rfl, rfl⟩

theorem PortFrame.modHp (h : PortFrame p s t) {f : HpSt → HpSt} (hcur : (f (t.hpP p)).cur = (t.hpP p).cur)
    (hhold : (f (t.hpP p)).hold = (t.hpP p).hold) : PortFrame p s (t.modHp p f) :=
  h.trans ⟨rfl, fun _ _ _ => rfl, by rw [hpP_modHp_same, hcur], by rw [hpP_modHp_same, hhold]⟩

theorem PortFrame.irq (h : PortFrame p s t) (pg : PageIx) (b : Nat) : PortFrame p s (t.irq pg b) :=
  h.trans ⟨rfl, fun _ _ _ => rfl, rfl, rfl⟩

theorem PortFrame.keeps (h : PortFrame p s t) : t.mem = s.mem ∧ t.pending = s.pending ∧ t.chip = s.chip ∧
    t.queues = s.queues ∧ t.skn = s.skn ∧ t.hhe = s.hhe := by
  rw [h.rest]
  exact ⟨rfl, rfl, rfl, rfl, rfl, rfl⟩

theorem PortFrame.queues (h : PortFrame p s t) : t.queues = s.queues := by rw [h.rest]

theorem enable_not_dropped : ∀ p : Port, R.HHE_Pp_CFG.addr p.val 0 ∉ dropRegs p := by decide

theorem PortFrame.enable (h : PortFrame p s t) : t.flag F.HHE_Pp_CFG_EN p.val = s.flag F.HHE_Pp_CFG_EN p.val :=
  congrArg (fun w => wbits w 0 1 != 0) (h.regs.rd (r := R.HHE_Pp_CFG) (enable_not_dropped p))

theorem binding_not_dropped : ∀ (p : Port) (q : QNum), R.QMG_Qn_CFG.addr q.val 0 ∉ dropRegs p := by decide

theorem portQueues_congr (hq : t.queues = s.queues) (hcfg : ∀ q : QNum, t.rd R.QMG_Qn_CFG q.val = s.rd R.QMG_Qn_CFG q.val) :
    t.portQueues p = s.portQueues p := by
  simp only [State.portQueues, State.qPort, State.flag, State.fld, F.QMG_Qn_CFG_BOUND, F.QMG_Qn_CFG_PORT, State.q, hq, hcfg]
  rfl

theorem PortFrame.portQueues (h : PortFrame p s t) : t.portQueues p = s.portQueues p :=
  portQueues_congr h.queues fun q => h.regs.rd (binding_not_dropped p q)
end

section
variable (s : State) (p : Port)

theorem portFrame_dropSlot : PortFrame p s (s.dropSlot p R.EHM_Pp_DISC) := by
  unfold State.dropSlot
  split
  · exact .refl p s
  next x _ =>
    have hquiet : PortFrame p s ((if x.grant.isSome then s.endResv p else s).padsQuiet p) := by
      refine PortFrame.modHp ?_ rfl rfl
      split
      · exact ⟨rfl, fun _ _ _ => rfl, rfl, rfl⟩
      · exact .refl p s
    have hlast (v : Word) := hquiet.wr (r := R.EHM_Pp_LAST) (by simp [dropRegs]) v
    dsimp only
    split
    · exact (((((hlast _).modEhm _).wr (r := R.EHM_Pp_CUR) (by simp [dropRegs]) _).modEhm _).wr
        (by simp [dropRegs]) _)
    · exact ((hlast _).modEhm _).wr (by simp [dropRegs]) _

theorem portFrame_dropTrig : PortFrame p s (s.dropTrig p) := by
  unfold State.dropTrig
  split
  · exact (((PortFrame.refl p s).modHp rfl rfl).wr (by simp [dropRegs]) _).irq _ _
  · exact .refl p s

theorem dropSlot_idle {s : State} {p : Port} (h : (s.ehmP p).slot = none) (counter : Reg) : s.dropSlot p counter = s := by
  simp only [State.dropSlot, h]

theorem slot_dropSlot (counter : Reg) : ((s.dropSlot p counter).ehmP p).slot = none := by
  unfold State.dropSlot
  split
  · assumption
  · dsimp only
    split <;> simp [State.ehmP, State.modEhm]

theorem foldl_fixed_on {α β : Type} {f : α → β → α} {a : α} (l : List β) (h : ∀ b ∈ l, f a b = a) : l.foldl f a = a := by
  induction l with
  | nil => rfl
  | cons b l ih =>
    rw [List.foldl_cons, h b List.mem_cons_self]
    exact ih fun c hc => h c (List.mem_cons_of_mem b hc)

variable {s p}

/-- With no command in flight on a port, no PRINT completes. -/
theorem printsOut_quiet (h : ∀ q ∈ s.portQueues p, (s.q q).cmds = [] ∧ (s.q q).conts = []) (st : Byte) : s.printsOut p st = s :=
  foldl_fixed_on _ fun q hq => finishAll_empty (h q hq).1 (h q hq).2 _ _

/-- `s` with port `p` in HOLD, whose PRINTs complete `st` and whose next line is computed on demand (07 R196). -/
def State.portHeld (s : State) (p : Port) (st : Byte) : State :=
  (s.modHp p fun h => { h with hold := some st }).modHhe p fun x => { x with demand := true }

theorem hpP_portHeld (s : State) (p : Port) (st : Byte) : (s.portHeld p st).hpP p = { s.hpP p with hold := some st } :=
  hpP_modHp_same s fun h => { h with hold := some st }

theorem hheP_portHeld (s : State) (p : Port) (st : Byte) : (s.portHeld p st).hheP p = { s.hheP p with demand := true } :=
  hheP_modHhe_same _ _

theorem PortFrame.portHeld {t : State} (h : PortFrame p s t) (st : Byte) : PortFrame p (s.portHeld p st) (t.portHeld p st) where
  rest := by
    rw [h.rest]
    rfl
  regs := h.regs
  cur := by
    rw [hpP_portHeld, hpP_portHeld]
    exact h.cur
  hold := by rw [hpP_portHeld, hpP_portHeld]

/-- A head port without commands in flight enters HOLD. -/
theorem portFrame_enterHold (st : Byte) (hhold : (s.hpP p).hold = none)
    (hquiet : ∀ q ∈ s.portQueues p, (s.q q).cmds = [] ∧ (s.q q).conts = []) : PortFrame p (s.portHeld p st) (s.enterHold p st) := by
  have hdrop : PortFrame p (s.portHeld p st)
      (((((s.portHeld p st).dropTrig p).dropSlot p R.EHM_Pp_DISC).modSba p fun x => { x with restart := true }).ehmTouch p) :=
    (((portFrame_dropTrig _ p).trans (portFrame_dropSlot _ p)).modSba _).modEhm _
  have henter : s.enterHold p st = ((((((s.portHeld p st).dropTrig p).dropSlot p R.EHM_Pp_DISC).modSba p
      fun x => { x with restart := true }).ehmTouch p).printsOut p st).irq (Pg.hp p) 9 :=
    if_neg (by simp [hhold])
  rw [henter, printsOut_quiet]
  · exact hdrop.irq _ _
  · intro q hq
    rw [hdrop.portQueues] at hq
    rw [State.q, hdrop.queues]
    exact hquiet q hq
end

-- disabling (R170)

theorem binding_ne_enable : ∀ (p : Port) (q : QNum), R.QMG_Qn_CFG.addr q.val 0 ≠ R.HHE_Pp_CFG.addr p.val 0 := by decide

/-- The port's HHE once it has discarded its held lines and computes nothing ahead. -/
def HhePort.discarded (x : HhePort) : HhePort := { x with ring := x.ring.filter (·.fired), demand := true }

/-- `s` once the held lines of a port and its measurement slot are discarded (R170, 09 R235). -/
def State.heldDiscarded (s : State) (p : Port) : State :=
  ((s.modHhe p HhePort.discarded).ehmTouch p).dropSlot p R.EHM_Pp_DISC

section
variable {s : State} {p : Port}

theorem portFrame_heldDiscarded : PortFrame p (s.modHhe p HhePort.discarded) (s.heldDiscarded p) :=
  ((PortFrame.refl p _).modEhm _).trans (portFrame_dropSlot _ p)

theorem hhePortDisable_on (h : s.flag F.HHE_Pp_CFG_EN p.val = true) : s.hhePortDisable p =
    ((s.setBit F.HHE_Pp_CFG_EN false p.val).hheGone p).modHhe p fun x => { x with mode := .off } := if_pos h

/-- A line in progress that has its data is left to go on; whether the head port then holds rests on what it has left. -/
theorem hheGone_eq (hdata : ∀ c, (s.hpP p).cur = some c → c.data.isSome = true) : s.hheGone p =
    if ¬ s.working (Pg.hp p) = true then s.heldDiscarded p
    else if (s.hpP p).cur.isSome = true ∨ ¬ (s.lines p).isEmpty = true then (s.heldDiscarded p).enterHold p St.aborted
    else s.heldDiscarded p := by
  have hframe := portFrame_heldDiscarded (s := s) (p := p)
  have hcur : ((s.heldDiscarded p).hpP p).cur = (s.hpP p).cur := hframe.cur
  have hpages : (s.heldDiscarded p).pages = s.pages := by
    rw [State.heldDiscarded, (slotFrame_dropSlot _ p _).rest]
    rfl
  have hwork : (s.heldDiscarded p).working (Pg.hp p) = s.working (Pg.hp p) := by
    rw [State.working, State.page, hpages]
    rfl
  have hlines : (s.heldDiscarded p).lines p = s.lines p := by
    rw [hframe.rest]
    rfl
  have hwaits : ((s.hpP p).cur.any fun c => c.data.isNone) = false := by
    cases h : (s.hpP p).cur with
    | none => rfl
    | some c => simpa [← Option.not_isSome] using hdata c h
  have hgone : s.hheGone p =
      (let u := s.heldDiscarded p
      let v := if ((u.hpP p).cur.any fun c => c.data.isNone) then u.abandonLine p else u
      if ¬ v.working (Pg.hp p) then v
      else if (u.hpP p).cur.isSome ∨ ¬ (v.lines p).isEmpty then v.enterHold p St.aborted else v) := rfl
  rw [hgone]
  simp only [hcur, hwaits, Bool.false_eq_true, if_false, hwork, hlines]

theorem hheGone_idle (hcur : (s.hpP p).cur = none) (hlines : s.lines p = []) :
    s.hheGone p = s.heldDiscarded p := by
  rw [hheGone_eq (by simp [hcur])]
  simp [hcur, hlines]

theorem portFrame_hheGone_holds (hwork : s.working (Pg.hp p) = true) (hlines : s.lines p ≠ [])
    (hdata : ∀ c, (s.hpP p).cur = some c → c.data.isSome = true) (hhold : (s.hpP p).hold = none)
    (hquiet : ∀ q ∈ s.portQueues p, (s.q q).cmds = [] ∧ (s.q q).conts = []) :
    PortFrame p ((s.modHhe p HhePort.discarded).portHeld p St.aborted) (s.hheGone p) := by
  have hframe := portFrame_heldDiscarded (s := s) (p := p)
  have hgone : s.hheGone p = (s.heldDiscarded p).enterHold p St.aborted := by
    rw [hheGone_eq hdata]
    simp [hwork, hlines]
  rw [hgone]
  refine (hframe.portHeld St.aborted).trans (portFrame_enterHold St.aborted (hframe.hold.trans hhold) fun q hq => ?_)
  rw [hframe.portQueues] at hq
  rw [State.q, hframe.queues]
  exact hquiet q hq

/-- EN reads 0 and the port is OFF; what the end of the port's work leaves, disabling leaves. -/
theorem hhePortDisable_keeps {u v : State} (hon : s.flag F.HHE_Pp_CFG_EN p.val = true)
    (hv : (s.setBit F.HHE_Pp_CFG_EN false p.val).hheGone p = v) (hframe : PortFrame p u v)
    (hu : u = { s.setBit F.HHE_Pp_CFG_EN false p.val with hhe := u.hhe, hp := u.hp }) :
    let t := v.modHhe p fun x => { x with mode := .off }
    s.hhePortDisable p = t ∧ (t.mem = s.mem ∧ t.pending = s.pending ∧ t.chip = s.chip ∧ t.queues = s.queues ∧ t.skn = s.skn) ∧
      t.flag F.HHE_Pp_CFG_EN p.val = false ∧ t.hhe = (u.modHhe p fun x => { x with mode := .off }).hhe := by
  obtain ⟨hmem, hpend, hchip, hqueues, hskn, hhhe⟩ := hframe.keeps
  have henable : u.flag F.HHE_Pp_CFG_EN p.val = false := by
    rw [hu]
    exact flag_setBit_same s false p.val 0 rfl (by decide)
  refine ⟨(hhePortDisable_on hon).trans (by rw [hv]), ?_, hframe.enable.trans henable, ?_⟩
  · rw [State.modHhe_mem, State.modHhe_pending, State.modHhe_chip, State.modHhe_queues, State.modHhe_skn, hmem, hpend, hchip,
      hqueues, hskn, hu]
    exact ⟨rfl, rfl, rfl, rfl, rfl⟩
  · rw [State.modHhe_hhe, State.modHhe_hhe, hhhe]
end

-- pause (R167)

section
variable {s : State} {p : Port}

theorem hhePause_at {r : RingLine} {i : Nat} {t : BitVec 64} (hcomp : s.computes p = true) (hmode : (s.hheP p).mode = .running)
    (hheld : ((s.hheP p).ring.find? fun x => !x.fired) = some r) (hline : s.lineIx p r.uid r.k = some i)
    (hproj : s.projOf p i = some t) : s.hhePause p =
      if t.toNat + s.fld F.HHE_Pp_DCFG_RCTOL p.val * 100 ≤ s.time.toNat then
        s.modHhe p fun x => { x with mode := .paused, ring := x.ring.map fun (y : RingLine) =>
          if y.fired then y else { y with stale := true } }
      else s := by
  have hstale : (fun y : RingLine => { y with stale := y.stale || !y.fired }) =
      fun y => if y.fired then y else { y with stale := true } := by
    funext y
    obtain ⟨uid, k, fired, start, stale, data⟩ := y
    cases fired <;> simp
  simp only [State.hhePause, hcomp, hmode, hheld, hline, Option.bind_some, hproj, Option.getD_some, hstale]
  rfl
end

-- a stop (R159)

/-- A port has stopped for a sample that is too old. -/
structure StoppedStale (p : Port) (s t : State) : Prop where
  mem : t.mem = s.mem
  pending : t.pending = s.pending
  chip : t.chip = s.chip
  same : t.hheP p = { s.hheP p with mode := .stopped }
  others : ∀ o, o ≠ p → t.hheP o = s.hheP o
  reports : t.reports = s.reports ++ [{ page := Pg.hhe, k := Fin.ofNat 32 (4 + p.val), at_ := s.time }]
  page : t.page Pg.hhe = { s.page Pg.hhe with irqStat := (s.page Pg.hhe).irqStat ||| 64 }

section
variable {s u : State} {p : Port}

theorem stoppedStale_hheStop (hu : u = { s with regs := u.regs }) (hmode : (s.hheP p).mode ≠ .stopped) :
    StoppedStale p s (u.hheStop p (4 + p.val)) := by
  have hstop : u.hheStop p (4 + p.val) =
      (((u.modHhe p fun x => { x with mode := .stopped }).ehmTouch p).raise Pg.hhe (4 + p.val)).irq Pg.hhe 6 :=
    if_neg (by rw [hu]; exact hmode)
  have hhhe : (u.hheStop p (4 + p.val)).hhe = (s.modHhe p fun x => { x with mode := .stopped }).hhe := by
    rw [hstop, hu]
    rfl
  refine ⟨?_, ?_, ?_, hheP_same hhhe, fun o ho => hheP_other hhhe ho, ?_, ?_⟩
  all_goals rw [hstop, hu]
  · rfl
  · rfl
  · rfl
  · rfl
  · exact page_irq_same _ Pg.hhe 6

/-- A line in progress is wanted, and the thermistor sample is too old. -/
theorem sourceStale_demand (hline : (s.onDemand p).isSome = true) (hold : s.tsubNow p = none) :
    StoppedStale p s (s.sourceStale p) := by
  have hmode : (s.hheP p).mode ≠ .stopped := by
    intro hstopped
    simp [State.onDemand, hstopped] at hline
  rw [State.sourceStale, if_pos hline, hold, Option.isNone_none, if_pos rfl]
  exact stoppedStale_hheStop rfl hmode

/-- A line is to be computed ahead, and a sample is too old. -/
theorem sourceStale_ahead (hdemand : s.onDemand p = none) (hline : (s.eligible p).isSome = true) (hold : s.vhLook p = .stale) :
    StoppedStale p s (s.sourceStale p) := by
  have hmode : (s.hheP p).mode ≠ .stopped := by
    intro hstopped
    simp [State.eligible, hstopped] at hline
  rw [State.sourceStale, hdemand, Option.isSome_none, if_neg Bool.false_ne_true, if_pos ⟨hline, hold⟩]
  exact stoppedStale_hheStop rfl hmode
end

-- a line computed ahead (R164, R165)

/-- `t` is `s` but for registers, what the verification pipelines captured, and the log of the engine's load. -/
def ComputeFrame (s t : State) : Prop := t = { s with regs := t.regs, cam := t.cam, hheLog := t.hheLog }

section
variable {s t u : State}

theorem ComputeFrame.trans (h : ComputeFrame s t) (h' : ComputeFrame t u) : ComputeFrame s u := by
  rw [ComputeFrame, h', h]

theorem computeFrame_unseen (s : State) (v : VpNum) (x : Fin 2) : ComputeFrame s (s.unseen v x) := by
  unfold State.unseen State.stickAdd
  split <;> rfl

theorem computeFrame_capture (s : State) (p : Port) (l : Line) : ComputeFrame s (s.capture p l) := by
  unfold State.capture
  split
  · rfl
  · generalize s.ctxOf p = cs
    induction cs generalizing s with
    | nil => rfl
    | cons c cs ih =>
      refine .trans ?_ (ih _)
      dsimp only
      split
      · rfl
      · split
        · exact (computeFrame_unseen s c.1 c.2).trans rfl
        · rfl

theorem computeFrame_logCompute (s : State) (p : Port) : ComputeFrame s (s.logCompute p) := by
  unfold State.logCompute
  dsimp only
  split <;> rfl

/-- Beside that, computing a line puts its record in the port's ring. -/
theorem computeLine_eq (s : State) (p : Port) (l : Line) (at_ : BitVec 64) (fired : Bool) (tsub : Int) : ∃ t d, ComputeFrame s t ∧
    (s.computeLine p l at_ fired tsub).1 = t.modHhe p fun h =>
      { h with ring := putRing h.ring { uid := l.uid, k := l.k, fired := fired, start := at_, data := d } } := by
  refine ⟨_, _, ?_, rfl⟩
  refine .trans (.trans ?_ (computeFrame_capture _ p l)) (computeFrame_logCompute _ p)
  split <;> rfl

theorem mem_putRing (ring : List RingLine) (r : RingLine) : r ∈ putRing ring r := by
  unfold putRing
  split
  next h =>
    obtain ⟨x, hx, hsame⟩ := List.any_eq_true.1 h
    exact List.mem_map.2 ⟨x, hx, if_pos hsame⟩
  · have hlast : (ring ++ [r]).length - 6 ≤ ring.length := by simp
    dsimp only
    rw [List.drop_append_of_le_length hlast]
    exact List.mem_append_right _ (List.mem_singleton_self r)

/-- With no line in demand, the eligible line of the earliest deadline is computed and held where its samples are good. -/
theorem lineCompute_ahead {p : Port} {l : Line} {τ : BitVec 64} {vh ts : Int} (hdemand : ∀ o, s.onDemand o = none)
    (hnext : s.nextLine = some (p, l, τ)) (hlook : s.vhLook p = .good vh ts) : ∃ t d, ComputeFrame s t ∧
      s.lineCompute = t.modHhe p fun h => { h with ring := putRing h.ring ⟨l.uid, l.k, false, τ, false, d⟩ } := by
  have hnone : ((List.finRange 4).find? fun o => (s.onDemand o).isSome) = none :=
    List.find?_eq_none.2 fun o _ => by simp [hdemand o]
  have hline : s.lineCompute = (((s.noteVht p vh ts).computeLine p l τ false ts).1).setLead p (some τ) := by
    simp only [State.lineCompute, hnone, hnext, hlook, State.vhApply]
  obtain ⟨t, d, hframe, hcompute⟩ := computeLine_eq (s.noteVht p vh ts) p l τ false ts
  have hnote : ComputeFrame s (s.noteVht p vh ts) := rfl
  have hlead : ComputeFrame t (t.setLead p (some τ)) := rfl
  exact ⟨t.setLead p (some τ), d, (hnote.trans hframe).trans hlead, hline.trans (by rw [hcompute]; rfl)⟩
end

end Sys2Proof.Machine

open Sys2Proof Sys2Proof.Machine

/-- Settles O38: what a measurement slot, a pending trigger and a HOLD touch leaves the HHE's port, its lines and its line in
progress; a computed line touches its port's ring alone. -/
theorem heatEngineCommands : Obligations.HeatEngineCommands := by
  unfold Obligations.HeatEngineCommands
  intro s p
  refine ⟨fun j ctl ho => ⟨fun hgood => ?_, fun hvalid hslice => ?_⟩, fun ho hoff => ?_, fun ho hon hcur hlines => ?_,
    fun ho hon hwork hlines hdata hhold hquiet => ?_, fun r i t hup hcomp hmode hheld hline hproj => ⟨fun hlate => ?_, fun hearly => ?_⟩,
    fun hup hstale => ?_, fun l τ vh ts hup hdemand hnext hlook => ?_⟩
  · have hok : ¬ ((s.staged p j (ctl &&& 0x8000FFFF)).valid = true ∧ (s.staged p j (ctl &&& 0x8000FFFF)).eSlice = 0) := by
      rintro ⟨hvalid, hzero⟩
      exact hgood.elim (fun h => Bool.false_ne_true (h.symm.trans hvalid)) (· hzero)
    refine gives_of_page (f := fun s => s.profilePublish p j ctl) rfl ho (profilePublish_eq.trans (if_neg hok)) rfl rfl
      ⟨fun _ => rfl, rd_wr_same s _ _ _ _, rfl, ?_, fun i hi => ?_, fun o hne => hheP_modHhe_ne _ _ hne⟩
    · rw [hheP_modHhe_same]
      simp [State.staged]
    · rw [hheP_modHhe_same]
      have : ¬ j.val = i.val := fun e => hi (Fin.ext e.symm)
      simp [this, State.hheP]
  · exact gives_of_page (f := fun s => s.profilePublish p j ctl) rfl ho (profilePublish_eq.trans (if_pos ⟨hvalid, hslice⟩)) rfl rfl
      ⟨rfl, fun _ => rfl, page_irq_same _ Pg.hhe 5, rd_wr_same _ R.HHE_STAT _ 0 0⟩
  · have henable : (if s.flag F.HHE_Pp_CFG_EN p.val then s else s.hhePortEnable p) = s.hhePortEnable p :=
      if_neg (Bool.eq_false_iff.1 hoff)
    have hhhe := hhe_hhePortEnable s p
    refine gives_of_page (f := fun s => if s.flag F.HHE_Pp_CFG_EN p.val then s else s.hhePortEnable p) rfl ho henable rfl rfl
      ⟨fun _ => rfl, flag_hhePortEnable s p, ?_, ?_, ?_, ?_, fun o hne => hheP_other hhhe hne⟩
    all_goals rw [hheP_same hhhe]
  · have hframe := portFrame_heldDiscarded (s := s.setBit F.HHE_Pp_CFG_EN false p.val) (p := p)
    obtain ⟨ht, ⟨hmem, hpend, hchip, hqueues, -⟩, hen, hhhe⟩ := hhePortDisable_keeps hon (hheGone_idle hcur hlines) hframe rfl
    refine gives_of_page (f := fun s => s.hhePortDisable p) rfl ho ht hpend hchip ⟨sameMem_of_mem hmem, hen, ?_, hframe.cur.trans hcur,
      hframe.hold, fun hslot => ?_, slot_dropSlot _ p _, hqueues, fun o hne => ?_⟩
    · rw [hheP_same hhhe]
    · rw [State.heldDiscarded, dropSlot_idle]
      · rfl
      · exact (congrArg EhmPort.slot (ehmP_modEhm_same _ _)).trans hslot
    · exact (hheP_other hhhe hne).trans (hheP_modHhe_ne _ _ hne)
  · have hports : (s.setBit F.HHE_Pp_CFG_EN false p.val).portQueues p = s.portQueues p :=
      portQueues_congr rfl fun q => rd_wr_ne s _ (binding_ne_enable p q)
    have hframe := portFrame_hheGone_holds (s := s.setBit F.HHE_Pp_CFG_EN false p.val) hwork hlines hdata hhold (hports ▸ hquiet)
    generalize hgone : (s.setBit F.HHE_Pp_CFG_EN false p.val).hheGone p = v at hframe
    obtain ⟨ht, ⟨hmem, hpend, hchip, hqueues, hskn⟩, hen, hhhe⟩ := hhePortDisable_keeps hon hgone hframe rfl
    refine gives_of_page (f := fun s => s.hhePortDisable p) rfl ho ht hpend hchip ⟨sameMem_of_mem hmem, hen, ?_, ?_,
      hframe.hold.trans (by rw [hpP_portHeld]), hframe.cur.trans (by rw [hpP_portHeld]; rfl),
      congrArg (fun k : SknSt => k.lines[p]) hskn, hqueues⟩
    · rw [hheP_same hhhe]
    · rw [hheP_same hhhe, hheP_portHeld, hheP_modHhe_same]
      rfl
  · exact next_of_outer (f := fun s => s.hhePause p) rfl hup ((hhePause_at hcomp hmode hheld hline hproj).trans (if_pos hlate)) rfl rfl
  · exact next_of_outer (f := fun s => s.hhePause p) rfl hup
      ((hhePause_at hcomp hmode hheld hline hproj).trans (if_neg (Nat.not_le.2 hearly))) rfl rfl
  · have hstop : StoppedStale p s (s.sourceStale p) := by
      obtain ⟨hline, hold⟩ | ⟨hdemand, hline, hold⟩ := hstale
      · exact sourceStale_demand hline hold
      · exact sourceStale_ahead hdemand hline hold
    exact gives_of_outer (f := fun s => s.sourceStale p) rfl hup rfl hstop.pending hstop.chip
      ⟨sameMem_of_mem hstop.mem, hstop.same, hstop.others, hstop.reports, hstop.page⟩
  · obtain ⟨t, d, hframe, hline⟩ := lineCompute_ahead hdemand hnext hlook
    have hhhe : (t.modHhe p fun h => { h with ring := putRing h.ring ⟨l.uid, l.k, false, τ, false, d⟩ }).hhe =
        (s.modHhe p fun h => { h with ring := putRing h.ring ⟨l.uid, l.k, false, τ, false, d⟩ }).hhe := by
      rw [hframe]
      rfl
    refine gives_of_outer (f := State.lineCompute) rfl hup hline (by rw [hframe]; rfl) (by rw [hframe]; rfl)
      ⟨sameMem_of_mem (by rw [hframe]; rfl), by rw [hframe]; rfl, fun o hne => hheP_other hhhe hne, ⟨l.uid, l.k, false, τ, false, d⟩, ?_,
        rfl, rfl, rfl, rfl, rfl⟩
    rw [hheP_same hhhe]
    exact mem_putRing _ _

end

section
/-! SUPPORT. The outcome of any command in flight (03 R59, 04 R107), of the PRINTs of a port, and of a VERIFY close whose window is
done (13 R338): what it may touch. -/

namespace Sys2Proof.Machine

section
variable {s t u : State}

theorem OutcomeFrame.refl (s : State) : OutcomeFrame s s := rfl

theorem OutcomeFrame.trans (h : OutcomeFrame s t) (h' : OutcomeFrame t u) : OutcomeFrame s u := by
  rw [OutcomeFrame, h', h]

theorem OutcomeFrame.modQ (h : OutcomeFrame s t) (q : QNum) (f : Queue → Queue) : OutcomeFrame s (t.modQ q f) := h.trans rfl

theorem OutcomeFrame.modCmd (h : OutcomeFrame s t) (q : QNum) (uid : Nat) (f : Cmd → Cmd) : OutcomeFrame s (t.modCmd q uid f) :=
  h.modQ q _

theorem OutcomeFrame.modThr (h : OutcomeFrame s t) (q : QNum) (f : Thread → Thread) : OutcomeFrame s (t.modThr q f) := h.trans rfl

theorem OutcomeFrame.foldl {β : Type} {f : State → β → State} (hf : ∀ s b, OutcomeFrame s (f s b)) (s : State) (l : List β) :
    OutcomeFrame s (l.foldl f s) := by
  induction l generalizing s with
  | nil => exact .refl s
  | cons b l ih => exact (hf s b).trans (ih _)
end

section
variable (s : State) (q : QNum)

theorem outcomeFrame_leaveList : OutcomeFrame s (s.leaveList q) := by
  unfold State.leaveList
  split
  · exact .refl s
  · exact ((OutcomeFrame.refl s).modThr q _).modQ q _

theorem outcomeFrame_atEntry : OutcomeFrame s (s.atEntry q) := by
  unfold State.atEntry
  split
  · exact outcomeFrame_leaveList s q
  · exact .refl s

theorem outcomeFrame_leaveAtBoundary : OutcomeFrame s (s.leaveAtBoundary q) := by
  unfold State.leaveAtBoundary
  split
  · exact outcomeFrame_leaveList s q
  · exact (OutcomeFrame.refl s).modThr q _

theorem outcomeFrame_bindOff : OutcomeFrame s (s.bindOff q) := by
  refine OutcomeFrame.trans ?_ (outcomeFrame_leaveAtBoundary _ q)
  split
  · exact (OutcomeFrame.refl s).modQ q _
  · exact .refl s

theorem outcomeFrame_finish1 (uid : Nat) (st tag : Byte) (resume : Word) : OutcomeFrame s (s.finish1 q uid st tag resume) :=
  have hdrop : OutcomeFrame s (s.dropStep uid) := rfl
  ((hdrop.modQ q _).modThr q _).trans (outcomeFrame_atEntry _ q)

theorem outcomeFrame_fenceCheck : OutcomeFrame s (s.fenceCheck q) := by
  unfold State.fenceCheck
  dsimp only
  split
  · exact .refl s
  · split
    · exact outcomeFrame_finish1 s q _ _ _ _
    · exact .refl s

theorem outcomeFrame_closeCalls (n : Nat) : OutcomeFrame s (s.closeCalls q n) := by
  induction n generalizing s with
  | zero => exact .refl s
  | succ n ih =>
    have hfence := outcomeFrame_fenceCheck s q
    unfold State.closeCalls
    dsimp only
    generalize s.fenceCheck q = t at hfence
    split
    · exact hfence
    next c _ =>
      refine (hfence.trans ?_).trans (ih _)
      have hend (st tag : Byte) (resume : Word) : OutcomeFrame t (if halting st && (c.ring || c.cont) then
          (t.finish1 q c.uid st tag resume).bindOff q else t.finish1 q c.uid st tag resume) := by
        have hfinish := outcomeFrame_finish1 t q c.uid st tag resume
        split
        · exact hfinish.trans (outcomeFrame_bindOff _ q)
        · exact hfinish
      split
      · exact hend _ _ _
      · exact hend _ _ _

theorem outcomeFrame_finish (uid : Nat) (st : Byte) : OutcomeFrame s (s.finish q uid st) := by
  unfold State.finish
  split
  · exact .refl s
  next c _ =>
    refine OutcomeFrame.trans ?_ (outcomeFrame_closeCalls _ q 6)
    generalize (if c.e.opc = 0x15 then BitVec.ofNat 32 c.resumeLine else c.resume) = resume
    have hend := outcomeFrame_finish1 s q uid st c.tag resume
    dsimp only
    split
    · split
      · exact hend.trans (outcomeFrame_bindOff _ q)
      · split
        · exact (hend.modCmd q _ _).trans (outcomeFrame_leaveList _ q)
        · exact hend.modCmd q _ _
    · exact hend

theorem outcomeFrame_finishAll (st : Byte) (f : Cmd → Bool) : OutcomeFrame s (s.finishAll q st f) :=
  .foldl (f := fun s (c : Cmd) => s.finish q c.uid st) (fun s c => outcomeFrame_finish s q c.uid st) s _

theorem outcomeFrame_printsOut (p : Port) (st : Byte) : OutcomeFrame s (s.printsOut p st) :=
  .foldl (f := fun s q => s.finishAll q st fun c => c.e.opc == 0x15 && c.committed)
    (fun s q => outcomeFrame_finishAll s q st _) s _

/-- A VERIFY close that completes takes its window with it. -/
theorem outcomeFrame_winCheck (p : Port) : ∃ w, OutcomeFrame (s.setWin p w) (s.winCheck p) := by
  have hself : s.setWin p (s.win p) = s := by simp [State.setWin, State.win]
  have hsame : ∃ w, OutcomeFrame (s.setWin p w) s := ⟨s.win p, hself.symm ▸ .refl s⟩
  unfold State.winCheck
  split
  · split
    · split
      · exact ⟨none, outcomeFrame_finish _ _ _ _⟩
      · exact hsame
    · exact hsame
  · exact hsame

theorem winCheck_none {s : State} {p : Port} (h : s.win p = none) : s.winCheck p = s := by
  simp only [State.winCheck, h]
end

end Sys2Proof.Machine
end

section
/-! SUPPORT. A head port stops: its line in progress is cut short, its trigger and its measurement slot are discarded, it enters HOLD
(07 R184, R191, R193, R196); what that leaves as it was. -/

namespace Sys2Proof.Machine

theorem hpP_modHp_ne (s : State) {p o : Port} (f : HpSt → HpSt) (h : o ≠ p) : (s.modHp p f).hpP o = s.hpP o := by
  have : ¬ p.val = o.val := fun e => h (Fin.ext e.symm)
  simp [State.hpP, this]

theorem modHp_congr {s : State} {p : Port} {f g : HpSt → HpSt} (h : f (s.hpP p) = g (s.hpP p)) : s.modHp p f = s.modHp p g := by
  rw [State.modHp, State.modHp, show f s.hp[p] = g s.hp[p] from h]

theorem st_irq (s : State) (pg : PageIx) (b : Nat) (o : PageIx) : ((s.irq pg b).page o).st = (s.page o).st := by
  by_cases h : o = pg
  · rw [h, page_irq_same]
  · rw [State.irq, page_modPage_ne _ _ h]

/-- From `s` to `t` work of port `p` may end, in whatever block: no line begins on it, no trigger comes, its HOLD does not end, its
Shutter keeps its causes, and nothing new is reserved. No block changes its state, no other head port is touched, and nothing is stored or reported. -/
structure StopFrame (p : Port) (s t : State) : Prop where
  rest : t = { s with
    pages := t.pages, regs := t.regs, queues := t.queues, seq := t.seq, skn := t.skn, rnd := t.rnd, cam := t.cam
    hhe := t.hhe, sba := t.sba, ehm := t.ehm, hp := t.hp }
  states : ∀ o, (t.page o).st = (s.page o).st
  others : ∀ o, o ≠ p → t.hpP o = s.hpP o
  causes : (t.hpP p).causes = (s.hpP p).causes
  idle : (s.hpP p).cur = none → (t.hpP p).cur = none
  holds : (s.hpP p).hold.isSome = true → (t.hpP p).hold.isSome = true
  untriggered : (s.hpP p).pendTrig = false → (t.hpP p).pendTrig = false
  calendar : ∀ r ∈ t.sba.calendar, r ∈ s.sba.calendar

section
variable {s t u : State} {p : Port}

theorem StopFrame.refl (p : Port) (s : State) : StopFrame p s s :=
  ⟨rfl, fun _ => rfl, fun _ _ => rfl, rfl, id, id, id, fun _ => id⟩

theorem StopFrame.trans (h : StopFrame p s t) (h' : StopFrame p t u) : StopFrame p s u where
  rest := by rw [h'.rest, h.rest]
  states o := (h'.states o).trans (h.states o)
  others o ho := (h'.others o ho).trans (h.others o ho)
  causes := h'.causes.trans h.causes
  idle := h'.idle ∘ h.idle
  holds := h'.holds ∘ h.holds
  untriggered := h'.untriggered ∘ h.untriggered
  calendar r hr := h.calendar r (h'.calendar r hr)

theorem StopFrame.modHp (h : StopFrame p s t) {f : HpSt → HpSt} (hcauses : (f (t.hpP p)).causes = (t.hpP p).causes)
    (hidle : (t.hpP p).cur = none → (f (t.hpP p)).cur = none)
    (hholds : (t.hpP p).hold.isSome = true → (f (t.hpP p)).hold.isSome = true)
    (htrig : (t.hpP p).pendTrig = false → (f (t.hpP p)).pendTrig = false) : StopFrame p s (t.modHp p f) := by
  refine h.trans ⟨rfl, fun _ => rfl, fun o ho => hpP_modHp_ne t f ho, ?_, ?_, ?_, ?_, fun _ => id⟩
  all_goals rwa [hpP_modHp_same]

theorem StopFrame.irq (h : StopFrame p s t) (pg : PageIx) (b : Nat) : StopFrame p s (t.irq pg b) :=
  h.trans ⟨rfl, st_irq t pg b, fun _ _ => rfl, rfl, id, id, id, fun _ => id⟩

theorem StopFrame.endResv (h : StopFrame p s t) (o : Port) : StopFrame p s (t.endResv o) :=
  h.trans ⟨rfl, fun _ => rfl, fun _ _ => rfl, rfl, id, id, id, fun _ hr => (List.mem_filter.1 hr).1⟩

/-- The head ports, the page headers and the calendar stay. -/
theorem StopFrame.beside (h : StopFrame p s t) (hrest : u = { t with
      regs := u.regs, queues := u.queues, seq := u.seq, skn := u.skn, rnd := u.rnd, cam := u.cam, hhe := u.hhe, ehm := u.ehm
      sba := { u.sba with calendar := t.sba.calendar } }) : StopFrame p s u := by
  refine h.trans ⟨?_, ?_, ?_, ?_, ?_, ?_, ?_, ?_⟩
  all_goals rw [hrest]
  · exact fun _ => rfl
  · exact fun _ _ => rfl
  · rfl
  · exact id
  · exact id
  · exact id
  · exact fun _ => id

theorem StopFrame.wr (h : StopFrame p s t) (r : Reg) (v : Word) (i : Nat) : StopFrame p s (t.wr r v i) := h.beside rfl

theorem StopFrame.modEhm (h : StopFrame p s t) (f : EhmPort → EhmPort) : StopFrame p s (t.modEhm p f) := h.beside rfl

theorem StopFrame.modSba (h : StopFrame p s t) (f : SbaPort → SbaPort) : StopFrame p s (t.modSba p f) := h.beside rfl

theorem StopFrame.outcome (h : StopFrame p s t) (h' : OutcomeFrame t u) : StopFrame p s u :=
  h.beside (by rw [h'])

theorem StopFrame.winCheck (h : StopFrame p s t) : StopFrame p s (t.winCheck p) := by
  obtain ⟨w, hw⟩ := outcomeFrame_winCheck t p
  have hset : StopFrame p s (t.setWin p w) := h.beside rfl
  exact hset.outcome hw

theorem StopFrame.mem (h : StopFrame p s t) : t.mem = s.mem := (congrArg State.mem h.rest :)
theorem StopFrame.pending (h : StopFrame p s t) : t.pending = s.pending := (congrArg State.pending h.rest :)
theorem StopFrame.chip (h : StopFrame p s t) : t.chip = s.chip := (congrArg State.chip h.rest :)
theorem StopFrame.reports (h : StopFrame p s t) : t.reports = s.reports := (congrArg State.reports h.rest :)
theorem StopFrame.time (h : StopFrame p s t) : t.time = s.time := (congrArg State.time h.rest :)

theorem StopFrame.running (h : StopFrame p s t) (pg : PageIx) : t.running pg = s.running pg := by
  rw [State.running, State.running, h.states]
end

-- what a port discards

section
variable (s : State) (p : Port)

theorem stopFrame_dropTrig : StopFrame p s (s.dropTrig p) := by
  unfold State.dropTrig
  split
  · exact (((StopFrame.refl p s).modHp rfl id id fun _ => rfl).wr _ _ _).irq _ _
  · exact .refl p s

theorem stopFrame_padsQuiet : StopFrame p s (s.padsQuiet p) := (StopFrame.refl p s).modHp rfl id id id

theorem stopFrame_dropSlot (counter : Reg) : StopFrame p s (s.dropSlot p counter) := by
  unfold State.dropSlot
  split
  · exact .refl p s
  next x _ =>
    have hquiet : StopFrame p s ((if x.grant.isSome then s.endResv p else s).padsQuiet p) := by
      refine StopFrame.trans ?_ (stopFrame_padsQuiet _ p)
      split
      · exact (StopFrame.refl p s).endResv p
      · exact .refl p s
    dsimp only
    split
    · exact ((((hquiet.wr _ _ _).modEhm _).wr _ _ _).modEhm _).wr _ _ _
    · exact ((hquiet.wr _ _ _).modEhm _).wr _ _ _

/-- After it the port is in HOLD (R196). -/
theorem stopFrame_enterHold (st : Byte) :
    StopFrame p s (s.enterHold p st) ∧ ((s.enterHold p st).hpP p).hold.isSome = true := by
  by_cases hhold : (s.hpP p).hold.isSome = true
  · rw [State.enterHold, if_pos hhold]
    exact ⟨.refl p s, hhold⟩
  · have hheld : StopFrame p s (s.portHeld p st) := by
      have hport : StopFrame p s (s.modHp p fun h => { h with hold := some st }) :=
        (StopFrame.refl p s).modHp rfl id (fun _ => rfl) id
      exact hport.beside rfl
    have hdrop : StopFrame p (s.portHeld p st)
        (((s.portHeld p st).dropTrig p).dropSlot p R.EHM_Pp_DISC) :=
      (stopFrame_dropTrig _ p).trans (stopFrame_dropSlot _ p _)
    have hend : StopFrame p (s.portHeld p st) (s.enterHold p st) := by
      rw [State.enterHold, if_neg hhold]
      exact (((hdrop.modSba _).modEhm _).outcome (outcomeFrame_printsOut _ p st)).irq _ _
    exact ⟨hheld.trans hend, hend.holds (by rw [hpP_portHeld]; rfl)⟩

/-- A port in RUN that paper-out has stopped is in HOLD (R193). -/
theorem stopFrame_paperStop : StopFrame p s (s.paperStop p) ∧
    (s.running (Pg.hp p) = true → ((s.paperStop p).hpP p).hold.isSome = true) := by
  have hpaper : StopFrame p s (s.modHp p fun h => { h with paperOut := false }) := (StopFrame.refl p s).modHp rfl id id id
  by_cases hrun : s.running (Pg.hp p) = true
  · have hstop : s.paperStop p = (s.modHp p fun h => { h with paperOut := false }).enterHold p St.mediaOut := if_pos hrun
    rw [hstop]
    obtain ⟨hframe, hhold⟩ := stopFrame_enterHold (s.modHp p fun h => { h with paperOut := false }) p St.mediaOut
    exact ⟨hpaper.trans hframe, fun _ => hhold⟩
  · have hstop : s.paperStop p = (s.modHp p fun h => { h with paperOut := false }).printsOut p St.mediaOut := if_neg hrun
    rw [hstop]
    exact ⟨hpaper.outcome (outcomeFrame_printsOut _ p _), fun h => absurd h hrun⟩
end

-- the end of a line, whatever has ended it

/-- `s` once its line in progress on port `p` is gone, with the line's band and its reservation (R184, 05 R132, 08 R207). -/
def State.lineOver (s : State) (p : Port) : State :=
  let t := ((((s.bandInUse p).elim s s.bandLineGone).endResv p).padsQuiet p).modHp p
    fun h => { h with cur := none, lastEnd := s.time }
  (if (s.lines p).isEmpty then t.modSba p fun x => { x with restart := true } else t).ehmTouch p

/-- `t` is `s` but for bands, and the state of SBA, of EHM and of the head ports. -/
def OverFrame (s t : State) : Prop := t = { s with
  skn := { s.skn with bands := t.skn.bands }, sba := t.sba, ehm := t.ehm, hp := t.hp }

theorem OverFrame.trans {s t u : State} (h : OverFrame s t) (h' : OverFrame t u) : OverFrame s u := by
  rw [OverFrame, h', h]

section
variable {s : State} {p : Port}

/-- The head ports see no more of it than the end of the line's pads and of the line. -/
theorem lineOver_hp : (s.lineOver p).hp = ((s.padsQuiet p).modHp p fun h => { h with cur := none, lastEnd := s.time }).hp := by
  unfold State.lineOver
  split <;> cases s.bandInUse p <;> rfl

theorem overFrame_lineOver : OverFrame s (s.lineOver p) := by
  have hband : OverFrame s ((s.bandInUse p).elim s s.bandLineGone) := by cases s.bandInUse p <;> rfl
  have hresv (t : State) : OverFrame t (t.endResv p) := rfl
  have hpads (t : State) : OverFrame t (t.padsQuiet p) := rfl
  have hport (t : State) (f : HpSt → HpSt) : OverFrame t (t.modHp p f) := rfl
  have hgov (t : State) (f : SbaPort → SbaPort) : OverFrame t (t.modSba p f) := rfl
  have htouch (t : State) : OverFrame t (t.ehmTouch p) := rfl
  have hgone := ((hband.trans (hresv _)).trans (hpads _)).trans (hport _ fun h => { h with cur := none, lastEnd := s.time })
  refine OverFrame.trans ?_ (htouch _)
  split
  · exact hgone.trans (hgov _ _)
  · exact hgone

theorem lineOver_calendar : (s.lineOver p).sba.calendar = s.sba.calendar.filter fun r => r.port != p := by
  unfold State.lineOver
  split <;> cases s.bandInUse p <;> rfl

theorem hpP_lineOver : (s.lineOver p).hpP p = { s.hpP p with
    latAt := none, shiftAt := none, shiftBits := [], pulses := [], cur := none, lastEnd := s.time } := by
  have hport : (s.lineOver p).hpP p = ((s.padsQuiet p).modHp p fun h => { h with cur := none, lastEnd := s.time }).hpP p :=
    congrArg (fun v : Vector HpSt 4 => v[p]) lineOver_hp
  rw [hport, State.padsQuiet, hpP_modHp_same, hpP_modHp_same]

theorem stopFrame_lineOver : StopFrame p s (s.lineOver p) := by
  have hband : StopFrame p s ((s.bandInUse p).elim s s.bandLineGone) := by
    cases s.bandInUse p with
    | none => exact .refl p s
    | some b => exact (StopFrame.refl p s).beside rfl
  have hgone := ((hband.endResv p).trans (stopFrame_padsQuiet _ p)).modHp
    (f := fun h => { h with cur := none, lastEnd := s.time }) rfl (fun _ => rfl) id id
  unfold State.lineOver
  refine StopFrame.modEhm ?_ _
  split
  · exact hgone.modSba _
  · exact hgone

theorem winCheck_hpP (s : State) (p o : Port) : (s.winCheck p).hpP o = s.hpP o := by
  obtain ⟨w, hw⟩ := outcomeFrame_winCheck s p
  rw [hw]
  rfl

theorem clearCur_eq : s.clearCur p =
    if (s.hpP p).paperOut then ((s.lineOver p).winCheck p).paperStop p else (s.lineOver p).winCheck p := by
  have hpaper : (((s.lineOver p).winCheck p).hpP p).paperOut = (s.hpP p).paperOut := by rw [winCheck_hpP, hpP_lineOver]
  rw [← hpaper]
  unfold State.clearCur State.lineOver
  cases s.bandInUse p <;> rfl

/-- The line of a port ends: its reservation with it, and a port in RUN that paper-out has stopped holds. -/
theorem clearCur_stops (s : State) (p : Port) : StopFrame p s (s.clearCur p) ∧ ((s.clearCur p).hpP p).cur = none ∧
    (∀ r ∈ (s.clearCur p).sba.calendar, r.port ≠ p) ∧
    ((s.hpP p).paperOut = true → s.running (Pg.hp p) = true → ((s.clearCur p).hpP p).hold.isSome = true) := by
  have hover : StopFrame p s ((s.lineOver p).winCheck p) := stopFrame_lineOver.winCheck
  obtain ⟨hpaper, hhold⟩ := stopFrame_paperStop ((s.lineOver p).winCheck p) p
  have hfrom : StopFrame p ((s.lineOver p).winCheck p) (s.clearCur p) := by
    rw [clearCur_eq]
    split
    · exact hpaper
    · exact .refl p _
  refine ⟨hover.trans hfrom, hfrom.idle (by rw [winCheck_hpP, hpP_lineOver]), fun r hr => ?_, fun hout hrun => ?_⟩
  · have hmem := (StopFrame.refl p (s.lineOver p)).winCheck.calendar r (hfrom.calendar r hr)
    rw [lineOver_calendar] at hmem
    simpa using (List.mem_filter.1 hmem).2
  · rw [clearCur_eq, if_pos hout]
    exact hhold ((hover.running _).trans hrun)

-- a line cut short (R184, R196)

/-- `u` is `s`, but for the pulse counts of a line in progress whose slice counts the head has not got (R151, 09 R227). -/
structure CutFrame (p : Port) (s u : State) : Prop where
  rest : u = { s with mem := u.mem, reports := u.reports }
  counted : (∀ c, (s.hpP p).cur = some c → c.data.isSome = true) → u = s

theorem CutFrame.hpP {s u : State} {p : Port} (h : CutFrame p s u) (o : Port) : u.hpP o = s.hpP o := by
  rw [h.rest]
  rfl

end

section
variable (s : State) (p : Port)

theorem pulse_rest (e : Nat) : s.pulse p e = { s with mem := (s.pulse p e).mem, reports := (s.pulse p e).reports } := by
  unfold State.pulse
  dsimp only
  rw [setBytes_eq]
  split
  · rfl
  · split <;> rfl

theorem pulseLine_rest (counts : List Nat) :
    s.pulseLine p counts = { s with mem := (s.pulseLine p counts).mem, reports := (s.pulseLine p counts).reports } := by
  unfold State.pulseLine
  generalize counts.zipIdx = l
  induction l generalizing s with
  | nil => rfl
  | cons c l ih =>
    rw [List.foldl_cons, ih]
    split
    · rw [pulse_rest]
    · rfl
end

section
variable {s : State} {p : Port}

theorem pulseCut_data {c : CurLine} (h : c.data.isSome = true) : s.pulseCut p c = s := by
  obtain ⟨d, hd⟩ := Option.isSome_iff_exists.1 h
  simp only [State.pulseCut, hd]

theorem pulseCut_rest (c : CurLine) :
    s.pulseCut p c = { s with mem := (s.pulseCut p c).mem, reports := (s.pulseCut p c).reports } := by
  unfold State.pulseCut
  split
  · exact pulseLine_rest s p _
  · rfl

theorem abandonLine_idle (h : (s.hpP p).cur = none) : s.abandonLine p = s := by simp only [State.abandonLine, h]

theorem abandonLine_some {c : CurLine} (h : (s.hpP p).cur = some c) : s.abandonLine p = (s.pulseCut p c).clearCur p := by
  simp only [State.abandonLine, h]

theorem abandonLine_stops (s : State) (p : Port) : ∃ u, CutFrame p s u ∧ StopFrame p u (s.abandonLine p) ∧
    ((s.abandonLine p).hpP p).cur = none := by
  cases hcur : (s.hpP p).cur with
  | none =>
    rw [abandonLine_idle hcur]
    exact ⟨s, ⟨rfl, fun _ => rfl⟩, .refl p s, hcur⟩
  | some c =>
    rw [abandonLine_some hcur]
    obtain ⟨hframe, hnone, -, -⟩ := clearCur_stops (s.pulseCut p c) p
    exact ⟨s.pulseCut p c, ⟨pulseCut_rest c, fun h => pulseCut_data (h c hcur)⟩, hframe, hnone⟩

/-- Where neither paper-out nor a VERIFY close waits for the line, no command completes and nothing holds. -/
theorem abandonLine_quiet (h : (s.hpP p).cur = none ∨ ((s.hpP p).paperOut = false ∧ s.win p = none)) :
    (s.abandonLine p).queues = s.queues ∧ ((s.abandonLine p).hpP p).hold = (s.hpP p).hold := by
  cases hcur : (s.hpP p).cur with
  | none =>
    rw [abandonLine_idle hcur]
    exact ⟨rfl, rfl⟩
  | some c =>
    obtain ⟨hpaper, hwin⟩ := h.resolve_left (by simp [hcur])
    have hframe := overFrame_lineOver (s := s.pulseCut p c) (p := p)
    have hover : s.abandonLine p = (s.pulseCut p c).lineOver p := by
      have hkeep : ((s.pulseCut p c).hpP p).paperOut = false := by rw [pulseCut_rest]; exact hpaper
      have hopen : ((s.pulseCut p c).lineOver p).win p = none := by rw [hframe, pulseCut_rest]; exact hwin
      rw [abandonLine_some hcur, clearCur_eq, if_neg (Bool.eq_false_iff.1 hkeep), winCheck_none hopen]
    rw [hover, hpP_lineOver, hframe, pulseCut_rest]
    exact ⟨rfl, rfl⟩
end

end Sys2Proof.Machine
end

section
/-! SUPPORT. The Shutter of a port, its encoder's ESYNC, its energy buckets and the pause of its governor (07 R188, R194 to R197, 08
R212, R216); what that says of O41. -/

namespace Sys2Proof.Machine

-- the Shutter closes (R194, R196, R197)

/-- The causes of port `p`'s Shutter changed, and nothing else. -/
def State.withCauses (s : State) (p : Port) (f : Causes → Causes) : State := s.modHp p fun h => { h with causes := f h.causes }

section
variable (s : State) {p o : Port} (f : Causes → Causes)

theorem hpP_withCauses_same : (s.withCauses p f).hpP p = { s.hpP p with causes := f (s.hpP p).causes } := hpP_modHp_same s _

theorem hpP_withCauses_ne (h : o ≠ p) : (s.withCauses p f).hpP o = s.hpP o := hpP_modHp_ne s _ h
end

/-- The Shutter of port `p` has its causes changed by `f`, with what a cause that has come brings: the line in progress is cut short. -/
structure ShutterCloses (p : Port) (f : Causes → Causes) (s t : State) : Prop where
  pending : t.pending = s.pending
  chip : t.chip = s.chip
  time : t.time = s.time
  states : ∀ o, t.running o = s.running o
  causes : (t.hpP p).causes = f (s.hpP p).causes
  cur : (t.hpP p).cur = none
  others : ∀ o, o ≠ p → t.hpP o = s.hpP o
  counted : (∀ c, (s.hpP p).cur = some c → c.data.isSome = true) → SameMem s t ∧ t.reports = s.reports

section
variable {s t u : State} {p : Port} {f : Causes → Causes}

theorem ShutterCloses.stop (h : ShutterCloses p f s t) (h' : StopFrame p t u) : ShutterCloses p f s u where
  pending := h'.pending.trans h.pending
  chip := h'.chip.trans h.chip
  time := h'.time.trans h.time
  states o := (h'.running o).trans (h.states o)
  causes := h'.causes.trans h.causes
  cur := h'.idle h.cur
  others o ho := (h'.others o ho).trans (h.others o ho)
  counted hdata := by
    obtain ⟨hmem, hreports⟩ := h.counted hdata
    exact ⟨fun a => (sameMem_of_mem h'.mem a).trans (hmem a), h'.reports.trans hreports⟩

theorem shutterCloses_abandonLine (s : State) (p : Port) (f : Causes → Causes) :
    ShutterCloses p f s ((s.withCauses p f).abandonLine p) := by
  obtain ⟨u, hcut, hframe, hcur⟩ := abandonLine_stops (s.withCauses p f) p
  exact {
    pending := by rw [hframe.pending, hcut.rest]; rfl
    chip := by rw [hframe.chip, hcut.rest]; rfl
    time := by rw [hframe.time, hcut.rest]; rfl
    states := fun o => by rw [hframe.running, hcut.rest]; rfl
    causes := by rw [hframe.causes, hcut.hpP, hpP_withCauses_same]
    cur := hcur
    others := fun o ho => by rw [hframe.others o ho, hcut.hpP, hpP_withCauses_ne s f ho]
    counted := fun hdata => by
      have hsame : u = s.withCauses p f := hcut.counted fun c hc => hdata c (by rwa [hpP_withCauses_same] at hc)
      rw [hframe.reports, hsame]
      exact ⟨sameMem_of_mem (by rw [hframe.mem, hsame]; rfl), rfl⟩ }

theorem shutClose_eq (s : State) (p : Port) (f : Causes → Causes) : s.shutClose p f none =
    (let t := (((s.withCauses p f).abandonLine p).dropTrig p).dropSlot p R.EHM_Pp_DISC
     (if s.shut p then t else t.irq (Pg.hp p) 6).ehmTouch p) := rfl

theorem shutClose_some (s : State) (p : Port) (f : Causes → Causes) (st : Byte) : s.shutClose p f (some st) =
    if (s.shutClose p f none).running (Pg.hp p) then (s.shutClose p f none).enterHold p st
    else (s.shutClose p f none).printsOut p st := rfl

theorem shutterCloses_shutClose (s : State) (p : Port) (f : Causes → Causes) : ShutterCloses p f s (s.shutClose p f none) := by
  refine (shutterCloses_abandonLine s p f).stop ?_
  have hdrop := (stopFrame_dropTrig ((s.withCauses p f).abandonLine p) p).trans (stopFrame_dropSlot _ p R.EHM_Pp_DISC)
  rw [shutClose_eq]
  refine StopFrame.modEhm ?_ _
  split
  · exact hdrop
  · exact hdrop.irq _ _

/-- Where neither paper-out nor a VERIFY close waits for the line, closing completes no command and holds nothing. -/
theorem shutClose_quiet (h : (s.hpP p).cur = none ∨ ((s.hpP p).paperOut = false ∧ s.win p = none)) (f : Causes → Causes) :
    (s.shutClose p f none).queues = s.queues ∧ ((s.shutClose p f none).hpP p).hold = (s.hpP p).hold := by
  have hport := hpP_withCauses_same s (p := p) f
  obtain ⟨hqueues, hhold⟩ := abandonLine_quiet (s := s.withCauses p f) (p := p) (by rwa [hport])
  have hdrop := (portFrame_dropTrig ((s.withCauses p f).abandonLine p) p).trans (portFrame_dropSlot _ p)
  have hframe : PortFrame p ((s.withCauses p f).abandonLine p) (s.shutClose p f none) := by
    rw [shutClose_eq]
    refine PortFrame.modEhm ?_ _
    split
    · exact hdrop
    · exact hdrop.irq _ _
  exact ⟨hframe.queues.trans hqueues, (hframe.hold.trans hhold).trans (by rw [hport])⟩

/-- A strobe that was active for too long: a port in RUN holds (R197). -/
theorem stbLong_closes {us : Nat} (hoe : s.flag F.HPn_CFG_OE p.val = true) (hopen : s.shut p = false)
    (hrun : s.running (Pg.hp p) = true) (hlong : max 1 (s.fld F.HPn_STBMAX_MAX p.val) < us) :
    ∃ u, s.stbLong p us = u.raise (Pg.hp p) 3 ∧ ShutterCloses p (fun c => { c with stbLong := true }) s u ∧
      (u.hpP p).hold.isSome = true := by
  have hclose := shutterCloses_shutClose s p fun c => { c with stbLong := true }
  obtain ⟨hframe, hhold⟩ := stopFrame_enterHold (s.shutClose p (fun c => { c with stbLong := true }) none) p St.aborted
  refine ⟨_, ?_, hclose.stop hframe, hhold⟩
  rw [State.stbLong, if_neg (by simp [hoe, hopen, Nat.not_le.2 hlong]), shutClose_some, if_pos ((hclose.states _).trans hrun)]

/-- Causes that clear touch no more of the port than what an open Shutter arms again (R194). -/
theorem shutClear_clears (s : State) (p : Port) (f : Causes → Causes) :
    StopFrame p (s.withCauses p f) (s.shutClear p f) ∧ (s.shutClear p f).queues = s.queues := by
  unfold State.shutClear
  dsimp only
  split
  · have harm := (StopFrame.refl p (s.withCauses p f)).modHp (f := fun h => { h with burstArmed := true }) rfl id id id
    exact ⟨((harm.modSba _).wr _ _ _).modEhm _, rfl⟩
  · exact ⟨.refl p _, rfl⟩
end

-- energy and the governor (08 R212, R216)

theorem sbaP_modSba_same (s : State) (p : Port) (f : SbaPort → SbaPort) : (s.modSba p f).sbaP p = f (s.sbaP p) :=
  sbaP_setGov_same s p _

theorem sbaP_modSba_ne (s : State) {p o : Port} (f : SbaPort → SbaPort) (h : o ≠ p) : (s.modSba p f).sbaP o = s.sbaP o :=
  sbaP_setGov_ne s _ h

/-- A bucket whose time is over: beside the buckets, EWIN and the count of buckets of the line in progress change. -/
theorem rollBucket_due {s : State} {p : Port} (hwork : s.working Pg.sba = true)
    (hdue : s.bucketTicks p ≤ s.since (s.sbaP p).bucketStart) : ∃ f x,
      s.rollBucket p = { s.modSba p f with hp := x }.wr R.SBA_Pp_EWIN (BitVec.ofNat 32 ((s.modSba p f).ewin p)) p.val ∧
      ∀ y, (f y).buckets = 0 :: y.buckets.take 15 :=
  ⟨fun y => { y with buckets := 0 :: y.buckets.take 15, bucketStart := y.bucketStart + BitVec.ofNat 64 (s.bucketTicks p) }, _,
    if_pos ⟨hwork, hdue⟩, fun _ => rfl⟩

end Sys2Proof.Machine

open Sys2Proof Sys2Proof.Machine

/-- Settles O41: whatever ends with the line or the slot that closing cuts short, the Shutter keeps its causes and a HOLD stays. -/
theorem shutterAndPace : Obligations.ShutterAndPace := by
  unfold Obligations.ShutterAndPace
  intro s p
  refine ⟨fun ho => ?_, fun ho => ?_, fun k us hup hoe hopen hrun => ⟨fun hshort => ?_, fun hlong => ?_⟩, fun pos ho => ?_,
    fun hup hwork hdue => ?_, fun hup hpaused hlines hdue => ?_⟩
  · have hclose := shutterCloses_shutClose s p fun c => { c with host := true }
    refine gives_of_page (f := fun s => s.shutHost p) rfl ho rfl hclose.pending hclose.chip
      ⟨?_, hclose.causes, hclose.cur, fun hquiet => shutClose_quiet hquiet _, hclose.counted, hclose.others⟩
    have hcauses : ((s.shutHost p).hpP p).causes = { (s.hpP p).causes with host := true } := hclose.causes
    rw [State.shut, hcauses]
    simp [Causes.closed]
  · obtain ⟨hframe, hqueues⟩ := shutClear_clears s p fun c => { c with host := false, stbLong := false, sbaRst := false }
    refine gives_of_page (f := fun s => s.shutOpen p) rfl ho rfl hframe.pending hframe.chip
      ⟨sameMem_of_mem hframe.mem, ?_, hqueues, hframe.reports, fun o hne => ?_⟩
    · exact hframe.causes.trans (by rw [hpP_withCauses_same])
    · exact (hframe.others o hne).trans (hpP_withCauses_ne s _ hne)
  · exact next_of_outer (f := fun s => s.stbLong p us.toNat) rfl hup (if_pos (.inr (.inr hshort))) rfl rfl
  · obtain ⟨u, heq, hclose, hhold⟩ := stbLong_closes hoe hopen hrun hlong
    refine gives_of_outer (f := fun s => s.stbLong p us.toNat) rfl hup heq hclose.pending hclose.chip
      ⟨hclose.causes, hclose.cur, hhold, fun hdata => ?_⟩
    obtain ⟨hmem, hreports⟩ := hclose.counted hdata
    exact ⟨hmem, by rw [State.raise, hreports, hclose.time]; rfl⟩
  · obtain ⟨hup, hst⟩ := ho
    exact next_of_outer (f := fun s => if (s.page (Pg.hp p)).st = .resetting then s else s.hpEsync p pos) rfl hup (if_neg hst) rfl rfl
  · obtain ⟨f, x, hroll, hbuckets⟩ := rollBucket_due hwork hdue
    exact gives_of_outer (f := fun s => s.rollBucket p) rfl hup hroll rfl rfl
      ⟨fun _ => rfl, sameRegs_wr _ R.SBA_Pp_EWIN _ p.val 0, rd_wr_same _ _ _ _ _,
        (congrArg SbaPort.buckets (sbaP_modSba_same s p f)).trans (hbuckets _), fun o hne => sbaP_modSba_ne s f hne⟩
  · exact next_of_outer (f := fun s => s.govTimeout p) rfl hup (if_pos ⟨hpaused, hlines, hdue⟩) rfl rfl

end

section
/-! SUPPORT. The slices of a line, from the latch pulse to its end (07 R181 to R184, 08 R206 to R210). -/

namespace Sys2Proof.Machine

theorem modHp_modHp (s : State) (p : Port) (f g : HpSt → HpSt) : (s.modHp p f).modHp p g = s.modHp p fun h => g (f h) := by
  simp [State.modHp]

/-- The line in progress changed, where the port has one. -/
theorem modCur_eq {s : State} {p : Port} {c : CurLine} (h : (s.hpP p).cur = some c) (f : CurLine → CurLine) :
    s.modCur p f = s.modHp p fun h => { h with cur := some (f c) } :=
  modHp_congr (by rw [h]; rfl)

-- what the times and the bits of a slice rest on

section
variable {s t : State} {p : Port}

section
variable (hcfg : t.rd R.HPn_CFG p.val = s.rd R.HPn_CFG p.val)
include hcfg

theorem fld_headCfg {f : Fld} (hf : f.reg = R.HPn_CFG) : t.fld f p.val = s.fld f p.val := by
  rw [State.fld, State.fld, hf, hcfg]

theorem headCfg_congr : t.lanes p = s.lanes p ∧ t.nEl p = s.nEl p := by
  rw [State.lanes, State.nEl, fld_headCfg hcfg rfl, fld_headCfg hcfg rfl]
  exact ⟨rfl, rfl⟩

theorem sliceBits_congr (hpol : t.rd R.HPn_POL p.val = s.rd R.HPn_POL p.val) : t.sliceBits p = s.sliceBits p := by
  obtain ⟨hlanes, hnEl⟩ := headCfg_congr hcfg
  have hflag {f : Fld} (hf : f.reg = R.HPn_CFG) : t.flag f p.val = s.flag f p.val := by
    rw [State.flag, State.flag, fld_headCfg hcfg hf]
  have hdata : t.flag F.HPn_POL_DATPOL p.val = s.flag F.HPn_POL_DATPOL p.val := by
    rw [State.flag, State.flag, State.fld, State.fld, F.HPn_POL_DATPOL, hpol]
  have hpos : t.headPos p = s.headPos p := by
    funext i
    rw [State.headPos, State.headPos, hflag (f := F.HPn_CFG_MIRROR) rfl, hnEl]
  have hlane : t.laneBits p = s.laneBits p := by
    funext counts k j
    rw [State.laneBits, State.laneBits, hlanes, hnEl, hflag (f := F.HPn_CFG_SDIR) rfl, hdata, hpos]
  funext counts k
  rw [State.sliceBits, State.sliceBits, hlanes, hlane]

theorem tShift_congr : t.tShift p = s.tShift p := by
  obtain ⟨hlanes, hnEl⟩ := headCfg_congr hcfg
  rw [State.tShift, State.tShift, hlanes, hnEl, fld_headCfg hcfg rfl]
end

theorem guards_congr (hguard : t.rdAct R.HPn_GUARD p.val = s.rdAct R.HPn_GUARD p.val) :
    t.latw p = s.latw p ∧ t.tls p = s.tls p := by
  simp only [State.latw, State.tls, State.act, F.HPn_GUARD_LATW, F.HPn_GUARD_TLS, hguard, and_self]

theorem tFire_congr (hgroups : t.rdAct R.HPn_SGCFG p.val = s.rdAct R.HPn_SGCFG p.val) : t.tFire p = s.tFire p := by
  funext w
  simp only [State.tFire, State.phases, State.phaseList, State.nGrp, State.grpPhase, State.act, F.HPn_SGCFG_NGRP,
    F.HPn_SGCFG_PHASE, F.HPn_SGCFG_TPH, hgroups]
end

-- the latch pulse (R178, R179, R181)

theorem estimate_ne_head : ∀ p : Port, ∀ r ∈ [R.HPn_CFG, R.HPn_POL, R.HHE_Pp_VHT, R.HHE_Pp_RNOM, R.SBA_GCAP, R.SBA_PCAPp], ∀ i ∈ [0, p.val],
    r.addr i 0 ≠ R.SBA_Pp_IEST.addr p.val 0 := by decide

section
variable {s : State} {p : Port} {c : CurLine} (hcur : (s.hpP p).cur = some c)

theorem rd_noteEstimate (n : Nat) {r : Reg} (hr : r ∈ [R.HPn_CFG, R.HPn_POL, R.HHE_Pp_VHT, R.HHE_Pp_RNOM, R.SBA_GCAP, R.SBA_PCAPp]) {i : Nat}
    (hi : i ∈ [0, p.val]) : (s.noteEstimate p n).rd r i = s.rd r i :=
  rd_wr_ne s _ (estimate_ne_head p r hr i hi)

theorem fld_noteEstimate (n : Nat) : (s.noteEstimate p n).fld F.SBA_Pp_IEST_MA p.val = min 0xFFFF (s.estimate p n) := by
  have hlt : min 0xFFFF (s.estimate p n) < 2 ^ 16 := Nat.lt_of_le_of_lt (Nat.min_le_left _ _) (by decide)
  exact (fld_setFld_same s _ _ _ 0 (by decide)).trans (Nat.mod_eq_of_lt hlt)

include hcur

theorem sliceLatch_latches {counts : List Nat} (hcounts : counts = (c.data.map (·.counts)).getD []) (hst : c.st = .shifting)
    (hdue : c.nextLatch.toNat ≤ s.time.toNat) (hrun : s.running (Pg.hp p) = true) (hsba : s.running Pg.sba = true) :
    s.sliceLatch p = (s.noteEstimate p c.dots).modHp p fun h => { h with
      latch := s.sliceBits p counts c.slice, latAt := some s.time
      shiftAt := if c.slice < (c.data.map (·.nLine)).getD 0 then some (s.time + BitVec.ofNat 64 (s.latw p)) else none
      shiftBits := if c.slice < (c.data.map (·.nLine)).getD 0 then s.sliceBits p counts (c.slice + 1) else []
      cur := some { c with st := .latched s.time
                           nextLatch := s.time + BitVec.ofNat 64 (s.latw p + s.tShift p + s.tds p) } } := by
  have hcfg : (s.noteEstimate p c.dots).rd R.HPn_CFG p.val = s.rd R.HPn_CFG p.val := rd_noteEstimate _ (by simp) (by simp)
  have hpol : (s.noteEstimate p c.dots).rd R.HPn_POL p.val = s.rd R.HPn_POL p.val := rd_noteEstimate _ (by simp) (by simp)
  have hguard : ¬ (c.st ≠ .shifting ∨ s.time.toNat < c.nextLatch.toNat ∨ ¬ s.running (Pg.hp p) = true) := by
    simp [hst, hrun, Nat.not_lt.2 hdue]
  have hnote : ((s.noteEstimate p c.dots).hpP p).cur = some c := hcur
  simp only [State.sliceLatch, hcur]
  rw [if_neg hguard, if_neg (by simp [hsba]), State.modCur, modHp_modHp, sliceBits_congr hcfg hpol, hcounts]
  have htime (f : HpSt → HpSt) : ((s.noteEstimate p c.dots).modHp p f).time = s.time := rfl
  have hlat (f : HpSt → HpSt) : ((s.noteEstimate p c.dots).modHp p f).latw p = s.latw p := rfl
  have hgap (f : HpSt → HpSt) : ((s.noteEstimate p c.dots).modHp p f).tds p = s.tds p := rfl
  have hshift (f : HpSt → HpSt) : ((s.noteEstimate p c.dots).modHp p f).tShift p = s.tShift p := tShift_congr hcfg
  refine modHp_congr ?_
  simp only [htime, hlat, hgap, hshift, hnote, Option.map_some, decide_eq_true_eq]
  rfl

omit hcur in
theorem place_noteEstimate (n dots w f : Nat) (e ta : BitVec 64) :
    (s.noteEstimate p n).place p dots w f e ta = s.place p dots w f e ta := by
  have hfld {g : Fld} (hg : g.reg ∈ [R.HPn_CFG, R.HPn_POL, R.HHE_Pp_VHT, R.HHE_Pp_RNOM, R.SBA_GCAP, R.SBA_PCAPp]) {i : Nat}
      (hi : i ∈ [0, p.val]) : (s.noteEstimate p n).fld g i = s.fld g i := congrArg (fun v => wbits v g.lo g.width) (rd_noteEstimate n hg hi)
  have hestimate : (s.noteEstimate p n).estimate p dots = s.estimate p dots := by
    rw [State.estimate, State.estimate, State.rNom, State.rNom, hfld (g := F.HHE_Pp_VHT_VHMV) (by decide) (by simp),
      hfld (g := F.HHE_Pp_RNOM_RNOM) (by decide) (by simp)]
    rfl
  have hgcap : (s.noteEstimate p n).gcap = s.gcap := by rw [State.gcap, State.gcap, hfld (g := F.SBA_GCAP_CAP) (by decide) (by simp)]
  have hpcap : (s.noteEstimate p n).pcap p = s.pcap p := by
    rw [State.pcap, State.pcap, hfld (g := F.SBA_PCAPp_CAP) (by decide) (by simp)]
  rw [State.place, State.place, hestimate, hgcap, hpcap]
  rfl

end

-- the arbiter (08 R206, R209, 02 R43)

/-- `t` is `s` but for registers. -/
def RegsFrame (s t : State) : Prop := t = { s with regs := t.regs }

theorem RegsFrame.trans {s t u : State} (h : RegsFrame s t) (h' : RegsFrame t u) : RegsFrame s u := by
  rw [RegsFrame, h', h]

theorem RegsFrame.ite {s t u : State} {c : Prop} [Decidable c] (h : RegsFrame s t) (h' : RegsFrame s u) :
    RegsFrame s (if c then t else u) := by
  split
  · exact h
  · exact h'

theorem regsFrame_isumPeak (s : State) : RegsFrame s s.isumPeak := .ite rfl rfl

theorem sameRegs_isumPeak (s : State) : SameRegsBut [R.SBA_ISUM.addr 0 0] s s.isumPeak := by
  unfold State.isumPeak
  split
  · exact sameRegs_wr s R.SBA_ISUM _ 0 0
  · exact .refl _ s

section
variable (s : State) (p : Port)

/-- The reservation of a slice in the calendar. -/
def State.booked (start : BitVec 64) (d ma f : Nat) : State :=
  { s with sba := { s.sba with
      calendar := (s.sba.calendar.filter fun (r : Resv) => r.live s.time) ++ [Resv.mk p start (start + BitVec.ofNat 64 f) ma]
      lastPort := some p } }.modSba p fun x => { x with lastDefer := d }

/-- Beside it, the grant's records are registers (R219, R220). -/
theorem regsFrame_reserve (start : BitVec 64) (d ma f slice : Nat) :
    RegsFrame (s.booked p start d ma f) (s.reserve p start d ma f slice) := by
  unfold State.reserve
  refine RegsFrame.trans ?_ (regsFrame_isumPeak _)
  have hgrant (t : State) (v : Word) : RegsFrame t (t.wr R.SBA_GRANT v) := rfl
  have hdefer (t : State) : RegsFrame t (if d > 0 then t.count R.SBA_Pp_DEFER p.val else t) := .ite rfl rfl
  have hmost (t : State) : RegsFrame t
      (if min d 0xFFFF > t.fld F.SBA_Pp_DMAX_SUB p.val then t.setFld F.SBA_Pp_DMAX_SUB (min d 0xFFFF) p.val else t) := .ite rfl rfl
  exact ((hgrant _ _).trans (hdefer _)).trans (hmost _)

/-- The pending set of SBA becomes active: the active values of other pages stay, and so does all that is not SBA's. -/
theorem sbaActivate_keeps : ∃ a b x y, s.sbaActivate = { s with active := a, pendSet := b, sba := x, pages := y } ∧
    ∀ d k, ¬ InPage Pg.sba k → sget d k a = sget d k s.active := by
  by_cases hpend : (s.page Pg.sba).pend = true
  · have hact := activate_alone (s := s) (pg := Pg.sba) rfl hpend
    refine ⟨copyPage Pg.sba s.pendSet s.active, copyPage Pg.sba [] s.pendSet, s.sbaActivate.sba, s.sbaActivate.pages, ?_, fun d k hk => ?_⟩
    · rw [(sbaActivate_only hpend).frame, hact]
      rfl
    · rw [sget_copyPage, if_neg hk]
  · exact ⟨s.active, s.pendSet, s.sba, s.pages, if_neg hpend, fun _ _ _ => rfl⟩

theorem guards_outside_sba : ∀ p : Port, ∀ r ∈ [R.HPn_GUARD, R.HPn_SGCFG], ¬ InPage Pg.sba (r.addr p.val 0) := by decide

theorem sbaActivate_times : s.sbaActivate.latw p = s.latw p ∧ s.sbaActivate.tls p = s.tls p ∧ s.sbaActivate.tFire p = s.tFire p := by
  obtain ⟨a, b, x, y, heq, hact⟩ := sbaActivate_keeps s
  have hrd : ∀ r ∈ [R.HPn_GUARD, R.HPn_SGCFG], s.sbaActivate.rdAct r p.val = s.rdAct r p.val := fun r hr => by
    rw [State.rdAct, heq]
    exact hact _ _ (guards_outside_sba p r hr)
  obtain ⟨hlat, hstrobe⟩ := guards_congr (hrd R.HPn_GUARD (by simp))
  exact ⟨hlat, hstrobe, tFire_congr (hrd R.HPn_SGCFG (by simp))⟩
end

/-- SBA answers the request of a line, whose slice it places or refuses. -/
theorem sbaGrant_line {s u : State} {p : Port} {c : CurLine} {ta : BitVec 64} (hcur : (s.hpP p).cur = some c)
    (hst : c.st = .latched ta) (hsba : s.running Pg.sba = true) (hturn : s.grantTurn p = true) (hu : u = s.sbaActivate) :
    s.sbaGrant p = (u.place p c.dots c.w (s.tFire p c.w) (ta + BitVec.ofNat 64 (s.latw p + s.tls p)) ta).elim
      (((u.noteEstimate p c.dots).oversize p).modHp p fun h => { h with cur := some { c with st := .refused } })
      fun x => ((u.noteEstimate p c.dots).reserve p x.1 x.2.1 x.2.2 (s.tFire p c.w) c.slice).modHp p fun h =>
        { h with cur := some { c with st := .granted x.1, defer := c.defer + x.2.1 } } := by
  obtain ⟨hlat, hstrobe, hfire⟩ := sbaActivate_times s p
  obtain ⟨_, _, _, _, heq, -⟩ := sbaActivate_keeps s
  have hcur' : (u.hpP p).cur = some c := by rw [hu, heq]; exact hcur
  have hask : s.requested p = some ta := by simp only [State.requested, hcur, hst]
  rw [State.sbaGrant, if_neg (by simp [hsba, hturn])]
  simp only [hask]
  rw [hlat, hstrobe, hfire, ← hu]
  simp only [hcur', place_noteEstimate]
  generalize u.place p c.dots c.w (s.tFire p c.w) (ta + BitVec.ofNat 64 (s.latw p + s.tls p)) ta = answer
  cases answer with
  | none => exact modCur_eq (s := (u.noteEstimate p c.dots).oversize p) hcur' _
  | some x =>
    obtain ⟨start, d, ma⟩ := x
    refine modCur_eq ?_ _
    rw [regsFrame_reserve]
    exact hcur'

-- the strobes (R183, 08 R207)

section
variable {s : State} {p : Port} {c : CurLine} (hcur : (s.hpP p).cur = some c)
include hcur

theorem strobeOn_fires {at_ : BitVec 64} (hst : c.st = .granted at_) (hopen : s.shut p = false)
    (hdue : at_.toNat ≤ s.time.toNat) : s.strobeOn p = (s.modHp p fun h => { h with
      pulses := s.slicePulses p ((c.data.map (·.counts)).getD []) c.slice c.w at_
      cur := some { c with st := .firing (at_ + BitVec.ofNat 64 (s.tFire p c.w)) } }).isumPeak := by
  rw [State.strobeOn, if_neg (by simp [hopen])]
  simp only [hcur, hst]
  rw [if_neg (Nat.not_lt.2 hdue), State.modCur, modHp_modHp]
  refine congrArg State.isumPeak (modHp_congr ?_)
  simp only [hcur, Option.map_some]
  rfl

/-- After its last slice the line waits for its end, else the next slice is shifted (R181). -/
def CurLine.fired (c : CurLine) (n : Nat) (after : BitVec 64) : CurLine :=
  if c.slice ≥ n then { c with st := .ending after }
  else { c with st := .shifting, slice := c.slice + 1
                nextLatch := if c.nextLatch.toNat < after.toNat then after else c.nextLatch }

theorem sliceFireEnd_due {until_ : BitVec 64} {n : Nat} (hst : c.st = .firing until_) (hdue : until_.toNat ≤ s.time.toNat)
    (hn : (c.data.map (·.nLine)).getD 0 = n) : s.sliceFireEnd p =
      if ¬ s.running (Pg.hp p) = true then (s.endResv p).abandonLine p
      else if ¬ s.running Pg.sba = true ∧ c.slice < n then ((s.endResv p).abandonLine p).enterHold p St.aborted
      else (s.endResv p).modHp p fun h => { h with cur := some (c.fired n (until_ + BitVec.ofNat 64 (s.tsl p))) } := by
  simp only [State.sliceFireEnd, hcur, hst]
  rw [if_neg (Nat.not_lt.2 hdue), hn]
  have hgone : ((s.endResv p).hpP p).cur = some c := hcur
  rw [modCur_eq hgone]
  rfl

-- the end of the line (R184, R191)

/-- `s` with the line's report in LREP and LTIME. -/
def State.lineReported (s : State) (p : Port) (c : CurLine) (at_ : BitVec 64) : State :=
  (s.wr R.HPn_LREP (BitVec.ofNat 32 (min 0xFFFF c.defer * 65536 + (c.data.map (·.nLine)).getD 0 * 256 + c.tag.toNat)) p.val).wr
    R.HPn_LTIME (BitVec.ofNat 32 (min 0xFFFFFF (at_ - c.start).toNat)) p.val

theorem lineEnd_due {at_ : BitVec 64} (hst : c.st = .ending at_) (hdue : at_.toNat ≤ s.time.toNat) : s.lineEnd p =
    (let t := (s.lineReported p c at_).clearCur p
     if ¬ (t.hpP p).pendTrig = true then t else if (t.nextLive p).isNone = true then t.dropTrig p else t.startOfScan p) := by
  simp only [State.lineEnd, hcur, hst]
  rw [if_neg (Nat.not_lt.2 hdue)]
  rfl
end

end Sys2Proof.Machine
end

section
/-! SUPPORT. A start of scan (06 R163, R166, 07 R184, R185): what the blocks that take part in it touch. -/

namespace Sys2Proof.Machine

/-- What a start of scan leaves of its port for the whole line: the line and its start, the last start, and the pending trigger. -/
def HpSt.started (h : HpSt) : Option (Line × BitVec 64) × BitVec 64 × Bool := (h.cur.map fun c => (c.line, c.start), h.lastS, h.pendTrig)

/-- The bytes of the element table: four ports of 6144 entries (09 R222). -/
abbrev SameMemButElements (s t : State) : Prop := SameMemBut 0x21000000 0x30000 s t

/-- From `s` to `t` a start of scan on port `p` goes its way through the blocks: what has started stays, its timer stays armed, the
ring holds no new data, and of memory only the element table may change; other head ports and committed lines stay. -/
structure ScanFrame (p : Port) (s t : State) : Prop where
  rest : t = { s with
    active := t.active, pendSet := t.pendSet, pages := t.pages, regs := t.regs, mem := t.mem, reports := t.reports
    queues := t.queues, seq := t.seq, rnd := t.rnd, cam := t.cam, hhe := t.hhe, sba := t.sba, ehm := t.ehm, hp := t.hp
    skn := { t.skn with lines := s.skn.lines } }
  mem : SameMemButElements s t
  others : ∀ o, o ≠ p → t.hpP o = s.hpP o
  started : (t.hpP p).started = (s.hpP p).started
  armed : (s.hpP p).timerDone = false → (t.hpP p).timerDone = false
  ring : ∀ r ∈ (t.hheP p).ring, ∃ x ∈ (s.hheP p).ring, x.data = r.data

section
variable {s t u : State} {p : Port}

theorem ScanFrame.refl (p : Port) (s : State) : ScanFrame p s s :=
  ⟨rfl, fun _ _ => rfl, fun _ _ => rfl, rfl, id, fun r hr => ⟨r, hr, rfl⟩⟩

theorem ScanFrame.trans (h : ScanFrame p s t) (h' : ScanFrame p t u) : ScanFrame p s u where
  rest := by rw [h'.rest, h.rest]
  mem a ha := (h'.mem a ha).trans (h.mem a ha)
  others o ho := (h'.others o ho).trans (h.others o ho)
  started := h'.started.trans h.started
  armed := h'.armed ∘ h.armed
  ring r hr := by
    obtain ⟨x, hx, hxr⟩ := h'.ring r hr
    obtain ⟨y, hy, hyx⟩ := h.ring x hx
    exact ⟨y, hy, hyx.trans hxr⟩

/-- Memory, the HHE, the head ports and the committed lines stay. -/
theorem ScanFrame.beside (h : ScanFrame p s t) (hrest : u = { t with
    active := u.active, pendSet := u.pendSet, pages := u.pages, regs := u.regs, reports := u.reports, queues := u.queues
    seq := u.seq, rnd := u.rnd, cam := u.cam, sba := u.sba, ehm := u.ehm, skn := { u.skn with lines := t.skn.lines } }) :
    ScanFrame p s u := by
  refine h.trans ⟨?_, ?_, ?_, ?_, ?_, ?_⟩
  all_goals rw [hrest]
  · exact fun _ _ => rfl
  · exact fun _ _ => rfl
  · rfl
  · exact id
  · exact fun r hr => ⟨r, hr, rfl⟩

theorem ScanFrame.wr (h : ScanFrame p s t) (r : Reg) (v : Word) (i : Nat) : ScanFrame p s (t.wr r v i) := h.beside rfl
theorem ScanFrame.setBit (h : ScanFrame p s t) (f : Fld) (b : Bool) (i : Nat) : ScanFrame p s (t.setBit f b i) := h.beside rfl
theorem ScanFrame.irq (h : ScanFrame p s t) (pg : PageIx) (b : Nat) : ScanFrame p s (t.irq pg b) := h.beside rfl
theorem ScanFrame.raise (h : ScanFrame p s t) (pg : PageIx) (k : Nat) : ScanFrame p s (t.raise pg k) := h.beside rfl
theorem ScanFrame.modEhm (h : ScanFrame p s t) (f : EhmPort → EhmPort) : ScanFrame p s (t.modEhm p f) := h.beside rfl
theorem ScanFrame.ehmTouch (h : ScanFrame p s t) : ScanFrame p s (t.ehmTouch p) := h.modEhm _
theorem ScanFrame.modSba (h : ScanFrame p s t) (f : SbaPort → SbaPort) : ScanFrame p s (t.modSba p f) := h.beside rfl

theorem ScanFrame.outcome (h : ScanFrame p s t) (h' : OutcomeFrame t u) : ScanFrame p s u := h.beside (by rw [h'])

theorem ScanFrame.winCheck (h : ScanFrame p s t) : ScanFrame p s (t.winCheck p) := by
  obtain ⟨w, hw⟩ := outcomeFrame_winCheck t p
  have hset : ScanFrame p s (t.setWin p w) := h.beside rfl
  exact hset.outcome hw

theorem ScanFrame.modHp (h : ScanFrame p s t) {f : HpSt → HpSt}
    (hstarted : ∀ x, x.started = (s.hpP p).started → (f x).started = (s.hpP p).started)
    (harmed : ∀ x, x.timerDone = false → (f x).timerDone = false) : ScanFrame p s (t.modHp p f) := by
  refine h.trans ⟨rfl, fun _ _ => rfl, fun o ho => hpP_modHp_ne t f ho, ?_, ?_, fun r hr => ⟨r, hr, rfl⟩⟩
  · rw [hpP_modHp_same, hstarted _ h.started, h.started]
  · rw [hpP_modHp_same]
    exact harmed _

theorem ScanFrame.modHhe (h : ScanFrame p s t) {f : HhePort → HhePort}
    (hring : ∀ r ∈ (f (t.hheP p)).ring, ∃ x ∈ (t.hheP p).ring, x.data = r.data) : ScanFrame p s (t.modHhe p f) :=
  h.trans ⟨rfl, fun _ _ => rfl, fun _ _ => rfl, rfl, id, by rwa [hheP_modHhe_same]⟩

theorem ScanFrame.ite {c : Prop} [Decidable c] (h : ScanFrame p s t) (h' : ScanFrame p s u) :
    ScanFrame p s (if c then t else u) := by
  split
  · exact h
  · exact h'

theorem ScanFrame.foldl {β : Type} {f : State → β → State} (hf : ∀ s b, ScanFrame p s (f s b)) (s : State) (l : List β) :
    ScanFrame p s (l.foldl f s) := by
  induction l generalizing s with
  | nil => exact .refl p s
  | cons b l ih => exact (hf s b).trans (ih _)

theorem ScanFrame.pending (h : ScanFrame p s t) : t.pending = s.pending := (congrArg State.pending h.rest :)
theorem ScanFrame.chip (h : ScanFrame p s t) : t.chip = s.chip := (congrArg State.chip h.rest :)
theorem ScanFrame.time (h : ScanFrame p s t) : t.time = s.time := (congrArg State.time h.rest :)
theorem ScanFrame.lines (h : ScanFrame p s t) (o : Port) : t.lines o = s.lines o := (congrArg (fun u : State => u.lines o) h.rest :)
end

-- pulse counts (09 R227)

section
variable {s : State} {p : Port}

theorem byte_pulse (s : State) (p : Port) (e a : Nat) (h : a < elemAddr p e + 3 ∨ elemAddr p e + 8 ≤ a) :
    (s.pulse p e).byte a = s.byte a := by
  unfold State.pulse
  dsimp only
  generalize s.elemCount p e = n
  have hout : (s.setBytes (elemAddr p e + 3) (natBytes 5 (n + 1))).byte a = s.byte a :=
    byte_setBytes_out _ _ _ (by rw [length_natBytes]; omega)
  split
  · rfl
  · split
    · exact (sameMem_of_mem (State.raise_mem _ _ _ _) a).trans hout
    · exact hout

theorem scanFrame_pulse {e : Nat} (he : e < 6144) : ScanFrame p s (s.pulse p e) := by
  have hmem : SameMemButElements s (s.pulse p e) := fun a ha => byte_pulse s p e a (by unfold elemAddr elemBase; omega)
  have hrest := pulse_rest s p e
  generalize s.pulse p e = t at hmem hrest
  refine ⟨by rw [hrest], hmem, ?_, ?_, ?_, ?_⟩
  all_goals rw [hrest]
  · exact fun _ _ => rfl
  · rfl
  · exact id
  · exact fun r hr => ⟨r, hr, rfl⟩

theorem scanFrame_pulseLine (s : State) {counts : List Nat} (h : counts.length ≤ 6144) : ScanFrame p s (s.pulseLine p counts) := by
  unfold State.pulseLine
  have hix : ∀ x ∈ counts.zipIdx, x.2 < 6144 := fun x hx => by
    have := List.snd_lt_of_mem_zipIdx hx
    omega
  generalize counts.zipIdx = l at hix
  induction l generalizing s with
  | nil => exact .refl p s
  | cons x l ih =>
    rw [List.foldl_cons]
    exact (ScanFrame.ite (scanFrame_pulse (hix x List.mem_cons_self)) (.refl p s)).trans
      (ih _ fun y hy => hix y (List.mem_cons_of_mem x hy))
end

-- the port's supply (06 R158, R159)

section
variable (s : State) (p : Port)

theorem scanFrame_hheStop (source : Nat) : ScanFrame p s (s.hheStop p source) := by
  unfold State.hheStop
  split
  · exact .refl p s
  · exact ((((ScanFrame.refl p s).modHhe fun r hr => ⟨r, hr, rfl⟩).modEhm _).raise _ _).irq _ _

theorem scanFrame_vhHold : ScanFrame p s (s.vhHold p) := by
  unfold State.vhHold
  split
  · exact .refl p s
  · exact ((((ScanFrame.refl p s).modHhe fun r hr => ⟨r, hr, rfl⟩).modEhm _).raise _ _).irq _ _

theorem scanFrame_vhEdge : ScanFrame p s (s.vhEdge p) := by
  unfold State.vhEdge
  split
  · exact ((ScanFrame.refl p s).wr _ _ _).trans (scanFrame_hheStop _ p _)
  · split
    · exact scanFrame_hheStop s p _
    · have hnote (v : Nat) : ScanFrame p s (s.setFld F.HHE_Pp_VHT_VHMV v p.val) := (ScanFrame.refl p s).wr _ _ _
      dsimp only
      split
      · exact (hnote _).trans (scanFrame_vhHold _ p)
      · exact hnote _

-- the line's data (06 R148, R158, 08 R211 to R213)

theorem scanFrame_clipLine (duty energy : Bool) : ScanFrame p s (s.clipLine p duty energy) := by
  unfold State.clipLine
  split
  · have hcount : ScanFrame p s (s.count R.HHE_Pp_CLIP p.val) := (ScanFrame.refl p s).wr _ _ _
    have hclip (f : SbaPort → SbaPort) (v : Word) :=
      (((hcount.raise Pg.sba p.val).irq Pg.sba 4).modSba f).wr R.SBA_Pp_CLIP v p.val
    dsimp only
    split
    · exact ((hclip _ _).raise _ _).irq _ _
    · exact hclip _ _
  · exact ((ScanFrame.refl p s).wr _ _ _).modSba _

theorem scanFrame_delivered (d : LineData) : ScanFrame p s (s.delivered p d) :=
  ((((ScanFrame.refl p s).wr _ _ _).wr _ _ _).trans (scanFrame_clipLine _ p _ _)).modHp (fun _ => id) fun _ => id

theorem scanFrame_startShift {d : LineData} (h : d.counts.length ≤ 6144) : ScanFrame p s (s.startShift p d) := by
  unfold State.startShift
  split
  · exact .refl p s
  next c hcur =>
    dsimp only
    generalize (if s.flag F.HHE_Pp_CFG_VHCOMP p.val then s.deriveW p d.eSlice (c.vh.getD 0) else (s.wFix p, false)) = w
    have hwidth : ScanFrame p s (if s.flag F.HHE_Pp_CFG_VHCOMP p.val then
        (s.setFld F.HHE_Pp_WIDTH_W w.1 p.val).setFld F.HHE_Pp_VHT_VHMV (lowBits 16 (c.vh.getD 0)) p.val else s) :=
      .ite (((ScanFrame.refl p s).wr _ _ _).wr _ _ _) (.refl p s)
    have hlimit := ScanFrame.ite (c := w.2 = true) (hwidth.setBit F.HHE_Pp_STAT_WSAT true p.val) hwidth
    refine ScanFrame.modHp ((((hlimit.modSba _).modSba _).wr _ _ _).trans (scanFrame_pulseLine _ h)) (fun x hx => ?_) fun _ => id
    simp only [HpSt.started, hcur, Prod.mk.injEq] at hx ⊢
    exact ⟨rfl, hx.2⟩
end

-- the blocks of a start of scan (06 R158, R166 to R168, 08 R215, 13 R332)

section
variable {s : State} {p : Port}

theorem scanFrame_activate : ScanFrame p s (s.activate (Pg.hp p)) := by
  by_cases hpend : (s.page (Pg.hp p)).pend = true
  · rw [activate_alone (ownSet_of (.inr (.inl ⟨p, rfl⟩))).alone hpend]
    exact (ScanFrame.refl p s).beside rfl
  · rw [State.activate, if_pos hpend]
    exact .refl p s

theorem scanFrame_lineGone (l : Line) (tag : Option Byte) :
    ScanFrame p (s.setLines p ((s.lines p).filter fun x => !(x.uid == l.uid && x.k == l.k))) (s.lineGone p l tag) := by
  have hcount (t : State) (f : Cmd → Cmd) : ScanFrame p t (t.modCmd l.q l.uid f) :=
    (ScanFrame.refl p t).outcome ((OutcomeFrame.refl t).modCmd _ _ f)
  unfold State.lineGone
  dsimp only
  split
  · split
    · exact (hcount _ _).outcome (outcomeFrame_finish _ _ _ _)
    · exact hcount _ _
  · exact hcount _ _

theorem scanFrame_captureStart (l : Line) : ScanFrame p s (s.captureStart p l) := by
  unfold State.captureStart
  exact ScanFrame.foldl (fun s c => (ScanFrame.refl p s).beside rfl) s _

theorem scanFrame_hheStart (l : Line) (hring : ∀ r ∈ (s.hheP p).ring, r.data.counts.length ≤ 6144) :
    ScanFrame p s (s.hheStart p l) := by
  have hedge := scanFrame_vhEdge s p
  unfold State.hheStart
  dsimp only
  generalize s.vhEdge p = e at hedge
  have hmissed : ScanFrame p s (((e.count R.HHE_Pp_MISS p.val).raise Pg.hhe p.val).irq Pg.hhe 4) :=
    ((hedge.wr _ _ _).raise _ _).irq _ _
  have hstart (c : Prop) [Decidable c] (f : HhePort → HhePort)
      (hf : ∀ x, ∀ r ∈ (f x).ring, ∃ y ∈ x.ring, y.data = r.data) :
      ScanFrame p s ((if c then ((e.count R.HHE_Pp_MISS p.val).raise Pg.hhe p.val).irq Pg.hhe 4 else e).modHhe p f) :=
    (ScanFrame.ite hmissed hedge).modHhe (hf _)
  have hfired (x : HhePort) (at_ : BitVec 64) (b : Bool) : ∀ r ∈ x.ring.map (fun (r : RingLine) =>
      if r.uid = l.uid ∧ r.k = l.k then { r with fired := true, start := at_, stale := b } else r), ∃ y ∈ x.ring, y.data = r.data :=
    fun r hr => by
      obtain ⟨y, hy, rfl⟩ := List.mem_map.1 hr
      refine ⟨y, hy, ?_⟩
      split <;> rfl
  refine .ite ?_ ?_
  · split
    next r hr =>
      obtain ⟨x, hx, hxr⟩ := hedge.ring r (List.mem_of_find?_eq_some hr)
      refine ScanFrame.trans (ScanFrame.trans (hstart _ _ fun x => ?_) (scanFrame_delivered _ p r.data))
        (scanFrame_startShift _ p (hxr ▸ hring x hx))
      exact hfired x _ _
    · exact hstart _ _ fun x => hfired x _ _
  · exact hstart _ _ fun x => hfired x _ _

theorem scanFrame_govIdle : ScanFrame p s (s.govIdle p) := by
  obtain ⟨x, y, heq⟩ := govIdle_eq s p
  rw [heq]
  exact (ScanFrame.refl p s).beside rfl

theorem scanFrame_governor (rl n : Nat) (busy : Bool) : ScanFrame p s (s.governor p rl n busy) := by
  have hself := ScanFrame.refl p s
  unfold State.governor
  split
  · exact hself.modSba _
  · split
    · exact .ite ((hself.modSba _).irq _ _) (hself.modSba _)
    · refine ScanFrame.trans ?_ scanFrame_govIdle
      have hrate (f : SbaPort → SbaPort) (v : Word) : ScanFrame p s ((s.modSba p f).wr R.SBA_GVp_F v p.val) := (hself.modSba f).wr _ _ _
      exact .ite ((hrate _ _).wr _ _ _) (hrate _ _)

theorem scanFrame_govern : ScanFrame p s (s.govern p) := by
  have hsend (t : State) : ScanFrame p t (t.sendRate p) :=
    .ite (.refl p t) (((ScanFrame.refl p t).wr _ _ _).irq _ _)
  have hgov (rl n : Nat) (busy : Bool) := scanFrame_governor (s := s) (p := p) rl n busy
  exact .ite ((hgov _ _ _).trans (hsend _)) (hgov _ _ _)

theorem scanFrame_armTimer : ScanFrame p s (s.armTimer p) := by
  unfold State.armTimer
  refine ScanFrame.wr ?_ _ _ _
  exact (ScanFrame.refl p s).modHp (fun _ => id) fun _ _ => rfl

theorem armTimer_armed : ((s.armTimer p).hpP p).timerDone = false :=
  congrArg HpSt.timerDone (hpP_modHp_same s fun h => { h with
    timerDone := false, tAct := s.tActFrac p / 256, frac := (s.tActFrac p + (s.hpP p).frac) % 256
    dueAt := s.time + BitVec.ofNat 64 ((s.tActFrac p + (s.hpP p).frac) / 256) })

theorem scanFrame_hheProject : ScanFrame p s (s.hheProject p) := by
  unfold State.hheProject
  refine (ScanFrame.refl p s).modHhe fun r hr => ?_
  obtain ⟨x, hx, rfl⟩ := List.mem_map.1 hr
  refine ⟨x, hx, ?_⟩
  split
  · rfl
  · split <;> rfl
end

-- the start of scan (R185)

section
variable (s : State) (p : Port) (l : Line)

/-- The set of the port is active, and a start that its line's end has made late is counted. -/
def State.startCounted : State :=
  let a := s.activate (Pg.hp p)
  if !a.paced p && a.time == (a.hpP p).lastEnd && decide ((a.hpP p).dueAt.toNat < a.time.toNat) then
    (a.count R.HPn_LATE p.val).irq (Pg.hp p) 8
  else a

/-- The line `c` is in progress from now on. -/
def State.lineBegun (c : CurLine) : State := s.modHp p fun h => { h with cur := some c, lastS := s.time, pendTrig := false }

/-- The other blocks take part in the start. -/
def State.startFollowed (tag : Option Byte) : State :=
  let s := (s.wrapStep R.HPn_LINES p.val).lineGone p l tag
  let s := (s.captureStart p l).hheStart p l
  let s := ((s.govern p).armTimer p).hheProject p
  let s := if ¬ s.paced p ∧ s.flag F.HPn_PACE_AXEN p.val then s.modHp p fun h => { h with advDue := h.advDue + 1 } else s
  (s.ehmTouch p).winCheck p

theorem takeStart_eq : ∃ c, c.line = l ∧ c.start = (s.startCounted p).time ∧
    s.takeStart p l = ((s.startCounted p).lineBegun p c).startFollowed p l (some c.tag) :=
  ⟨{ line := l, start := (s.startCounted p).time, tag := ((s.startCounted p).page (Pg.hp p)).actTag
     gap := ((s.startCounted p).hheP p).lastStart.map fun t => (s.startCounted p).since t
     tr := (s.startCounted p).tProj p, vh := (s.startCounted p).vhNow p }, rfl, rfl, rfl⟩

theorem scanFrame_startCounted : ScanFrame p s (s.startCounted p) := by
  have hact := scanFrame_activate (s := s) (p := p)
  unfold State.startCounted
  dsimp only
  generalize s.activate (Pg.hp p) = a at hact
  exact .ite ((hact.wr _ _ _).irq _ _) hact

variable {s p l}

/-- The blocks that take part keep what has started, arm the timer, and take the line from the list of committed ones. -/
theorem startFollowed_follows (tag : Option Byte) (hring : ∀ r ∈ (s.hheP p).ring, r.data.counts.length ≤ 6144) :
    ScanFrame p (s.setLines p ((s.lines p).filter fun x => !(x.uid == l.uid && x.k == l.k))) (s.startFollowed p l tag) ∧
    ((s.startFollowed p l tag).hpP p).timerDone = false := by
  have hcounted : ScanFrame p (s.setLines p ((s.lines p).filter fun x => !(x.uid == l.uid && x.k == l.k)))
      ((s.wrapStep R.HPn_LINES p.val).setLines p ((s.lines p).filter fun x => !(x.uid == l.uid && x.k == l.k))) :=
    (ScanFrame.refl p _).beside rfl
  have hgone := (hcounted.trans (scanFrame_lineGone (s := s.wrapStep R.HPn_LINES p.val) l tag)).trans (scanFrame_captureStart l)
  have hdelivered := hgone.trans (scanFrame_hheStart l fun r hr => by
    obtain ⟨x, hx, hxr⟩ := hgone.ring r hr
    exact hxr ▸ hring x hx)
  unfold State.startFollowed
  dsimp only
  generalize (((s.wrapStep R.HPn_LINES p.val).lineGone p l tag).captureStart p l).hheStart p l = t at hdelivered
  have harm := (hdelivered.trans scanFrame_govern).trans scanFrame_armTimer
  have harmed := armTimer_armed (s := t.govern p) (p := p)
  have hproject := scanFrame_hheProject (s := (t.govern p).armTimer p) (p := p)
  generalize (t.govern p).armTimer p = u at harm harmed hproject
  have hadvance (v : State) : ScanFrame p v (if ¬ v.paced p ∧ v.flag F.HPn_PACE_AXEN p.val then
      v.modHp p fun h => { h with advDue := h.advDue + 1 } else v) :=
    .ite ((ScanFrame.refl p v).modHp (fun _ => id) fun _ => id) (.refl p v)
  have hend := (hproject.trans (hadvance _)).ehmTouch.winCheck
  exact ⟨harm.trans hend, hend.armed harmed⟩

/-- The port takes its next line: it is in progress, and no longer waits. -/
theorem takeStart_starts (hring : ∀ r ∈ (s.hheP p).ring, r.data.counts.length ≤ 6144) :
    let t := s.takeStart p l
    t.pending = s.pending ∧ t.chip = s.chip ∧ SameMemButElements s t ∧
    t.lines p = (s.lines p).filter (fun x => !(x.uid == l.uid && x.k == l.k)) ∧
    (t.hpP p).started = (some (l, s.time), s.time, false) ∧ (t.hpP p).timerDone = false ∧ ∀ o, o ≠ p → t.hpP o = s.hpP o := by
  obtain ⟨c, hline, hstart, heq⟩ := takeStart_eq s p l
  have hcount := scanFrame_startCounted s p
  rw [heq]
  generalize s.startCounted p = u at hcount hstart
  obtain ⟨hframe, htimer⟩ := startFollowed_follows (s := u.lineBegun p c) (p := p) (l := l) (some c.tag) fun r hr => by
    obtain ⟨x, hx, hxr⟩ := hcount.ring r hr
    exact hxr ▸ hring x hx
  have hbegun : ((u.lineBegun p c).hpP p).started = (some (l, s.time), s.time, false) := by
    rw [State.lineBegun, hpP_modHp_same, HpSt.started, Option.map_some, hline, hstart, hcount.time]
  refine ⟨hframe.pending.trans hcount.pending, hframe.chip.trans hcount.chip, fun a ha => (hframe.mem a ha).trans (hcount.mem a ha), ?_,
    hframe.started.trans hbegun, htimer, fun o ho => ?_⟩
  · have hlines : (u.lineBegun p c).lines p = s.lines p := hcount.lines p
    rw [hframe.lines, hlines, State.lines, State.setLines]
    exact Vector.getElem_set_self _
  · have hother : (u.lineBegun p c).hpP o = u.hpP o := hpP_modHp_ne u _ ho
    exact (hframe.others o ho).trans (hother.trans (hcount.others o ho))

/-- A port that may start takes its next committed line. -/
theorem startOfScan_takes (hnext : s.nextLive p = some l) (hcan : s.canStart p = true)
    (hpace : if s.paced p then (s.hpP p).pendTrig = true else (s.hpP p).timerDone = true ∧ s.govPaused p = false) :
    s.startOfScan p = s.takeStart p l := by
  simp only [State.startOfScan, hnext]
  refine if_pos ⟨hcan, ?_⟩
  split at hpace
  next hpaced => rw [if_pos hpaced, hpace]
  next hpaced => rw [if_neg hpaced, hpace.1, hpace.2]; rfl
end

end Sys2Proof.Machine
end

section
/-! SUPPORT. A line of a head port from its start of scan to its end, clause by clause (07 R181 to R193, 08 R206 to R210): what that
says of O39. -/

namespace Sys2Proof.Machine

theorem fld_modHp (s : State) (p : Port) (f : HpSt → HpSt) (g : Fld) (i : Nat) : (s.modHp p f).fld g i = s.fld g i := rfl

-- a line cut short (R184, 08 R210)

/-- From `s` to `t` the line of port `p` has been cut short; the rest of the port may have stopped with it. -/
structure LineCut (p : Port) (s t : State) : Prop where
  pending : t.pending = s.pending
  chip : t.chip = s.chip
  cur : (t.hpP p).cur = none
  counted : (∀ c, (s.hpP p).cur = some c → c.data.isSome = true) → SameMem s t
  calendar : ∀ r ∈ t.sba.calendar, r ∈ s.sba.calendar

section
variable {s t u : State} {p : Port}

theorem lineCut_abandonLine (s : State) (p : Port) : LineCut p s (s.abandonLine p) := by
  obtain ⟨u, hcut, hframe, hcur⟩ := abandonLine_stops s p
  exact {
    pending := by rw [hframe.pending, hcut.rest]
    chip := by rw [hframe.chip, hcut.rest]
    cur := hcur
    counted := fun hdata => sameMem_of_mem (by rw [hframe.mem, hcut.counted hdata])
    calendar := fun r hr => by
      have hsame : u.sba.calendar = s.sba.calendar := by rw [hcut.rest]
      exact hsame ▸ hframe.calendar r hr }

theorem LineCut.stop (h : LineCut p s t) (h' : StopFrame p t u) : LineCut p s u where
  pending := h'.pending.trans h.pending
  chip := h'.chip.trans h.chip
  cur := h'.idle h.cur
  counted hdata a := (sameMem_of_mem h'.mem a).trans (h.counted hdata a)
  calendar r hr := h.calendar r (h'.calendar r hr)

/-- A line whose arbiter has stopped is cut short, and its port holds (08 R210). -/
theorem lineCut_unanswered (s : State) (p : Port) : LineCut p s ((s.abandonLine p).enterHold p St.aborted) :=
  (lineCut_abandonLine s p).stop (stopFrame_enterHold _ p _).1

theorem endResv_calendar : ∀ r ∈ (s.endResv p).sba.calendar, r.port ≠ p := fun r hr => by
  simpa using (List.mem_filter.1 hr).2

theorem sliceLatch_stopped {c : CurLine} (hcur : (s.hpP p).cur = some c) (hst : c.st = .shifting)
    (hdue : c.nextLatch.toNat ≤ s.time.toNat) (hrun : s.running (Pg.hp p) = true) (hsba : s.running Pg.sba = false) :
    s.sliceLatch p = (s.abandonLine p).enterHold p St.aborted := by
  simp only [State.sliceLatch, hcur]
  rw [if_neg (by simp [hst, hrun, Nat.not_lt.2 hdue]), if_pos (by simp [hsba])]

-- the arbiter's answer (08 R206)

/-- The reservation that answers a request stands in the calendar. -/
theorem reserve_keeps {dots : Nat} {start : BitVec 64} {d ma f slice : Nat} (hu : u = s.sbaActivate)
    (ht : t = (u.noteEstimate p dots).reserve p start d ma f slice) :
    t.pending = s.pending ∧ t.chip = s.chip ∧ t.mem = s.mem ∧ t.hp = s.hp ∧
    Resv.mk p start (start + BitVec.ofNat 64 f) ma ∈ t.sba.calendar ∧ t.sba.lastPort = some p := by
  obtain ⟨a, b, x, y, hact, -⟩ := sbaActivate_keeps s
  have hframe := regsFrame_reserve (u.noteEstimate p dots) p start d ma f slice
  rw [← ht, hu, hact] at hframe
  rw [hframe]
  exact ⟨rfl, rfl, rfl, rfl, List.mem_append_right _ (List.mem_singleton.2 rfl), rfl⟩

-- the strobes (R183, 08 R207, R219)

theorem isumPeak_modHp (s : State) (p : Port) (f : HpSt → HpSt) :
    let t := (s.modHp p f).isumPeak
    t.pending = s.pending ∧ t.chip = s.chip ∧ t.mem = s.mem ∧ SameRegsBut [R.SBA_ISUM.addr 0 0] s t ∧ t.hpP p = f (s.hpP p) := by
  have hframe := regsFrame_isumPeak (s.modHp p f)
  have hregs := sameRegs_isumPeak (s.modHp p f)
  dsimp only
  generalize (s.modHp p f).isumPeak = t at hframe hregs
  refine ⟨?_, ?_, ?_, hregs, ?_⟩
  all_goals rw [hframe]
  · rfl
  · rfl
  · rfl
  · exact hpP_modHp_same s f

theorem CurLine.fired_last {c : CurLine} {n : Nat} (h : n ≤ c.slice) (after : BitVec 64) :
    c.fired n after = { c with st := .ending after } := if_pos h

theorem CurLine.fired_next {c : CurLine} {n : Nat} (h : c.slice < n) (after : BitVec 64) : c.fired n after =
    { c with st := .shifting, slice := c.slice + 1
             nextLatch := if c.nextLatch.toNat < after.toNat then after else c.nextLatch } := if_neg (Nat.not_le.2 h)

/-- After its strobes the line is cut short where the port or, before the last slice, the arbiter has stopped. -/
theorem sliceFireEnd_cut {c : CurLine} {until_ : BitVec 64} {n : Nat} (hcur : (s.hpP p).cur = some c) (hst : c.st = .firing until_)
    (hdue : until_.toNat ≤ s.time.toNat) (hn : (c.data.map (·.nLine)).getD 0 = n)
    (hwhy : s.running (Pg.hp p) = false ∨ (c.slice < n ∧ s.running Pg.sba = false)) : LineCut p (s.endResv p) (s.sliceFireEnd p) := by
  rw [sliceFireEnd_due hcur hst hdue hn]
  split
  · exact lineCut_abandonLine _ p
  next hrun =>
    obtain ⟨hslice, hsba⟩ := hwhy.resolve_left (by simpa using hrun)
    rw [if_pos ⟨by simp [hsba], hslice⟩]
    exact lineCut_unanswered _ p

theorem sliceFireEnd_goes {c : CurLine} {until_ : BitVec 64} {n : Nat} (hcur : (s.hpP p).cur = some c) (hst : c.st = .firing until_)
    (hdue : until_.toNat ≤ s.time.toNat) (hn : (c.data.map (·.nLine)).getD 0 = n)
    (hgoes : ¬ (s.running (Pg.hp p) = false ∨ (c.slice < n ∧ s.running Pg.sba = false))) : s.sliceFireEnd p =
      (s.endResv p).modHp p fun h => { h with cur := some (c.fired n (until_ + BitVec.ofNat 64 (s.tsl p))) } := by
  obtain ⟨hrun, hsba⟩ := not_or.1 hgoes
  rw [sliceFireEnd_due hcur hst hdue hn, if_neg (by simpa using hrun), if_neg (fun h => hsba ⟨h.2, by simpa using h.1⟩)]

-- the end of the line (R184, R191, R193)

theorem head_reports_apart : ∀ p : Port, R.HPn_LREP.addr p.val 0 ≠ R.HPn_LTIME.addr p.val 0 ∧
    R.HPn_LREP.addr p.val 0 ≠ R.HPn_STARVE.addr p.val 0 ∧ R.HPn_LTIME.addr p.val 0 ≠ R.HPn_STARVE.addr p.val 0 := by decide

/-- The registers of a port whose line has been reported. -/
theorem reports_of_regs {c : CurLine} {at_ : BitVec 64} (hregs : t.regs = (s.lineReported p c at_).regs) :
    SameRegsBut [R.HPn_LREP.addr p.val 0, R.HPn_LTIME.addr p.val 0] s t ∧
    t.rd R.HPn_LREP p.val =
      BitVec.ofNat 32 (min 0xFFFF c.defer * 65536 + (c.data.map (·.nLine)).getD 0 * 256 + c.tag.toNat) ∧
    t.rd R.HPn_LTIME p.val = BitVec.ofNat 32 (min 0xFFFFFF (at_ - c.start).toNat) := by
  have hrd (r : Reg) : t.rd r p.val = (s.lineReported p c at_).rd r p.val := congrArg (sget _ _) hregs
  have hreported : SameRegsBut [R.HPn_LREP.addr p.val 0, R.HPn_LTIME.addr p.val 0] s (s.lineReported p c at_) :=
    ((SameRegsBut.refl _ s).wr _ (by simp)).wr _ (by simp)
  refine ⟨fun a d ha => (congrArg (sget d a) hregs).trans (hreported a d ha), ?_, (hrd _).trans (rd_wr_same _ _ _ _ _)⟩
  rw [hrd, State.lineReported, rd_wr_ne _ _ (head_reports_apart p).1, rd_wr_same]

/-- A line ends on a port that paper-out has not stopped: beside the line, no register and no trigger of the port changes. -/
theorem clearCur_ends (hpaper : (s.hpP p).paperOut = false) :
    let t := s.clearCur p
    t.regs = s.regs ∧ t.lines p = s.lines p ∧ (t.hpP p).cur = none ∧ (t.hpP p).lastEnd = s.time ∧
    (t.hpP p).pendTrig = (s.hpP p).pendTrig := by
  have hframe := overFrame_lineOver (s := s) (p := p)
  have hport := winCheck_hpP (s.lineOver p) p p
  obtain ⟨w, hwin⟩ := outcomeFrame_winCheck (s.lineOver p) p
  rw [hpP_lineOver] at hport
  rw [clearCur_eq, if_neg (Bool.eq_false_iff.1 hpaper)]
  dsimp only
  rw [hport, hwin, hframe]
  exact ⟨rfl, rfl, rfl, rfl, rfl⟩

theorem nextLive_nil (h : s.lines p = []) : s.nextLive p = none := by simp only [State.nextLive, h]

theorem dropTrig_starves (h : (s.hpP p).pendTrig = true) :
    (s.dropTrig p).hpP p = { s.hpP p with pendTrig := false } ∧
    SameRegsBut [R.HPn_STARVE.addr p.val 0] s (s.dropTrig p) ∧
    (s.dropTrig p).rd R.HPn_STARVE p.val = satStep (s.rd R.HPn_STARVE p.val) := by
  have hport := hpP_modHp_same s (p := p) fun h => { h with pendTrig := false }
  have hregs : (s.modHp p fun h => { h with pendTrig := false }).regs = s.regs := rfl
  rw [State.dropTrig, if_pos h]
  generalize s.modHp p (fun h => { h with pendTrig := false }) = u at hport hregs
  refine ⟨hport, SameRegsBut.wr (fun a d _ => congrArg (sget d a) hregs) _ (by simp), ?_⟩
  exact (rd_wr_same u R.HPn_STARVE _ p.val 0).trans (congrArg (fun m => satStep (sget _ _ m)) hregs)

/-- The end of a line that finds no other to start, on a port that paper-out has not stopped. -/
theorem lineEnd_ends {c : CurLine} {at_ : BitVec 64} (hcur : (s.hpP p).cur = some c) (hst : c.st = .ending at_)
    (hdue : at_.toNat ≤ s.time.toNat) (htrig : (s.hpP p).pendTrig = false ∨ s.lines p = [])
    (hpaper : (s.hpP p).paperOut = false) :
    s.lineEnd p = if (s.hpP p).pendTrig then ((s.lineReported p c at_).clearCur p).dropTrig p else (s.lineReported p c at_).clearCur p := by
  obtain ⟨-, hlines, -, -, hkeep⟩ := clearCur_ends (s := s.lineReported p c at_) (p := p) hpaper
  have hsame : (((s.lineReported p c at_).clearCur p).hpP p).pendTrig = (s.hpP p).pendTrig := hkeep
  rw [lineEnd_due hcur hst hdue]
  dsimp only
  rw [hsame]
  by_cases hpend : (s.hpP p).pendTrig = true
  · have hnil : s.lines p = [] := htrig.resolve_left (by simp [hpend])
    rw [if_neg (not_not.2 hpend), if_pos hpend, nextLive_nil (hlines.trans hnil)]
    exact if_pos rfl
  · rw [if_pos hpend, if_neg hpend]
end

end Sys2Proof.Machine

open Sys2Proof Sys2Proof.Machine

/-- Settles O39: a start of scan is followed through the blocks that take part in it, and each later stage of the line by the
equation of its step; a line cut short leaves what `LineCut` says. -/
theorem lineGoesThroughItsSlices : Obligations.LineGoesThroughItsSlices := by
  unfold Obligations.LineGoesThroughItsSlices
  intro s p hup
  refine ⟨fun l hnext hcan hpace hring => ?start, fun hwork hpaced => ⟨fun hdue => ?_, fun hearly => ?_⟩,
    fun c u counts hcur hu hcounts => ⟨fun hst hdue hrun => ⟨fun hsba => ?latch, fun hsba => ?stopped⟩,
      fun ta start d ma hst hsba hturn => ⟨fun hplace => ?grant, fun hplace => ?refuse⟩,
      fun at_ hst hopen hdue => ?fire, fun until_ n hst hdue hn => ?fired,
      fun at_ hst hdue htrig hpaper hrun => ?paper, fun at_ n hst hdue htrig hpaper hn => ?ended⟩⟩
  case start =>
    obtain ⟨hpending, hchip, hmem, hlines, hstarted, htimer, hothers⟩ := takeStart_starts (s := s) (p := p) (l := l) hring
    simp only [HpSt.started, Prod.mk.injEq] at hstarted
    obtain ⟨hline, hlast, htrig⟩ := hstarted
    exact gives_of_outer (f := fun s => s.startOfScan p) rfl hup (startOfScan_takes hnext hcan hpace) hpending hchip
      ⟨hmem, hlines, hline, hlast, htrig, htimer, fun o ho => congrArg HpSt.cur (hothers o ho)⟩
  · exact next_of_outer (f := fun s => s.lineTimerExpire p) rfl hup (if_pos ⟨hwork, by simp [hpaced], hdue⟩) rfl rfl
  · refine next_of_outer (f := fun s => s.lineTimerExpire p) rfl hup (if_neg fun h => ?_) rfl rfl
    exact Nat.not_le.2 hearly h.2.2
  case latch =>
    exact gives_of_outer (f := fun s => s.sliceLatch p) rfl hup (sliceLatch_latches hcur hcounts hst hdue hrun hsba) rfl rfl
      ⟨fun _ => rfl, sameRegs_wr s R.SBA_Pp_IEST _ p.val 0, (fld_modHp _ p _ _ _).trans (fld_noteEstimate _), hpP_modHp_same _ _⟩
  case stopped =>
    have hcut := lineCut_unanswered s p
    refine gives_of_outer (f := fun s => s.sliceLatch p) rfl hup (sliceLatch_stopped hcur hst hdue hrun hsba) hcut.pending hcut.chip
      ⟨fun hdata => hcut.counted fun x hx => ?_, hcut.cur, (stopFrame_enterHold _ p _).2⟩
    rwa [Option.some.inj (hx.symm.trans hcur)]
  case grant =>
    have hgrant := sbaGrant_line hcur hst hsba hturn hu
    rw [hplace, Option.elim_some] at hgrant
    generalize hreserve : (u.noteEstimate p c.dots).reserve p start d ma (s.tFire p c.w) c.slice = t at hgrant
    obtain ⟨hpending, hchip, hmem, hhp, hbooked, hlast⟩ := reserve_keeps hu hreserve.symm
    refine gives_of_outer (f := fun s => s.sbaGrant p) rfl hup hgrant hpending hchip
      ⟨sameMem_of_mem hmem, ?_, hbooked, hlast⟩
    rw [hpP_modHp_same, State.hpP, State.hpP, hhp]
  case refuse =>
    have hgrant := sbaGrant_line hcur hst hsba hturn hu
    obtain ⟨_, _, _, _, hact, -⟩ := sbaActivate_keeps s
    rw [hplace, Option.elim_none] at hgrant
    refine next_of_outer (f := fun s => s.sbaGrant p) rfl hup hgrant ?_ ?_
    · rw [hu, hact]
      rfl
    · rw [hu, hact]
      rfl
  case fire =>
    obtain ⟨hpending, hchip, hmem, hregs, hport⟩ := isumPeak_modHp s p fun h => { h with
      pulses := s.slicePulses p counts c.slice c.w at_
      cur := some { c with st := .firing (at_ + BitVec.ofNat 64 (s.tFire p c.w)) } }
    exact gives_of_outer (f := fun s => s.strobeOn p) rfl hup (hcounts ▸ strobeOn_fires hcur hst hopen hdue) hpending hchip
      ⟨sameMem_of_mem hmem, hregs, hport⟩
  case fired =>
    by_cases hwhy : s.running (Pg.hp p) = false ∨ (c.slice < n ∧ s.running Pg.sba = false)
    · have hcut := sliceFireEnd_cut hcur hst hdue hn hwhy
      refine gives_of_outer (f := fun s => s.sliceFireEnd p) rfl hup rfl hcut.pending hcut.chip
        ⟨fun hdata => hcut.counted fun x hx => ?_, fun r hr => endResv_calendar r (hcut.calendar r hr), fun hrun hlast => ?_,
          fun hrun hmore hsba => ?_, fun _ => hcut.cur⟩
      · rwa [Option.some.inj (hx.symm.trans hcur)]
      · obtain ⟨hmore, -⟩ := hwhy.resolve_left (by simp [hrun])
        exact absurd hmore (Nat.not_lt.2 hlast)
      · simp [hrun, hsba] at hwhy
    · refine gives_of_outer (f := fun s => s.sliceFireEnd p) rfl hup (sliceFireEnd_goes hcur hst hdue hn hwhy) rfl rfl
        ⟨fun _ _ => rfl, endResv_calendar, fun _ hlast => ⟨fun _ => rfl, rfl, ?_⟩, fun _ hmore _ => ⟨fun _ => rfl, rfl, ?_⟩,
          fun h => absurd h hwhy⟩
      · rw [hpP_modHp_same, CurLine.fired_last hlast]
        rfl
      · rw [hpP_modHp_same, CurLine.fired_next hmore]
        rfl
  case paper =>
    obtain ⟨hframe, hnone, -, hhold⟩ := clearCur_stops (s.lineReported p c at_) p
    have hdrop : (((s.lineReported p c at_).clearCur p).hpP p).pendTrig = false := hframe.untriggered htrig
    have hend := lineEnd_due hcur hst hdue
    dsimp only at hend
    rw [if_pos (by simp [hdrop])] at hend
    exact gives_of_outer (f := fun s => s.lineEnd p) rfl hup hend hframe.pending hframe.chip
      ⟨sameMem_of_mem hframe.mem, hnone, hhold hpaper hrun⟩
  case ended =>
    obtain ⟨-, hlrepStarve, hltimeStarve⟩ := head_reports_apart p
    have hend := lineEnd_ends hcur hst hdue htrig hpaper
    obtain ⟨hframe, -⟩ := clearCur_stops (s.lineReported p c at_) p
    obtain ⟨hregs, -, hnone, hlast, hkeep⟩ := clearCur_ends (s := s.lineReported p c at_) (p := p) hpaper
    obtain ⟨hreported, hlrep, hltime⟩ := reports_of_regs hregs
    have hmem : SameMem s ((s.lineReported p c at_).clearCur p) := sameMem_of_mem hframe.mem
    have hpending : ((s.lineReported p c at_).clearCur p).pending = s.pending := hframe.pending
    have hchip : ((s.lineReported p c at_).clearCur p).chip = s.chip := hframe.chip
    have htime : (s.lineReported p c at_).time = s.time := rfl
    have htrigger : ((s.lineReported p c at_).hpP p).pendTrig = (s.hpP p).pendTrig := rfl
    rw [htime] at hlast
    rw [htrigger] at hkeep
    rw [hn] at hlrep
    generalize (s.lineReported p c at_).clearCur p = e at *
    by_cases hpend : (s.hpP p).pendTrig = true
    · rw [if_pos hpend] at hend ⊢
      obtain ⟨hport, hstarve, hcount⟩ := dropTrig_starves (s := e) (hkeep.trans hpend)
      have hdrop := stopFrame_dropTrig e p
      refine gives_of_outer (f := fun s => s.lineEnd p) rfl hup hend (hdrop.pending.trans hpending) (hdrop.chip.trans hchip)
        ⟨fun a => (sameMem_of_mem hdrop.mem a).trans (hmem a), hdrop.idle hnone, by rw [hport]; exact hlast, by rw [hport],
          (hreported.trans (hstarve.trans (.refl _ _) ?_) ?_), fun _ => hcount.trans (congrArg satStep ?_), ?_, ?_⟩
      · simp
      · simp
      · exact hreported.rd (by simp [hlrepStarve.symm, hltimeStarve.symm])
      · exact (hstarve.rd (by simpa using hlrepStarve)).trans hlrep
      · exact (hstarve.rd (by simpa using hltimeStarve)).trans hltime
    · rw [if_neg hpend] at hend ⊢
      exact gives_of_outer (f := fun s => s.lineEnd p) rfl hup hend hpending hchip
        ⟨hmem, hnone, hlast, hkeep.trans (by simpa using hpend), hreported, fun h => absurd h hpend, hlrep, hltime⟩

end

section
/-! SUPPORT. The grant calendar (08 R204 to R209): the current it reserves, the place the arbiter finds, and what an answer of
the arbiter leaves of both. -/

namespace Sys2Proof.Machine

-- the current reserved at an instant (R206)

/-- What one reservation draws at an instant. -/
def Resv.draw (r : Resv) (t : Nat) : Nat := if r.start.toNat ≤ t ∧ t < r.stop.toNat then r.ma else 0

theorem Resv.draw_of_stop_le {r : Resv} {t : Nat} (h : r.stop.toNat ≤ t) : r.draw t = 0 :=
  if_neg fun hin => Nat.not_lt.2 h hin.2

/-- A reservation that wraps round the end of the timestamp draws nothing. -/
theorem Resv.draw_le_span (p : Port) (start : BitVec 64) (f ma t : Nat) :
    (Resv.mk p start (start + BitVec.ofNat 64 f) ma).draw t ≤
      if start.toNat ≤ t ∧ t < start.toNat + f then ma else 0 := by
  have hstop : (start + BitVec.ofNat 64 f).toNat ≤ start.toNat + f := by
    rw [BitVec.toNat_add, BitVec.toNat_ofNat]
    exact (Nat.mod_le _ _).trans (Nat.add_le_add_left (Nat.mod_le _ _) _)
  unfold Resv.draw
  split
  next hin => rw [if_pos ⟨hin.1, hin.2.trans_le hstop⟩]
  next => exact Nat.zero_le _

theorem loadAt_eq_sum (cal : List Resv) (t : Nat) : loadAt cal t = (cal.map fun r => r.draw t).sum := by
  have hfrom (n : Nat) : cal.foldl (fun n r => if r.start.toNat ≤ t ∧ t < r.stop.toNat then n + r.ma else n) n =
      n + (cal.map fun r => r.draw t).sum := by
    induction cal generalizing n with
    | nil => rfl
    | cons r cal ih =>
      rw [List.foldl_cons, ih, List.map_cons, List.sum_cons, Resv.draw]
      split <;> omega
  exact (hfrom 0).trans (Nat.zero_add _)

@[simp] theorem loadAt_cons (r : Resv) (cal : List Resv) (t : Nat) : loadAt (r :: cal) t = r.draw t + loadAt cal t := by
  simp [loadAt_eq_sum]

@[simp] theorem loadAt_concat (cal : List Resv) (r : Resv) (t : Nat) : loadAt (cal ++ [r]) t = loadAt cal t + r.draw t := by
  simp [loadAt_eq_sum]

theorem loadAt_mono {cal : List Resv} {t u : Nat} (h : ∀ r ∈ cal, r.draw t ≤ r.draw u) : loadAt cal t ≤ loadAt cal u := by
  rw [loadAt_eq_sum, loadAt_eq_sum]
  exact List.sum_le_sum h

/-- The reservations that have ended draw nothing any more. -/
theorem loadAt_live (cal : List Resv) {now : BitVec 64} {t : Nat} (h : now.toNat ≤ t) :
    loadAt (cal.filter fun r => r.live now) t = loadAt cal t := by
  induction cal with
  | nil => rfl
  | cons r cal ih =>
    by_cases hlive : r.live now = true
    · rw [List.filter_cons_of_pos (p := fun r : Resv => r.live now) hlive, loadAt_cons, loadAt_cons, ih]
    · have hover : r.stop.toNat ≤ now.toNat := by simpa [Resv.live] using hlive
      rw [List.filter_cons_of_neg (p := fun r : Resv => r.live now) hlive, loadAt_cons, Resv.draw_of_stop_le (hover.trans h), Nat.zero_add, ih]

theorem loadAt_of_over {cal : List Resv} {t : Nat} (h : ∀ r ∈ cal, r.stop.toNat ≤ t) : loadAt cal t = 0 := by
  rw [loadAt_eq_sum]
  exact List.sum_eq_zero (by simpa using fun r hr => Resv.draw_of_stop_le (h r hr))

-- the peak of an interval (R206)

theorem foldl_max_le_iff {α : Type} (f : α → Nat) (l : List α) {m b : Nat} :
    l.foldl (fun m x => max m (f x)) m ≤ b ↔ m ≤ b ∧ ∀ x ∈ l, f x ≤ b := by
  induction l generalizing m with
  | nil => simp
  | cons x l ih => rw [List.foldl_cons, ih, Nat.max_le, List.forall_mem_cons, and_assoc]

theorem peakIn_le_iff {cal : List Resv} {a b n : Nat} : peakIn cal a b ≤ n ↔
    loadAt cal a ≤ n ∧ ∀ r ∈ cal, a < r.start.toNat → r.start.toNat < b → loadAt cal r.start.toNat ≤ n := by
  simp [peakIn, -List.foldl_cons, foldl_max_le_iff]

/-- Between `a` and `t` there is an instant after which, up to `t`, no reservation starts: `a` or the start of one. -/
theorem exists_last_start (cal : List Resv) {a t : Nat} (h : a ≤ t) : ∃ u, a ≤ u ∧ u ≤ t ∧
    (u = a ∨ ∃ r ∈ cal, r.start.toNat = u) ∧ ∀ r ∈ cal, r.start.toNat ≤ t → r.start.toNat ≤ u := by
  induction cal with
  | nil => exact ⟨a, le_rfl, h, .inl rfl, by simp⟩
  | cons r cal ih =>
    obtain ⟨u, hau, hut, hu, hlast⟩ := ih
    by_cases hlater : u < r.start.toNat ∧ r.start.toNat ≤ t
    · refine ⟨r.start.toNat, by omega, hlater.2, .inr ⟨r, List.mem_cons_self, rfl⟩, List.forall_mem_cons.2 ⟨fun _ => le_rfl, ?_⟩⟩
      exact fun o ho hot => (hlast o ho hot).trans hlater.1.le
    · refine ⟨u, hau, hut, hu.imp_right fun ⟨o, ho, he⟩ => ⟨o, List.mem_cons_of_mem _ ho, he⟩, List.forall_mem_cons.2 ⟨?_, hlast⟩⟩
      omega

/-- The reserved current only rises where a reservation starts, so the peak bounds it throughout. -/
theorem loadAt_le_peakIn (cal : List Resv) {a b t : Nat} (hat : a ≤ t) (htb : t < b) : loadAt cal t ≤ peakIn cal a b := by
  obtain ⟨hfirst, hstarts⟩ := peakIn_le_iff.1 (le_refl (peakIn cal a b))
  obtain ⟨u, hau, hut, hu, hlast⟩ := exists_last_start cal hat
  have hrise : loadAt cal t ≤ loadAt cal u := loadAt_mono fun r hr => by
    unfold Resv.draw
    split
    next hin => rw [if_pos ⟨hlast r hr hin.1, hut.trans_lt hin.2⟩]
    next => exact Nat.zero_le _
  refine hrise.trans ?_
  obtain rfl | ⟨r, hr, rfl⟩ := hu
  · exact hfirst
  · obtain heq | hlt := hau.eq_or_lt
    · exact heq ▸ hfirst
    · exact hstarts r hr hlt (hut.trans_lt htb)

theorem peakIn_of_over {cal : List Resv} {a : Nat} (b : Nat) (h : ∀ r ∈ cal, r.stop.toNat ≤ a) : peakIn cal a b = 0 :=
  Nat.le_zero.1 <| peakIn_le_iff.2 ⟨(loadAt_of_over h).le, fun _ _ hlt _ => (loadAt_of_over fun r hr => (h r hr).trans hlt.le).le⟩

-- the search for a place (R206, R208)

section
variable {cal : List Resv} {gcap ma ts step f : Nat}

theorem placeAt_le (fuel d : Nat) : placeAt cal gcap ma ts step f fuel d ≤ d + fuel := by
  induction fuel generalizing d with
  | zero => exact le_rfl
  | succ fuel ih =>
    rw [placeAt]
    split
    · omega
    · exact (ih (d + 1)).trans (by omega)

/-- The slice fits at the sub-slot found, as long as it fits at the last one searched. -/
theorem placeAt_fits {fuel d : Nat}
    (h : peakIn cal (ts + (d + fuel) * step) (ts + (d + fuel) * step + f) + ma ≤ gcap) :
    let a := ts + placeAt cal gcap ma ts step f fuel d * step
    peakIn cal a (a + f) + ma ≤ gcap := by
  induction fuel generalizing d with
  | zero => exact h
  | succ fuel ih =>
    rw [placeAt]
    dsimp only
    split
    next hfits => exact hfits
    next => exact ih (by rwa [Nat.add_assoc, Nat.add_comm 1])

/-- At the last sub-slot searched every reservation has ended. -/
theorem stop_le_placeFuel (hstep : 0 < step) : ∀ r ∈ cal, r.stop.toNat ≤ ts + placeFuel cal ts step * step := by
  intro r hr
  obtain ⟨-, hmax⟩ := (foldl_max_le_iff (fun r : Resv => r.stop.toNat - ts) cal (m := 0)).1 le_rfl
  have hlast := Nat.lt_div_mul_add (a := cal.foldl (fun m r => max m (r.stop.toNat - ts)) 0) hstep
  have hmem := hmax r hr
  rw [placeFuel, Nat.max_eq_right hstep, Nat.succ_mul]
  omega

/-- The search ends at most one sub-slot after the end of the last reservation. -/
theorem placeFuel_le {n : Nat} (hstep : 0 < step) (h : ∀ r ∈ cal, r.stop.toNat ≤ n) :
    ts + placeFuel cal ts step * step ≤ max ts n + step := by
  have hmax : cal.foldl (fun m r => max m (r.stop.toNat - ts)) 0 ≤ n - ts :=
    (foldl_max_le_iff (fun r : Resv => r.stop.toNat - ts) cal).2 ⟨Nat.zero_le _, fun r hr => Nat.sub_le_sub_right (h r hr) ts⟩
  have hdiv := Nat.div_mul_le_self (cal.foldl (fun m r => max m (r.stop.toNat - ts)) 0) step
  rw [placeFuel, Nat.max_eq_right hstep, Nat.succ_mul]
  omega

/-- The start of the place that the arbiter finds. -/
def placeFound (cal : List Resv) (gcap ma ts step f : Nat) : Nat :=
  ts + placeAt cal gcap ma ts step f (placeFuel cal ts step) 0 * step

theorem placeFound_le {n : Nat} (hstep : 0 < step) (h : ∀ r ∈ cal, r.stop.toNat ≤ n) :
    placeFound cal gcap ma ts step f ≤ max ts n + step := by
  have hd := Nat.mul_le_mul_right step (placeAt_le (cal := cal) (gcap := gcap) (ma := ma) (ts := ts) (step := step) (f := f)
    (placeFuel cal ts step) 0)
  rw [Nat.zero_add] at hd
  exact (Nat.add_le_add_left hd ts).trans (placeFuel_le hstep h)

/-- A slice that GCAP admits alone fits there, among what is reserved, for the whole firing time. -/
theorem placeFound_fits (hstep : 0 < step) (hma : ma ≤ gcap) {x : Nat} (hx : placeFound cal gcap ma ts step f ≤ x)
    (hxf : x < placeFound cal gcap ma ts step f + f) : loadAt cal x + ma ≤ gcap := by
  have hpeak := placeAt_fits (cal := cal) (gcap := gcap) (ma := ma) (ts := ts) (step := step) (f := f)
    (fuel := placeFuel cal ts step) (d := 0) (by rwa [Nat.zero_add, peakIn_of_over _ (stop_le_placeFuel hstep), Nat.zero_add])
  exact (Nat.add_le_add_right (loadAt_le_peakIn cal hx hxf) ma).trans hpeak

end

theorem subSlot_pos (w : Nat) : 0 < subSlot w := Nat.lt_of_lt_of_le Nat.zero_lt_one (Nat.le_max_left _ _)

theorem subSlot_le {w : Nat} (h : w ≤ 65535) : subSlot w ≤ 65535 := by
  rw [subSlot, ceilDiv]
  omega

/-- What the arbiter answers where it does not refuse (R206, R209). -/
theorem place_some {s : State} {p : Port} {dots w f d ma : Nat} {e ta start : BitVec 64}
    (h : s.place p dots w f e ta = some (start, d, ma)) : ma ≤ s.gcap ∧
    start = BitVec.ofNat 64 (placeFound (s.sba.calendar.filter fun r => r.live s.time) s.gcap ma (max e.toNat (ta.toNat + 6))
      (subSlot w) f) := by
  by_cases hcaps : s.estimate p dots > s.pcap p ∨ s.estimate p dots > s.gcap
  · rw [State.place, if_pos hcaps] at h
    cases h
  · rw [State.place, if_neg hcaps] at h
    obtain ⟨hstart, -, rfl⟩ := by simpa only [Option.some.injEq, Prod.mk.injEq] using h
    exact ⟨by omega, hstart.symm⟩

/-- Where the arbiter places a slice, it and what is reserved stay within GCAP for the whole firing time (R206). -/
theorem place_fits {s : State} {p : Port} {dots w f d ma : Nat} {e ta start : BitVec 64} (he : e.toNat < 2 ^ 63)
    (hta : ta.toNat < 2 ^ 62) (hw : w ≤ 65535) (hstop : ∀ r ∈ s.sba.calendar, r.stop.toNat < 2 ^ 62)
    (h : s.place p dots w f e ta = some (start, d, ma)) {x : Nat} (hx : s.time.toNat ≤ x) (hfrom : start.toNat ≤ x)
    (hto : x < start.toNat + f) : loadAt s.sba.calendar x + ma ≤ s.gcap := by
  obtain ⟨hma, rfl⟩ := place_some h
  have hlive : ∀ r ∈ s.sba.calendar.filter (fun r => r.live s.time), r.stop.toNat ≤ 2 ^ 62 := fun r hr =>
    (hstop r (List.mem_of_mem_filter hr)).le
  have hle := placeFound_le (gcap := s.gcap) (ma := ma) (ts := max e.toNat (ta.toNat + 6)) (f := f) (subSlot_pos w) hlive
  have hstep := subSlot_le hw
  rw [BitVec.toNat_ofNat, Nat.mod_eq_of_lt (by omega)] at hfrom hto
  rw [← loadAt_live s.sba.calendar hx]
  exact placeFound_fits (subSlot_pos w) hma hfrom hto

-- what an answer leaves (R205 to R207)

/-- From `s` to `t` nothing on which the budget rests changes: GCAP, the time and the calendar; nor what no command reaches. -/
structure BudgetFrame (s t : State) : Prop where
  pending : t.pending = s.pending
  chip : t.chip = s.chip
  gcap : t.gcap = s.gcap
  time : t.time = s.time
  calendar : t.sba.calendar = s.sba.calendar

theorem BudgetFrame.trans {s t u : State} (h : BudgetFrame s t) (h' : BudgetFrame t u) : BudgetFrame s u :=
  ⟨h'.pending.trans h.pending, h'.chip.trans h.chip, h'.gcap.trans h.gcap, h'.time.trans h.time, h'.calendar.trans h.calendar⟩

theorem gcap_congr {s t : State} (h : t.rd R.SBA_GCAP = s.rd R.SBA_GCAP) : t.gcap = s.gcap :=
  congrArg (fun v => 100 * wbits v F.SBA_GCAP_CAP.lo F.SBA_GCAP_CAP.width) h

section
variable (s : State) (p : Port)

theorem budgetFrame_refl : BudgetFrame s s := ⟨rfl, rfl, rfl, rfl, rfl⟩

theorem budgetFrame_modHp (f : HpSt → HpSt) : BudgetFrame s (s.modHp p f) := ⟨rfl, rfl, rfl, rfl, rfl⟩

theorem budgetFrame_modEhm (f : EhmPort → EhmPort) : BudgetFrame s (s.modEhm p f) := ⟨rfl, rfl, rfl, rfl, rfl⟩

theorem budgetFrame_oversize : BudgetFrame s (s.oversize p) := ⟨rfl, rfl, rfl, rfl, rfl⟩

theorem budgetFrame_noteEstimate (n : Nat) : BudgetFrame s (s.noteEstimate p n) :=
  ⟨rfl, rfl, gcap_congr (rd_noteEstimate (p := p) n (by simp) (by simp)), rfl, rfl⟩

theorem calendar_govRecheck : (s.govRecheck p).sba.calendar = s.sba.calendar := by
  obtain ⟨x, hx⟩ := govRecheck_eq s p
  rw [hx]
  split <;> rfl

/-- The boundary of SBA moves no reservation (R207). -/
theorem calendar_sbaActivate : s.sbaActivate.sba.calendar = s.sba.calendar := by
  by_cases hpend : (s.page Pg.sba).pend = true
  · have hset : (s.activate Pg.sba).sba.calendar = s.sba.calendar := by
      rw [activate_alone rfl hpend]
      rfl
    rw [State.sbaActivate, if_pos hpend]
    exact List.foldlRecOn (motive := fun t : State => t.sba.calendar = s.sba.calendar) _ State.govRecheck hset
      fun t ht o _ => (calendar_govRecheck t o).trans ht
  · rw [State.sbaActivate, if_neg hpend]

theorem budgetFrame_sbaActivate : BudgetFrame s s.sbaActivate := by
  have hcal := calendar_sbaActivate s
  obtain ⟨a, b, x, y, heq, -⟩ := sbaActivate_keeps s
  rw [heq] at hcal ⊢
  exact ⟨rfl, rfl, rfl, rfl, hcal⟩

/-- The registers that a grant writes beside IEST (R219, R220). -/
def grantRecords (p : Port) : List Nat :=
  [R.SBA_GRANT.addr 0 0, R.SBA_Pp_DEFER.addr p.val 0, R.SBA_Pp_DMAX.addr p.val 0, R.SBA_ISUM.addr 0 0]

theorem gcap_not_mem_grantRecords : ∀ p : Port, R.SBA_GCAP.addr 0 0 ∉ grantRecords p := by decide

theorem gcap_wr_grantRecord {r : Reg} {i j : Nat} (v : Word) (h : r.addr i j ∈ grantRecords p) : (s.wr r v i j).gcap = s.gcap :=
  gcap_congr (rd_wr_ne s v fun heq => gcap_not_mem_grantRecords p (heq ▸ h))

theorem gcap_reserve (start : BitVec 64) (d ma f slice : Nat) : (s.reserve p start d ma f slice).gcap = s.gcap := by
  have hgrant (t : State) (v : Word) : (t.wr R.SBA_GRANT v).gcap = t.gcap :=
    gcap_wr_grantRecord t p v (by simp [grantRecords])
  have hdefer (t : State) : (if d > 0 then t.count R.SBA_Pp_DEFER p.val else t).gcap = t.gcap := by
    split
    · exact gcap_wr_grantRecord t p _ (by simp [grantRecords])
    · rfl
  have hmost (t : State) : (if min d 0xFFFF > t.fld F.SBA_Pp_DMAX_SUB p.val
      then t.setFld F.SBA_Pp_DMAX_SUB (min d 0xFFFF) p.val else t).gcap = t.gcap := by
    split
    · exact gcap_wr_grantRecord t p _ (by simp [grantRecords, F.SBA_Pp_DMAX_SUB])
    · rfl
  have hpeak (t : State) : t.isumPeak.gcap = t.gcap := by
    unfold State.isumPeak
    split
    · exact gcap_wr_grantRecord t p _ (by simp [grantRecords, F.SBA_ISUM_PEAK])
    · rfl
  exact (hpeak _).trans ((hmost _).trans ((hdefer _).trans (hgrant _ _)))

theorem budgetFrame_reserve (start : BitVec 64) (d ma f slice : Nat) :
    BudgetFrame (s.booked p start d ma f) (s.reserve p start d ma f slice) := by
  have hgcap := gcap_reserve s p start d ma f slice
  have hframe := regsFrame_reserve s p start d ma f slice
  generalize s.reserve p start d ma f slice = t at hgcap hframe
  refine ⟨?_, ?_, hgcap, ?_, ?_⟩
  all_goals rw [hframe]
end

/-- What an answer of the arbiter to port `p` does to the budget: nothing, or it enters the reservation of a slice that it has
placed, counted from the instant of the request. -/
inductive AnswerOf (s : State) (p : Port) (t : State) : Prop
  | still (h : BudgetFrame s t)
  | grant {v : State} {dots w f d ma : Nat} {ta start : BitVec 64} (hv : BudgetFrame s v) (hask : s.requested p = some ta)
      (hw : (∃ c, (s.hpP p).cur = some c ∧ w = c.w) ∨ w ≤ 250)
      (hplace : v.place p dots w f (ta + BitVec.ofNat 64 (v.latw p + v.tls p)) ta = some (start, d, ma))
      (ht : BudgetFrame (v.booked p start d ma f) t)

theorem measPw_le (s : State) (p : Port) : s.measPw p ≤ 250 := by
  rw [State.measPw, clampField]
  omega

section
variable {s : State} {p : Port} {ta : BitVec 64} (hsba : s.running Pg.sba = true) (hturn : s.grantTurn p = true)
  (hask : s.requested p = some ta)
include hsba hturn hask

/-- The answer to the request of a line. -/
theorem sbaGrant_answers_line {c : CurLine} (hcur : (s.hpP p).cur = some c) : AnswerOf s p (s.sbaGrant p) := by
  have hst : c.st = .latched ta := by
    simp only [State.requested, hcur] at hask
    split at hask
    next hst => rw [hst, Option.some.inj hask]
    next => cases hask
  have hgrant := sbaGrant_line hcur hst hsba hturn rfl
  have hnote := (budgetFrame_sbaActivate s).trans (budgetFrame_noteEstimate _ p c.dots)
  obtain ⟨hlat, hstrobe, -⟩ := sbaActivate_times s p
  cases hplace : s.sbaActivate.place p c.dots c.w (s.tFire p c.w) (ta + BitVec.ofNat 64 (s.latw p + s.tls p)) ta with
  | none =>
    rw [hplace, Option.elim_none] at hgrant
    rw [hgrant]
    exact .still ((hnote.trans (budgetFrame_oversize _ p)).trans (budgetFrame_modHp _ p _))
  | some answer =>
    obtain ⟨start, d, ma⟩ := answer
    rw [hplace, Option.elim_some] at hgrant
    rw [← place_noteEstimate c.dots, ← hlat, ← hstrobe] at hplace
    rw [hgrant]
    exact .grant hnote hask (.inl ⟨c, hcur, rfl⟩) hplace ((budgetFrame_reserve _ p ..).trans (budgetFrame_modHp _ p _))

/-- The answer to the request of a measurement slot (09 R229). -/
theorem sbaGrant_answers_slot (hcur : (s.hpP p).cur = none) : AnswerOf s p (s.sbaGrant p) := by
  obtain ⟨_, _, _, _, heq, -⟩ := sbaActivate_keeps s
  have hcur' : (s.sbaActivate.hpP p).cur = none := by rw [heq]; exact hcur
  have hactive := budgetFrame_sbaActivate s
  rw [State.sbaGrant, if_neg (by simp [hsba, hturn])]
  generalize s.sbaActivate = u at hcur' hactive
  have hlatch (l : List (List Bool)) : BudgetFrame s ((u.noteEstimate p 1).modHp p fun h => { h with latch := l }) :=
    (hactive.trans (budgetFrame_noteEstimate _ p 1)).trans (budgetFrame_modHp _ p _)
  simp only [hask, hcur']
  split
  next => exact .still hactive
  next x hslot =>
    split
    next => exact .still (((hlatch _).trans (budgetFrame_oversize _ p)).trans (budgetFrame_modEhm _ p _))
    next start d ma hplace =>
      split
      next => exact .still ((hlatch _).trans (budgetFrame_modEhm _ p _))
      next =>
        exact .grant (hlatch _) hask (.inr (measPw_le u p)) hplace ((budgetFrame_reserve _ p ..).trans (budgetFrame_modEhm _ p _))

end

theorem sbaGrant_answers (s : State) (p : Port) : AnswerOf s p (s.sbaGrant p) := by
  by_cases hidle : ¬ s.running Pg.sba = true ∨ ¬ s.grantTurn p = true
  · rw [State.sbaGrant, if_pos hidle]
    exact .still (budgetFrame_refl s)
  · obtain ⟨hsba, hturn⟩ : s.running Pg.sba = true ∧ s.grantTurn p = true := by simpa using hidle
    cases hask : s.requested p with
    | none =>
      rw [State.sbaGrant, if_neg hidle]
      simp only [hask]
      exact .still (budgetFrame_refl s)
    | some ta =>
      cases hcur : (s.hpP p).cur with
      | none => exact sbaGrant_answers_slot hsba hturn hask hcur
      | some c => exact sbaGrant_answers_line hsba hturn hask hcur

-- the budget (R206)

/-- From now on the reserved current never exceeds GCAP. -/
def State.WithinCap (s : State) : Prop := ∀ x, s.time.toNat ≤ x → loadAt s.sba.calendar x ≤ s.gcap

theorem State.WithinCap.of_frame {s t : State} (hs : s.WithinCap) (h : BudgetFrame s t) : t.WithinCap := by
  rw [State.WithinCap, h.time, h.calendar, h.gcap]
  exact hs

/-- A reservation that fits with what is reserved keeps the calendar within GCAP. -/
theorem State.WithinCap.booked {s : State} {p : Port} {start : BitVec 64} {d ma f : Nat} (hs : s.WithinCap)
    (hfits : ∀ x, s.time.toNat ≤ x → start.toNat ≤ x → x < start.toNat + f → loadAt s.sba.calendar x + ma ≤ s.gcap) :
    (s.booked p start d ma f).WithinCap := by
  intro x hx
  change loadAt (s.sba.calendar.filter (fun r => r.live s.time) ++ [Resv.mk p start (start + BitVec.ofNat 64 f) ma]) x ≤ s.gcap
  have hdraw := Resv.draw_le_span p start f ma x
  rw [loadAt_concat, loadAt_live (now := s.time) _ hx]
  split at hdraw
  next hin => exact (Nat.add_le_add_left hdraw _).trans (hfits x hx hin.1 hin.2)
  next => exact (Nat.add_le_add_left hdraw _).trans (hs x hx)

theorem act_lt (s : State) (f : Fld) (i : Nat) : s.act f i < 2 ^ f.width := Nat.mod_lt _ (Nat.two_pow_pos _)

theorem guards_le (s : State) (p : Port) : s.latw p + s.tls p ≤ 510 := by
  have hlat : s.act F.HPn_GUARD_LATW p.val < 2 ^ 8 := act_lt s F.HPn_GUARD_LATW p.val
  have hstrobe : s.tls p < 2 ^ 8 := act_lt s F.HPn_GUARD_TLS p.val
  rw [State.latw]
  omega

end Sys2Proof.Machine

open Sys2Proof Sys2Proof.Machine

/-- Settles O40: an answer leaves the budget alone, or enters one reservation at a place where the search has found room for it,
or where every other reservation has ended. -/
theorem supplyBudgetIsKept : Obligations.SupplyBudgetIsKept := by
  unfold Obligations.SupplyBudgetIsKept
  intro s p hup htime hstop hreq hwidth hcap
  suffices hkept : (s.sbaGrant p).pending = s.pending ∧ (s.sbaGrant p).chip = s.chip ∧ (s.sbaGrant p).gcap = s.gcap ∧
      (s.sbaGrant p).time = s.time ∧ (s.sbaGrant p).WithinCap by
    obtain ⟨hpending, hchip, hkept⟩ := hkept
    exact gives_of_outer (f := fun s => s.sbaGrant p) rfl hup rfl hpending hchip hkept
  cases sbaGrant_answers s p with
  | still h => exact ⟨h.pending, h.chip, h.gcap, h.time, State.WithinCap.of_frame hcap h⟩
  | @grant v dots w f d ma ta start hv hask hw hplace ht =>
    have hta := hreq ta hask
    have hw : w ≤ 65535 := by
      obtain ⟨c, hcur, rfl⟩ | hw := hw
      · exact hwidth c hcur
      · omega
    have hguards := guards_le v p
    have he : (ta + BitVec.ofNat 64 (v.latw p + v.tls p)).toNat < 2 ^ 63 := by
      rw [BitVec.toNat_add, BitVec.toNat_ofNat]
      omega
    have hbooked := (State.WithinCap.of_frame hcap hv).booked (p := p) (d := d) fun x hx hfrom hto =>
      place_fits he hta hw (hv.calendar ▸ hstop) hplace hx hfrom hto
    exact ⟨ht.pending.trans hv.pending, ht.chip.trans hv.chip, ht.gcap.trans hv.gcap, ht.time.trans hv.time, hbooked.of_frame ht⟩
end

section
/-! SUPPORT. The element table as its window, the restore copy and the priority list write it (09 R224 to R226, R236, R237, R239);
what that says of O42. -/

namespace Sys2Proof.Machine

-- entries

/-- The bits of byte `j` of an entry that are not reserved (R222). -/
def entryMask (j : Nat) : Byte := if j = 1 then 0x3F else if j = 2 then 0x7F else 0xFF

theorem and_entryMask {j : Nat} (h : j ≠ 1 ∧ j ≠ 2) (x : Byte) : x &&& entryMask j = x := by
  rw [entryMask, if_neg h.1, if_neg h.2]
  exact BitVec.and_allOnes

theorem natBytes_word (w : Word) :
    natBytes 4 w.toNat = [w.setWidth 8, (w >>> 8).setWidth 8, (w >>> 16).setWidth 8, (w >>> 24).setWidth 8] := by
  have byte (k : Nat) : BitVec.ofNat 8 (w.toNat / 2 ^ k) = (w >>> k).setWidth 8 := by
    apply BitVec.eq_of_toNat_eq
    rw [BitVec.toNat_setWidth, BitVec.toNat_ushiftRight, Nat.shiftRight_eq_div_pow, BitVec.toNat_ofNat]
  simp only [natBytes, Nat.div_div_eq_div_mul]
  rw [show 256 * 256 * 256 = 2 ^ 24 from rfl, show 256 * 256 = 2 ^ 16 from rfl, show 256 = 2 ^ 8 from rfl, byte, byte, byte]
  rfl

theorem length_bytes (s : State) (a n : Nat) : (s.bytes a n).length = n := by
  induction n generalizing a with
  | zero => rfl
  | succ n ih => rw [State.bytes, List.length_cons, ih]

theorem getElem_bytes (s : State) (a : Nat) {n k : Nat} (h : k < (s.bytes a n).length) : (s.bytes a n)[k] = s.byte (a + k) := by
  induction n generalizing a k with
  | zero => exact absurd h (Nat.not_lt_zero k)
  | succ n ih =>
    cases k with
    | zero => rfl
    | succ k =>
      have hk : k < (s.bytes (a + 1) n).length := Nat.lt_of_succ_lt_succ h
      calc (s.bytes a (n + 1))[k + 1] = (s.bytes (a + 1) n)[k] := rfl
        _ = s.byte (a + (k + 1)) := by rw [ih, Nat.add_right_comm, Nat.add_assoc]

section
variable (s : State) (p : Port) (e : Nat) {l : List Byte} (hl : l.length = 8)

theorem writeElem_rest (l : List Byte) : s.writeElem p e l = { s with mem := (s.writeElem p e l).mem } := setBytes_eq s _ _

include hl

theorem byte_writeElem_out {b : Nat} (h : b < elemAddr p e ∨ elemAddr p e + 8 ≤ b) : (s.writeElem p e l).byte b = s.byte b :=
  byte_setBytes_out s _ _ (by simpa [hl] using h)

theorem byte_writeElem_in {j : Nat} (hj : j < 8) : (s.writeElem p e l).byte (elemAddr p e + j) = l[j] &&& entryMask j := by
  rw [State.writeElem, byte_setBytes_in s _ _ (by simpa [hl] using hj)]
  simp only [List.getElem_map, List.getElem_zipIdx, List.getElem_take, Nat.zero_add]
  split
  · next h1 => rw [entryMask, if_pos h1]
  · next h1 =>
    split
    · next h2 => rw [entryMask, if_neg h1, if_pos h2]
    · next h2 => rw [and_entryMask ⟨h1, h2⟩]
end

theorem elemAddr_add (p : Port) (e k : Nat) : elemAddr p (e + k) = elemAddr p e + 8 * k := by
  unfold elemAddr
  omega

-- the element window (R239)

/-- A write that reaches an open page, and whose meaning leaves what its guard restores. -/
theorem gives_of_write {i : Instr} {s t : State} {pg : PageIx} {rq : Requester} {a v : Word} {f : State → State}
    (he : exec i s = whenWrite rq a v s f) (ha : areaOf a.toNat = some (.page pg)) (ho : s.Open pg) (hw : s.WritesAt rq a)
    (ht : f s = t) (hp : t.pending = s.pending) (hchip : t.chip = s.chip) {P : State → Prop} (hP : P t) : Gives i s P := by
  rw [Gives, he, whenWrite_open v f ha ho hw, ht, keepOuter_eq hp (congrArg _ hchip)]
  exact ⟨t, rfl, hP⟩

theorem snapOf_setSnap_none_ne (s : State) {rq r : Requester} (h : r ≠ rq) : (s.setSnap rq none).snapOf r = s.snapOf r := by
  have hkeep (x : Requester × Snap) : decide ((x.1 != rq) = true ∧ (x.1 == r) = true) = (x.1 == r) := by
    by_cases hx : x.1 = r
    · simp [hx, h]
    · simp [hx]
  simp only [State.snapOf, State.setSnap, List.find?_filter, hkeep]

@[simp] theorem State.setSnap_ewSel (s : State) (rq r : Requester) (x : Option Snap) : (s.setSnap rq x).ewSel r = s.ewSel r := rfl

section
variable {s : State} {rq : Requester} {lo hi : Word}

theorem exec_elementWindowWrite (s : State) : exec (.elementWindowWrite rq lo hi) s =
    whenWrite rq 0x4000D048 hi s fun s => (s.setSnap rq none).ewWrite rq lo hi := rfl

/-- The two halves that a pair write of the element window stores. -/
abbrev pairBytes (lo hi : Word) : List Byte :=
  [lo.setWidth 8, (lo >>> 8).setWidth 8, (lo >>> 16).setWidth 8, (lo >>> 24).setWidth 8,
   hi.setWidth 8, (hi >>> 8).setWidth 8, (hi >>> 16).setWidth 8, (hi >>> 24).setWidth 8]

/-- The entry of element `e` has been replaced by the two halves (R239): `t`. -/
structure PairStored (p : Port) (e : Nat) (lo hi : Word) (s t : State) : Prop where
  rest : t = { s with mem := t.mem }
  kept : SameMemBut (elemAddr p e) 8 s t
  bytes : t.byte (elemAddr p e) = lo.setWidth 8 ∧ t.byte (elemAddr p e + 1) = (lo >>> 8).setWidth 8 &&& 0x3F ∧
    t.byte (elemAddr p e + 2) = (lo >>> 16).setWidth 8 &&& 0x7F ∧ t.byte (elemAddr p e + 3) = (lo >>> 24).setWidth 8 ∧
    t.byte (elemAddr p e + 4) = hi.setWidth 8 ∧ t.byte (elemAddr p e + 5) = (hi >>> 8).setWidth 8 ∧
    t.byte (elemAddr p e + 6) = (hi >>> 16).setWidth 8 ∧ t.byte (elemAddr p e + 7) = (hi >>> 24).setWidth 8

theorem pairStored_writeElem (p : Port) (e : Nat) : PairStored p e lo hi s (s.writeElem p e (pairBytes lo hi)) := by
  have hin {j : Nat} := byte_writeElem_in s p e (l := pairBytes lo hi) rfl (j := j)
  have hwhole {j : Nat} (hj : j < 8) (h : j ≠ 1 ∧ j ≠ 2) := (hin hj).trans (and_entryMask h _)
  exact ⟨writeElem_rest s p e _, fun b hb => byte_writeElem_out s p e rfl hb,
    hwhole (j := 0) (by decide) (by decide), hin (j := 1) (by decide), hin (j := 2) (by decide),
    hwhole (j := 3) (by decide) (by decide), hwhole (j := 4) (by decide) (by decide), hwhole (j := 5) (by decide) (by decide),
    hwhole (j := 6) (by decide) (by decide), hwhole (j := 7) (by decide) (by decide)⟩

theorem ewWrite_selected (h : wbits (s.ewSel rq) 0 13 ≤ 6143) :
    s.ewWrite rq lo hi = s.writeElem (Fin.ofNat 4 (wbits (s.ewSel rq) 16 2)) (wbits (s.ewSel rq) 0 13) (pairBytes lo hi) := by
  rw [State.ewWrite, if_neg (Nat.not_lt.2 h), natBytes_word, natBytes_word]
  rfl
end

-- the restore copy (R226)

theorem exec_restoreCopyStart (ctl : Word) (s : State) :
    exec (.restoreCopyStart ctl) s = whenPage Pg.ehm s fun s => s.rstStart ctl := rfl
theorem exec_restoreCopyEnd (s : State) : exec .restoreCopyEnd s = whenUp s fun s => s.rstCopy := rfl
theorem exec_restoreFlashRetry (s : State) : exec .restoreFlashRetry s = whenUp s fun s => s.rstRetry := rfl

section
variable {s : State}

/-- The copy that a write of EHM_RSTCTL asks for. -/
abbrev State.restoreAsked (s : State) (ctl : Word) : Restore :=
  { src := s.fld F.EHM_RSTSRC_ADDR * 8, port := Fin.ofNat 4 (wbits ctl 14 2), first := wbits ctl 0 13, count := wbits ctl 16 13 }

theorem rstStart_accepted {ctl : Word} (hgo : ctl.getLsbD 31 = true) (hrun : s.running Pg.ehm = true) (hfree : s.ehm.restore = none)
    (hcount : wbits ctl 16 13 ≠ 0) (hlast : wbits ctl 0 13 + wbits ctl 16 13 ≤ 6144)
    (hsrc : (inFlash (s.restoreAsked ctl).src (8 * (s.restoreAsked ctl).count) ||
      inWram (s.restoreAsked ctl).src (8 * (s.restoreAsked ctl).count)) = true) :
    s.rstStart ctl = { (s.wr R.EHM_RSTCTL (ctl &&& 0x1FFFDFFF)).setFld F.EHM_RSTSTAT_DONE 0 with
      ehm := { s.ehm with restore := some (s.restoreAsked ctl) } } := by
  have hsource : (s.wr R.EHM_RSTCTL (ctl &&& 0x1FFFDFFF)).fld F.EHM_RSTSRC_ADDR = s.fld F.EHM_RSTSRC_ADDR :=
    fld_wr_ne s _ _ (by decide)
  have hrun' : (s.wr R.EHM_RSTCTL (ctl &&& 0x1FFFDFFF)).running Pg.ehm = true := hrun
  rw [Bool.or_eq_true] at hsrc
  unfold State.rstStart
  dsimp only
  rw [hsource, if_neg (not_or_intro (not_not.2 hgo) (not_not.2 hrun')), if_neg (by simp [hfree]), if_neg (by omega),
    if_neg (not_not.2 hsrc)]
  rfl
end

/-- The copy `r` of the source as `s` holds it has got as far as `k` entries: `t`. -/
structure Copied (r : Restore) (k : Nat) (s t : State) : Prop where
  rest : t = { s with mem := t.mem, regs := t.regs, ehm := { s.ehm with restore := some { r with done := k, retry := none } } }
  kept : SameMemBut (elemAddr r.port r.first) (8 * k) s t
  stored : ∀ i j, i < k → j < 8 →
    t.byte (elemAddr r.port (r.first + i) + j) = s.byte (r.src + 8 * i + j) &&& entryMask j
  done : 0 < k → t.fld F.EHM_RSTSTAT_DONE = k

section
variable {s t : State} {r : Restore} {k : Nat}

theorem Copied.start (hr : s.ehm.restore = some r) (hretry : r.retry = none) (hdone : r.done = 0) : Copied r 0 s s := by
  have hself : { r with done := 0, retry := none } = r := by rw [← hdone, ← hretry]
  exact ⟨by rw [hself, ← hr], fun _ _ => rfl, fun i j hi => absurd hi (Nat.not_lt_zero i), fun h => absurd h (Nat.lt_irrefl 0)⟩

theorem Copied.restore (h : Copied r k s t) : t.ehm.restore = some { r with done := k, retry := none } :=
  (congrArg (fun u : State => u.ehm.restore) h.rest :)

/-- The element table lies above working RAM. -/
theorem inWram_below_elements {a n : Nat} (h : inWram a n = true) (p : Port) (e : Nat) : a + n ≤ elemAddr p e := by
  simp only [inWram, Bool.and_eq_true, decide_eq_true_eq] at h
  unfold wramEnd at h
  unfold elemAddr elemBase
  omega

theorem byte_rstEntry (t : State) (r : Restore) (l : List Byte) (b : Nat) :
    (t.rstEntry r l).byte b = (t.writeElem r.port (r.first + r.done) l).byte b := by
  rw [State.rstEntry]
  generalize t.writeElem r.port (r.first + r.done) l = u
  rfl

theorem rstEntry_rest (t : State) (r : Restore) (l : List Byte) :
    t.rstEntry r l = { t with
      mem := (t.rstEntry r l).mem, regs := (t.rstEntry r l).regs
      ehm := { t.ehm with restore := some { r with done := r.done + 1, retry := none } } } := by
  have hrest := writeElem_rest t r.port (r.first + r.done) l
  rw [State.rstEntry]
  generalize t.writeElem r.port (r.first + r.done) l = u at hrest ⊢
  rw [hrest]
  rfl

theorem done_rstEntry (t : State) (r : Restore) (l : List Byte) :
    (t.rstEntry r l).fld F.EHM_RSTSTAT_DONE = (r.done + 1) % 2 ^ 13 := by
  rw [State.rstEntry]
  generalize t.writeElem r.port (r.first + r.done) l = u
  exact fld_setFld_same u F.EHM_RSTSTAT_DONE (r.done + 1) 0 0 (by decide)

/-- One more entry is copied: its source lies in working RAM, which no entry written before has touched. -/
theorem Copied.entry (h : Copied r k s t) (hsrc : inWram r.src (8 * r.count) = true) (hk : k < r.count)
    (hfit : r.first + r.count ≤ 6144) :
    Copied r (k + 1) s (t.rstEntry { r with done := k, retry := none } (t.bytes (r.src + 8 * k) 8)) := by
  have hlen := length_bytes t (r.src + 8 * k) 8
  have hread (j : Nat) (hj : j < (t.bytes (r.src + 8 * k) 8).length) :
      (t.bytes (r.src + 8 * k) 8)[j] = s.byte (r.src + 8 * k + j) := by
    have := inWram_below_elements hsrc r.port r.first
    rw [getElem_bytes, h.kept _ (.inl (by omega))]
  have hat := elemAddr_add r.port r.first
  generalize t.bytes (r.src + 8 * k) 8 = l at hlen hread ⊢
  refine ⟨?_, ?_, ?_, ?_⟩
  · have hrest := rstEntry_rest t { r with done := k, retry := none } l
    generalize t.rstEntry _ l = u at hrest ⊢
    rw [hrest, h.rest]
  · intro b hb
    rw [byte_rstEntry, byte_writeElem_out _ _ _ hlen (by rw [hat]; dsimp only; omega), h.kept b (by omega)]
  · intro i j hi hj
    rw [byte_rstEntry]
    rcases Nat.lt_succ_iff_lt_or_eq.1 hi with hi | rfl
    · rw [byte_writeElem_out _ _ _ hlen (by rw [hat, hat]; dsimp only; omega), h.stored i j hi hj]
    · rw [byte_writeElem_in _ _ _ hlen hj, hread j (by omega)]
  · intro _
    rw [done_rstEntry]
    dsimp only
    omega

/-- From working RAM nothing holds the copy up. -/
theorem Copied.rstRun (h : Copied r k s t) (hsrc : inWram r.src (8 * r.count) = true) (hfit : r.first + r.count ≤ 6144) (n : Nat)
    (hk : k + n = r.count) : ∃ u, Copied r r.count s u ∧ t.rstRun n = u.rstEnd 1 := by
  induction n generalizing k t with
  | zero => exact ⟨t, hk ▸ h, rfl⟩
  | succ n ih =>
    have hram : inWram r.src 8 = true := by
      simp only [inWram, Bool.and_eq_true, decide_eq_true_eq] at hsrc ⊢
      omega
    obtain ⟨u, hu, hrun⟩ := ih (h.entry hsrc (by omega) hfit) (by omega)
    refine ⟨u, hu, ?_⟩
    simp only [State.rstRun, h.restore, hram, if_true]
    exact hrun
end

/-- Where a copy ends, it requests RESTORED and says how (R226). -/
structure Restored (result : Nat) (s t : State) : Prop where
  rest : t = { s with regs := t.regs, pages := t.pages, ehm := { s.ehm with restore := none } }
  result : t.fld F.EHM_RSTSTAT_RESULT = result % 2 ^ 4
  done : t.fld F.EHM_RSTSTAT_DONE = s.fld F.EHM_RSTSTAT_DONE
  page : t.page Pg.ehm = { s.page Pg.ehm with irqStat := (s.page Pg.ehm).irqStat ||| BitVec.ofNat 32 (2 ^ 8) }

theorem Restored.byte {result : Nat} {s t : State} (h : Restored result s t) (a : Nat) : t.byte a = s.byte a :=
  sameMem_of_mem (by rw [h.rest]) a

theorem restored_rstEnd (s : State) (result : Nat) : Restored result s (s.rstEnd result) where
  rest := rfl
  result := fld_setFld_same s F.EHM_RSTSTAT_RESULT result 0 0 (by decide)
  done := fld_setFld_beside s F.EHM_RSTSTAT_DONE F.EHM_RSTSTAT_RESULT result rfl (by decide) (by decide)
  page := page_irq_same _ Pg.ehm 8

section
variable {s : State} {r : Restore} (hr : s.ehm.restore = some r)
include hr

theorem rstCopy_goes (hretry : r.retry = none) (hwork : s.working Pg.ehm = true) : s.rstCopy = s.rstRun (r.count - r.done) := by
  simp only [State.rstCopy, hr, hretry, hwork, Option.isSome_none, Bool.false_eq_true, not_true_eq_false, or_self, if_false]

/-- A line of flash that its bank does not bring now is read again later (14 R351). -/
theorem rstRun_subst {n : Nat} {o : FlcOp} (hsrc : inFlash r.src (8 * r.count) = true) (hst : (s.page Pg.flc).st ≠ .resetting)
    (hop : s.flc.op = some o) (hs : o.suspSince = none) (hb : o.bank = flashBank (r.src + 8 * r.done)) :
    s.rstRun (n + 1) = { s with
      flc := { s.flc with op := some { o with spend := true } }
      ehm := { s.ehm with restore := some { r with retry := some ⟨r.src + 8 * r.done, 1⟩ } } } := by
  have hram : ¬ inWram r.src 8 = true := by
    simp only [inFlash, inWram, Bool.and_eq_true, decide_eq_true_eq] at hsrc ⊢
    unfold flashEnd at hsrc
    unfold wramBase
    omega
  simp only [State.rstRun, hr, if_neg hram, flashRead_busy hst hop hs hb]

section
variable {x : Retry} (hretry : r.retry = some x) (hst : (s.page Pg.flc).st ≠ .resetting)
include hretry hst

/-- A bank that is free brings the line, and the copy goes on (R226). -/
theorem rstRetry_data (hop : s.flc.op = none) : ∃ t, s.rstRetry = { t with
    ehm := { s.ehm with restore := some { r with retry := none } } } ∧ ReadFrame s t := by
  obtain ⟨t, e, hread, hframe⟩ := flashRead_free hst hop .seq x.addr
  have hehm : t.ehm = s.ehm := by rw [hframe.rest]
  refine ⟨t, ?_, hframe⟩
  simp only [State.rstRetry, hr, hretry, hread, hehm]

theorem rstRetry_subst {o : FlcOp} (hop : s.flc.op = some o) (hs : o.suspSince = none) (hb : o.bank = flashBank x.addr)
    (hn : x.count + 1 < 1024) : s.rstRetry = { s with
      flc := { s.flc with op := some { o with spend := true } }
      ehm := { s.ehm with restore := some { r with retry := some ⟨x.addr, x.count + 1⟩ } } } := by
  simp only [State.rstRetry, hr, hretry, flashRead_busy hst hop hs hb, ge_iff_le, if_neg (Nat.not_le.2 hn)]
end
end

-- the priority list and the optical trims (R236, R237)

theorem exec_ehmPrioAdd (p : Port) (elem : Word) (s : State) :
    exec (.ehmPrioAdd p elem) s = whenPage Pg.ehm s fun s => s.prioAdd p (wbits elem 0 13) := rfl
theorem exec_optAutoEnable (p : Port) (v : Word) (s : State) :
    exec (.optAutoEnable p v) s = whenPage Pg.ehm s fun s => s.optWrite p v := rfl

theorem ehmP_modEhm_ne (s : State) {p o : Port} (f : EhmPort → EhmPort) (h : o ≠ p) : (s.modEhm p f).ehmP o = s.ehmP o := by
  have : ¬ p.val = o.val := fun e => h (Fin.ext e.symm)
  simp [State.ehmP, State.modEhm, this]

section
variable (s : State) (p : Port)

theorem prioAdd_eq (e : Nat) : s.prioAdd p e = s.modEhm p fun x =>
    if e ∈ x.prio ∨ 16 ≤ x.prio.length then x else { x with prio := x.prio ++ [e] } := by
  simp only [State.prioAdd, List.contains_iff_mem, ge_iff_le]

/-- What a keyed write of EHM_Pp_OPT leaves: the trims' bounds, and the port's votes. -/
structure OptWritten (v : Word) (t : State) : Prop where
  rest : t = { s with regs := t.regs, ehm := t.ehm }
  word : t.rd R.EHM_Pp_OPT p.val = v &&& 0xBF3F007F
  regs : SameRegsBut [R.EHM_Pp_OPT.addr p.val 0] s t
  votes : (t.ehmP p).votes = if v.getLsbD 31 = true ∧ s.flag F.EHM_Pp_OPT_OAUTO p.val = false then [] else (s.ehmP p).votes
  others : ∀ o, o ≠ p → t.ehmP o = s.ehmP o

theorem optWritten_optWrite (v : Word) : OptWritten s p v (s.optWrite p v) := by
  unfold State.optWrite
  simp only [Bool.not_eq_true]
  split
  case isTrue h =>
    refine ⟨rfl, rd_wr_same _ _ _ _ _, sameRegs_wr _ _ _ _ _, ?_, fun o ho => ehmP_modEhm_ne _ _ ho⟩
    rw [if_pos h, clearVotes, ehmP_modEhm_same]
  case isFalse h => exact ⟨rfl, rd_wr_same _ _ _ _ _, sameRegs_wr _ _ _ _ _, (if_neg h).symm, fun _ _ => rfl⟩
end

end Sys2Proof.Machine

open Sys2Proof Sys2Proof.Machine

/-- Settles O42: the window and the copy store through one write of an entry, and from working RAM each entry of a copy adds
to what has been copied. -/
theorem elementTableCommands : Obligations.ElementTableCommands := by
  unfold Obligations.ElementTableCommands
  intro s p
  refine ⟨?_, ?_, ?_, ?_, ?_, ?_⟩
  · intro rq lo hi ho hw hsel
    have hstored := ewWrite_selected (s := s.setSnap rq none) (lo := lo) (hi := hi) hsel
    rw [State.setSnap_ewSel] at hstored
    generalize Fin.ofNat 4 (wbits (s.ewSel rq) 16 2) = port, wbits (s.ewSel rq) 0 13 = elem at hstored ⊢
    have hpair := pairStored_writeElem (s := s.setSnap rq none) (lo := lo) (hi := hi) port elem
    generalize (s.setSnap rq none).writeElem port elem (pairBytes lo hi) = t at hstored hpair
    have hbus : t.bus = (s.setSnap rq none).bus := (congrArg State.bus hpair.rest :)
    have hsnap (r : Requester) : t.snapOf r = (s.setSnap rq none).snapOf r := by rw [State.snapOf, State.snapOf, hbus]
    refine gives_of_write (exec_elementWindowWrite s) (areaOf_of_pageOf (by decide +kernel)) ho hw hstored ?_ ?_
      ⟨?_, ?_, ?_, (hsnap rq).trans (snapOf_setSnap_same s rq none), fun r hr => (hsnap r).trans (snapOf_setSnap_none_ne s hr), ?_⟩
    case refine_6 =>
      rintro a rfl
      exact ⟨hpair.kept, hpair.bytes⟩
    all_goals
      rw [hpair.rest]
      rfl
  · intro ctl ho hrun hgo hfree hcount hlast hsrc
    refine gives_of_page (exec_restoreCopyStart ctl s) ho (rstStart_accepted hgo hrun hfree hcount hlast hsrc) rfl rfl ?_
    exact ⟨sameMem_of_mem rfl, fld_setFld_same _ F.EHM_RSTSTAT_DONE 0 0 0 (by decide), rfl, rfl⟩
  · intro r hup hwork hr hretry
    have hgoes := rstCopy_goes hr hretry hwork
    constructor
    · intro hsrc hdone hcount hfit
      obtain ⟨u, hu, hrun⟩ := (Copied.start hr hretry hdone).rstRun hsrc hfit r.count (Nat.zero_add _)
      have hend := restored_rstEnd u 1
      rw [hdone, Nat.sub_zero, hrun] at hgoes
      generalize u.rstEnd 1 = t at hgoes hend
      refine gives_of_outer (exec_restoreCopyEnd s) hup hgoes ?_ ?_ ⟨?_, hend.result, hend.done.trans (hu.done hcount), ?_, ?_, ?_⟩
      · rw [hend.rest, hu.rest]
      · rw [hend.rest, hu.rest]
      · rw [hend.rest, hu.rest]
      · rw [hend.page, State.page, hu.rest]
        rfl
      · intro b hb
        exact (hend.byte b).trans (hu.kept b hb)
      · intro k j hk hj
        exact (hend.byte _).trans (hu.stored k j hk hj)
    · intro o hsrc hleft hst hop hs hb
      obtain ⟨n, hn⟩ := Nat.exists_eq_add_of_lt hleft
      rw [show r.count - r.done = n + 1 by omega, rstRun_subst hr hsrc hst hop hs hb] at hgoes
      exact next_of_outer (exec_restoreCopyEnd s) hup hgoes rfl rfl
  · intro r x hup hr hretry hst
    constructor
    · intro hop
      obtain ⟨t, ht, hframe⟩ := rstRetry_data hr hretry hst hop
      refine gives_of_outer (exec_restoreFlashRetry s) hup ht ?_ ?_ ⟨sameMem_of_mem ?_, rfl, ?_⟩
      all_goals rw [hframe.rest]
    · intro o hop hs hb hn
      exact next_of_outer (exec_restoreFlashRetry s) hup (rstRetry_subst hr hretry hst hop hs hb hn) rfl rfl
  · intro elem ho
    rw [exec_ehmPrioAdd, whenPage_open ho, prioAdd_eq]
    rfl
  · intro v ho
    obtain ⟨hrest, hword, hregs, hvotes, hothers⟩ := optWritten_optWrite s p v
    refine gives_of_page (exec_optAutoEnable p v s) ho rfl ?_ ?_ ⟨sameMem_of_mem ?_, hword, hregs, hvotes, hothers⟩
    all_goals rw [hrest]
end

section
/-! SUPPORT. The measurement slots of the resistance scan: the settle wait, the start of a slot, and its result (09 R228 to R236, 11
R284); what that says of O43. -/

namespace Sys2Proof.Machine

section
variable (s : State) (p : Port)
theorem exec_settleExpire : exec (.settleExpire p) s = whenUp s fun s => s.settleExpire p := rfl
theorem exec_measureSlotStart : exec (.measureSlotStart p) s = whenUp s fun s => s.measureStart p := rfl
theorem exec_measureSlotEnd : exec (.measureSlotEnd p) s = whenUp s fun s => s.measureEnd p := rfl

theorem modEhm_modEhm (f g : EhmPort → EhmPort) : (s.modEhm p f).modEhm p g = s.modEhm p fun h => g (f h) := by
  simp [State.modEhm]

theorem modEhm_id : s.modEhm p id = s := by
  simp [State.modEhm]

theorem slice_modEhm (f : EhmPort → EhmPort) (l : UnitNum) : (s.modEhm p f).slice l = s.slice l := rfl
theorem slice_modHp (f : HpSt → HpSt) (l : UnitNum) : (s.modHp p f).slice l = s.slice l := rfl
theorem ehmP_modHp (f : HpSt → HpSt) (o : Port) : (s.modHp p f).ehmP o = s.ehmP o := rfl
theorem ehmP_modSlice (l : UnitNum) (f : Slice → Slice) : (s.modSlice l f).ehmP p = s.ehmP p := rfl
theorem hpP_modEhm (f : EhmPort → EhmPort) (o : Port) : (s.modEhm p f).hpP o = s.hpP o := rfl
theorem hpP_modSlice (l : UnitNum) (f : Slice → Slice) : (s.modSlice l f).hpP p = s.hpP p := rfl

theorem slice_modSlice_same (l : UnitNum) (f : Slice → Slice) : (s.modSlice l f).slice l = f (s.slice l) := by
  simp [State.slice]
end

section
variable {s : State} {p : Port}

theorem modEhm_congr {f g : EhmPort → EhmPort} (h : f (s.ehmP p) = g (s.ehmP p)) : s.modEhm p f = s.modEhm p g := by
  rw [State.modEhm, State.modEhm, show f s.ehm.ports[p] = g s.ehm.ports[p] from h]

/-- The settle wait ends (R228). -/
theorem settleExpire_due (havail : s.scanAvail p = true) (hwait : (s.ehmP p).settled = false)
    (hfree : s.fld F.EHM_Pp_SCAN_SETTLE p.val * 100000 ≤ s.since (s.ehmP p).availFrom)
    (hline : s.fld F.EHM_Pp_SCAN_SETTLE p.val * 100000 ≤ s.since (s.hpP p).lastEnd) :
    s.settleExpire p = s.modEhm p fun x => { x with settled := true, chunk := 0 } :=
  if_pos ⟨havail, by simp [hwait], hfree, hline⟩

-- the start of a slot (R229, R236)

/-- The slot that starts for element `e` with the burst visit `v`. -/
def State.slotFor (s : State) (v : Visit) (e : Nat) : MeasSlot :=
  { elem := e, kind := .plain, start := s.mclkTime (v.start + v.s * (s.adt v.entry).osr) }

/-- The pattern that measures element `e` is shifted and latched in its slot. -/
def HpSt.slotBegun (h : HpSt) (s : State) (p : Port) (v : Visit) (e : Nat) : HpSt :=
  { h with shiftAt := some (s.slotFor v e).start, shiftBits := s.sliceBits p (oneDot (s.nEl p) e) 1
           latAt := some ((s.slotFor v e).start + BitVec.ofNat 64 (s.tShift p + s.tds p)) }

/-- A slot for element `e`, the first of the priority list, has begun with the burst visit `v` of slice `l`: `t`. -/
structure SlotBegun (p : Port) (l : UnitNum) (v : Visit) (e : Nat) (rest : List Nat) (s t : State) : Prop where
  pending : t.pending = s.pending
  chip : t.chip = s.chip
  mem : t.mem = s.mem
  regs : t.regs = s.regs
  visit : t.slice l = { s.slice l with visit := some { v with taken := true } }
  slot : t.ehmP p = { s.ehmP p with prio := rest, slot := some (s.slotFor v e) }
  pads : t.hpP p = (s.hpP p).slotBegun s p v e
  ehmOther : ∀ o, o ≠ p → t.ehmP o = s.ehmP o
  hpOther : ∀ o, o ≠ p → t.hpP o = s.hpP o

section
variable {e : Nat} {rest : List Nat} (hnext : (s.ehmP p).next = none) (hprio : (s.ehmP p).prio = e :: rest)
  (halive : s.elemFlag p e elDead = false) (hlt : e < s.nEl p)
include hnext hprio halive hlt

/-- With no slot to come, the priority list gives the element (R236). -/
theorem pickElem_prio :
    s.pickElem p = (s.modEhm p fun h => { h with prio := rest }, some (e, .plain, false)) := by
  have hnone : (s.modEhm p fun h => { h with next := none }) = s := by
    have hsame : ({ s.ehmP p with next := none } : EhmPort) = s.ehmP p := by rw [← hnext]
    exact (modEhm_congr (g := id) hsame).trans (modEhm_id s p)
  have hdrop : ((s.ehmP p).prio.dropWhile fun e => s.elemFlag p e elDead || decide (s.nEl p ≤ e)) = e :: rest := by
    rw [hprio, List.dropWhile_cons_of_neg (by simp [halive, hlt])]
  unfold State.pickElem
  simp only [hnext, Option.filter_none, hnone, hdrop]

variable {l : UnitNum} {v : Visit} (hmay : s.scanMay p = true) (hidle : s.measuring p = false)
  (hburst : s.burstOf p = some (l, v))
include hmay hidle hburst

theorem measureStart_prio :
    s.measureStart p = (((s.modEhm p fun h => { h with prio := rest }).modSlice l fun x =>
      { x with visit := some { v with taken := true } }).modHp p fun h => h.slotBegun s p v e).modEhm p fun h =>
      { h with slot := some (s.slotFor v e) } := by
  have hguard : ¬ (¬ s.scanMay p = true ∨ s.measuring p = true) := by simp [hmay, hidle]
  unfold State.measureStart
  rw [if_neg hguard, hburst]
  simp only [pickElem_prio hnext hprio halive hlt]
  rfl

theorem slotBegun_measureStart : SlotBegun p l v e rest s (s.measureStart p) := by
  rw [measureStart_prio hnext hprio halive hlt hmay hidle hburst]
  refine ⟨?_, ?_, ?_, ?_, ?_, ?_, ?_, fun o ho => ?_, fun o ho => ?_⟩
  · simp only [State.modEhm_pending, State.modHp_pending, State.modSlice_pending]
  · simp only [State.modEhm_chip, State.modHp_chip, State.modSlice_chip]
  · simp only [State.modEhm_mem, State.modHp_mem, State.modSlice_mem]
  · simp only [State.modEhm_regs, State.modHp_regs, State.modSlice_regs]
  · simp only [slice_modEhm, slice_modHp, slice_modSlice_same]
  · simp only [ehmP_modEhm_same, ehmP_modHp, ehmP_modSlice]
  · simp only [hpP_modEhm, hpP_modHp_same, hpP_modSlice]
  · simp only [ehmP_modEhm_ne _ _ ho, ehmP_modHp, ehmP_modSlice]
  · simp only [hpP_modEhm, hpP_modHp_ne _ _ ho, hpP_modSlice]
end

-- the end of a slot (R232, R233)

/-- A complete slot is counted, and its result is that of its 32 words and the latest head supply (R230). -/
theorem measureEnd_complete {x : MeasSlot} {code : AdcSample} {m : Measured} (hwork : s.working Pg.ehm = true)
    (hslot : (s.ehmP p).slot = some x) (hcur : (s.ehmP p).curWrite = none) (hkept : x.lost = false) (hlen : x.words.length = 32)
    (hword : ∀ w ∈ x.words, w ≠ none)
    (hcode : s.adc.lastValid.toList.getD (s.fld F.HHE_Pp_SRC_VHCH p.val) none = some code)
    (hm : m = s.measured p (windowSum (x.words.reverse.filterMap id)) (s.vhOf p code.code)) :
    ∃ f : EhmPort → EhmPort, (∀ h, (f h).slot = none ∧ (f h).next = h.next) ∧
      s.measureEnd p = ((s.modEhm p f).count R.EHM_Pp_MEAS p.val).slotResult p x m := by
  have htake : x.words.reverse.take 32 = x.words.reverse := List.take_of_length_le (by simp [hlen])
  have hcount : (x.words.reverse.filterMap id).length = 32 := by
    rw [← hlen, ← List.length_reverse (as := x.words), List.filterMap_length_eq_length]
    exact fun w hw => Option.isSome_iff_ne_none.2 (hword w (List.mem_reverse.1 hw))
  -- the end of the slot touches neither the converter nor a register, so that the result is that of `s`
  have hcode' (f : EhmPort → EhmPort) :
      (s.modEhm p f).adc.lastValid.toList.getD ((s.modEhm p f).fld F.HHE_Pp_SRC_VHCH p.val) none = some code := hcode
  have hmeas (f : EhmPort → EhmPort) :
      (s.modEhm p f).measured p (windowSum (x.words.reverse.filterMap id)) ((s.modEhm p f).vhOf p code.code) = m := hm.symm
  unfold State.measureEnd
  simp only [hslot]
  rw [if_neg (by simp [hlen, hwork])]
  simp only [hcur, htake, hkept, hcount, hcode', hmeas, Option.map_some, bne_self_eq_false, Bool.or_self]
  refine ⟨_, ?_, rfl⟩
  exact fun h => ⟨rfl, rfl⟩

/-- A slot that lost a word is discarded, and its element comes next again. -/
theorem measureEnd_lost {x : MeasSlot} (hwork : s.working Pg.ehm = true) (hslot : (s.ehmP p).slot = some x)
    (hcur : (s.ehmP p).curWrite = none) (hlost : x.lost = true) :
    ∃ f : EhmPort → EhmPort, (∀ h, (f h).slot = none) ∧
      s.measureEnd p = (((s.modEhm p f).ehmLast p 5 x.elem 0).count R.EHM_Pp_DISC p.val).modEhm p fun h =>
        { h with next := some (x.elem, x.kind, x.fromCur) } := by
  unfold State.measureEnd
  simp only [hslot]
  rw [if_neg (by simp [hlost, hwork])]
  simp only [hcur, hlost, Bool.true_or]
  exact ⟨_, fun h => rfl, rfl⟩

theorem slotResult_ok {x : MeasSlot} {m : Measured} (hkind : x.kind = .plain) (hfrom : x.fromCur = false) (hok : m.cls = .ok) :
    s.slotResult p x m = (s.ehmLast p 0 x.elem m.q).applyResult p x.elem m := by
  have hnew : ¬ m.cls.flags &&& ~~~ s.elemFlags p x.elem ≠ 0 := by simp [hok, ElemClass.flags]
  simp only [State.slotResult, hkind, hfrom, if_neg hnew, State.elemDone, Bool.false_eq_true, if_false]
  rw [hok]
  rfl

/-- A result of class OK is applied to element `e` from `s` on: `t` (R233). -/
structure Trimmed (p : Port) (e : Nat) (m : Measured) (s t : State) : Prop where
  rest : t = { s with mem := t.mem }
  measured : t.byte (elemAddr p e + 2) = s.byte (elemAddr p e + 2) ||| 0x10
  trim : t.byte (elemAddr p e) = if s.elemFlag p e elRlock = false ∧ s.flag F.EHM_Pp_SCAN_AUTOR p.val = true
    then BitVec.ofNat 8 m.rtrim else s.byte (elemAddr p e)
  others : ∀ a, a ≠ elemAddr p e → a ≠ elemAddr p e + 2 → t.byte a = s.byte a

section
variable {e : Nat} {m : Measured} {t : State} (h : Trimmed p e m s t)
include h
theorem Trimmed.pending : t.pending = s.pending := (congrArg State.pending h.rest :)
theorem Trimmed.chip : t.chip = s.chip := (congrArg State.chip h.rest :)
theorem Trimmed.regs : t.regs = s.regs := (congrArg State.regs h.rest :)
theorem Trimmed.ehmP (o : Port) : t.ehmP o = s.ehmP o := (congrArg (fun u : State => u.ehm.ports[o]) h.rest :)
end

theorem applyResult_ok {e : Nat} {m : Measured} (hok : m.cls = .ok) : s.applyResult p e m =
    (if s.elemFlag p e elRlock = false ∧ s.flag F.EHM_Pp_SCAN_AUTOR p.val = true
      then s.setByte (elemAddr p e) (BitVec.ofNat 8 m.rtrim) else s).setByte (elemAddr p e + 2) (s.elemFlags p e ||| 0x10) := by
  have hkept {b : Nat} (hb : (0x10 : Byte).getLsbD b = false) :
      (s.elemFlags p e ||| 0x10).getLsbD b = (s.elemFlags p e).getLsbD b := by rw [BitVec.getLsbD_or, hb, Bool.or_false]
  have hworn := hkept (b := elWorn) (by decide)
  have hdead := hkept (b := elDead) (by decide)
  have htrims : (((m.cls == .ok || m.cls == .worn) && !(s.elemFlags p e).getLsbD elRlock && s.flag F.EHM_Pp_SCAN_AUTOR p.val) = true) =
      (s.elemFlag p e elRlock = false ∧ s.flag F.EHM_Pp_SCAN_AUTOR p.val = true) := by
    simp [hok, State.elemFlag]
  have hflags : s.elemFlags p e ||| m.cls.flags ||| 0x10 = s.elemFlags p e ||| 0x10 := by simp [hok, ElemClass.flags]
  simp only [State.applyResult, htrims, hflags, hworn, hdead, and_not_self, if_false]

theorem memOnly_trans {s t u : State} (h : t = { s with mem := t.mem }) (h' : u = { t with mem := u.mem }) :
    u = { s with mem := u.mem } := by
  rw [h', h]

theorem trimmed_applyResult {e : Nat} {m : Measured} (hok : m.cls = .ok) : Trimmed p e m s (s.applyResult p e m) := by
  rw [applyResult_ok hok]
  have hne : elemAddr p e ≠ elemAddr p e + 2 := by omega
  split
  case isTrue h =>
    refine ⟨memOnly_trans rfl rfl, byte_setByte_same _ _ _, ?_, fun a h0 h2 => ?_⟩
    · rw [byte_setByte_ne _ _ hne, byte_setByte_same, if_pos h]
    · rw [byte_setByte_ne _ _ h2, byte_setByte_ne _ _ h0]
  case isFalse h =>
    refine ⟨rfl, byte_setByte_same _ _ _, ?_, fun a _ h2 => byte_setByte_ne _ _ h2⟩
    rw [byte_setByte_ne _ _ hne, if_neg h]
end

theorem last_ne_counters : ∀ p : Port, R.EHM_Pp_MEAS.addr p.val 0 ≠ R.EHM_Pp_LAST.addr p.val 0 ∧
    R.EHM_Pp_DISC.addr p.val 0 ≠ R.EHM_Pp_LAST.addr p.val 0 := by decide

theorem scan_ne_results : ∀ p : Port, R.EHM_Pp_SCAN.addr p.val 0 ≠ R.EHM_Pp_MEAS.addr p.val 0 ∧
    R.EHM_Pp_SCAN.addr p.val 0 ≠ R.EHM_Pp_LAST.addr p.val 0 := by decide

/-- The slot of port `p` is over, of which `f` keeps the rest; it is counted by the SAT counter `r`, and EHM_Pp_LAST has its
outcome (R233, R241). -/
structure SlotCounted (p : Port) (f : EhmPort → EhmPort) (r : Reg) (s t : State) : Prop where
  pending : t.pending = s.pending
  chip : t.chip = s.chip
  mem : t.mem = s.mem
  ehm : t.ehmP p = f (s.ehmP p)
  regs : SameRegsBut [r.addr p.val 0, R.EHM_Pp_LAST.addr p.val 0] s t
  count : t.rd r p.val = satStep (s.rd r p.val)

section
variable (s : State) (p : Port) (f : EhmPort → EhmPort) (e : Nat)

theorem sameRegs_modEhm (l : List Nat) : SameRegsBut l s (s.modEhm p f) := fun a d _ => by rw [State.modEhm_regs]

theorem slotCounted_ok (q : Int) :
    SlotCounted p f R.EHM_Pp_MEAS s (((s.modEhm p f).count R.EHM_Pp_MEAS p.val).ehmLast p 0 e q) where
  pending := by rw [State.ehmLast, State.wr_pending, State.count_pending, State.modEhm_pending]
  chip := by rw [State.ehmLast, State.wr_chip, State.count_chip, State.modEhm_chip]
  mem := by rw [State.ehmLast, State.wr_mem, State.count_mem, State.modEhm_mem]
  ehm := by
    rw [State.ehmP, State.ehmLast, State.wr_ehm, State.count_ehm]
    exact ehmP_modEhm_same s f
  regs := ((sameRegs_modEhm s p f _).wr _ List.mem_cons_self).wr _ (by simp)
  count := by
    rw [State.ehmLast, rd_wr_ne _ _ (last_ne_counters p).1, State.count, rd_wr_same, State.rd, State.modEhm_regs]
    rfl

theorem slotCounted_lost : SlotCounted p f R.EHM_Pp_DISC s (((s.modEhm p f).ehmLast p 5 e 0).count R.EHM_Pp_DISC p.val) where
  pending := by rw [State.count_pending, State.ehmLast, State.wr_pending, State.modEhm_pending]
  chip := by rw [State.count_chip, State.ehmLast, State.wr_chip, State.modEhm_chip]
  mem := by rw [State.count_mem, State.ehmLast, State.wr_mem, State.modEhm_mem]
  ehm := by
    rw [State.ehmP, State.count_ehm, State.ehmLast, State.wr_ehm]
    exact ehmP_modEhm_same s f
  regs := ((sameRegs_modEhm s p f _).wr _ (by simp)).wr _ List.mem_cons_self
  count := by
    rw [State.count, rd_wr_same, State.ehmLast, rd_wr_ne _ _ (last_ne_counters p).2, State.rd, State.modEhm_regs]
    rfl
end

end Sys2Proof.Machine

open Sys2Proof Sys2Proof.Machine

/-- Settles O43: each command acts by the one branch that its hypotheses leave, and an applied result writes two bytes of the
element's entry. -/
theorem measurementSlots : Obligations.MeasurementSlots := by
  unfold Obligations.MeasurementSlots
  intro s p hup
  refine ⟨?_, ?_, ?_, ?_⟩
  · intro havail hwait hfree hline
    exact next_of_outer (exec_settleExpire s p) hup (settleExpire_due havail hwait hfree hline)
      (State.modEhm_pending _ _ _) (State.modEhm_chip _ _ _)
  · intro l v e rest hmay hidle hburst hnext hprio halive hlt
    have hbegun := slotBegun_measureStart hnext hprio halive hlt hmay hidle hburst
    exact gives_of_outer (exec_measureSlotStart s p) hup rfl hbegun.pending hbegun.chip ⟨sameMem_of_mem hbegun.mem, hbegun.regs,
      hbegun.visit, hbegun.slot, hbegun.pads, fun o ho => ⟨hbegun.ehmOther o ho, hbegun.hpOther o ho⟩⟩
  · intro x m vh code hwork hslot hcur hkind hfrom hkept hlen hword hcode hvh hm hok _
    subst hvh
    obtain ⟨f, hf, hend⟩ := measureEnd_complete hwork hslot hcur hkept hlen hword hcode hm
    rw [slotResult_ok hkind hfrom hok] at hend
    have hcounted := slotCounted_ok s p f x.elem m.q
    generalize ((s.modEhm p f).count R.EHM_Pp_MEAS p.val).ehmLast p 0 x.elem m.q = w at hend hcounted
    have hdone := trimmed_applyResult (s := w) (p := p) (e := x.elem) hok
    generalize w.applyResult p x.elem m = t at hend hdone
    have hbyte := sameMem_of_mem hcounted.mem
    have hautor : w.flag F.EHM_Pp_SCAN_AUTOR p.val = s.flag F.EHM_Pp_SCAN_AUTOR p.val := by
      obtain ⟨hmeas, hlast⟩ := scan_ne_results p
      have hword : w.rd R.EHM_Pp_SCAN p.val = s.rd R.EHM_Pp_SCAN p.val := hcounted.regs _ _ (by simp [hmeas, hlast])
      rw [State.flag, State.flag, State.fld, State.fld, F.EHM_Pp_SCAN_AUTOR, hword]
    obtain ⟨hslot', hnext⟩ := hf (s.ehmP p)
    refine gives_of_outer (exec_measureSlotEnd s p) hup hend ?_ ?_ ⟨?_, ?_, fun a h0 h2 => ?_, ?_, ?_, ?_, ?_⟩
    · exact hdone.pending.trans hcounted.pending
    · exact hdone.chip.trans hcounted.chip
    · rw [hdone.measured, hbyte]
    · rw [hdone.trim, State.elemFlag, State.elemFlags, hbyte, hbyte, hautor]
      rfl
    · rw [hdone.others a h0 h2, hbyte]
    · intro a d ha
      rw [hdone.regs, hcounted.regs a d ha]
    · rw [State.rd, hdone.regs]
      exact hcounted.count
    · rw [hdone.ehmP, hcounted.ehm, hslot']
    · rw [hdone.ehmP, hcounted.ehm, hnext]
  · intro x hwork hslot hcur hlost
    obtain ⟨f, hf, hend⟩ := measureEnd_lost hwork hslot hcur hlost
    have hcounted := slotCounted_lost s p f x.elem
    generalize ((s.modEhm p f).ehmLast p 5 x.elem 0).count R.EHM_Pp_DISC p.val = w at hend hcounted
    refine gives_of_outer (exec_measureSlotEnd s p) hup hend ?_ ?_ ⟨sameMem_of_mem ?_, ?_, ?_, ?_, ?_⟩
    · rw [State.modEhm_pending, hcounted.pending]
    · rw [State.modEhm_chip, hcounted.chip]
    · rw [State.modEhm_mem, hcounted.mem]
    · rw [ehmP_modEhm_same, hcounted.ehm]
      exact hf _
    · rw [ehmP_modEhm_same]
    · intro a d ha
      rw [State.modEhm_regs, hcounted.regs a d ha]
    · rw [State.rd, State.modEhm_regs]
      exact hcounted.count
end
